-- ==== Sys2Proof/Word.lean ====
section
/-! DEFINITION. The word types of the node and the table type the state is written with. -/

namespace Sys2Proof

/-- One byte. -/
abbrev Byte := BitVec 8

/-- A register: R409 makes every register 64 bits wide. -/
abbrev Word := BitVec 64

/-- An FP32 value as its 32 bits (Table 4-1). -/
abbrev F32 := BitVec 32

/-- A SHA-384 digest (R368). -/
abbrev Digest := BitVec 384

/-- A table from numbers to records, in one canonical form: keys strictly rising, so equal
tables are equal lists. `Sys2Proof.Machine.Tbl.get` and its companions are its operations. -/
abbrev Tbl (α : Type) := List (Nat × α)

end Sys2Proof
end

