-- ==== Sys2Proof/Syntax.lean ====
section
/-! DEFINITION. The commands of the node: `Instr`, one constructor for each row of
spec/opcode_table.json, and the records its operands are made of. Field names follow the
message tables of the spec; every numeric field is the unsigned number the table gives it (R5). -/

namespace Sys2Proof

/-- The status codes of Table 8-4 (R197). -/
inductive Status where
  | ok | late | noSequence | notOwner | alreadyFree | noSpace | lengthLimit | formatUnsupported
  | shapeLimit | keyInvalid | cacheLost | poisoned | notResident | deniedSecure | noResource
  | flushed | revoked | maskedEmpty
  deriving DecidableEq, Repr

/-- A numbered part of the node (a die, a domain, a PSN) and the nanosecond of the row in which it acts. -/
structure Timed where
  id : Nat
  ns : Nat
  deriving DecidableEq, Repr

/-- The partner of a queue pair: its node and its own queue pair (R312). -/
structure PartnerQp where
  node : Nat
  qp : Nat
  deriving DecidableEq, Repr

/-- A partial result (Table 4-5). -/
structure Partial where
  m : F32
  l : F32
  empty : Bool
  oBf16 : Bool
  level : Nat
  group : Nat
  o : List F32
  deriving DecidableEq, Repr

/-- Who reaches the registers (Table 17-3). `fm` is queue pair 0x0001, `oob` the out-of-band port. -/
inductive Path where
  | keeper | fm | oob | i3c
  deriving DecidableEq, Repr

/-- A cache command's header (Table 8-2) with what its delivery adds: the queue pair, the sender and its queue pair,
the relay tenant of R332 on a relay queue pair, and the instant of the last byte (R44). -/
structure Head where
  qp : Nat
  srcQp : Nat
  srcNode : Nat
  srcDomain : Nat
  relayTenant : Option Nat
  tag : Nat
  rowTag : Nat
  model : Nat
  handle : Nat
  oBf16 : Bool
  fence : Bool
  bodyLen : Nat
  ns : Nat
  deriving DecidableEq, Repr

/-- OPEN and FORK body (Table 8-7). -/
structure OpenBody where
  format : Nat
  mirrored : Bool
  pinned : Bool
  library : Bool
  d : Nat
  layers : Nat
  kvHeads : Nat
  buddy : Nat
  forkPosition : Nat
  deriving DecidableEq, Repr

/-- APPEND body (Table 8-8); `payload` is KEYS, VALUES and SCALES. -/
structure AppendBody where
  layer : Nat
  head : Nat
  inFormat : Nat
  first : Nat
  count : Nat
  payload : List Byte
  deriving DecidableEq, Repr

/-- Attention body (Tables 8-9 and 8-10); `payload` is what follows the fixed fields. -/
structure AttnBody where
  layer : Nat
  head : Nat
  qheads : Nat
  qFormat : Nat
  firstBlock : Nat
  qcount : Nat
  blockCount : Nat
  doFormat : Nat
  gradFactor : F32
  destKey : Nat
  destOffset : Nat
  destBase : Nat
  payload : List Byte
  deriving DecidableEq, Repr

/-- MERGE body (Table 8-11). -/
structure MergeBody where
  inputs : Nat
  qheads : Nat
  d : Nat
  mode : Nat
  payload : List Byte
  deriving DecidableEq, Repr

/-- PREFIX_FIND and PREFIX_PUBLISH body (Table 8-12). -/
structure ChainBody where
  banks : Nat
  priority : Nat
  count : Nat
  firstBlock : Nat
  words : List Nat
  deriving DecidableEq, Repr

/-- Range body (Table 8-13). -/
structure RangeBody where
  firstLayer : Nat
  lastLayer : Nat
  firstHead : Nat
  lastHead : Nat
  firstPos : Nat
  endPos : Nat
  tier : Nat
  lender : Nat
  deriving DecidableEq, Repr

/-- Raw memory body (Table 8-14); `data` is DATA of WRITE and VEC_ADD. -/
structure RawBody where
  key : Nat
  length : Nat
  offset : Nat
  op0 : Nat
  op1 : Nat
  data : List Byte
  deriving DecidableEq, Repr

/-- A CM message (Table 12-4) and its sender; the kind is the command's. `senderQp` is the sender's queue pair: field QP of a
CONNECT, SRC_QP of the header (Table 12-1) in the other kinds. -/
structure CmMsg where
  qp : Nat
  srcNode : Nat
  srcDomain : Nat
  tag : Nat
  senderQp : Nat
  cls : Nat
  shared : Bool
  compat : Bool
  relay : Bool
  rights : Nat
  tenant : Nat
  process : Option Nat
  key : Nat
  psn : Nat
  offset : Nat
  length : Nat
  processOffset : Nat
  ticket : BitVec 128
  deriving DecidableEq, Repr

/-- A loan message (Table 10-2), its sender and the queue pair it came on. `layers` is LAYERS,
layers less one, and `data` what follows the header. -/
structure LoanMsg where
  qp : Nat
  srcQp : Nat
  src : Nat
  result : Nat
  loanSlot : Nat
  borrowerHandle : Nat
  lenderHandle : Nat
  layer : Nat
  head : Nat
  half : Nat
  block : Nat
  model : Nat
  format : Nat
  d : Nat
  layers : Nat
  kvHeads : Nat
  origin : Nat
  crc : BitVec 32
  data : List Byte
  deriving DecidableEq, Repr

/-- A received Ethernet frame as a port sees it, then the transport header of Table 12-1 when the EtherType is the fabric's.
`decoded` says that FEC decoded every codeword of it and `fcsOk` that its check sequence is right; `codewords` counts the codewords
FEC corrected and `corrected` the symbols, as (physical lane, number); `pn` is the packet number of a secured frame; `reserved`
gives what the reserved bits of the header hold, byte by byte, missing bytes being 0. -/
structure Frame where
  decoded : Bool
  fcsOk : Bool
  codewords : Nat
  corrected : List (Nat × Nat)
  secured : Bool
  icvOk : Bool
  pn : Nat
  tags : Nat
  dei : Bool
  etherType : Nat
  length : Nat
  kind : Nat
  version : Nat
  tc : Nat
  srcNode : Nat
  dstNode : Nat
  srcDomain : Nat
  dstDomain : Nat
  dstQp : Nat
  srcQp : Nat
  psn : Nat
  first : Bool
  last : Bool
  pathSeq : Nat
  srcPort : Nat
  dstPort : Nat
  pathIndex : Nat
  payloadLen : Nat
  reserved : List Byte
  hdrCrc : BitVec 32
  ns : Nat
  deriving DecidableEq, Repr

/-- A transport packet handed to the Transport Engine (R315). -/
structure Packet where
  kind : Nat
  tc : Nat
  srcNode : Nat
  srcDomain : Nat
  dstQp : Nat
  srcQp : Nat
  psn : Nat
  first : Bool
  last : Bool
  pathSeq : Nat
  srcPort : Nat
  dstPort : Nat
  pathIndex : Nat
  payload : List Byte
  deriving DecidableEq, Repr

/-- A lane-control word (Table 11-2); TYPE is the command's, and `reserved` gives what its reserved bits hold, byte by byte, missing
bytes being 0. -/
structure LaneWord where
  seq : Nat
  node : Nat
  port : Nat
  actSeq : Nat
  failed : Nat
  map : Nat
  domain : Nat
  reserved : List Byte
  crc : BitVec 16
  deriving DecidableEq, Repr

/-- An entry of a management message (Table 17-4): OP, local offset, VALUE. -/
structure MgmtEntry where
  op : Nat
  addr : Nat
  value : Word
  deriving DecidableEq, Repr

/-- A management message (Table 17-4); `length` is its length in bytes. -/
structure MgmtMsg where
  kind : Nat
  count : Nat
  tag : Nat
  length : Nat
  entries : List MgmtEntry
  deriving DecidableEq, Repr

/-- A standard SPDM request (R372): the messages of SPDM 1.3 the responder offers. `finish` carries the
hash of the requester's leaf-certificate public key and whether its signature verified. -/
inductive SpdmReq where
  | version | capabilities | algorithms | digests | certificate
  | challenge (nonce : BitVec 256)
  | measurements (nonce : BitVec 256)
  | keyExchange
  | finish (leaf : Digest) (verified : Bool)
  | heartbeat | keyUpdate | endSession
  | chunk (bytes : List Byte)
  deriving DecidableEq, Repr

/-- What an out-of-band frame carries after its header (R415). -/
inductive OobBody where
  | mgmt (m : MgmtMsg)
  | spdm (session : Option Nat) (r : SpdmReq)
  | event
  deriving DecidableEq, Repr

/-- An out-of-band frame (R415). -/
structure OobFrame where
  mac : Nat
  etherType : Nat
  dstNode : Nat
  dstDomain : Nat
  srcId : Nat
  body : OobBody
  deriving DecidableEq, Repr

/-- A BULK record (Table 12-9). -/
structure BulkRecord where
  kind : Nat
  srcDomain : Nat
  srcNode : Nat
  dstDomain : Nat
  cls : Nat
  dstNode : Nat
  tenant : Nat
  srcQp : Nat
  message : List Byte
  deriving DecidableEq, Repr

/-- What a lane's checker has counted in a row (R300). -/
structure PrbsSample where
  port : Nat
  lane : Nat
  bits : Nat
  errors : Nat
  deriving DecidableEq, Repr

/-- What the node samples at a row start: the measured synchronisation offset (R29), none when no
timing source is present, the junction of each die in the order of Table 16-6, and the hottest
layer of each stack, in degrees (R428), and what the lanes' checkers have counted. -/
structure RowSample where
  offset : Option Int
  ptp : Bool
  rowsync : Bool
  dieTemps : List Nat
  stackTemps : List Nat
  prbs : List PrbsSample
  deriving DecidableEq, Repr

/-- A unit whose spare takes over (R163, R189). -/
inductive SpareTarget where
  | nbu (stack group : Nat)
  | cell (die array : Nat)
  | array (die array : Nat)
  deriving DecidableEq, Repr

/-- Who reads a line that has an uncorrectable error (Table 16-1). `command` is a stitch, tile or raw command, whose own
meaning then meets the poison. -/
inductive PoisonReader where
  | command | patrol | card (number : Nat) | sequence (slot : Nat) | indexCopy (entry : Nat) | transport (qp : Nat)
  deriving DecidableEq, Repr

/-- Why a move fails (Table 10-1). -/
inductive MoveFailure where
  | sourceRead | crc | destination | lenderRefused
  deriving DecidableEq, Repr

/-- A temperature sensor: a die in the order of Table 16-6, or a stack's layers (Table 18-3). -/
inductive Sensor where
  | die (d : Nat)
  | stack (t : Nat)
  deriving DecidableEq, Repr

/-- An access on A0 in endpoint mode (R275): a read, or a write of bytes. -/
structure EndpointAccess where
  offset : Nat
  length : Nat
  write : Option (List Byte)
  deriving DecidableEq, Repr

/-- The commands of the node, in the order of spec/opcode_table.json. `c` names a command in flight by
its number of admission, `x` a stitch context, `t` a stack, `p` a port. `report` of a lender's completion
is the leaf report of Table 8-4 (block, layer, head, half, count), empty where it has none. -/
inductive Instr where
  -- cache commands (chapter 08)
  | openSeq (h : Head) (b : OpenBody)
  | closeSeq (h : Head)
  | fork (h : Head) (b : OpenBody)
  | append (h : Head) (b : AppendBody)
  | attend (h : Head) (b : AttnBody)
  | attendMulti (h : Head) (b : AttnBody)
  | merge (h : Head) (b : MergeBody)
  | grad (h : Head) (b : AttnBody)
  | prefixFind (h : Head) (b : ChainBody)
  | prefixPublish (h : Head) (b : ChainBody)
  | pin (h : Head) (b : RangeBody)
  | unpin (h : Head) (b : RangeBody)
  | promote (h : Head) (b : RangeBody)
  | demote (h : Head) (b : RangeBody)
  | migrate (h : Head) (b : RangeBody)
  | freeRange (h : Head) (b : RangeBody)
  | readMem (h : Head) (b : RawBody)
  | writeMem (h : Head) (b : RawBody)
  | fetchAdd (h : Head) (b : RawBody)
  | cmpSwap (h : Head) (b : RawBody)
  | vecAdd (h : Head) (b : RawBody)
  -- the life of a command (chapter 02)
  | earlyCommandRelease
  | l3Forward (c : Nat)
  | lenderPartialsReceive (c lender level group : Nat) (status : Status) (detail : Nat) (report : List Nat) (parts : List Partial)
  | partialsMerge (c : Nat)
  | completionSend (c ns : Nat)
  | walkDeadline
  | computeDeadline
  | lenderDeadline
  | l8CommandStart (ns : Nat)
  | l8AgeExpiry (c : Nat)
  -- stitch instructions (chapter 05)
  | nop (x : Nat)
  | rep (x count len : Nat)
  | endOp (x : Nat)
  | gmark (x : Nat)
  | sli (x sd : Nat) (imm : Int)
  | sadd (x sd sa sb : Nat)
  | ssub (x sd sa sb : Nat)
  | azero (x q n : Nat)
  | kdot (x row n c : Nat) (ci hf add : Bool) (q : Nat)
  | accv (x row n c : Nat) (ci hf : Bool) (q : Nat)
  | sscl (x row n c : Nat) (ci : Bool) (mk : Nat)
  | sbias (x row n c : Nat) (ci : Bool) (mk : Nat)
  | smax (x vr row n c : Nat) (ci : Bool) (mk : Nat)
  | rmax (x vr n : Nat)
  | sexp (x vr row n c : Nat) (ci : Bool) (mk : Nat)
  | vset (x vr n k : Nat)
  | mset (x mk cond sa c : Nat) (ci : Bool)
  | mand (x mk ma mb : Nat)
  | mor (x mk ma mb : Nat)
  | emit (x vr row n : Nat) (split : Bool) (q : Nat)
  -- stitch heads, arrays, append converters (chapters 06, 07)
  | stitchRoundStart (t ns : Nat)
  | pauseResume (t ns : Nat)
  | tileIssue (ns : Nat)
  | tileEnd (array ns : Nat)
  | tileAbandon (array : Nat)
  | appendLineWrite (die : Timed)
  | gradAddPhase (c : Nat)
  -- the row clock (chapters 02, 13, 18)
  | rowStart (sample : RowSample)
  | housekeepingStart
  | rowEnd (watts : Nat) (peakWatts : Nat)
  | patternSwitch
  | gateListSwitch (p : Nat)
  | syncLock (ptp : Option Nat)
  | syncUnlock
  | holdoverEntry
  | holdoverRelock (offset : Int)
  | holdoverExpiry
  | rowsyncInPulse (offset ptpOffset : Int)
  | ptpEventMessage (p : Nat) (stamp : Nat) (crossed : Bool)
  | ppsInEdge (stamp : Nat)
  | castOnToServing
  -- unit and memory faults (chapters 06, 07, 16)
  | nbuStop (t region cause : Nat)
  | nbuPauseAckTimeout (t region : Nat)
  | cellStop (die array cell cause : Nat)
  | stitchSliceFault (t slice : Nat)
  | walkerFault (w : Nat)
  | spareTakeover (target : SpareTarget)
  | dramCorrectedError (t region bank dramRow column : Nat)
  | dramUncorrectableError (addr : Nat) (reader : PoisonReader)
  | dramRowRepair (t region bank dramRow : Nat) (column : Option Nat)
  | patrolRead (t firstLine lines : Nat)
  -- tiers, loans, annex (chapter 10) and catalogue background (chapters 03, 09)
  | fallbackDemotionStart
  | moveStart (mv : Nat)
  | moveLand (mv : Nat)
  | moveFail (mv : Nat) (why : MoveFailure)
  | promotionRetry (mv : Nat)
  | prefetchDrop (mv : Nat)
  | lenderAckTimeout (mv : Nat)
  | lenderPassOverExpiry (lender : Nat)
  | resourceRelease
  | sequenceClosed (slot : Nat)
  | compactionAutoStart
  | compactionSwap
  | indexEntryRelease (entry : Nat)
  | camBankRebuild (bankSet : Nat)
  | camRebuildSwap
  | lend (m : LoanMsg)
  | lendAck (m : LoanMsg)
  | recall (m : LoanMsg)
  | recallData (m : LoanMsg)
  | release (m : LoanMsg)
  | returnLeaf (m : LoanMsg)
  | poolDeviceFence (dev : Nat)
  | poolLinkRetrainTimeout (dev : Nat)
  | poolPoisonLimit (dev : Nat)
  | fenceSweep (dev : Nat)
  | cxlDeviceEvent (dev : Nat) (fatal : Bool)
  | annexLinkDown (a : Nat)
  | moverEngineFault (mv : Nat)
  | moverEvacuate (dev : Nat)
  | moverRebuild
  | evacuationComplete
  | annexPerstInput (high : Bool)
  -- frames, transport, regions, gateways (chapters 12, 13)
  | frameReceive (p : Nat) (f : Frame)
  | frameTransmit (p : Nat) (ns8 : Nat)
  | dataPacketReceive (k : Packet)
  | ackSend (qp : Nat)
  | ackReceive (qp : Nat) (node : PartnerQp) (cum : Nat) (sack : Word)
  | nakReceive (node index first count : Nat)
  | ackTimeout (qp : Nat) (node : PartnerQp) (psn : Timed)
  | pathHoldDownExpiry (node path : Nat)
  | peerUnreachable (node domain : Nat)
  | connect (m : CmMsg)
  | disconnect (m : CmMsg)
  | register (m : CmMsg)
  | deregister (m : CmMsg)
  | keyRevoking (index : Nat)
  | revocationComplete (index : Nat)
  | qpClosingDone (qp : Nat)
  | qpErrorExpiry (qp : Nat)
  | quarantineExpiry (qp : Nat)
  | envelopeMessage (qp : Nat) (node : PartnerQp) (dstDomain dstNode : Nat) (message : List Byte)
  | bulkWaitExpiry (domain : Timed)
  | bulkMessage (qp : Nat) (records : List BulkRecord)
  | trunkErrorFlush (domain : Nat)
  | policerWrite (path : Path) (index : Nat) (w0 w1 : Word)
  | routeEntryWrite (path : Path) (index : Nat) (w0 w1 : Word)
  -- ports and lanes (chapter 11)
  | laneControlWordSend (p : Nat)
  | statusWord (p : Nat) (w : LaneWord)
  | swapRequest (p : Nat) (w : LaneWord)
  | swapAcknowledge (p : Nat) (w : LaneWord)
  | narrowRequest (p : Nat) (w : LaneWord)
  | narrowAcknowledge (p : Nat) (w : LaneWord)
  | retrainWord (p : Nat) (w : LaneWord)
  | testWord (p : Nat) (w : LaneWord)
  | laneFailed (p lane : Nat)
  | swapDeskewDone (p : Nat)
  | retrainDone (p passed : Nat)
  | linkDown (p : Nat)
  | linkUp (p partnerNode partnerPort partnerDomain : Nat)
  | mkaFrame (p : Nat) (bytes : List Byte)
  | saKeyInstall (p association : Nat)
  | pnExhausted (p : Nat)
  | portRetrain (path : Path) (p : Nat)
  | portEnterTest (path : Path) (p : Nat)
  | portLeaveTest (path : Path) (p : Nat)
  | portSwapLane (path : Path) (p lane : Nat)
  | prbsCtlWrite (path : Path) (p lane : Nat) (value : Word)
  -- operations of registers (chapters 02 to 18)
  | patSwitchArm (path : Path) (row : Nat)
  | patSwitchCancel (path : Path)
  | gateSwitchArm (path : Path) (p row : Nat)
  | gateSwitchCancel (path : Path) (p : Nat)
  | patternWindowWrite (path : Path) (offset : Nat) (value : Word)
  | compactStart (path : Path)
  | nbuSpareMap (path : Path) (t region : Nat)
  | cellSpareMap (path : Path) (die array : Nat)
  | arraySpareMap (path : Path) (die array : Nat)
  | indexRemove (path : Path) (entry : Nat)
  | indexFlush (path : Path) (bankSet : Nat)
  | bankScopeWrite (path : Path) (bankSet : Nat) (enable : Bool) (tenant : Nat)
  | qpInspectRead (path : Path) (qp : Nat)
  | qpInspectClose (path : Path) (qp : Nat)
  | eventTailWrite (path : Path) (tail : Nat)
  | powerCfgWrite (path : Path) (value : Nat)
  | registerWrite (path : Path) (block offset : Nat) (value : Word)
  | nextRowWriteEffect
  | managementRequest (srcNode : Nat) (m : MgmtMsg)
  | oobFrame (f : OobFrame)
  | i3cAccess (addr : Nat) (write : Option Word)
  | flashErase (path : Path) (addr : Nat)
  | flashProgram (path : Path) (addr : Nat)
  | flashOpDone
  -- boot, reset, cast-on (chapter 14)
  | powerOnResetRelease (oobHigh : Bool)
  | resetN
  | fullReset (path : Path)
  | vaultWatchdogExpiry
  | faultHandlerWatchdogExpiry
  | trainingComplete (devices smallestGib : Nat)
  | trainingFail
  | portTrainingTimeout
  | castonAdmit (path : Path)
  | castonCommit (path : Path)
  | powerRemoved
  -- tenants and the vault (chapter 15)
  | tenantAdmit (path : Path) (tenant : Nat) (isSealed : Bool)
  | tenantWithdraw (path : Path) (tenant : Nat)
  | tenantRead (path : Path) (tenant : Nat)
  | withdrawalComplete (tenant : Nat)
  | spdmRequest (session : Option Nat) (r : SpdmReq)
  | setKey (session tenant : Nat) (key1 key2 : BitVec 256)
  | setTicket (session tenant : Nat) (secret : BitVec 256)
  | setConsent (session tenant bits : Nat)
  | clearKey (session tenant : Nat)
  | clearTicket (session tenant : Nat)
  | readLog (session : Option Nat) (first : Nat)
  | keySlotEffect
  | claimsEffect
  | claimsRelease
  | stopClock (path : Path) (block : Nat)
  | gatePower (path : Path) (block : Nat)
  | restore (path : Path) (block : Nat)
  | capture (path : Path) (block : Nat)
  | cancel (path : Path)
  -- health, bind-off, power (chapters 16, 18)
  | gaugeEpochEnd
  | keeperShedRaise (load : Nat)
  | keeperShedLower (load : Nat)
  | keeperCoreFault (core : Nat)
  | drain (path : Path)
  | submit (path : Path)
  | bindoffTargetRow
  | boundOff
  | railOutOfRange (rail : Nat)
  | railAbsoluteExcursion (rail : Nat)
  | railRecovery (rail : Nat)
  | thermalAlert (sensor : Sensor) (temp : Nat)
  | thermalEmergency (sensor : Sensor) (temp : Nat)
  | thermalTrip (sensor : Sensor) (temp : Nat)
  | thermalClear (sensor : Sensor)
  | thermalCapRise (t : Nat)
  | cutBlockReturn (sensor : Sensor)
  | refclkNet0Fail
  -- steps added at the table's end
  | walkComplete (c : Nat)
  | fatalError (block : Nat)
  | bootComplete
  | endpointAccess (a : EndpointAccess)
  | porstNAssert
  | annexLinkUp (a : Nat)
  | linkRetrainRetry (p : Nat)
  | spdmHeartbeatTimeout (session : Nat)
  deriving DecidableEq, Repr

end Sys2Proof
end

