-- ==== Sys2Proof/Config.lean ====
section
/-! DEFINITION. What the spec leaves to the unit or leaves open: constants without a body, so that a
statement about them holds for every value. Each is named in the assumption log. -/

namespace Sys2Proof.Config

/-- Free values (log entry 2): where the spec lets the node choose (a slot, a granule, a card), or states
no value (BINDOFF_NONCE, bytes above VALID_COUNT), the step reads `freeNat` at the state's counter
`fresh` and advances it. -/
opaque freeNat : Nat → Nat

/-- A byte the spec leaves undefined (R66, R269), by counter and position. -/
opaque freeByte : Nat → Nat → Byte

/-- ARG0 and ARG1 of an event of a kind for which no rule gives them (log entry 2). -/
opaque eventArg : Nat → Nat → Nat

/-- SHA-384, named by the spec and not defined in it (log entry 9). -/
opaque sha384 : List Byte → Digest

/-- HMAC-SHA-384 with a 32-byte secret (R376, log entry 9). -/
opaque hmacSha384 : BitVec 256 → List Byte → Digest

/-- Signature check of an image: algorithm, public key, signed bytes, signature (R354, log entry 9). -/
opaque verifyImage : Nat → List Byte → List Byte → List Byte → Bool

/-- ECDSA P-384 check of a bind-off signature: public key, bytes 0 to 15 of the order, signature
(R404, log entry 9). -/
opaque verifyOrder : List Byte → List Byte → List Byte → Bool

/-- KEY_HASH of this unit's fuses (R350, log entry 5). -/
opaque fuseKeyHash : Digest

/-- UNIT: STEPPING and SERIAL of this unit (Table 17-6, log entry 3). -/
opaque stepping : BitVec 16

/-- SERIAL of this unit (Table 17-6, log entry 3). -/
opaque serial : BitVec 48

/-- ENTERPRISE, Halold's IANA number (Table 17-6, log entry 3). -/
opaque enterprise : BitVec 32

/-- The boot ROM's digest (measurement 1) and the manifest order are the part's own (log entry 9). -/
opaque bootRomDigest : Digest

/-- The annex key the vault generates for tenants 0 and 0xFFF at Training (R374, log entry 2). -/
opaque vaultKey : Nat → BitVec 512

/-- The stored granule count of the lossless stream of R271, private to the node: a number the leaf's
bytes decide (log entry 10). -/
opaque encodedGranules : List Byte → Nat

/-- Bytes MACsec adds to a frame (R344); the spec leaves them to IEEE 802.1AE (log entry 17). -/
opaque macsecBytes : Nat

/-- The CLB set of a tag (R76, log entry 11). -/
opaque clbSet : Nat → Nat

/-- The CLB way replaced on a fill (R76, log entry 11). -/
opaque clbWay : Nat → Nat

/-- SNR of a lane, in units of 0.25 dB, by lane (port x 9 + lane) and row (log entry 2). -/
opaque snr : Nat → Nat → Nat

/-- exp2 of a positive argument or a NaN, of which R105 states no result (log entry 19). -/
opaque exp2Free : F32 → F32

/-- The scale byte (0) and elements (1 to 32) of an MX block with a non-finite value, of which R98 states no result: by
format, block and place (log entry 164). -/
opaque mxOpen : Nat → List F32 → Nat → Nat

/-- The fixed correction of a time stamp, in eighths of a nanosecond, by MODE and the lanes of the port (R298, log entry 171). -/
opaque stampFix : Nat → Nat → Int

/-- The MACsec connectivity association key the vault holds (R297, R366, log entry 170). -/
opaque cak : BitVec 256

/-- The secure association key that MKA derives from the connectivity association key, by port and count of installations (R297,
log entry 170). -/
opaque sak : BitVec 256 → Nat → Nat → BitVec 256

end Sys2Proof.Config
end

