-- ==== Sys2Proof/Machine/State.lean ====
section
/-! DEFINITION. The state of the node: everything the spec gives it, as plain data, and its value after
power-on reset. Each record's docstring names the rule that gives the piece. -/

namespace Sys2Proof.Machine

open Sys2Proof

/-- A stop by a fault: the spec gives every event of the node an effect, so there is none. -/
inductive Fault where
  deriving DecidableEq, Repr

/-- A command the model gives no meaning. `notModelled` is raised only by an arm of `exec` that has no
meaning yet. Safe. -/
inductive Refusal where
  | notModelled (mnemonic : String)
  deriving DecidableEq, Repr

/-- The row clock: the row number (R31) and the offset in the row of the last event (R3). -/
structure Clock where
  row : Nat
  ns : Nat
  deriving DecidableEq, Repr

/-- The node states (Table 1-8). -/
inductive NodeState where
  | off | boot | training | attested | castOn | serving | draining | boundOff | fault
  deriving DecidableEq, Repr

/-- Why an image passed or failed its check: CAUSE_A and CAUSE_B of Table 14-7. -/
inductive ImageCause where
  | notTried | passed | header | sigAlgorithm | keyHash | signature | securityVersion | sections
  | config | firmware | digest
  deriving DecidableEq, Repr

/-- A record of the Keeper's boot log (R138, R354). -/
inductive BootRecord where
  | programRefused (offset : Nat)
  | modelRefused (slot : Nat)
  deriving DecidableEq, Repr

/-- A cost entry (Table 5-6). -/
structure Cost where
  format : Nat
  d : Nat
  aPair : Nat
  bPair : Nat
  aCell : Nat
  bCell : Nat
  deriving DecidableEq, Repr

/-- A library program (Table 5-5). -/
structure Program where
  qheadsMax : Nat
  customer : Bool
  split : Bool
  modes : Nat
  costs : List Cost
  words : List (BitVec 32)
  digest : Digest
  deriving DecidableEq, Repr

/-- A model parameter block (Table 14-4) with its SHA-384 (R369). `slopes` holds the 1,024 SLOPE values. -/
structure Model where
  maskMode : Nat
  defaultProgram : Nat
  scoreScale : F32
  window : Nat
  sinks : Nat
  slopes : List F32
  digest : Digest
  deriving DecidableEq, Repr

/-- Node state, orders held, fuses, flash and what boot left (chapters 01, 14, 16, 18). `restDone` and `portTimeout` are the
two halves of the end of Training (R359); `flashProgram` is an address with the bytes for it. -/
structure NodeSt where
  state : NodeState
  porstLow : Bool
  tripped : Bool
  committed : Bool
  served : Bool
  drainHeld : Bool
  bindoff : Option Nat
  portTimeout : Bool
  restDone : Bool
  oobHigh : Bool
  fuseAlg : Nat
  fuseKeyHash : Digest
  fuseRollback : Nat
  debugLock : Bool
  flash : List Host.Cell
  flashErase : Option Nat
  flashProgram : Option (Nat × List Byte)
  bootDigest : Option Digest
  bootVersion : Nat
  bootLog : List BootRecord
  parityKept : Bool
  models : Tbl Model
  library : Tbl Program
  resident : List Nat
  deriving DecidableEq, Repr

/-- The synchronisation states (Table 2-2). -/
inductive SyncState where
  | unlocked | holdover | locked
  deriving DecidableEq, Repr

/-- Row synchronisation (R32 to R36) and the PPS stamp (R437). -/
structure Sync where
  state : SyncState
  inRange : Nat
  outRange : Nat
  holdSince : Nat
  ptp : Bool
  rowsync : Bool
  offset : Int
  stepped : Bool
  ppsStamp : Nat
  deriving DecidableEq, Repr

/-- A pattern row entry as executed (Table 2-5). -/
structure RowEntry where
  firstSlot : Nat
  slotCount : Nat
  l8Open : Bool
  swatch : Bool
  nbuCap : Nat
  arrayCap : Nat
  plannedNs : Nat
  deriving DecidableEq, Repr

/-- The pattern banks as byte images (R423), the armed switch, the row until which a switch that has been made protects the
former bank (R57), the row's entry and the execution entry of the row (R39). -/
structure Pat where
  active : List Host.Cell
  pending : List Host.Cell
  armed : Option Nat
  protect : Option Nat
  entry : Option RowEntry
  exec : Option RowEntry
  deriving DecidableEq, Repr

/-- A port's gate lists as bytes (Table 13-3) with the armed switch, and the row until which a switch that has been made
protects the pending list (R347). -/
structure Gate where
  active : List Host.Cell
  pending : List Host.Cell
  armed : Option Nat
  protect : Option Nat
  deriving DecidableEq, Repr

/-- A spare NBU of a spare group (R141, R163). -/
inductive Spare where
  | free | testing (region row : Nat) | used (region : Nat) | failed
  deriving DecidableEq, Repr

/-- A round in progress (R146, R147): its program, start and predicted length, whether it is paused, and its items. -/
structure Round where
  program : Nat
  scheduled : Bool
  startNs : Nat
  length : Nat
  paused : Bool
  items : List Nat
  deriving DecidableEq, Repr

/-- Who made a host access: a raw operation of `Work.raws`, the APPEND converter for a line of a command, or an array that
stages its tile's leaf data. The other accesses (the Mover, the adds of GRAD) wait for nothing. -/
inductive Accessor where
  | raw (id : Nat) | line (cmd : Nat) | tile (array : Nat) | other
  deriving DecidableEq, Repr

/-- A host access to a region in a round (R154), with the instant at which it came and, once it is in the region's conflict
queue, that of its entry. -/
structure Access where
  region : Nat
  came : Nat
  entered : Nat
  who : Accessor
  deriving DecidableEq, Repr

/-- One stack's units (chapter 06, R386): spare NBUs, the regions that fall back at the next row (R162), rounds, the
conflict queues of its regions and the accesses held at the input before them (R154), spares used
for DRAM repair by bank and pseudo-channel, corrected lines of the epoch, and the repair due next row. -/
structure Stack where
  spares : List Spare
  fallNext : List Nat
  round : Option Round
  noSched : Bool
  noL8 : Bool
  conflicts : Tbl (List Access)
  held : List Access
  corrected : Tbl Nat
  columnRows : Tbl Nat
  rowSpares : Tbl Nat
  colSpares : Tbl Nat
  repairDue : List Nat
  slicesFailed : Nat
  thermalCap : Nat
  deriving DecidableEq, Repr

/-- Tier of a leaf pointer (Table 3-9), with its locator. -/
inductive LeafPtr where
  | stack (granule : Nat)
  | annex (parity : Bool) (granule : Nat)
  | loan (lender slot : Nat)
  | raw (bits : Nat)
  deriving DecidableEq, Repr

/-- The card states of Table 3-2; `moving` keeps what the leaf was (Table 3-5 "as before"). -/
inductive CardState where
  | allocated | filling | sealed | shared | moving (wasShared : Bool) | lost
  deriving DecidableEq, Repr

/-- A card (Table 3-2). D, GRANULES and BASE_POSITION follow from the other fields. `link` is REF_LINK,
`scale` SCALE_SLOT as (granule, slot). -/
structure Card where
  handle : Nat
  owner : Nat
  origin : Nat
  model : Nat
  layer : Nat
  head : Nat
  half : Nat
  block : Nat
  state : CardState
  valid : Nat
  format : Nat
  d : Nat
  loc : LeafPtr
  scale : Option (Nat × Nat)
  refs : Nat
  pinned : Bool
  mirrored : Bool
  published : Bool
  openSet : Bool
  link : Option Nat
  lastUse : Nat
  annexGranules : Nat
  crc : BitVec 32
  chain : Nat
  deriving DecidableEq, Repr

/-- Sequence slot states (Table 3-6). -/
inductive SeqState where
  | closed | opened | closing | retired
  deriving DecidableEq, Repr

/-- A sequence-table entry (Table 3-3) and the pages of its head directory. -/
structure Seq where
  state : SeqState
  model : Nat
  generation : Nat
  tenant : Nat
  mirrored : Bool
  pinned : Bool
  split : Bool
  format : Nat
  d : Nat
  layers : Nat
  kvHeads : Nat
  length : Nat
  headDir : Nat
  buddy : Nat
  lastUse : Nat
  openRow : Nat
  damaged : Bool
  loanSeq : Bool
  deriving DecidableEq, Repr

/-- Resources released in a row and not yet returned (R78): granules of the stacks and of the annex, a scale slot, a card,
table pages. -/
structure Released where
  row : Nat
  granules : List Nat
  annex : List Nat
  scale : Option (Nat × Nat)
  card : Option Nat
  pages : List Nat
  zero : Bool
  deriving DecidableEq, Repr

/-- A scale granule (R62): the D its slots are cut for and the slots taken. -/
structure ScaleGranule where
  d : Nat
  slots : List Nat
  deriving DecidableEq, Repr

/-- An entry of the lender's loan table (R260). -/
structure Loan where
  borrower : Nat
  borrowerHandle : Nat
  slot : Nat
  card : Nat
  key : Nat
  deriving DecidableEq, Repr

/-- A CLB entry (R76): walker, set, way, the tag of a span of 16 blocks and the 16 leaf-page entries of the span, each by the
card it names. -/
structure ClbEntry where
  walker : Nat
  set : Nat
  way : Nat
  tag : Nat
  leaves : List (Option Nat)
  deriving DecidableEq, Repr

/-- The page tables of one head and half (R72): the page of its block directory, and its leaf pages by block bits [15:8]. -/
structure HeadTable where
  dir : Option Nat
  leafPages : List (Nat × Nat)
  deriving DecidableEq, Repr

/-- The shadow copy of the tables during compaction (R91): the pages it takes in the shadow, head directories, head tables
and the pages of each leaf record. -/
structure Shadow where
  pages : List Nat
  dirPages : Tbl (List Nat)
  heads : Tbl HeadTable
  records : Tbl (List Nat)
  deriving DecidableEq, Repr

/-- The catalogue (chapter 03) and the loan tables (chapter 10). `leaves` maps a shelfmark's key to a
card; `pages` are the table pages taken, `dirPages` those of each slot's head directory, `heads` the tables of each head and
half; `shadow` is there while compaction runs, and `swapRow` the row of its last swap (R91); `walkerDown` are the walkers that
failed in this row (R390). -/
structure Cat where
  seqs : Tbl Seq
  leaves : Tbl Nat
  cards : Tbl Card
  granules : List Nat
  scales : Tbl ScaleGranule
  pages : List Nat
  dirPages : Tbl (List Nat)
  heads : Tbl HeadTable
  shadow : Option Shadow
  swapRow : Option Nat
  releasing : List Released
  clb : List ClbEntry
  walkerMap : Tbl Nat
  walkerDown : List Nat
  lent : Tbl Loan
  loanMap : List (Nat × Nat × Nat)
  posted : List (Nat × Nat)
  deriving DecidableEq, Repr

/-- Latency classes (Table 2-7). -/
inductive LatClass where
  | l2 | l3 | l8
  deriving DecidableEq, Repr

/-- The LATE causes (Table 2-10). -/
inductive Cause where
  | arrival | walk | cls | compute | lender | sync | age
  deriving DecidableEq, Repr

/-- One leaf visit as the walk resolved it (R75, R78): the block, the cards of its halves, their first
granules and scale slots in the stacks, VALID_COUNT, and its lender when it is on loan. -/
structure Visit where
  block : Nat
  cards : List Nat
  granules : List Nat
  scales : List (Option (Nat × Nat))
  valid : Nat
  lender : Option Nat
  appendWait : Bool
  deriving DecidableEq, Repr

/-- A partial at a node (k, i) of the merge tree (R114), for one query position and head. -/
structure NodePartial where
  level : Nat
  group : Nat
  pos : Nat
  head : Nat
  value : Partial
  deriving DecidableEq, Repr

/-- A sub-command forwarded to a lender (R46, R48): the loan handle it names there, its group, whether it has been sent, and
its status, DETAIL and leaf report once answered. -/
structure SubCmd where
  lender : Nat
  handle : Nat
  level : Nat
  group : Nat
  isSent : Bool
  status : Option (Status × Nat)
  report : List Nat
  deriving DecidableEq, Repr

/-- A completion body (Table 8-1). -/
inductive CplBody where
  | none
  | partials (ps : List Partial)
  | report (block layer head half count : Nat)
  | counts (affected skipped : Nat)
  | matched (n : Nat)
  | results (rs : List Nat)
  | data (bytes : List Byte)
  deriving DecidableEq, Repr

/-- A decided outcome: STATUS, DETAIL, HANDLE and body. -/
structure Outcome where
  status : Status
  detail : Nat
  handle : Nat
  body : CplBody
  deriving DecidableEq, Repr

/-- Where a command in flight stands. -/
inductive Stage where
  | queued | walking | walked | sent
  deriving DecidableEq, Repr

/-- The dK and dV sums of a leaf position that a gradient tile of a GRAD has formed (R182, R184): the position, the tile's
group of pairs, and the 2 x D sums. -/
structure GradSum where
  pos : Nat
  tile : Nat
  sums : List F32
  deriving DecidableEq, Repr

/-- A command in flight (R194). `visits` is set by the walk, `parts` by rounds, tiles and lenders,
`result` by the merge; `work` counts contexts not yet produced; `sums` what a GRAD will add; `moves` are the moves a range
command waits for, `unpins` the cards that an UNPIN clears after a move now running (R224); `forkIn` a FORK that waits for writes (R207), `key` the key it is in flight on; `deferred` an L8 command
that waits its turn to start (R52). -/
structure Cmd where
  opcode : Nat
  head : Head
  tenant : Nat
  cls : LatClass
  slotIndex : Option Nat
  path : Nat
  program : Nat
  row : Nat
  stage : Stage
  seqSlot : Nat
  attn : Option AttnBody
  mergeIn : Option MergeBody
  forkIn : Option OpenBody
  deferred : Option Instr
  key : Option Nat
  visits : List Visit
  lookups : Nat
  parts : List NodePartial
  sums : List GradSum
  work : Nat
  subs : List SubCmd
  poison : Option Nat
  result : Option Outcome
  moves : List Nat
  unpins : List (Nat × Nat)
  affected : Nat
  skipped : Nat
  noSpace : Bool
  deriving DecidableEq, Repr

/-- What a pattern slot's commands of one row have charged (R45). -/
structure Charge where
  row : Nat
  slot : Nat
  cmds : Nat
  leaves : Nat
  lookups : Nat
  deriving DecidableEq, Repr

/-- A step of an admitted APPEND's writes (R177): a 64-byte line by its number, or VALID_COUNT raised; with
the cards of the leaf's halves. -/
inductive AppendAct where
  | line (number : Nat) (cells : List Host.Cell) (cards : List Nat)
  | raise (cards : List Nat) (valid : Nat)
  deriving DecidableEq, Repr

/-- An admitted APPEND whose writes have not ended (R177 to R179): its positions [first, endPos), LENGTH of the sequence as it
was admitted, whether a line has been written, and whether its next line waits in a conflict queue. -/
structure AppendJob where
  cmd : Nat
  die : Nat
  scheduled : Bool
  row : Nat
  seqSlot : Nat
  layer : Nat
  head : Nat
  first : Nat
  endPos : Nat
  bytes : Nat
  lengthWas : Nat
  started : Bool
  waits : Bool
  acts : List AppendAct
  deriving DecidableEq, Repr

/-- A work item (R145). `visits` are indices into the command's visits; `order` is its place in the
row's slot order; `cost` the cost entry. -/
structure Item where
  cmd : Nat
  stack : Nat
  region : Nat
  visits : List Nat
  scheduled : Bool
  order : Nat
  path : Nat
  program : Nat
  cost : Cost
  onArray : Bool
  fallback : Bool
  issued : Bool
  deriving DecidableEq, Repr

/-- An entry of the score buffer (Table 5-1). -/
structure Score where
  value : F32
  visible : Bool
  mark : Option Nat
  deriving DecidableEq, Repr

/-- A slot of a tree accumulator (Table 5-1): lanes 0 to S7-1, and lane 256. -/
structure Slot where
  lanes : List F32
  p : F32
  deriving DecidableEq, Repr

/-- A REP in progress (R123): its body's first word and length, and the iterations left. -/
structure Rep where
  start : Nat
  len : Nat
  count : Nat
  deriving DecidableEq, Repr

/-- A stitch context (Table 5-1). Vector lane i of Vr is `v` at 32r + i; score row r, leaf position q is
`sb` at 256r + q; slot q of accumulator Aa is `acc` at 256a + q; unlisted entries are +0 and clear. `turn` is its place among the contexts of its item, and `steps` the
instructions it has executed (R147). -/
structure Ctx where
  cmd : Nat
  item : Nat
  visit : Nat
  pos : Nat
  word : Nat
  index : Nat
  rep : Option Rep
  s : List (BitVec 32)
  v : Tbl F32
  acc : Tbl Slot
  m : List (BitVec 32)
  sb : Tbl Score
  query : List (List F32)
  emitted : List (Nat × Partial)
  poison : Option Nat
  ended : Bool
  turn : Nat
  steps : Nat
  deriving DecidableEq, Repr

/-- The kinds of tile (Table 7-1). -/
inductive TileKind where
  | position | item | gradient
  deriving DecidableEq, Repr

/-- A tile waiting for an array, or running on one (R169 to R171). `visits` are visit indices, `first`
and `count` the positions or pairs, `items` the items of an item tile; `left` the staging reads still to be served, once they
have begun; `staged` the leaf bytes that are not zero, and the poisoned lines among them, once all are (R167, R170). -/
structure Tile where
  kind : TileKind
  cmd : Nat
  scheduled : Bool
  order : Nat
  visits : List Nat
  first : Nat
  count : Nat
  items : List Nat
  array : Nat
  startNs : Nat
  endNs : Nat
  left : Option Nat
  staged : Option (List Host.Cell × List Nat)
  deriving DecidableEq, Repr

/-- Attention arrays (chapter 07, R166 to R190): spare cells used per array, spare arrays used per die,
spare tests, tiles due and running, stop marks of the row, and the end of its last scheduled tile by die. -/
structure Arrays where
  spareCells : Tbl Nat
  spareArrays : Tbl Nat
  testing : List (SpareTarget × Nat)
  failed : Tbl Nat
  outNext : List Nat
  due : List Tile
  running : List Tile
  noSched : Bool
  noL8 : Bool
  lastEnd : Tbl Nat
  deriving DecidableEq, Repr

/-- A command that waits: held one row early until row `row` (R44), or received in row `row` and waiting
at a FENCE (R201). -/
structure Waiting where
  row : Nat
  cmd : Instr
  deriving DecidableEq, Repr

/-- What a raw operation does: a cache command of chapter 08, or an access of the annex endpoint (R275). -/
inductive RawWhat where
  | command (op : Nat) (h : Head) (b : RawBody)
  | endpoint (x : EndpointAccess)
  deriving DecidableEq, Repr

/-- A raw operation not yet applied (R20, R157): its local offset and length, and the host accesses still to be served. -/
structure RawJob where
  id : Nat
  addr : Nat
  len : Nat
  left : Nat
  what : RawWhat
  deriving DecidableEq, Repr

/-- Commands and their work (chapters 02, 05 to 08). `next` numbers admissions; `raws` are the raw operations not yet applied,
in order of admission (R200); `served` are the pairs of a unit, an NBU or an array, and a command whose work it has taken in
this row (R151, R188). -/
structure Work where
  next : Nat
  cmds : Tbl Cmd
  held : List Waiting
  waiting : List Waiting
  l8 : List Nat
  charges : List Charge
  appendBytes : Tbl Nat
  gradBytes : Nat
  appends : List AppendJob
  raws : List RawJob
  items : Tbl Item
  ctxs : Tbl Ctx
  served : List (Nat × Nat)
  deriving DecidableEq, Repr

/-- An Index entry (Table 9-1). -/
structure Entry where
  chain : Nat
  priority : Nat
  set : Nat
  valid : Bool
  model : Nat
  format : Nat
  d : Nat
  layers : Nat
  kvHeads : Nat
  tenant : Nat
  block : Nat
  handle : Nat
  record : Nat
  publishRow : Nat
  lastFind : Nat
  crc : BitVec 32
  deriving DecidableEq, Repr

/-- A departed entry that still holds its references (R243). -/
structure Departing where
  entry : Nat
  cards : List Nat
  pages : List Nat
  row : Nat
  deriving DecidableEq, Repr

/-- A bank set under rebuild into the spare bank (R247): the row in which it began and the entries of the spare bank. -/
structure Rebuild where
  set : Nat
  row : Nat
  entries : Tbl Entry
  deriving DecidableEq, Repr

/-- The Index (chapter 09): array, verification copies, and by entry the elements of its leaf record (R234) and the pages that
hold it. -/
structure Index where
  entries : Tbl Entry
  copies : Tbl Entry
  records : Tbl (List Nat)
  recordPages : Tbl (List Nat)
  departing : List Departing
  rebuild : Option Rebuild
  spareUsed : Bool
  scrubAt : Nat
  deriving DecidableEq, Repr

/-- Mover classes (Table 10-3). -/
inductive MoveClass where
  | demand | evict | prefetch | privileged
  deriving DecidableEq, Repr

/-- Where a move takes a leaf. -/
inductive Dest where
  | stack | annex | loan (lender : Nat) | annexRewrite
  deriving DecidableEq, Repr

/-- A move, queued or running on a channel (R252, R265). `cards` are the halves of the leaf; `granules` and `scales` what it
has reserved for each; `recalled` the data a lender has answered by card, `acks` the loan slots a lender has given by card
(R263), `lentAt` the row in which its LEND went out; `returns` marks a move that a lender's RETURN asked for (R263) and `waits` one
that has found no place and waits for the next row (R255). -/
structure Move where
  cards : List Nat
  cls : MoveClass
  dest : Dest
  fallback : Bool
  condense : Bool
  queued : Nat
  started : Option Nat
  channel : Nat
  granules : List (List Nat)
  scales : List (Option (Nat × Nat))
  recalled : List (Nat × List Byte)
  acks : List (Nat × Nat)
  lentAt : Option Nat
  returns : Bool
  waits : Bool
  deriving DecidableEq, Repr

/-- The stored form of an annex copy (R268, R271, R272). -/
inductive Stored where
  | raw | encoded | condensed
  deriving DecidableEq, Repr

/-- A leaf's copy in the annex: its form, data granules, the exact bytes decoding gives, whether raw
writes have touched its run, and the key it is encrypted with (R269). -/
structure AnnexCopy where
  form : Stored
  k : Nat
  parity : Bool
  first : Nat
  run : Nat
  bytes : List Byte
  touched : Bool
  key : BitVec 512
  deriving DecidableEq, Repr

/-- A running MOVER_CTL operation (R280). -/
inductive AnnexOp where
  | evacuate (dev : Nat) | rebuild
  deriving DecidableEq, Repr

/-- The Mover and the annex (chapter 10). `bytes` are raw bytes WRITE put in the annex window; `demoting` says that fall-back
demotion has begun and not yet reached HIGH_WATER (R249); `deficits` are those of the three weighted classes, `turn` the class whose
turn it is and `given` whether it has had its quantum (R266); `poisoned` are the annex granules for which a pool device returns poison (R276). -/
structure Mover where
  next : Nat
  moves : Tbl Move
  deficits : List Nat
  turn : Nat
  given : Bool
  passed : Tbl Nat
  copies : Tbl AnnexCopy
  granules : List Nat
  bytes : List Host.Cell
  devices : Nat
  size : Nat
  poisoned : List Nat
  poisonRows : Tbl (List Nat)
  linkDown : Tbl Nat
  op : Option AnnexOp
  endpointUp : Bool
  perstHigh : Bool
  enginesFenced : List Nat
  demoting : Bool
  deriving DecidableEq, Repr

/-- Port link states (LINK of Table 11-5). -/
inductive Link where
  | down | training | up | swapping | narrowing | test | awaitSecure
  deriving DecidableEq, Repr

/-- Kinds of lane-control word (TYPE of Table 11-2). -/
inductive LaneType where
  | status | swapRequest | swapAck | narrowRequest | narrowAck | retrain | test
  deriving DecidableEq, Repr

/-- A request to the partner under way. Of a swap or a narrowing (R291, R292): the new map, this end's ACT_SEQ and the partner's, and
whether it came from PORT_CTL. Of a retrain or Test (R293, R301) the map is the one the port leaves. -/
structure LaneChange where
  kind : LaneType
  map : Nat
  actSeq : Nat
  partnerSeq : Option Nat
  fromCtl : Bool
  acked : Bool
  deriving DecidableEq, Repr

/-- A port's word due to be sent other than status. -/
structure DueWord where
  kind : LaneType
  map : Nat
  actSeq : Nat
  deriving DecidableEq, Repr

/-- A network port (chapter 11). `lanes` is 8, 4, 2 or 0. `met` says that a good lane-control word has come since the link was last
lost or its retrain began (R287); `spent` that its packet
numbers have run out with no new key (R297); `rxNext` is the least packet number that is in order (R296); `sak` the key the vault
installed; `symbols` the symbols FEC has corrected by lane in microsecond `symbolsUs` (R290). -/
structure Port where
  link : Link
  lanes : Nat
  txMap : Nat
  rxMap : Nat
  failed : List Nat
  partnerNode : Nat
  partnerPort : Nat
  partnerDomain : Nat
  partnerFailed : List Nat
  seq : Nat
  change : Option LaneChange
  due : Option DueWord
  downSince : Nat
  testNext : Bool
  stamps : List (Nat × Bool)
  saLive : Bool
  association : Nat
  packetNumber : Nat
  spraying : Bool
  met : Bool
  spent : Bool
  rxNext : Nat
  sak : Option (BitVec 256)
  installs : Nat
  symbols : Tbl Nat
  symbolsUs : Nat
  deriving DecidableEq, Repr

/-- Queue-pair states (Table 12-5). -/
inductive QpState where
  | ready | closing | error | quarantine
  deriving DecidableEq, Repr

/-- A connection: a queue pair, or a partner record of a shared-peer queue pair (R312). The key of the
table is qp x 4,096 + partner index. `ackDue` lists the traffic classes of packets accepted and not yet acknowledged (R316). -/
structure Conn where
  state : QpState
  cls : Nat
  tenant : Nat
  peerNode : Nat
  peerDomain : Nat
  peerQp : Nat
  shared : Bool
  compat : Bool
  relay : Bool
  cause : Nat
  since : Nat
  peerGone : Bool
  nextPsn : Nat
  buffered : List Packet
  assembling : List Byte
  sendPsn : Nat
  ackDue : List Nat
  deriving DecidableEq, Repr

/-- A packet queued or sent and not acknowledged (R315 to R317). `entry` is its routing entry and `generation` that of the entry
when it was last queued (R306), `path` local port x 8 + remote port, `index` the path's place in the entry; `tries` counts its
sendings (0: it waits for the window), `used` are the paths it has taken, `sent` is the nanosecond of the last sending, and `resend`
marks one that waits for a usable path. -/
structure Unacked where
  conn : Nat
  psn : Nat
  kind : Nat
  first : Bool
  last : Bool
  entry : Nat
  generation : Nat
  used : List Nat
  path : Nat
  index : Nat
  pathSeq : Nat
  tc : Nat
  length : Nat
  tries : Nat
  sent : Nat
  resend : Bool
  deriving DecidableEq, Repr

/-- Memory key states (R322). -/
inductive KeyState where
  | free | valid | revoking | retired
  deriving DecidableEq, Repr

/-- A memory key entry (R321 to R327). `revokeDue` is the row in which its revocation was admitted (R325), `revoker` the DEREGISTER
that draws the reply. -/
structure Key where
  state : KeyState
  generation : Nat
  tenant : Nat
  rights : Nat
  span : Bool
  base : Nat
  length : Nat
  process : Option (Nat × Nat)
  revokeDue : Option Nat
  revoker : Option CmMsg
  inFlight : Nat
  deriving DecidableEq, Repr

/-- An open BULK message for a remote domain (R329), with the nanosecond of its first record. -/
structure Bulk where
  records : List BulkRecord
  bytes : Nat
  opened : Nat
  deriving DecidableEq, Repr

/-- A command relayed for a requester whose completion has not come (R329, R333): the remote domain, the connection, the originating
queue pair and requester, the opcode, and the TAG and bytes of each command merged into it, in the order of their bytes (R331). -/
structure Relayed where
  domain : Nat
  conn : Nat
  qp : Nat
  node : Nat
  opcode : Nat
  tags : List (Nat × Nat)
  deriving DecidableEq, Repr

/-- A command issued for another domain's requester (R332): the relay connection, its TAG there, the requester's own, and its
record without the message. -/
structure Issued where
  conn : Nat
  tag : Nat
  original : Nat
  record : BulkRecord
  deriving DecidableEq, Repr

/-- The Transport Engine (chapter 12). `inbox` records the messages handed on whole, oldest
first; it is no buffer of the node's: a message handed to admission acts as the command that it is. `sprayAt` is each entry's place in its
cycle of paths (R306), `ackRows` the row in which a packet to an entry was last acknowledged (R318), `headerDrops` counts the frames
that R304 discards and `lostCompletions` the unacknowledged completions that Table 12-5 discards. -/
structure Xport where
  conns : Tbl Conn
  keys : Tbl Key
  unacked : List Unacked
  inbox : List (Nat × List Byte)
  pathSeq : Tbl Nat
  recvSeq : Tbl Nat
  held : Tbl Nat
  timeouts : Tbl (List Nat)
  processFreed : Tbl Nat
  bulk : Tbl Bulk
  relayed : List Relayed
  issued : List Issued
  sprayAt : Tbl Nat
  ackRows : Tbl Nat
  headerDrops : Nat
  lostCompletions : Nat
  deriving DecidableEq, Repr

/-- The transport header of a packet to be sent (Table 12-1), but for the sender's own node and domain; with the GENERATION of the
routing entry it leaves under (R306). -/
structure TxHeader where
  kind : Nat
  tc : Nat
  dstNode : Nat
  dstDomain : Nat
  dstQp : Nat
  srcQp : Nat
  psn : Nat
  first : Bool
  last : Bool
  pathSeq : Nat
  srcPort : Nat
  dstPort : Nat
  pathIndex : Nat
  payload : Nat
  generation : Nat
  deriving DecidableEq, Repr

/-- A frame waiting in a class queue (R344), with the eighth of a nanosecond at which it first could not begin. -/
structure Queued where
  length : Nat
  header : TxHeader
  waited : Option Nat
  deriving DecidableEq, Repr

/-- A received frame held in a buffer of the network dies (R337, R342), with the nanosecond it came in. -/
structure Held where
  at_ns : Nat
  length : Nat
  deriving DecidableEq, Repr

/-- A policer's buckets (R340), in 8,000ths of a byte, and when they were last filled. -/
structure Buckets where
  c : Nat
  p : Nat
  row : Nat
  ns : Nat
  deriving DecidableEq, Repr

/-- The Traffic Manager (chapter 13). Queue of class c of port p is `queues` at 8p + c. -/
structure Traffic where
  gates : List Gate
  queues : Tbl (List Queued)
  deficits : Tbl Nat
  buckets : Tbl Buckets
  shared : List (List Held)
  mgmt : List (List Held)
  general : List (List Held)
  busyUntil : Tbl Nat
  deriving DecidableEq, Repr

/-- Tenant states (Table 15-3). -/
inductive TenantState where
  | free | admitted | keyed | withdrawing
  deriving DecidableEq, Repr

/-- A tenant slot (R374 to R383). `keyDue`, with the row it was accepted in, and `consentDue` are changes that wait for the
next row. -/
structure Tenant where
  state : TenantState
  auth : Digest
  isSealed : Bool
  key : Option (BitVec 512)
  keyDue : Option (Nat × Option (BitVec 512))
  ticket : Option (BitVec 256)
  consent : Nat
  consentDue : Option Nat
  deriving DecidableEq, Repr

/-- An SPDM session (R372, R375). -/
structure Session where
  leaf : Option Digest
  beat : Nat
  deriving DecidableEq, Repr

/-- A record of the measurement log (R370). -/
structure LogRecord where
  index : Nat
  kind : Nat
  row : Nat
  digest : Digest
  deriving DecidableEq, Repr

/-- A block stopped, gated or cut (R381, R382). -/
inductive BlockHold where
  | stopped | gated | cut
  deriving DecidableEq, Repr

/-- The vault and the claims (chapter 15). `claimsDue` is the change of the claims that is due, with the row it was ordered in;
`deferred` a stop (false) or gate (true) of a block that waits for their release. -/
structure Vault where
  cak : BitVec 256
  tenants : Tbl Tenant
  sessions : Tbl Session
  nextSession : Nat
  meas10 : Digest
  meas11 : Digest
  meas12 : Digest
  log : List LogRecord
  claimed : Bool
  claimsDue : Option (Nat × Bool)
  deferred : Option (Bool × Nat)
  blocks : Tbl BlockHold
  deriving DecidableEq, Repr

/-- A gauge (R393): value and peak. -/
structure Gauge where
  value : Nat
  peak : Nat
  deriving DecidableEq, Repr

/-- Health (chapter 16). `counts` are the weighted counts of the epoch, by KIND x 2^20 + INSTANCE. `swatch` is the place in
the order of slices of the cells of each die, the NBUs of each stack, the slices of each stitch head, and the spare CAM
bank (R396). -/
structure Health where
  gauges : Tbl Gauge
  counts : Tbl Nat
  faults : List Nat
  swatch : List Nat
  cores : List Nat
  deriving DecidableEq, Repr

/-- A temperature sensor (R428): the last sample and for how many rows it has stayed at or below 88, 93,
94, 98 and 103 degrees. -/
structure Temp where
  value : Nat
  r88 : Nat
  r93 : Nat
  r94 : Nat
  r98 : Nat
  r103 : Nat
  alert : Bool
  emergency : Bool
  isCut : Bool
  deriving DecidableEq, Repr

/-- Power, temperature and rails (chapter 18). -/
structure Power where
  dieTemps : List Temp
  stackTemps : List Temp
  railOut : List Nat
  railBack : Tbl Nat
  railCut : List Nat
  peakOver : Bool
  deriving DecidableEq, Repr

/-- A register write accepted in row `row` that waits for the next (R412). -/
structure DueWrite where
  row : Nat
  block : Nat
  offset : Nat
  value : Word
  deriving DecidableEq, Repr

/-- An event record (Table 17-5). -/
structure Event where
  kind : Nat
  block : Nat
  unit : Nat
  tenant : Nat
  row : Nat
  handle : Nat
  arg0 : Nat
  arg1 : Nat
  deriving DecidableEq, Repr

/-- An entry of a management REPLY (Table 17-4). -/
structure ReplyEntry where
  op : Nat
  addr : Nat
  result : Nat
  value : Word
  deriving DecidableEq, Repr

/-- The kinds of CM reply (Table 12-4). -/
inductive CmKind where
  | accept | registered | deregistered | qpError | disconnected
  deriving DecidableEq, Repr

/-- Loan message kinds (Table 10-2). -/
inductive LoanKind where
  | lend | lendAck | recall | recallData | release | returnLeaf
  deriving DecidableEq, Repr

/-- A sub-command to a lender (R46, R48, R261): the command it belongs to, its group, ROW_TAG, and the message: OPCODE, MODEL,
the lender's HANDLE and the body over the group's blocks. -/
structure SubMsg where
  lender : Nat
  cmd : Nat
  level : Nat
  group : Nat
  rowTag : Nat
  scheduled : Bool
  opcode : Nat
  model : Nat
  handle : Nat
  body : AttnBody
  deriving DecidableEq, Repr

/-- A message, word or pulse the node has sent. `peer` is the queue pair of the receiver, by which partner records of one node are
told apart (R312). -/
inductive Sent where
  | completion (qp node peer tag opcode row : Nat) (o : Outcome)
  | eventMsg (qp node : Nat) (e : Event)
  | fmEvent (node : Nat) (e : Event)
  | cmReply (kind : CmKind) (qp node domain peer tag : Nat) (result : Nat) (arg key offset : Nat)
  | mgmtReply (path : Path) (dst tag row : Nat) (entries : List ReplyEntry)
  | i3cReply (value : Word)
  | loan (kind : LoanKind) (dst : Nat) (m : LoanMsg)
  | subCommand (m : SubMsg)
  | laneWord (p : Nat) (kind : LaneType) (w : LaneWord)
  | ack (conn tc cum : Nat) (sack : Word)
  | nak (node domain tc index first count : Nat)
  | frame (p cls length ns8 dstMac srcMac : Nat) (h : TxHeader)
  | bulk (conn domain : Nat) (records : List BulkRecord)
  | relayed (conn qp node : Nat) (message : List Byte)
  | vault (session : Option Nat) (op result : Nat) (digests : List Digest) (log : List LogRecord)
  | endpointData (bytes : List Byte) (poison : Bool)
  | rowsyncOut (row : Nat)
  | ppsOut (second : Nat)
  deriving DecidableEq, Repr

/-- An out-of-band reply kept for its TAG (R415). -/
structure Kept where
  srcId : Nat
  tag : Nat
  request : MgmtMsg
  reply : List ReplyEntry
  row : Nat
  deriving DecidableEq, Repr

/-- Management: the event ring (R420), kept out-of-band replies (R415), writes due (R412). -/
structure Mgmt where
  ring : Tbl Event
  kept : List Kept
  due : List DueWrite
  deriving DecidableEq, Repr

/-- The whole node. `regs` lists, by block x 2^20 + offset, the registers whose stored bits differ from
their Reset value; `mem` the stack bytes that are not zero, by local offset; `poison` the numbers of
poisoned 64-byte lines. `fresh` counts the free values used (log entry 2); `out` is everything sent. -/
structure State where
  pending : List Instr
  clock : Clock
  node : NodeSt
  sync : Sync
  pat : Pat
  regs : Tbl Word
  mem : List Host.Cell
  poison : List Nat
  stackUnits : List Stack
  arrays : Arrays
  cat : Cat
  work : Work
  index : Index
  mover : Mover
  ports : List Port
  xport : Xport
  tm : Traffic
  vault : Vault
  health : Health
  power : Power
  mgmt : Mgmt
  out : List Sent
  fresh : Nat
  deriving DecidableEq, Repr

/-- A stack after reset. Spares are all free until Training maps them (log entry 7). -/
def Stack.reset : Stack :=
  { spares := List.replicate 16 .free, fallNext := [], round := none, noSched := false, noL8 := false,
    conflicts := [], held := [], corrected := [], columnRows := [], rowSpares := [], colSpares := [],
    repairDue := [], slicesFailed := 0, thermalCap := 128 }

/-- A port after reset: Down, no lane mapped (LANE_MAP reset 0xFFFF_FFFF). -/
def Port.reset : Port :=
  { link := .down, lanes := 0, txMap := 0xFFFFFFFF, rxMap := 0xFFFFFFFF, failed := [],
    partnerNode := 0, partnerPort := 0, partnerDomain := 0, partnerFailed := [], seq := 0,
    change := none, due := none, downSince := 0, testNext := false,
    stamps := [], saLive := false, association := 0, packetNumber := 0, spraying := false,
    met := false, spent := false, rxNext := 0, sak := none, installs := 0, symbols := [], symbolsUs := 0 }

/-- A gate after reset: no list active (R344). -/
def Gate.reset : Gate := { active := [], pending := [], armed := none, protect := none }

/-- A sensor after reset; the spec states no temperature (log entry 8). -/
def Temp.reset : Temp :=
  { value := 0, r88 := 0, r93 := 0, r94 := 0, r98 := 0, r103 := 0, alert := false,
    emergency := false, isCut := false }

/-- The node right after the release of PORST_N: state Boot (NODE_STATE resets to 1), every register at
its Reset value, nothing held anywhere (R8, R363). The fuses and OOB_MODE are log entry 5, flash log
entry 6. -/
def State.reset : State :=
  { pending := [],
    clock := { row := 0, ns := 0 },
    node := { state := .boot, porstLow := false, tripped := false, committed := false, served := false,
              drainHeld := false, bindoff := none, portTimeout := false, restDone := false,
              oobHigh := false, fuseAlg := 1, fuseKeyHash := Config.fuseKeyHash, fuseRollback := 0, debugLock := true,
              flash := [], flashErase := none, flashProgram := none, bootDigest := none,
              bootVersion := 0, bootLog := [], parityKept := false, models := [], library := [], resident := [] },
    sync := { state := .unlocked, inRange := 0, outRange := 0, holdSince := 0, ptp := false,
              rowsync := false, offset := 0, stepped := false, ppsStamp := 0 },
    pat := { active := [], pending := [], armed := none, protect := none, entry := none, exec := none },
    regs := [], mem := [], poison := [],
    stackUnits := List.replicate 12 Stack.reset,
    arrays := { spareCells := [], spareArrays := [], testing := [], failed := [], outNext := [],
                due := [], running := [], noSched := false, noL8 := false, lastEnd := [] },
    cat := { seqs := [], leaves := [], cards := [], granules := [], scales := [], pages := [],
             dirPages := [], heads := [], shadow := none, swapRow := none, releasing := [], clb := [], walkerMap := [], walkerDown := [], lent := [], loanMap := [],
             posted := [] },
    work := { next := 0, cmds := [], held := [], waiting := [], l8 := [], charges := [],
              appendBytes := [], gradBytes := 0, appends := [], raws := [], items := [], ctxs := [], served := [] },
    index := { entries := [], copies := [], records := [], recordPages := [], departing := [],
               rebuild := none, spareUsed := false, scrubAt := 0 },
    mover := { next := 0, moves := [], deficits := [0, 0, 0], turn := 0, given := false, passed := [], copies := [], granules := [],
               bytes := [], devices := 0, size := 0, poisoned := [], poisonRows := [], linkDown := [], op := none,
               endpointUp := false, perstHigh := false, enginesFenced := [],
               demoting := false },
    ports := List.replicate 8 Port.reset,
    xport := { conns := [], keys := [], unacked := [], inbox := [], pathSeq := [], recvSeq := [],
               held := [], timeouts := [], processFreed := [], bulk := [], relayed := [], issued := [],
               sprayAt := [], ackRows := [], headerDrops := 0, lostCompletions := 0 },
    tm := { gates := List.replicate 8 Gate.reset, queues := [], deficits := [], buckets := [],
            shared := [[], []], mgmt := List.replicate 8 [], general := List.replicate 8 [],
            busyUntil := [] },
    vault := { cak := Config.cak, tenants := [], sessions := [], nextSession := 0, meas10 := 0, meas11 := 0, meas12 := 0,
               log := [], claimed := false, claimsDue := none, deferred := none,
               blocks := [] },
    health := { gauges := [], counts := [], faults := [], swatch := List.replicate 29 0, cores := [0, 1, 2] },
    power := { dieTemps := List.replicate 20 Temp.reset, stackTemps := List.replicate 12 Temp.reset,
               railOut := [], railBack := [], railCut := [], peakOver := false },
    mgmt := { ring := [], kept := [], due := [] },
    out := [], fresh := 0 }

end Sys2Proof.Machine
end

