-- ==== Sys2Proof/Machine/Tbl.lean ====
section
/-! DEFINITION. Operations on tables, byte memories and number sets. A byte memory is a table of bytes whose
unlisted entries read 0 and which lists no 0. -/

namespace Sys2Proof

/-- The record at a key. -/
def Tbl.get {α : Type} : Tbl α → Nat → Option α
  | [], _ => none
  | (k', v) :: t, k => if k' = k then some v else Tbl.get t k

/-- Write a record, keeping keys rising. -/
def Tbl.set {α : Type} : Tbl α → Nat → α → Tbl α
  | [], k, v => [(k, v)]
  | (k', v') :: t, k, v =>
    if k < k' then (k, v) :: (k', v') :: t
    else if k = k' then (k, v) :: t
    else (k', v') :: Tbl.set t k v

/-- Remove a record. -/
def Tbl.erase {α : Type} : Tbl α → Nat → Tbl α
  | [], _ => []
  | (k', v) :: t, k => if k' = k then Tbl.erase t k else (k', v) :: Tbl.erase t k

/-- Change a record where it is present. -/
def Tbl.modify {α : Type} (t : Tbl α) (k : Nat) (f : α → α) : Tbl α :=
  match t.get k with
  | none => t
  | some v => t.set k (f v)

/-- Change every record. -/
def Tbl.mapVals {α β : Type} (t : Tbl α) (f : Nat → α → β) : Tbl β :=
  t.map fun p => (p.1, f p.1 p.2)

/-- A number of a table, 0 where unlisted. -/
def Tbl.num (t : Tbl Nat) (k : Nat) : Nat := (t.get k).getD 0

/-- Keys strictly rise from above `b`. -/
def Tbl.risesFrom {α : Type} : Option Nat → Tbl α → Bool
  | _, [] => true
  | b, (k, _) :: t => (match b with | none => true | some n => decide (n < k)) && Tbl.risesFrom (some k) t

/-- The canonical form of a table. -/
def Tbl.wf {α : Type} (t : Tbl α) : Bool := Tbl.risesFrom none t

namespace Machine

/-- A byte of a memory; unlisted bytes read 0 (stack bytes: R358). -/
def Mem.get (m : List Host.Cell) (a : Nat) : Byte := (Tbl.get m a).getD 0

/-- Write a byte, keeping the canonical form: a 0 is not listed. -/
def Mem.set (m : List Host.Cell) (a : Nat) (b : Byte) : List Host.Cell :=
  if b = 0 then Tbl.erase m a else Tbl.set m a b

/-- The canonical form of a byte memory: addresses strictly rise and no listed byte is 0. -/
def Mem.wf (m : List Host.Cell) : Bool := Tbl.wf m && m.all fun c => c.2 ≠ 0

/-- Bytes a, a+1, ... of a memory. -/
def Mem.bytes (m : List Host.Cell) (a n : Nat) : List Byte :=
  (List.range n).map fun i => Mem.get m (a + i)

/-- Write consecutive bytes. -/
def Mem.write (m : List Host.Cell) (a : Nat) : List Byte → List Host.Cell
  | [] => m
  | b :: bs => Mem.write (Mem.set m a b) (a + 1) bs

/-- Drop every byte of [lo, hi), so that it reads 0. -/
def Mem.clear (m : List Host.Cell) (lo hi : Nat) : List Host.Cell :=
  m.filter fun c => c.1 < lo || hi ≤ c.1

/-- The number held little-endian in bytes (R4). -/
def leNat : List Byte → Nat
  | [] => 0
  | b :: bs => b.toNat + 256 * leNat bs

/-- A number as n little-endian bytes (R4). -/
def leBytes : Nat → Nat → List Byte
  | 0, _ => []
  | n + 1, v => BitVec.ofNat 8 v :: leBytes n (v / 256)

/-- The 64-bit word at an address. -/
def Mem.word (m : List Host.Cell) (a : Nat) : Word := BitVec.ofNat 64 (leNat (Mem.bytes m a 8))

/-- Add a number to a set held as a list. -/
def addNum (l : List Nat) (k : Nat) : List Nat := if l.contains k then l else k :: l

/-- Ceiling division. -/
def ceilDiv (a b : Nat) : Nat := (a + b - 1) / b

/-- Replace a list's element. -/
def setAt {α : Type} (l : List α) (i : Nat) (f : α → α) : List α :=
  match l, i with
  | [], _ => []
  | x :: xs, 0 => f x :: xs
  | x :: xs, i + 1 => x :: setAt xs i f

/-- The first number that passes, of n numbers from `start` taken round modulo `m`. -/
def firstFrom (ok : Nat → Bool) (start m : Nat) : Nat → Option Nat
  | 0 => none
  | n + 1 => if ok (start % m) then some (start % m) else firstFrom ok (start + 1) m n

end Machine
end Sys2Proof
end

