-- ==== Sys2Proof/Machine/Arith.lean ====
section
/-! DEFINITION. The attention arithmetic contract (chapter 04): number formats, FP32 operations, exp2,
reductions, partials and their merge, and the CRCs. -/

namespace Sys2Proof.Machine

/-- A binary32 datum: a finite value (-1)^neg x mag x 2^e, an infinity, or a NaN. -/
inductive Fv where
  | fin (neg : Bool) (mag : Nat) (e : Int)
  | inf (neg : Bool)
  | nan
  deriving DecidableEq, Repr

/-- Round mag x 2^e to nearest, ties to even, onto multiples of 2^q with at most `p` bits, q at least
`qmin`: the integer and q (R97, R99). The integer may be 2^p. -/
def roundBits (p : Nat) (qmin : Int) (mag : Nat) (e : Int) : Nat × Int :=
  let q := max (e + Nat.log2 mag + 1 - p) qmin
  if q ≤ e then (mag * 2 ^ (e - q).toNat, q)
  else
    let k := (q - e).toNat
    let m := mag >>> k
    let r := mag % 2 ^ k
    let half := 2 ^ (k - 1)
    (if half < r ∨ (r = half ∧ m % 2 = 1) then m + 1 else m, q)

/-- One rounding to binary32 (R99). -/
def rnd32 (neg : Bool) (mag : Nat) (e : Int) : F32 :=
  let sgn := if neg then 2 ^ 31 else 0
  if mag = 0 then BitVec.ofNat 32 sgn
  else
    let (m, q) := roundBits 24 (-149) mag e
    let (m, q) := if m = 2 ^ 24 then (2 ^ 23, q + 1) else (m, q)
    if m < 2 ^ 23 then BitVec.ofNat 32 (sgn + m)
    else if 254 < q + 150 then BitVec.ofNat 32 (sgn + 0x7F800000)
    else BitVec.ofNat 32 (sgn + (q + 150).toNat * 2 ^ 23 + (m - 2 ^ 23))

/-- The datum of a binary32 word. -/
def fdec (x : F32) : Fv :=
  let n := x.toNat
  let neg := decide (2 ^ 31 ≤ n)
  let ex : Nat := n / 2 ^ 23 % 256
  let fr : Nat := n % 2 ^ 23
  if ex = 255 then (if fr = 0 then .inf neg else .nan)
  else if ex = 0 then .fin neg fr (-149)
  else .fin neg (fr + 2 ^ 23) ((ex : Int) - 150)

/-- The NaN an operation gives; its bits reach no message, since the command is then POISONED (R100). -/
def fnan : F32 := 0x7FC00000

/-- +0, 1 and -infinity. -/
def fzero : F32 := 0
def fone : F32 := 0x3F800000
def fnegInf : F32 := 0xFF800000

/-- Neither an infinity nor a NaN. -/
def ffinite (x : F32) : Bool := x.toNat / 2 ^ 23 % 256 ≠ 255

/-- The word of a datum. -/
def fenc : Fv → F32
  | .fin neg mag e => rnd32 neg mag e
  | .inf neg => if neg then 0xFF800000 else 0x7F800000
  | .nan => fnan

/-- rnd(a x b) (R99). -/
def fmul (a b : F32) : F32 :=
  match fdec a, fdec b with
  | .fin s m e, .fin s' m' e' => rnd32 (s ^^ s') (m * m') (e + e')
  | .inf s, .inf s' => fenc (.inf (s ^^ s'))
  | .inf s, .fin s' m' _ => if m' = 0 then fnan else fenc (.inf (s ^^ s'))
  | .fin s m _, .inf s' => if m = 0 then fnan else fenc (.inf (s ^^ s'))
  | _, _ => fnan

/-- The exact sum of two finite data. A zero sum is negative only if both are. -/
def finAdd (s : Bool) (m : Nat) (e : Int) (s' : Bool) (m' : Nat) (e' : Int) : F32 :=
  let q := min e e'
  let v : Int := (if s then -1 else 1) * (m * 2 ^ (e - q).toNat : Nat)
    + (if s' then -1 else 1) * (m' * 2 ^ (e' - q).toNat : Nat)
  if v = 0 then rnd32 (s && s' && (m = 0 && m' = 0 || s = s')) 0 q
  else rnd32 (v < 0) v.natAbs q

/-- rnd(a + b) (R99). -/
def fadd (a b : F32) : F32 :=
  match fdec a, fdec b with
  | .fin s m e, .fin s' m' e' => finAdd s m e s' m' e'
  | .inf s, .inf s' => if s = s' then fenc (.inf s) else fnan
  | .inf s, .fin _ _ _ => fenc (.inf s)
  | .fin _ _ _, .inf s => fenc (.inf s)
  | _, _ => fnan

/-- The value with its sign changed. -/
def fneg (a : F32) : F32 := a ^^^ 0x80000000

/-- rnd(a - b). -/
def fsub (a b : F32) : F32 := fadd a (fneg b)

/-- A key that orders finite values and infinities as the reals: +0 and -0 differ, -0 below. -/
def fkey (a : F32) : Int :=
  let n := a.toNat
  if 2 ^ 31 ≤ n then -(n - 2 ^ 31 : Nat) - 1 else n

/-- max; the maximum of +0 and -0 is +0 (R99). -/
def fmax (a b : F32) : F32 := if fkey a < fkey b then b else a

/-- An integer as FP32, exact below 2^24 (R103). -/
def fint (i : Int) : F32 := rnd32 (i < 0) i.natAbs 0

/-- T[j] x 2^23 of Table 4-4: 2^(j/64) rounded once to FP32. -/
def exp2Table : List Nat :=
  [8388608, 8479954, 8572295, 8665641, 8760003, 8855394, 8951823, 9049301,
   9147842, 9247455, 9348154, 9449948, 9552851, 9656875, 9762032, 9868333,
   9975792, 10084422, 10194234, 10305242, 10417458, 10530897, 10645571, 10761494,
   10878679, 10997140, 11116891, 11237946, 11360319, 11484025, 11609078, 11735492,
   11863283, 11992466, 12123055, 12255067, 12388516, 12523418, 12659789, 12797645,
   12937002, 13077877, 13220286, 13364245, 13509772, 13656884, 13805598, 13955931,
   14107901, 14261526, 14416824, 14573813, 14732511, 14892937, 15055111, 15219050,
   15384775, 15552304, 15721658, 15892855, 16065917, 16240863, 16417715, 16596492]

/-- exp2 for arguments at most zero (R105). Of a positive argument or a NaN the spec states no result: the value is free
(log entry 19). -/
def fexp2 (y : F32) : F32 :=
  match fdec y with
  | .nan => Config.exp2Free y
  | .inf neg => if neg then fzero else Config.exp2Free y
  | .fin neg mag e =>
    -- |y| in units of 2^-149, the unit every FP32 value is a multiple of
    let u := mag * 2 ^ (e + 149).toNat
    if u = 0 then fone
    else if neg = false then Config.exp2Free y
    else if 126 * 2 ^ 149 < u then fzero
    else
      let n := (u + 2 ^ 149 - 1) / 2 ^ 149
      let f := n * 2 ^ 149 - u
      let j := f / 2 ^ 143
      let r := f % 2 ^ 143
      -- C2 x r and t x r with r exact
      let t := rnd32 false (0xF5FDF0 * r) (-26 - 149)
      let t := fadd t 0x3F317218
      let t := match fdec t with
        | .fin _ m q => rnd32 false (m * r) (q - 149)
        | _ => fnan
      let p := fadd t fone
      let x := fmul (rnd32 false (exp2Table.getD j 0) (-23)) p
      match fdec x with
      | .fin s m q => rnd32 s m (q - n)
      | _ => fnan

/-- Sums of neighbours. -/
def pairSums : List F32 → List F32
  | a :: b :: t => fadd a b :: pairSums t
  | l => l

/-- The pairwise tree sum of 2^levels inputs (R102, R109). -/
def treeSum : Nat → List F32 → F32
  | 0, l => l.headD fzero
  | k + 1, l => treeSum k (pairSums l)

/-- The dot product of R102. -/
def dot (q k : List F32) (d : Nat) : F32 :=
  let p := List.zipWith fmul q k
  let sums := (List.range (d / 32)).map fun j => treeSum 5 ((p.drop (32 * j)).take 32)
  match sums with
  | [] => fzero
  | g :: gs => gs.foldl fadd g

/-! Number formats (Table 4-1). -/

/-- Exponent bits, mantissa bits and bias of a format code; none for MXINT8 and unassigned codes. -/
def fmtShape : Nat → Option (Nat × Nat × Nat)
  | 0 => some (8, 23, 127) | 1 => some (8, 7, 127) | 2 => some (5, 10, 15) | 3 => some (4, 3, 7)
  | 4 => some (5, 2, 15) | 5 => some (2, 3, 1) | 6 => some (2, 1, 1) | _ => none

/-- Bits of one packed element (R94). -/
def fmtBits : Nat → Nat
  | 0 => 32 | 1 => 16 | 2 => 16 | 3 => 8 | 4 => 8 | 5 => 6 | 6 => 4 | 7 => 8 | _ => 0

/-- The format has a block scale. -/
def fmtIsMx (f : Nat) : Bool := f = 5 || f = 6 || f = 7

/-- emax of R98. -/
def fmtEmax (f : Nat) : Int := if f = 7 then 0 else 2

/-- A finite or non-finite element as a datum, without its scale (Table 4-1). -/
def fmtDec (f raw : Nat) : Fv :=
  if f = 7 then
    let r := raw % 256
    if 128 ≤ r then .fin true (256 - r) (-6) else .fin false r (-6)
  else match fmtShape f with
  | none => .nan
  | some (eb, mb, bias) =>
    let ex := raw / 2 ^ mb % 2 ^ eb
    let fr := raw % 2 ^ mb
    let neg := decide (raw / 2 ^ (eb + mb) % 2 = 1)
    if ex + 1 = 2 ^ eb ∧ (f = 0 ∨ f = 1 ∨ f = 2 ∨ f = 4) then (if fr = 0 then .inf neg else .nan)
    else if f = 3 ∧ ex = 15 ∧ fr = 7 then .nan
    else if ex = 0 then .fin neg fr (1 - (bias : Int) - mb)
    else .fin neg (fr + 2 ^ mb) ((ex : Int) - bias - mb)

/-- Decode one element exactly to FP32 (R95); `scale` is its block's scale byte in an MX format. -/
def fmtToF32 (f : Nat) (scale : Option Nat) (raw : Nat) : F32 :=
  match fmtDec f raw, scale with
  | .fin s m e, some sc => if sc = 255 then fnan else rnd32 s m (e + sc - 127)
  | v, _ => fenc v

/-- The greatest magnitude code of a format, without its sign. -/
def fmtMaxCode : Nat → Nat
  | 0 => 0x7F7FFFFF | 1 => 0x7F7F | 2 => 0x7BFF | 3 => 0x7E | 4 => 0x7B | 5 => 0x1F | 6 => 0x7 | _ => 127

/-- Round a magnitude onto a format's grid: the code without its sign, before saturation. -/
def fmtRoundCode (f mag : Nat) (e : Int) : Nat :=
  if mag = 0 then 0
  else match fmtShape f with
  | none => (roundBits 64 (-6) mag e).1
  | some (_, mb, bias) =>
    let qmin : Int := 1 - (bias : Int) - mb
    let (m, q) := roundBits (mb + 1) qmin mag e
    -- the code of m x 2^q is q - qmin binades above the first, plus m
    (q - qmin).toNat * 2 ^ mb + m

/-- Convert a finite magnitude to a storage format with saturation (R97): the raw element. -/
def fmtFromMag (f : Nat) (neg : Bool) (mag : Nat) (e : Int) : Nat :=
  let c := min (fmtMaxCode f) (fmtRoundCode f mag e)
  if f = 7 then (if neg ∧ c ≠ 0 then 256 - c else c)
  else if neg then c + 2 ^ (fmtBits f - 1) else c

/-- Convert FP32 to a storage format (R97). The argument is finite: a non-finite payload never reaches
this (R97); it would give the greatest magnitude. -/
def fmtFromF32 (f : Nat) (x : F32) : Nat :=
  match fdec x with
  | .fin s m e => fmtFromMag f s m e
  | .inf s => fmtFromMag f s 1 1000
  | .nan => fmtMaxCode f

/-- Convert a result to BF16 (R97, R116): none where it would round to an infinity. -/
def toBf16 (x : F32) : Option Nat :=
  match fdec x with
  | .fin s m e =>
    let c := fmtRoundCode 1 m e
    if 0x7F80 ≤ c then none else some (if s then c + 0x8000 else c)
  | _ => none

/-- One MX block of 32 values (R98): the scale byte and the raw elements. DESIGN CHOICE (log entry 164): of a block with a
non-finite value, which condensing (R272) can meet in a leaf, R98 states no result; it is free. -/
def mxBlock (f : Nat) (xs : List F32) : Nat × List Nat :=
  if !xs.all ffinite then
    (Config.mxOpen f xs 0 % 256, (List.range xs.length).map fun i => Config.mxOpen f xs (i + 1) % 2 ^ fmtBits f)
  else
  let mags : List (Nat × Int) := xs.map fun x => match fdec x with | .fin _ m e => (m, e) | _ => (0, 0)
  let logs := mags.filterMap fun p => if p.1 = 0 then none else some ((Nat.log2 p.1 : Int) + p.2)
  match logs with
  | [] => (0, xs.map fun _ => 0)
  | l :: ls =>
    let e := max (-127) (min 127 (ls.foldl max l - fmtEmax f))
    ((e + 127).toNat, xs.map fun x => match fdec x with
      | .fin s m q => fmtFromMag f s m (q - e)
      | _ => 0)

/-- Elements of `w` bits from packed bytes (R94). -/
def unpack (w n : Nat) (bs : List Byte) : List Nat :=
  let v := leNat bs
  (List.range n).map fun i => v / 2 ^ (w * i) % 2 ^ w

/-- The number whose w-bit digits are the elements, first lowest. -/
def packNat (w : Nat) : List Nat → Nat
  | [] => 0
  | x :: xs => x % 2 ^ w + 2 ^ w * packNat w xs

/-- Packed bytes of elements (R94). -/
def pack (w : Nat) (xs : List Nat) : List Byte := leBytes (ceilDiv (w * xs.length) 8) (packNat w xs)

/-- Bytes of one vector of d elements. -/
def vecBytes (f d : Nat) : Nat := d * fmtBits f / 8

/-- Bytes of a vector's scale run: one for each 32 elements of an MX format (R65). -/
def scaleBytes (f d : Nat) : Nat := if fmtIsMx f then d / 32 else 0

/-- Decode a stored vector with its scale run to FP32 (R95). -/
def decodeVec (f d : Nat) (bs scales : List Byte) : List F32 :=
  let raws := unpack (fmtBits f) d bs
  if fmtIsMx f then
    let sc := scales.map BitVec.toNat
    (raws.zip (List.range d)).map fun p => fmtToF32 f (some (sc.getD (p.2 / 32) 0)) p.1
  else raws.map (fmtToF32 f none)

/-- Encode a vector into a storage format: packed bytes and scale run (R97, R98). -/
def encodeVec (f : Nat) (xs : List F32) : List Byte × List Byte :=
  if fmtIsMx f then
    let blocks := (List.range (xs.length / 32)).map fun j => mxBlock f ((xs.drop (32 * j)).take 32)
    (pack (fmtBits f) (blocks.flatMap Prod.snd), blocks.map fun b => BitVec.ofNat 8 b.1)
  else (pack (fmtBits f) (xs.map (fmtFromF32 f)), [])

/-! Partials (R111 to R116). -/

/-- The empty partial with d elements (R112). -/
def partialNone (d level group : Nat) : Partial :=
  { m := fnegInf, l := fzero, empty := true, oBf16 := false, level := level, group := group,
    o := List.replicate d fzero }

/-- LEVEL and GROUP name a node of the tree (R115). -/
def partialNamed (p : Partial) : Bool := p.level ≤ 16 && p.group < 2 ^ (16 - p.level)

/-- The merge of R113, in FP32; LEVEL and GROUP are the caller's. -/
def mergeTwo (p q : Partial) (level group : Nat) : Partial :=
  if p.empty then { q with level := level, group := group, oBf16 := false }
  else if q.empty then { p with level := level, group := group, oBf16 := false }
  else
    let m := fmax p.m q.m
    let a := fexp2 (fsub p.m m)
    let b := fexp2 (fsub q.m m)
    { m := m, l := fadd (fmul p.l a) (fmul q.l b), empty := false, oBf16 := false, level := level,
      group := group, o := List.zipWith (fun x y => fadd (fmul x a) (fmul y b)) p.o q.o }

/-- Every number of a partial is finite, or it is empty. -/
def partialFinite (p : Partial) : Bool :=
  p.empty || (ffinite p.m && ffinite p.l && p.o.all ffinite)

/-- LEVEL and GROUP of a merge of two partials (R115). -/
def mergeGroup (p q : Partial) : Nat × Nat :=
  if partialNamed p && partialNamed q then
    if p.level = q.level ∧ p.group / 2 = q.group / 2 ∧ p.group ≠ q.group ∧ p.level < 16 then
      (p.level + 1, p.group / 2)
    else if p.level = q.level ∧ p.group = q.group ∧ (p.empty ∨ q.empty) then (p.level, p.group)
    else (0xFF, 0)
  else (0xFF, 0)

/-- Element-by-element addition of two dQ partials, in place of R113 (R183). -/
def addTwo (p q : Partial) (level group : Nat) : Partial :=
  if p.empty then { q with level := level, group := group }
  else if q.empty then { p with level := level, group := group }
  else { p with level := level, group := group, o := List.zipWith fadd p.o q.o }

/-- Combine a node partial into a level's nodes, which rise by group: siblings of the same parent combine in
order. `f` is the rule of combination, R113 or R183. -/
def insertNode (f : Partial → Partial → Nat → Nat → Partial) (k i : Nat) (p : Partial) :
    List (Nat × Partial) → List (Nat × Partial)
  | [] => [(i, p)]
  | (j, q) :: t =>
    if i < j then (i, p) :: (j, q) :: t
    else if i = j then (j, f q p k i) :: t
    else (j, q) :: insertNode f k i p t

/-- The nodes at the next level: children combine into their parent (R114). -/
def liftNodes (f : Partial → Partial → Nat → Nat → Partial) (k : Nat) (l : List (Nat × Partial)) : List (Nat × Partial) :=
  l.foldl (fun acc n => insertNode f (k + 1) (n.1 / 2) { n.2 with level := k + 1, group := n.1 / 2 } acc) []

/-- Evaluate the tree of R114 from level `k` for `n` more levels over given nodes (level, group, partial). -/
def treeNodes (f : Partial → Partial → Nat → Nat → Partial) (given : List (Nat × Nat × Partial)) :
    Nat → Nat → List (Nat × Partial) → List (Nat × Partial)
  | _, 0, l => l
  | k, n + 1, l =>
    let up := liftNodes f k l
    let up := (given.filter fun g => g.1 = k + 1).foldl (fun acc g => insertNode f (k + 1) g.2.1 g.2.2 acc) up
    treeNodes f given (k + 1) n up

/-- Node (16, 0) of the tree over partials at their nodes (R114); empty nodes are identities. -/
def combineTree (f : Partial → Partial → Nat → Nat → Partial) (d : Nat) (given : List (Nat × Nat × Partial)) : Partial :=
  let live := given.filter fun g => !g.2.2.empty
  let base := (live.filter fun g => g.1 = 0).foldl (fun acc g => insertNode f 0 g.2.1 g.2.2 acc) []
  match treeNodes f live 0 16 base with
  | [] => partialNone d 16 0
  | n :: _ => n.2

/-- The tree value of attention partials. -/
def mergeTree (d : Nat) (given : List (Nat × Nat × Partial)) : Partial := combineTree mergeTwo d given

/-- Bytes of a partial (Table 4-5). -/
def partialBytes (p : Partial) : List Byte :=
  leBytes 4 p.m.toNat ++ leBytes 4 p.l.toNat
    ++ [BitVec.ofNat 8 ((if p.empty then 1 else 0) + (if p.oBf16 then 2 else 0)), BitVec.ofNat 8 p.level]
    ++ leBytes 2 p.group ++ leBytes 4 0
    ++ (if p.oBf16 then p.o.flatMap fun x => leBytes 2 (x.toNat / 2 ^ 16)
        else p.o.flatMap fun x => leBytes 4 x.toNat)

/-- A partial read from its bytes (Table 4-5), O converted to FP32 exactly (R113). One with EMPTY set is
empty whatever else it holds (R112). -/
def partialOfBytes (d : Nat) (bs : List Byte) : Partial :=
  let fl := leNat ((bs.drop 8).take 1)
  let bf := fl / 2 % 2 = 1
  let level := leNat ((bs.drop 9).take 1)
  let group := leNat ((bs.drop 10).take 2)
  if fl % 2 = 1 then { partialNone d level group with oBf16 := bf }
  else
    { m := BitVec.ofNat 32 (leNat (bs.take 4)), l := BitVec.ofNat 32 (leNat ((bs.drop 4).take 4)),
      empty := false, oBf16 := bf, level := level, group := group,
      o := (List.range d).map fun i =>
        if bf then BitVec.ofNat 32 (leNat ((bs.drop (16 + 2 * i)).take 2) * 2 ^ 16)
        else BitVec.ofNat 32 (leNat ((bs.drop (16 + 4 * i)).take 4)) }

/-! CRCs. -/

/-- One bit of a reflected CRC of the given polynomial. -/
def crcBits (poly : Nat) : Nat → Nat → Nat
  | 0, c => c
  | n + 1, c => crcBits poly n (if c % 2 = 1 then (c / 2) ^^^ poly else c / 2)

/-- CRC-32C (polynomial 0x1EDC6F41 reflected, initial and final complement). -/
def crc32c (bs : List Byte) : BitVec 32 :=
  BitVec.ofNat 32 ((bs.foldl (fun c b => crcBits 0x82F63B78 8 (c ^^^ b.toNat)) 0xFFFFFFFF) ^^^ 0xFFFFFFFF)

/-- One bit of an unreflected 16-bit CRC. -/
def crc16Bits : Nat → Nat → Nat
  | 0, c => c
  | n + 1, c => crc16Bits n (if 0x8000 ≤ c then ((c * 2) % 65536) ^^^ 0x1021 else c * 2)

/-- CRC-16 of lane-control words: polynomial 0x1021, initial value 0xFFFF (Table 11-2). -/
def crc16 (bs : List Byte) : BitVec 16 :=
  BitVec.ofNat 16 (bs.foldl (fun c b => crc16Bits 8 (c ^^^ (b.toNat * 256))) 0xFFFF)

end Sys2Proof.Machine
end

