-- ==== Sys2Proof/Machine/RegMap.lean ====
section
/-! DEFINITION. The register map: which fields each register has, with access type and Reset value
(Tables 2-3 to 18-9), and a name for each field. -/

namespace Sys2Proof.Machine

/-- Access types (Table 0-3). -/
inductive Acc where
  | ro | rw | w1c | rws | rol
  deriving DecidableEq, Repr

/-- One row of a register table: bits [hi:lo], access, Reset. -/
structure Fld where
  hi : Nat
  lo : Nat
  acc : Acc
  reset : Nat
  deriving DecidableEq, Repr

/-- A field at its place: block, offset, bits. -/
structure Field where
  block : Nat
  offset : Nat
  hi : Nat
  lo : Nat
  deriving DecidableEq, Repr

/-- The register blocks of Table 17-1. -/
inductive Kind where
  | stackCtl | nbu | att | port | xport | tm | cat | index | mover | annex | seqr | keeper | ident
  deriving DecidableEq, Repr

/-- The block at an index, with its INSTANCE; other indices are unassigned (Table 17-1). -/
def blockAt (b : Nat) : Option (Kind × Nat) :=
  if b < 0x00C then some (.stackCtl, b)
  else if 0x010 ≤ b ∧ b < 0x01C then some (.nbu, b - 0x010)
  else if 0x020 ≤ b ∧ b < 0x024 then some (.att, b - 0x020)
  else if 0x030 ≤ b ∧ b < 0x038 then some (.port, b - 0x030)
  else if b = 0x038 then some (.xport, 0)
  else if b = 0x040 then some (.tm, 0)
  else if b = 0x050 then some (.cat, 0)
  else if b = 0x058 then some (.index, 0)
  else if b = 0x060 then some (.mover, 0)
  else if 0x068 ≤ b ∧ b < 0x06C then some (.annex, b - 0x068)
  else if b = 0x070 then some (.seqr, 0)
  else if b = 0x080 then some (.keeper, 0)
  else if b = 0x0F0 then some (.ident, 0)
  else none

/-- BLOCK_ID of a kind (Table 17-1). -/
def Kind.id : Kind → Nat
  | .stackCtl => 1 | .nbu => 2 | .att => 3 | .port => 4 | .xport => 5 | .tm => 6 | .cat => 7
  | .index => 8 | .mover => 9 | .annex => 10 | .seqr => 11 | .keeper => 12 | .ident => 13

/-- NOMINAL of a kind's STATUS (Table 17-2). -/
def Kind.nominal : Kind → Nat
  | .stackCtl => 64 | .nbu => 256 | .att => 48 | .port => 8 | .index => 16 | .mover => 16
  | .annex => 16 | _ => 0

/-- A whole-register field. -/
def whole (a : Acc) : List Fld := [⟨63, 0, a, 0⟩]

/-- Registers of Table 2-3, 17-7. -/
def seqrFields : Nat → List Fld
  | 0x020 => [⟨47, 0, .ro, 0⟩]  -- ROW_NOW
  | 0x028 => [⟨31, 16, .ro, 0⟩, ⟨6, 6, .w1c, 0⟩, ⟨5, 4, .ro, 0⟩, ⟨1, 0, .ro, 0⟩]  -- SYNC_STATUS
  | 0x030 => [⟨63, 62, .rw, 0⟩, ⟨61, 59, .ro, 0⟩, ⟨47, 0, .rw, 0⟩]  -- PAT_SWITCH
  | 0x038 => [⟨63, 32, .ro, 0⟩, ⟨31, 0, .ro, 0⟩]  -- PAT_IDS
  | 0x040 => [⟨16, 16, .rol, 0⟩, ⟨15, 0, .rol, 0⟩]  -- SYNC_CFG
  | 0x048 => [⟨2, 2, .rw, 0⟩, ⟨1, 0, .rw, 0⟩]  -- PAT_WINDOW
  | _ => []

/-- Registers of Table 3-8. -/
def catFields : Nat → List Fld
  | 0x020 => [⟨25, 0, .ro, 0⟩]  -- FREE_GRANULES
  | 0x028 => [⟨25, 0, .ro, 0⟩]  -- FREE_CARDS
  | 0x030 => [⟨19, 0, .ro, 0⟩]  -- FREE_TABLE_PAGES
  | 0x038 => [⟨51, 32, .ro, 0⟩, ⟨20, 0, .ro, 0⟩]  -- SEQ_SLOTS
  | 0x040 => [⟨47, 32, .rw, 0⟩, ⟨31, 16, .rw, 0⟩, ⟨15, 0, .rw, 0⟩]  -- FREE_EVENTS
  | 0x048 => [⟨63, 62, .rw, 0⟩, ⟨61, 60, .ro, 0⟩, ⟨19, 0, .rw, 0x10000⟩]  -- COMPACT
  | 0x050 => [⟨47, 0, .ro, 0⟩]  -- OLDEST_WALK_ROW
  | _ => []

/-- Registers of Table 6-4. -/
def nbuFields : Nat → List Fld
  | 0x020 => [⟨36, 32, .ro, 0⟩, ⟨24, 16, .ro, 0⟩, ⟨8, 0, .ro, 0⟩]  -- NBU_STATUS
  | 0x028 => [⟨31, 24, .ro, 0⟩, ⟨23, 16, .ro, 0⟩, ⟨15, 8, .ro, 0⟩, ⟨7, 0, .ro, 0⟩]  -- CAP_NOW
  | 0x030 | 0x038 | 0x040 | 0x048 => [⟨63, 0, .ro, 0⟩]  -- FALLBACK_MAP0
  | 0x050 => [⟨63, 0, .rw, 0⟩]  -- BUSY_CYCLES
  | 0x058 => [⟨63, 0, .rw, 0⟩]  -- OFFERED_CYCLES
  | 0x060 => [⟨63, 32, .rw, 0⟩, ⟨31, 0, .rw, 0⟩]  -- ROUNDS
  | 0x068 => [⟨41, 32, .rw, 0⟩, ⟨31, 0, .rw, 0⟩]  -- CONFLICT
  | 0x070 => [⟨63, 32, .rw, 0⟩, ⟨31, 0, .rw, 0⟩]  -- PATH_ITEMS
  | 0x078 => [⟨63, 63, .w1c, 0⟩, ⟨62, 59, .ro, 0⟩, ⟨55, 48, .ro, 0⟩, ⟨47, 0, .ro, 0⟩]  -- NBU_FAULT
  | 0x080 => [⟨63, 62, .rw, 0⟩, ⟨61, 59, .ro, 0⟩, ⟨7, 0, .rw, 0⟩]  -- SPARE_CTL
  | _ => []

/-- Registers of Table 7-5. -/
def attFields : Nat → List Fld
  | 0x020 => [⟨39, 32, .ro, 0⟩, ⟨18, 16, .ro, 0⟩, ⟨5, 0, .ro, 0⟩]  -- ARRAY_STATUS
  | 0x028 => [⟨15, 0, .ro, 0⟩]  -- ACLK_NOW
  | 0x030 => [⟨47, 0, .ro, 0⟩]  -- OUT_MAP
  | 0x038 => [⟨63, 32, .rw, 0⟩, ⟨31, 0, .rw, 0⟩]  -- TILES
  | 0x040 => [⟨63, 0, .rw, 0⟩]  -- BUSY_CELL_CYCLES
  | 0x048 => [⟨63, 32, .rw, 0⟩, ⟨31, 0, .rw, 0⟩]  -- APPEND_WORK
  | 0x050 => [⟨63, 63, .w1c, 0⟩, ⟨62, 59, .ro, 0⟩, ⟨13, 8, .ro, 0⟩, ⟨6, 0, .ro, 0⟩]  -- ARRAY_FAULT
  | 0x058 => [⟨47, 0, .ro, 0⟩]  -- ARRAY_FAULT_ROW
  | 0x060 => [⟨63, 62, .rw, 0⟩, ⟨61, 59, .ro, 0⟩, ⟨5, 0, .rw, 0⟩]  -- SPARE_CTL
  | _ => []

/-- Registers of Table 9-2. -/
def indexFields : Nat → List Fld
  | 0x020 => [⟨20, 0, .ro, 0⟩]  -- INDEX_USED
  | 0x028 => [⟨63, 62, .rw, 0⟩, ⟨61, 59, .ro, 0⟩, ⟨23, 20, .rw, 0⟩, ⟨19, 0, .rw, 0⟩]  -- INDEX_CTL
  | 0x030 => [⟨63, 48, .rw, 0⟩, ⟨47, 32, .rw, 0⟩, ⟨31, 16, .rw, 0⟩, ⟨15, 0, .rw, 0⟩]  -- INDEX_EVENTS
  | 0x038 => [⟨63, 62, .ro, 0⟩, ⟨47, 0, .ro, 0⟩]  -- SCRUB_STATUS
  -- BANK_SCOPE0
  | 0x040 | 0x048 | 0x050 | 0x058 | 0x060 | 0x068 | 0x070 | 0x078 | 0x080 | 0x088 | 0x090 | 0x098 |
    0x0A0 | 0x0A8 | 0x0B0 | 0x0B8 =>
    [⟨48, 32, .ro, 0⟩, ⟨31, 31, .rw, 0⟩, ⟨11, 0, .rw, 0⟩]
  | _ => []

/-- Registers of Table 10-6. -/
def moverFields : Nat → List Fld
  -- MOVER_CTL
  | 0x020 =>
    [⟨63, 62, .rw, 0⟩, ⟨61, 59, .ro, 0⟩, ⟨20, 16, .rw, 0⟩, ⟨1, 1, .rw, 0⟩, ⟨0, 0, .rw, 1⟩]
  | 0x028 => [⟨57, 32, .rw, 0x100000⟩, ⟨25, 0, .rw, 0x80000⟩]  -- WATER
  | 0x030 | 0x038 | 0x040 | 0x048 => [⟨63, 0, .rw, 0⟩]  -- PREFETCH0
  | 0x050 => [⟨23, 16, .rw, 0x10⟩, ⟨15, 8, .rw, 0x40⟩, ⟨7, 0, .rw, 0x40⟩]  -- CLASS_WEIGHTS
  | 0x058 => [⟨47, 0, .rw, 0⟩]  -- CONDENSE_AGE
  | 0x060 => [⟨63, 48, .ro, 0⟩, ⟨47, 32, .ro, 0⟩, ⟨20, 16, .ro, 0⟩, ⟨15, 0, .ro, 0⟩]  -- POOL_STATUS
  | 0x068 => [⟨28, 0, .ro, 0⟩]  -- ANNEX_FREE
  | 0x070 => [⟨63, 63, .rw, 0⟩, ⟨25, 0, .rw, 0⟩]  -- LOAN_CTL
  | 0x078 => [⟨48, 32, .ro, 0⟩, ⟨25, 0, .ro, 0⟩]  -- LOANS
  -- LENDER0
  | 0x080 | 0x088 | 0x090 | 0x098 | 0x0A0 | 0x0A8 | 0x0B0 | 0x0B8 =>
    [⟨15, 15, .rw, 0⟩, ⟨13, 0, .rw, 0⟩]
  | 0x0C0 => [⟨63, 32, .rw, 0⟩, ⟨31, 0, .rw, 0⟩]  -- MOVES
  | 0x0C8 => [⟨63, 32, .rw, 0⟩, ⟨31, 16, .rw, 0⟩, ⟨15, 0, .rw, 0⟩]  -- POOL_EVENTS
  | _ => []

/-- Registers of Table 11-5. -/
def portFields : Nat → List Fld
  -- PORT_CFG
  | 0x020 =>
    [⟨27, 26, .rol, 0⟩, ⟨25, 25, .rol, 0⟩, ⟨24, 24, .rol, 0⟩, ⟨23, 22, .rol, 0⟩, ⟨21, 21, .rol, 0⟩,
     ⟨17, 9, .rol, 0⟩, ⟨8, 0, .rol, 0⟩]
  -- PORT_STATUS
  | 0x028 =>
    [⟨47, 34, .ro, 0⟩, ⟨33, 31, .ro, 0⟩, ⟨27, 24, .ro, 0⟩, ⟨21, 20, .ro, 0⟩, ⟨17, 17, .ro, 0⟩,
     ⟨16, 16, .ro, 0⟩, ⟨8, 0, .ro, 0⟩]
  | 0x030 => [⟨31, 0, .ro, 0xFFFFFFFF⟩]  -- LANE_MAP
  | 0x038 => [⟨63, 61, .rw, 0⟩, ⟨60, 58, .ro, 0⟩, ⟨2, 0, .rw, 0⟩]  -- PORT_CTL
  | 0x040 => [⟨63, 32, .rw, 0⟩, ⟨31, 0, .rw, 0⟩]  -- FEC_COUNTS
  | 0x048 => [⟨63, 63, .ro, 0⟩, ⟨62, 62, .w1c, 0⟩, ⟨47, 32, .rw, 0⟩, ⟨31, 0, .rw, 0⟩]  -- MACSEC_STATUS
  | 0x050 => [⟨31, 0, .rw, 0⟩]  -- PTP_ASYM
  | 0x058 => [⟨15, 0, .rw, 0x100⟩]  -- SWAP_LIMIT
  | _ => []

/-- Registers of Table 11-5. -/
def laneFields : Nat → List Fld
  | 0x000 => [⟨39, 32, .ro, 0⟩, ⟨2, 2, .ro, 0⟩, ⟨1, 1, .ro, 0⟩, ⟨0, 0, .ro, 0⟩]  -- LANE_STATUS
  | 0x008 => [⟨7, 5, .rw, 0⟩, ⟨4, 2, .rw, 0⟩, ⟨1, 1, .rw, 0⟩]  -- PRBS_CTL
  | 0x010 => [⟨63, 0, .rw, 0⟩]  -- PRBS_ERRORS
  | 0x018 => [⟨63, 0, .rw, 0⟩]  -- PRBS_BITS
  | 0x020 => [⟨63, 0, .rw, 0⟩]  -- LANE_SYMBOLS
  | _ => []

/-- Registers of Table 12-8, 17-8. -/
def xportFields : Nat → List Fld
  | 0x020 => [⟨48, 32, .ro, 0⟩, ⟨16, 0, .ro, 0⟩]  -- QP_USAGE
  | 0x028 => [⟨20, 0, .ro, 0⟩]  -- QP_LIMITS
  | 0x030 => [⟨15, 0, .rw, 0x40⟩]  -- SHARED_RESERVE
  | 0x038 => [⟨51, 32, .ro, 0⟩, ⟨20, 0, .ro, 0⟩]  -- KEY_USAGE
  | 0x040 => [⟨47, 32, .rw, 0x400⟩, ⟨27, 16, .rw, 0x10⟩, ⟨15, 0, .rw, 0x800⟩]  -- TIMERS
  | 0x048 => [⟨63, 32, .rw, 0⟩, ⟨31, 16, .rw, 0⟩, ⟨15, 0, .rw, 0⟩]  -- RETRANS
  | 0x050 => [⟨63, 32, .rw, 0⟩, ⟨31, 0, .rw, 0⟩]  -- DISCARDS
  | 0x058 => [⟨63, 48, .rw, 0⟩, ⟨47, 32, .rw, 0⟩, ⟨31, 16, .rw, 0⟩, ⟨15, 0, .rw, 0⟩]  -- QP_ERRORS
  | 0x060 => [⟨63, 62, .rw, 0⟩, ⟨61, 59, .ro, 0⟩, ⟨15, 0, .rw, 0⟩]  -- QP_INSPECT
  -- QP_STATE
  | 0x068 =>
    [⟨63, 61, .ro, 0⟩, ⟨60, 59, .ro, 0⟩, ⟨58, 58, .ro, 0⟩, ⟨57, 57, .ro, 0⟩, ⟨56, 56, .ro, 0⟩,
     ⟨55, 44, .ro, 0⟩, ⟨43, 30, .ro, 0⟩, ⟨29, 24, .ro, 0⟩, ⟨23, 20, .ro, 0⟩, ⟨12, 0, .ro, 0⟩]
  | 0x070 => [⟨63, 0, .rol, 0⟩]  -- GATEWAY_DOMAINS
  | 0x078 => [⟨15, 0, .rol, 0x88B5⟩]  -- FABRIC_ETHERTYPE
  | _ => []

/-- Registers of Table 13-4. -/
def tmFields : Nat → List Fld
  -- DWRR_WEIGHTS
  | 0x020 =>
    [⟨39, 32, .rw, 0x40⟩, ⟨31, 24, .rw, 0x20⟩, ⟨23, 16, .rw, 0x10⟩, ⟨15, 8, .rw, 8⟩, ⟨7, 0, .rw, 8⟩]
  | 0x028 => [⟨58, 48, .ro, 0⟩, ⟨42, 32, .ro, 0⟩, ⟨10, 0, .rw, 0x300⟩]  -- BUFFER
  | 0x030 => [⟨63, 32, .rw, 0⟩, ⟨31, 0, .rw, 0⟩]  -- POLICE_COUNTS
  | 0x038 => [⟨61, 48, .ro, 0⟩, ⟨47, 0, .ro, 0⟩]  -- LAST_RED
  | 0x040 => [⟨63, 32, .rw, 0⟩, ⟨31, 16, .rw, 0⟩, ⟨15, 0, .rw, 0⟩]  -- CLASS_DROPS
  | _ => []

/-- Registers of Table 13-4. -/
def tmPortFields : Nat → List Fld
  | 0x000 => [⟨63, 62, .rw, 0⟩, ⟨61, 59, .ro, 0⟩, ⟨47, 0, .rw, 0⟩]  -- GATE_SWITCH
  | 0x008 => [⟨63, 32, .ro, 0⟩, ⟨31, 0, .ro, 0⟩]  -- GATE_IDS
  | 0x010 => [⟨63, 32, .rw, 0⟩, ⟨15, 0, .rw, 0⟩]  -- GATE_WAITS
  | 0x018 => [⟨63, 48, .rw, 0⟩, ⟨47, 32, .rw, 0⟩, ⟨26, 16, .ro, 0⟩, ⟨10, 0, .ro, 0⟩]  -- TC7_BUFFER
  | _ => []

/-- Registers of Table 14-7, 15-6, 16-9. -/
def keeperFields : Nat → List Fld
  -- BOOT_STATUS
  | 0x020 =>
    [⟨63, 32, .ro, 0⟩, ⟨23, 20, .ro, 0⟩, ⟨19, 16, .ro, 0⟩, ⟨8, 8, .ro, 0⟩, ⟨1, 0, .ro, 0⟩]
  | 0x028 => [⟨63, 60, .rws, 0⟩, ⟨59, 48, .rws, 0⟩, ⟨47, 0, .rws, 0⟩]  -- RESET_CAUSE
  | 0x030 => [⟨63, 62, .rw, 0⟩]  -- RESET_CTL
  | 0x038 => [⟨63, 62, .rw, 0⟩, ⟨61, 59, .ro, 0⟩]  -- CASTON_CTL
  | 0x040 => [⟨63, 30, .rw, 0⟩, ⟨29, 0, .rw, 0⟩]  -- ROW_EPOCH
  | 0x048 => [⟨63, 61, .rw, 0⟩, ⟨60, 58, .ro, 0⟩, ⟨12, 12, .rw, 0⟩, ⟨11, 0, .rw, 0⟩]  -- TENANT_CTL
  | 0x050 | 0x058 | 0x060 | 0x068 | 0x070 | 0x078 => [⟨63, 0, .rw, 0⟩]  -- TENANT_AUTH0
  -- TENANT_INFO
  | 0x080 =>
    [⟨63, 62, .ro, 0⟩, ⟨61, 61, .ro, 0⟩, ⟨60, 60, .ro, 0⟩, ⟨59, 58, .ro, 0⟩, ⟨57, 55, .ro, 0⟩,
     ⟨20, 0, .ro, 0⟩]
  | 0x088 => [⟨27, 16, .ro, 0⟩, ⟨11, 0, .ro, 0⟩]  -- TENANT_COUNT
  | 0x090 | 0x098 | 0x0A0 | 0x0A8 => [⟨63, 0, .ro, 0⟩]  -- CLAIM0
  | 0x0B0 => [⟨63, 61, .rw, 0⟩, ⟨60, 58, .ro, 0⟩, ⟨7, 0, .rw, 0⟩]  -- BLOCK_REQ
  | 0x0B8 => [⟨63, 48, .rw, 0⟩, ⟨47, 32, .rw, 0⟩, ⟨31, 16, .rw, 0⟩, ⟨15, 0, .rw, 0⟩]  -- SECURE_EVENTS
  | 0x0C0 => [⟨10, 4, .ro, 0⟩, ⟨2, 0, .ro, 0⟩]  -- SHED
  | 0x0C8 => [⟨31, 16, .ro, 0⟩, ⟨15, 0, .ro, 0⟩]  -- FAULT_QUEUE
  | 0x0D0 => [⟨27, 24, .rw, 0⟩, ⟨19, 0, .rw, 0⟩]  -- GAUGE_SEL
  | 0x0D8 => [⟨47, 32, .ro, 0⟩, ⟨16, 16, .ro, 0⟩, ⟨15, 0, .ro, 0⟩]  -- GAUGE_VALUE
  | 0x0E0 => [⟨31, 16, .rw, 0x2000⟩, ⟨15, 0, .rw, 0x400⟩]  -- GAUGE_LIMITS
  | 0x0E8 => [⟨63, 48, .rw, 0⟩, ⟨47, 32, .rw, 0⟩, ⟨31, 0, .rw, 0⟩]  -- SWATCH_STATUS
  | 0x0F0 => [⟨63, 62, .rw, 0⟩, ⟨61, 59, .ro, 0⟩, ⟨47, 0, .ro, 0⟩]  -- BINDOFF_CTL
  | 0x0F8 => [⟨31, 0, .ro, 0⟩]  -- BINDOFF_NONCE
  -- MON_CTL0
  | 0x100 | 0x120 | 0x140 | 0x160 | 0x180 | 0x1A0 | 0x1C0 | 0x1E0 | 0x200 | 0x220 | 0x240 | 0x260 |
    0x280 | 0x2A0 | 0x2C0 | 0x2E0 =>
    [⟨63, 63, .rw, 0⟩, ⟨59, 56, .rw, 0⟩, ⟨55, 48, .rw, 0⟩, ⟨47, 32, .rw, 0⟩, ⟨31, 0, .rw, 0⟩]
  -- MON_RANGE0
  | 0x108 | 0x128 | 0x148 | 0x168 | 0x188 | 0x1A8 | 0x1C8 | 0x1E8 | 0x208 | 0x228 | 0x248 | 0x268 |
    0x288 | 0x2A8 | 0x2C8 | 0x2E8 =>
    [⟨63, 32, .rw, 0x80000000⟩, ⟨31, 0, .rw, 0x7FFFFFFF⟩]
  -- MON_COUNT0
  | 0x110 | 0x130 | 0x150 | 0x170 | 0x190 | 0x1B0 | 0x1D0 | 0x1F0 | 0x210 | 0x230 | 0x250 | 0x270 |
    0x290 | 0x2B0 | 0x2D0 | 0x2F0 =>
    [⟨63, 0, .rw, 0⟩]
  | _ => []

/-- Registers of Table 16-8. -/
def stackCtlFields : Nat → List Fld
  | 0x020 => [⟨63, 32, .rw, 0⟩, ⟨31, 0, .rw, 0⟩]  -- ECC_COUNTS
  | 0x028 => [⟨56, 48, .ro, 0⟩, ⟨47, 32, .ro, 0⟩, ⟨31, 16, .rw, 0⟩, ⟨15, 0, .rw, 4⟩]  -- REPAIR
  -- LAST_ERROR
  | 0x030 =>
    [⟨63, 63, .w1c, 0⟩, ⟨62, 62, .ro, 0⟩, ⟨61, 54, .ro, 0⟩, ⟨53, 52, .ro, 0⟩, ⟨47, 0, .ro, 0⟩]
  | 0x038 => [⟨15, 8, .ro, 0⟩, ⟨0, 0, .ro, 0⟩]  -- STACK_THERMAL
  | _ => []

/-- The header of every block (Table 17-2); offset 0x018 is reserved (R411). -/
def commonFields : Nat → List Fld
  | 0x000 => [⟨63, 32, .ro, 0⟩, ⟨31, 16, .ro, 1⟩, ⟨15, 0, .ro, 0⟩]  -- BLOCK_ID
  | 0x008 => [⟨47, 32, .ro, 0⟩, ⟨31, 16, .ro, 0⟩, ⟨5, 5, .ro, 0⟩, ⟨4, 4, .ro, 0⟩, ⟨3, 0, .ro, 0⟩]  -- STATUS
  -- ERROR_SUMMARY
  | 0x010 =>
    [⟨51, 32, .ro, 0⟩, ⟨31, 16, .rw, 0⟩, ⟨7, 7, .w1c, 0⟩, ⟨6, 6, .w1c, 0⟩, ⟨5, 5, .w1c, 0⟩,
     ⟨4, 4, .w1c, 0⟩, ⟨3, 3, .w1c, 0⟩, ⟨2, 2, .w1c, 0⟩, ⟨1, 1, .w1c, 0⟩, ⟨0, 0, .w1c, 0⟩]
  | _ => []

/-- Registers of Table 17-6, 18-9. -/
def identFields : Nat → List Fld
  | 0x020 => [⟨37, 32, .rol, 0⟩, ⟨13, 0, .rol, 0x3FFE⟩]  -- NODE_ID
  | 0x028 => [⟨63, 0, .ro, 0x3836372D37435148⟩]  -- PART
  | 0x030 => [⟨63, 48, .ro, 0⟩, ⟨47, 0, .ro, 0⟩]  -- UNIT
  | 0x038 => [⟨31, 0, .ro, 0⟩]  -- VENDOR
  | 0x040 => [⟨47, 40, .rws, 0⟩, ⟨16, 16, .ro, 0⟩, ⟨3, 0, .ro, 1⟩]  -- GLOBAL_STATUS
  | 0x048 | 0x050 => [⟨63, 0, .rol, 0⟩]  -- FM_NODES0
  | 0x060 | 0x068 | 0x070 | 0x078 => [⟨63, 0, .ro, 0⟩]  -- ERROR_MAP0
  | 0x080 => [⟨63, 48, .rw, 0⟩, ⟨43, 32, .rw, 0⟩, ⟨11, 0, .ro, 0⟩]  -- EVENT_PTR
  | 0x088 => [⟨63, 62, .rw, 0⟩, ⟨61, 59, .ro, 0⟩, ⟨26, 0, .rw, 0⟩]  -- FLASH_CTL
  | 0x090 => [⟨2, 0, .rw, 0⟩]  -- POWER_CFG
  | 0x098 => [⟨63, 52, .ro, 0⟩, ⟨34, 32, .ro, 0⟩, ⟨18, 0, .ro, 0x77358⟩]  -- POWER_STATUS
  -- THERMAL_STATUS
  | 0x0A0 =>
    [⟨63, 56, .ro, 0⟩, ⟨55, 48, .ro, 0⟩, ⟨47, 43, .ro, 0⟩, ⟨39, 20, .ro, 0⟩, ⟨3, 3, .ro, 0⟩,
     ⟨2, 2, .ro, 0⟩, ⟨1, 1, .ro, 0⟩, ⟨0, 0, .ro, 0⟩]
  | 0x0A8 => [⟨28, 16, .w1c, 0⟩, ⟨12, 0, .ro, 0⟩]  -- RAIL_STATUS
  | _ => []

/-- Registers of Table 17-8. -/
def annexFields : Nat → List Fld
  | 0x020 => [⟨32, 32, .rol, 0⟩, ⟨15, 0, .rol, 0⟩]  -- ANNEX_CFG
  | 0x028 => [⟨63, 32, .rw, 0⟩, ⟨7, 6, .ro, 0⟩, ⟨5, 4, .ro, 0⟩, ⟨3, 0, .ro, 0⟩]  -- ANNEX_LINK
  | 0x030 => [⟨63, 32, .rw, 0⟩, ⟨31, 0, .rw, 0⟩]  -- ANNEX_ERRORS
  | _ => []

/-- Registers of Table 17-8. -/
def arrayFields : Nat → List Fld
  | 0x000 => [⟨16, 16, .ro, 0⟩, ⟨10, 8, .ro, 0⟩, ⟨5, 0, .ro, 0⟩]  -- ARRAY_INFO
  | 0x008 => [⟨63, 0, .rw, 0⟩]  -- ARRAY_TILES
  | _ => []

/-- Words of a routing entry (Table 12-2): PATH0 to PATH7 without bit 6, then GENERATION and GATEWAY;
GATEWAY is reserved in node entries. -/
def routeFields (o : Nat) : List Fld :=
  let i := o / 16
  if i < 16383 ∨ (16384 ≤ i ∧ i < 16448) then
    if o % 16 = 0 then
      (List.range 8).flatMap fun j => [⟨8 * j + 7, 8 * j + 7, .rw, 0⟩, ⟨8 * j + 5, 8 * j, .rw, 0⟩]
    else if i < 16384 then [⟨15, 0, .ro, 0⟩]
    else [⟨15, 0, .ro, 0⟩, ⟨29, 16, .rw, 0⟩]
  else []

/-- Words of a policer entry (Table 13-2). -/
def policerFields (o : Nat) : List Fld :=
  if o / 16 < 16383 then
    if o % 16 = 0 then [⟨20, 0, .rw, 0⟩, ⟨52, 32, .rw, 0⟩]
    else [⟨15, 0, .rw, 0⟩, ⟨31, 16, .rw, 0⟩, ⟨34, 32, .rw, 0⟩, ⟨47, 40, .rw, 0⟩, ⟨63, 48, .ro, 0⟩]
  else []

/-- The windows of the Keeper block (R407): MANAGER_KEYS, the BINDOFF window, the histograms. -/
def keeperWindow (o : Nat) : List Fld :=
  if 0x300 ≤ o ∧ o < 0x300 + 0x40 * 7 ∧ (o - 0x300) % 0x40 < 48 then whole .rol
  else if 0x800 ≤ o ∧ o < 0x1000 then whole .rw
  else if 0x1000 ≤ o ∧ o < 0x1000 + 0x80 * 16 then [⟨63, 32, .rw, 0⟩, ⟨31, 0, .rw, 0⟩]
  else []

/-- Every field of the register at offset `o` of block `b`; empty where R409 has no register. The
pattern window, the gate-list windows and the event ring are not here: they are windows onto other
state. -/
def fieldsAt (b o : Nat) : List Fld :=
  if o % 8 ≠ 0 ∨ 0x100000 ≤ o then []
  else match blockAt b with
  | none => []
  | some (k, _) =>
    if o < 0x20 then commonFields o
    else match k with
    | .stackCtl => stackCtlFields o
    | .nbu => nbuFields o
    | .att => if o < 0x4000 then attFields o
        else if o / 0x4000 - 1 < 48 then arrayFields (o % 0x4000) else []
    | .port => if o < 0x1000 then portFields o
        else if o / 0x1000 - 1 < 9 then laneFields (o % 0x1000) else []
    | .xport => if 0x80000 ≤ o then routeFields (o - 0x80000) else xportFields o
    | .tm => if 0xC0000 ≤ o then policerFields (o - 0xC0000)
        else if o < 0x10000 then tmFields o
        else if o / 0x10000 - 1 < 8 then tmPortFields (o % 0x10000) else []
    | .cat => catFields o
    | .index => indexFields o
    | .mover => moverFields o
    | .annex => annexFields o
    | .seqr => seqrFields o
    | .keeper => match keeperFields o with
        | [] => keeperWindow o
        | fs => fs
    | .ident => if 0x30000 ≤ o ∧ o < 0x30100 then whole .rw else identFields o

/-- The bits of a field as a number. -/
def bits (w : Word) (hi lo : Nat) : Nat := (w.toNat >>> lo) % 2 ^ (hi + 1 - lo)

/-- A word with a field replaced. -/
def setBits (w : Word) (hi lo v : Nat) : Word :=
  BitVec.ofNat 64 (w.toNat % 2 ^ lo + (v % 2 ^ (hi + 1 - lo)) * 2 ^ lo
    + (w.toNat >>> (hi + 1)) * 2 ^ (hi + 1))

/-- The Reset value of a register: that of every field; BLOCK_ID's own numbers are Table 17-1's. -/
def resetWord (b o : Nat) : Word :=
  let w := (fieldsAt b o).foldl (fun w f => setBits w f.hi f.lo f.reset) 0
  match o, blockAt b with
  | 0x000, some (k, n) => setBits (setBits w 15 0 k.id) 63 32 n
  | 0x008, some (k, _) => setBits w 47 32 k.nominal
  | _, _ => w

/-- What a write leaves in a register under its fields' access types (Table 0-3): RW and RWS take the
written bits, W1C clears where a 1 is written, ROL takes them only while unlocked, RO keeps. -/
def writeWord (fs : List Fld) (locked : Bool) (old new : Word) : Word :=
  fs.foldl (fun w f =>
    match f.acc with
    | .ro => w
    | .rw | .rws => setBits w f.hi f.lo (bits new f.hi f.lo)
    | .w1c => setBits w f.hi f.lo
        (bits old f.hi f.lo - (bits old f.hi f.lo &&& bits new f.hi f.lo))
    | .rol => if locked then w else setBits w f.hi f.lo (bits new f.hi f.lo)) old

/-- What a full reset leaves in a register (Table 0-3): RW and W1C take their Reset value, RWS and ROL keep
theirs; RO fields take the Reset value and are then set by the hardware. -/
def resetKeep (b o : Nat) (old : Word) : Word :=
  (fieldsAt b o).foldl (fun w f =>
    match f.acc with
    | .rws | .rol => setBits w f.hi f.lo (bits old f.hi f.lo)
    | _ => w) (resetWord b o)

/-! Fields of the seqr registers. -/

def rRowNowRowNumber : Field := ⟨0x070, 0x020, 47, 0⟩
def rSyncStatusOffsetNs : Field := ⟨0x070, 0x028, 31, 16⟩
def rSyncStatusRowsyncFault : Field := ⟨0x070, 0x028, 6, 6⟩
def rSyncStatusSource : Field := ⟨0x070, 0x028, 5, 4⟩
def rSyncStatusSyncState : Field := ⟨0x070, 0x028, 1, 0⟩
def rPatSwitchOp : Field := ⟨0x070, 0x030, 63, 62⟩
def rPatSwitchResult : Field := ⟨0x070, 0x030, 61, 59⟩
def rPatSwitchSwitchRow : Field := ⟨0x070, 0x030, 47, 0⟩
def rPatIdsPendingPatternId : Field := ⟨0x070, 0x038, 63, 32⟩
def rPatIdsActivePatternId : Field := ⟨0x070, 0x038, 31, 0⟩
def rSyncCfgRackMaster : Field := ⟨0x070, 0x040, 16, 16⟩
def rSyncCfgBoardDelay : Field := ⟨0x070, 0x040, 15, 0⟩
def rPatWindowBank : Field := ⟨0x070, 0x048, 2, 2⟩
def rPatWindowPage : Field := ⟨0x070, 0x048, 1, 0⟩

/-! Fields of the cat registers. -/

def rFreeGranulesCount : Field := ⟨0x050, 0x020, 25, 0⟩
def rFreeCardsCount : Field := ⟨0x050, 0x028, 25, 0⟩
def rFreeTablePagesCount : Field := ⟨0x050, 0x030, 19, 0⟩
def rSeqSlotsRetired : Field := ⟨0x050, 0x038, 51, 32⟩
def rSeqSlotsFree : Field := ⟨0x050, 0x038, 20, 0⟩
def rFreeEventsNotOwnerCount : Field := ⟨0x050, 0x040, 47, 32⟩
def rFreeEventsStaleHandleCount : Field := ⟨0x050, 0x040, 31, 16⟩
def rFreeEventsDoubleFreeCount : Field := ⟨0x050, 0x040, 15, 0⟩
def rCompactOp : Field := ⟨0x050, 0x048, 63, 62⟩
def rCompactPhase : Field := ⟨0x050, 0x048, 61, 60⟩
def rCompactThreshold : Field := ⟨0x050, 0x048, 19, 0⟩
def rOldestWalkRowRow : Field := ⟨0x050, 0x050, 47, 0⟩

/-! Fields of the nbu registers. -/

def rNbuStatusSparesLeft (t : Nat) : Field := ⟨0x010 + t, 0x020, 36, 32⟩
def rNbuStatusInService (t : Nat) : Field := ⟨0x010 + t, 0x020, 24, 16⟩
def rNbuStatusFallbackCount (t : Nat) : Field := ⟨0x010 + t, 0x020, 8, 0⟩
def rCapNowEffectiveCap (t : Nat) : Field := ⟨0x010 + t, 0x028, 31, 24⟩
def rCapNowGovernorCap (t : Nat) : Field := ⟨0x010 + t, 0x028, 23, 16⟩
def rCapNowThermalCap (t : Nat) : Field := ⟨0x010 + t, 0x028, 15, 8⟩
def rCapNowPatternCap (t : Nat) : Field := ⟨0x010 + t, 0x028, 7, 0⟩
def rFallbackMapRegions (t k : Nat) : Field := ⟨0x010 + t, 0x030 + 0x8 * k, 63, 0⟩
def rBusyCyclesCount (t : Nat) : Field := ⟨0x010 + t, 0x050, 63, 0⟩
def rOfferedCyclesCount (t : Nat) : Field := ⟨0x010 + t, 0x058, 63, 0⟩
def rRoundsIssued (t : Nat) : Field := ⟨0x010 + t, 0x060, 63, 32⟩
def rRoundsCut (t : Nat) : Field := ⟨0x010 + t, 0x060, 31, 0⟩
def rConflictMaxWaitNs (t : Nat) : Field := ⟨0x010 + t, 0x068, 41, 32⟩
def rConflictWaits (t : Nat) : Field := ⟨0x010 + t, 0x068, 31, 0⟩
def rPathItemsSpilled (t : Nat) : Field := ⟨0x010 + t, 0x070, 63, 32⟩
def rPathItemsFallbackItems (t : Nat) : Field := ⟨0x010 + t, 0x070, 31, 0⟩
def rNbuFaultValid (t : Nat) : Field := ⟨0x010 + t, 0x078, 63, 63⟩
def rNbuFaultCause (t : Nat) : Field := ⟨0x010 + t, 0x078, 62, 59⟩
def rNbuFaultRegion (t : Nat) : Field := ⟨0x010 + t, 0x078, 55, 48⟩
def rNbuFaultRow (t : Nat) : Field := ⟨0x010 + t, 0x078, 47, 0⟩
def rSpareCtlOp (t : Nat) : Field := ⟨0x010 + t, 0x080, 63, 62⟩
def rSpareCtlResult (t : Nat) : Field := ⟨0x010 + t, 0x080, 61, 59⟩
def rSpareCtlRegion (t : Nat) : Field := ⟨0x010 + t, 0x080, 7, 0⟩

/-! Fields of the att registers. -/

def rArrayStatusSpareCellsLeft (d : Nat) : Field := ⟨0x020 + d, 0x020, 39, 32⟩
def rArrayStatusSpareArraysLeft (d : Nat) : Field := ⟨0x020 + d, 0x020, 18, 16⟩
def rArrayStatusInService (d : Nat) : Field := ⟨0x020 + d, 0x020, 5, 0⟩
def rAclkNowMhz (d : Nat) : Field := ⟨0x020 + d, 0x028, 15, 0⟩
def rOutMapArrays (d : Nat) : Field := ⟨0x020 + d, 0x030, 47, 0⟩
def rTilesIssued (d : Nat) : Field := ⟨0x020 + d, 0x038, 63, 32⟩
def rTilesCut (d : Nat) : Field := ⟨0x020 + d, 0x038, 31, 0⟩
def rBusyCellCyclesCount (d : Nat) : Field := ⟨0x020 + d, 0x040, 63, 0⟩
def rAppendWorkRefused (d : Nat) : Field := ⟨0x020 + d, 0x048, 63, 32⟩
def rAppendWorkWrittenKib (d : Nat) : Field := ⟨0x020 + d, 0x048, 31, 0⟩
def rArrayFaultValid (d : Nat) : Field := ⟨0x020 + d, 0x050, 63, 63⟩
def rArrayFaultCause (d : Nat) : Field := ⟨0x020 + d, 0x050, 62, 59⟩
def rArrayFaultArray (d : Nat) : Field := ⟨0x020 + d, 0x050, 13, 8⟩
def rArrayFaultCell (d : Nat) : Field := ⟨0x020 + d, 0x050, 6, 0⟩
def rArrayFaultRowRow (d : Nat) : Field := ⟨0x020 + d, 0x058, 47, 0⟩
def rAttSpareCtlOp (d : Nat) : Field := ⟨0x020 + d, 0x060, 63, 62⟩
def rAttSpareCtlResult (d : Nat) : Field := ⟨0x020 + d, 0x060, 61, 59⟩
def rAttSpareCtlArray (d : Nat) : Field := ⟨0x020 + d, 0x060, 5, 0⟩

/-! Fields of the index registers. -/

def rIndexUsedCount : Field := ⟨0x058, 0x020, 20, 0⟩
def rIndexCtlOp : Field := ⟨0x058, 0x028, 63, 62⟩
def rIndexCtlResult : Field := ⟨0x058, 0x028, 61, 59⟩
def rIndexCtlBankSet : Field := ⟨0x058, 0x028, 23, 20⟩
def rIndexCtlEntry : Field := ⟨0x058, 0x028, 19, 0⟩
def rIndexEventsLostRemoved : Field := ⟨0x058, 0x030, 63, 48⟩
def rIndexEventsVerifyFail : Field := ⟨0x058, 0x030, 47, 32⟩
def rIndexEventsReplaced : Field := ⟨0x058, 0x030, 31, 16⟩
def rIndexEventsRefused : Field := ⟨0x058, 0x030, 15, 0⟩
def rScrubStatusRebuild : Field := ⟨0x058, 0x038, 63, 62⟩
def rScrubStatusLastPassRow : Field := ⟨0x058, 0x038, 47, 0⟩
def rBankScopeUsed (k : Nat) : Field := ⟨0x058, 0x040 + 0x8 * k, 48, 32⟩
def rBankScopeEnable (k : Nat) : Field := ⟨0x058, 0x040 + 0x8 * k, 31, 31⟩
def rBankScopeTenant (k : Nat) : Field := ⟨0x058, 0x040 + 0x8 * k, 11, 0⟩

/-! Fields of the mover registers. -/

def rMoverCtlOp : Field := ⟨0x060, 0x020, 63, 62⟩
def rMoverCtlResult : Field := ⟨0x060, 0x020, 61, 59⟩
def rMoverCtlDevice : Field := ⟨0x060, 0x020, 20, 16⟩
def rMoverCtlCondense : Field := ⟨0x060, 0x020, 1, 1⟩
def rMoverCtlParity : Field := ⟨0x060, 0x020, 0, 0⟩
def rWaterHighWater : Field := ⟨0x060, 0x028, 57, 32⟩
def rWaterLowWater : Field := ⟨0x060, 0x028, 25, 0⟩
def rPrefetchDepth (k : Nat) : Field := ⟨0x060, 0x030 + 0x8 * k, 63, 0⟩
def rClassWeightsPrivileged : Field := ⟨0x060, 0x050, 23, 16⟩
def rClassWeightsPrefetch : Field := ⟨0x060, 0x050, 15, 8⟩
def rClassWeightsEvict : Field := ⟨0x060, 0x050, 7, 0⟩
def rCondenseAgeRows : Field := ⟨0x060, 0x058, 47, 0⟩
def rPoolStatusFenced : Field := ⟨0x060, 0x060, 63, 48⟩
def rPoolStatusEvacuating : Field := ⟨0x060, 0x060, 47, 32⟩
def rPoolStatusDevices : Field := ⟨0x060, 0x060, 20, 16⟩
def rPoolStatusPresent : Field := ⟨0x060, 0x060, 15, 0⟩
def rAnnexFreeCount : Field := ⟨0x060, 0x068, 28, 0⟩
def rLoanCtlLendEnable : Field := ⟨0x060, 0x070, 63, 63⟩
def rLoanCtlQuota : Field := ⟨0x060, 0x070, 25, 0⟩
def rLoansSlotsUsed : Field := ⟨0x060, 0x078, 48, 32⟩
def rLoansGranulesUsed : Field := ⟨0x060, 0x078, 25, 0⟩
def rLenderValid (k : Nat) : Field := ⟨0x060, 0x080 + 0x8 * k, 15, 15⟩
def rLenderNode (k : Nat) : Field := ⟨0x060, 0x080 + 0x8 * k, 13, 0⟩
def rMovesLanded : Field := ⟨0x060, 0x0C0, 63, 32⟩
def rMovesFailed : Field := ⟨0x060, 0x0C0, 31, 0⟩
def rPoolEventsPoisonReads : Field := ⟨0x060, 0x0C8, 63, 32⟩
def rPoolEventsRebuilt : Field := ⟨0x060, 0x0C8, 31, 16⟩
def rPoolEventsEndpointDenied : Field := ⟨0x060, 0x0C8, 15, 0⟩

/-! Fields of the port registers. -/

def rPortCfgMode (p : Nat) : Field := ⟨0x030 + p, 0x020, 27, 26⟩
def rPortCfgOutOfRack (p : Nat) : Field := ⟨0x030 + p, 0x020, 25, 25⟩
def rPortCfgCipher (p : Nat) : Field := ⟨0x030 + p, 0x020, 24, 24⟩
def rPortCfgPhy (p : Nat) : Field := ⟨0x030 + p, 0x020, 23, 22⟩
def rPortCfgLaneReverse (p : Nat) : Field := ⟨0x030 + p, 0x020, 21, 21⟩
def rPortCfgTxPolarity (p : Nat) : Field := ⟨0x030 + p, 0x020, 17, 9⟩
def rPortCfgRxPolarity (p : Nat) : Field := ⟨0x030 + p, 0x020, 8, 0⟩
def rPortStatusPartnerNode (p : Nat) : Field := ⟨0x030 + p, 0x028, 47, 34⟩
def rPortStatusPartnerPort (p : Nat) : Field := ⟨0x030 + p, 0x028, 33, 31⟩
def rPortStatusLink (p : Nat) : Field := ⟨0x030 + p, 0x028, 27, 24⟩
def rPortStatusWidth (p : Nat) : Field := ⟨0x030 + p, 0x028, 21, 20⟩
def rPortStatusLeader (p : Nat) : Field := ⟨0x030 + p, 0x028, 17, 17⟩
def rPortStatusSpareInUse (p : Nat) : Field := ⟨0x030 + p, 0x028, 16, 16⟩
def rPortStatusFailedLanes (p : Nat) : Field := ⟨0x030 + p, 0x028, 8, 0⟩
def rLaneMapMap (p : Nat) : Field := ⟨0x030 + p, 0x030, 31, 0⟩
def rPortCtlOp (p : Nat) : Field := ⟨0x030 + p, 0x038, 63, 61⟩
def rPortCtlResult (p : Nat) : Field := ⟨0x030 + p, 0x038, 60, 58⟩
def rPortCtlLane (p : Nat) : Field := ⟨0x030 + p, 0x038, 2, 0⟩
def rFecCountsUncorrected (p : Nat) : Field := ⟨0x030 + p, 0x040, 63, 32⟩
def rFecCountsCorrected (p : Nat) : Field := ⟨0x030 + p, 0x040, 31, 0⟩
def rMacsecStatusSaLive (p : Nat) : Field := ⟨0x030 + p, 0x048, 63, 63⟩
def rMacsecStatusPnWarn (p : Nat) : Field := ⟨0x030 + p, 0x048, 62, 62⟩
def rMacsecStatusReplayDrops (p : Nat) : Field := ⟨0x030 + p, 0x048, 47, 32⟩
def rMacsecStatusIcvFails (p : Nat) : Field := ⟨0x030 + p, 0x048, 31, 0⟩
def rPtpAsymAsymmetry (p : Nat) : Field := ⟨0x030 + p, 0x050, 31, 0⟩
def rSwapLimitSymbols (p : Nat) : Field := ⟨0x030 + p, 0x058, 15, 0⟩

/-! Fields of the lane registers. -/

def rLaneStatusSnr (p j : Nat) : Field := ⟨0x030 + p, 0x1000 * (j + 1) + 0x000, 39, 32⟩
def rLaneStatusFailed (p j : Nat) : Field := ⟨0x030 + p, 0x1000 * (j + 1) + 0x000, 2, 2⟩
def rLaneStatusSymbolLock (p j : Nat) : Field := ⟨0x030 + p, 0x1000 * (j + 1) + 0x000, 1, 1⟩
def rLaneStatusCdrLock (p j : Nat) : Field := ⟨0x030 + p, 0x1000 * (j + 1) + 0x000, 0, 0⟩
def rPrbsCtlGen (p j : Nat) : Field := ⟨0x030 + p, 0x1000 * (j + 1) + 0x008, 7, 5⟩
def rPrbsCtlCheck (p j : Nat) : Field := ⟨0x030 + p, 0x1000 * (j + 1) + 0x008, 4, 2⟩
def rPrbsCtlLoopback (p j : Nat) : Field := ⟨0x030 + p, 0x1000 * (j + 1) + 0x008, 1, 1⟩
def rPrbsErrorsErrors (p j : Nat) : Field := ⟨0x030 + p, 0x1000 * (j + 1) + 0x010, 63, 0⟩
def rPrbsBitsBits (p j : Nat) : Field := ⟨0x030 + p, 0x1000 * (j + 1) + 0x018, 63, 0⟩
def rLaneSymbolsCorrected (p j : Nat) : Field := ⟨0x030 + p, 0x1000 * (j + 1) + 0x020, 63, 0⟩

/-! Fields of the xport registers. -/

def rQpUsageShared : Field := ⟨0x038, 0x020, 48, 32⟩
def rQpUsageFree : Field := ⟨0x038, 0x020, 16, 0⟩
def rQpLimitsPartnersFree : Field := ⟨0x038, 0x028, 20, 0⟩
def rSharedReserveCount : Field := ⟨0x038, 0x030, 15, 0⟩
def rKeyUsageRetired : Field := ⟨0x038, 0x038, 51, 32⟩
def rKeyUsageFree : Field := ⟨0x038, 0x038, 20, 0⟩
def rTimersBulkWait : Field := ⟨0x038, 0x040, 47, 32⟩
def rTimersPeerTimeout : Field := ⟨0x038, 0x040, 27, 16⟩
def rTimersAckTimeout : Field := ⟨0x038, 0x040, 15, 0⟩
def rRetransPackets : Field := ⟨0x038, 0x048, 63, 32⟩
def rRetransTimeouts : Field := ⟨0x038, 0x048, 31, 16⟩
def rRetransPathsDown : Field := ⟨0x038, 0x048, 15, 0⟩
def rDiscardsWindow : Field := ⟨0x038, 0x050, 63, 32⟩
def rDiscardsPool : Field := ⟨0x038, 0x050, 31, 0⟩
def rQpErrorsProtocol : Field := ⟨0x038, 0x058, 63, 48⟩
def rQpErrorsRevoked : Field := ⟨0x038, 0x058, 47, 32⟩
def rQpErrorsUnreachable : Field := ⟨0x038, 0x058, 31, 16⟩
def rQpErrorsOther : Field := ⟨0x038, 0x058, 15, 0⟩
def rQpInspectOp : Field := ⟨0x038, 0x060, 63, 62⟩
def rQpInspectResult : Field := ⟨0x038, 0x060, 61, 59⟩
def rQpInspectQp : Field := ⟨0x038, 0x060, 15, 0⟩
def rQpStateState : Field := ⟨0x038, 0x068, 63, 61⟩
def rQpStateClass : Field := ⟨0x038, 0x068, 60, 59⟩
def rQpStateShared : Field := ⟨0x038, 0x068, 58, 58⟩
def rQpStateCompat : Field := ⟨0x038, 0x068, 57, 57⟩
def rQpStateRelay : Field := ⟨0x038, 0x068, 56, 56⟩
def rQpStateTenant : Field := ⟨0x038, 0x068, 55, 44⟩
def rQpStatePeerNode : Field := ⟨0x038, 0x068, 43, 30⟩
def rQpStatePeerDomain : Field := ⟨0x038, 0x068, 29, 24⟩
def rQpStateErrorCause : Field := ⟨0x038, 0x068, 23, 20⟩
def rQpStateInFlight : Field := ⟨0x038, 0x068, 12, 0⟩
def rGatewayDomainsDomains : Field := ⟨0x038, 0x070, 63, 0⟩
def rFabricEthertypeEthertype : Field := ⟨0x038, 0x078, 15, 0⟩

/-! Fields of the tm registers. -/

def rDwrrWeightsTc4 : Field := ⟨0x040, 0x020, 39, 32⟩
def rDwrrWeightsTc3 : Field := ⟨0x040, 0x020, 31, 24⟩
def rDwrrWeightsTc2 : Field := ⟨0x040, 0x020, 23, 16⟩
def rDwrrWeightsTc1 : Field := ⟨0x040, 0x020, 15, 8⟩
def rDwrrWeightsTc0 : Field := ⟨0x040, 0x020, 7, 0⟩
def rBufferNd1Used : Field := ⟨0x040, 0x028, 58, 48⟩
def rBufferNd0Used : Field := ⟨0x040, 0x028, 42, 32⟩
def rBufferYellowLimit : Field := ⟨0x040, 0x028, 10, 0⟩
def rPoliceCountsRed : Field := ⟨0x040, 0x030, 63, 32⟩
def rPoliceCountsYellow : Field := ⟨0x040, 0x030, 31, 0⟩
def rLastRedNode : Field := ⟨0x040, 0x038, 61, 48⟩
def rLastRedRow : Field := ⟨0x040, 0x038, 47, 0⟩
def rClassDropsBuffer : Field := ⟨0x040, 0x040, 63, 32⟩
def rClassDropsRetagged : Field := ⟨0x040, 0x040, 31, 16⟩
def rClassDropsUnclassified : Field := ⟨0x040, 0x040, 15, 0⟩

/-! Fields of the tmPort registers. -/

def rGateSwitchOp (p : Nat) : Field := ⟨0x040, 0x10000 * (p + 1) + 0x000, 63, 62⟩
def rGateSwitchResult (p : Nat) : Field := ⟨0x040, 0x10000 * (p + 1) + 0x000, 61, 59⟩
def rGateSwitchSwitchRow (p : Nat) : Field := ⟨0x040, 0x10000 * (p + 1) + 0x000, 47, 0⟩
def rGateIdsPendingListId (p : Nat) : Field := ⟨0x040, 0x10000 * (p + 1) + 0x008, 63, 32⟩
def rGateIdsActiveListId (p : Nat) : Field := ⟨0x040, 0x10000 * (p + 1) + 0x008, 31, 0⟩
def rGateWaitsWaits (p : Nat) : Field := ⟨0x040, 0x10000 * (p + 1) + 0x010, 63, 32⟩
def rGateWaitsMaxWaitNs (p : Nat) : Field := ⟨0x040, 0x10000 * (p + 1) + 0x010, 15, 0⟩
def rTc7BufferMgmtDrops (p : Nat) : Field := ⟨0x040, 0x10000 * (p + 1) + 0x018, 63, 48⟩
def rTc7BufferGeneralDrops (p : Nat) : Field := ⟨0x040, 0x10000 * (p + 1) + 0x018, 47, 32⟩
def rTc7BufferMgmtUsed (p : Nat) : Field := ⟨0x040, 0x10000 * (p + 1) + 0x018, 26, 16⟩
def rTc7BufferGeneralUsed (p : Nat) : Field := ⟨0x040, 0x10000 * (p + 1) + 0x018, 10, 0⟩

/-! Fields of the keeper registers. -/

def rBootStatusSequence : Field := ⟨0x080, 0x020, 63, 32⟩
def rBootStatusCauseB : Field := ⟨0x080, 0x020, 23, 20⟩
def rBootStatusCauseA : Field := ⟨0x080, 0x020, 19, 16⟩
def rBootStatusLocked : Field := ⟨0x080, 0x020, 8, 8⟩
def rBootStatusImage : Field := ⟨0x080, 0x020, 1, 0⟩
def rResetCauseCause : Field := ⟨0x080, 0x028, 63, 60⟩
def rResetCauseBootCount : Field := ⟨0x080, 0x028, 59, 48⟩
def rResetCauseLastRow : Field := ⟨0x080, 0x028, 47, 0⟩
def rResetCtlOp : Field := ⟨0x080, 0x030, 63, 62⟩
def rCastonCtlOp : Field := ⟨0x080, 0x038, 63, 62⟩
def rCastonCtlResult : Field := ⟨0x080, 0x038, 61, 59⟩
def rRowEpochSeconds : Field := ⟨0x080, 0x040, 63, 30⟩
def rRowEpochNanoseconds : Field := ⟨0x080, 0x040, 29, 0⟩
def rTenantCtlOp : Field := ⟨0x080, 0x048, 63, 61⟩
def rTenantCtlResult : Field := ⟨0x080, 0x048, 60, 58⟩
def rTenantCtlSealed : Field := ⟨0x080, 0x048, 12, 12⟩
def rTenantCtlTenant : Field := ⟨0x080, 0x048, 11, 0⟩
def rTenantAuthHash (k : Nat) : Field := ⟨0x080, 0x050 + 0x8 * k, 63, 0⟩
def rTenantInfoState : Field := ⟨0x080, 0x080, 63, 62⟩
def rTenantInfoSealed : Field := ⟨0x080, 0x080, 61, 61⟩
def rTenantInfoTicketSet : Field := ⟨0x080, 0x080, 60, 60⟩
def rTenantInfoSessions : Field := ⟨0x080, 0x080, 59, 58⟩
def rTenantInfoConsent : Field := ⟨0x080, 0x080, 57, 55⟩
def rTenantInfoOpenSequences : Field := ⟨0x080, 0x080, 20, 0⟩
def rTenantCountSealed : Field := ⟨0x080, 0x088, 27, 16⟩
def rTenantCountAdmitted : Field := ⟨0x080, 0x088, 11, 0⟩
def rClaimBlocks (k : Nat) : Field := ⟨0x080, 0x090 + 0x8 * k, 63, 0⟩
def rBlockReqOp : Field := ⟨0x080, 0x0B0, 63, 61⟩
def rBlockReqResult : Field := ⟨0x080, 0x0B0, 60, 58⟩
def rBlockReqBlock : Field := ⟨0x080, 0x0B0, 7, 0⟩
def rSecureEventsTicketFails : Field := ⟨0x080, 0x0B8, 63, 48⟩
def rSecureEventsDenied : Field := ⟨0x080, 0x0B8, 47, 32⟩
def rSecureEventsOverrides : Field := ⟨0x080, 0x0B8, 31, 16⟩
def rSecureEventsCaptures : Field := ⟨0x080, 0x0B8, 15, 0⟩
def rShedLoadPct : Field := ⟨0x080, 0x0C0, 10, 4⟩
def rShedLevel : Field := ⟨0x080, 0x0C0, 2, 0⟩
def rFaultQueueWaiting : Field := ⟨0x080, 0x0C8, 31, 16⟩
def rFaultQueueOldestRows : Field := ⟨0x080, 0x0C8, 15, 0⟩
def rGaugeSelKind : Field := ⟨0x080, 0x0D0, 27, 24⟩
def rGaugeSelInstance : Field := ⟨0x080, 0x0D0, 19, 0⟩
def rGaugeValuePeak : Field := ⟨0x080, 0x0D8, 47, 32⟩
def rGaugeValueAbsent : Field := ⟨0x080, 0x0D8, 16, 16⟩
def rGaugeValueValue : Field := ⟨0x080, 0x0D8, 15, 0⟩
def rGaugeLimitsAct : Field := ⟨0x080, 0x0E0, 31, 16⟩
def rGaugeLimitsWarn : Field := ⟨0x080, 0x0E0, 15, 0⟩
def rSwatchStatusMarginFails : Field := ⟨0x080, 0x0E8, 63, 48⟩
def rSwatchStatusSkipped : Field := ⟨0x080, 0x0E8, 47, 32⟩
def rSwatchStatusSlices : Field := ⟨0x080, 0x0E8, 31, 0⟩
def rBindoffCtlOp : Field := ⟨0x080, 0x0F0, 63, 62⟩
def rBindoffCtlResult : Field := ⟨0x080, 0x0F0, 61, 59⟩
def rBindoffCtlTargetRow : Field := ⟨0x080, 0x0F0, 47, 0⟩
def rBindoffNonceNonce : Field := ⟨0x080, 0x0F8, 31, 0⟩
def rMonCtlEnable (k : Nat) : Field := ⟨0x080, 0x100 + 0x20 * k, 63, 63⟩
def rMonCtlBinShift (k : Nat) : Field := ⟨0x080, 0x100 + 0x20 * k, 59, 56⟩
def rMonCtlSource (k : Nat) : Field := ⟨0x080, 0x100 + 0x20 * k, 55, 48⟩
def rMonCtlInstance (k : Nat) : Field := ⟨0x080, 0x100 + 0x20 * k, 47, 32⟩
def rMonCtlBase (k : Nat) : Field := ⟨0x080, 0x100 + 0x20 * k, 31, 0⟩
def rMonRangeMax (k : Nat) : Field := ⟨0x080, 0x108 + 0x20 * k, 63, 32⟩
def rMonRangeMin (k : Nat) : Field := ⟨0x080, 0x108 + 0x20 * k, 31, 0⟩
def rMonCountSamples (k : Nat) : Field := ⟨0x080, 0x110 + 0x20 * k, 63, 0⟩

/-! Fields of the stackCtl registers. -/

def rEccCountsUncorrected (t : Nat) : Field := ⟨t, 0x020, 63, 32⟩
def rEccCountsCorrected (t : Nat) : Field := ⟨t, 0x020, 31, 0⟩
def rRepairSpareColsLeft (t : Nat) : Field := ⟨t, 0x028, 56, 48⟩
def rRepairSpareRowsLeft (t : Nat) : Field := ⟨t, 0x028, 47, 32⟩
def rRepairRepairs (t : Nat) : Field := ⟨t, 0x028, 31, 16⟩
def rRepairRepairLimit (t : Nat) : Field := ⟨t, 0x028, 15, 0⟩
def rLastErrorValid (t : Nat) : Field := ⟨t, 0x030, 63, 63⟩
def rLastErrorUncorrected (t : Nat) : Field := ⟨t, 0x030, 62, 62⟩
def rLastErrorRegion (t : Nat) : Field := ⟨t, 0x030, 61, 54⟩
def rLastErrorBank (t : Nat) : Field := ⟨t, 0x030, 53, 52⟩
def rLastErrorRow (t : Nat) : Field := ⟨t, 0x030, 47, 0⟩
def rStackThermalHottestC (t : Nat) : Field := ⟨t, 0x038, 15, 8⟩
def rStackThermalDoubled (t : Nat) : Field := ⟨t, 0x038, 0, 0⟩

/-! Fields of the common registers. -/

def rBlockIdInstance (b : Nat) : Field := ⟨b, 0x000, 63, 32⟩
def rBlockIdBlockVersion (b : Nat) : Field := ⟨b, 0x000, 31, 16⟩
def rBlockIdBlockId (b : Nat) : Field := ⟨b, 0x000, 15, 0⟩
def rStatusNominal (b : Nat) : Field := ⟨b, 0x008, 47, 32⟩
def rStatusInService (b : Nat) : Field := ⟨b, 0x008, 31, 16⟩
def rStatusSkew (b : Nat) : Field := ⟨b, 0x008, 5, 5⟩
def rStatusClaimed (b : Nat) : Field := ⟨b, 0x008, 4, 4⟩
def rStatusState (b : Nat) : Field := ⟨b, 0x008, 3, 0⟩
def rErrorSummaryLastOffset (b : Nat) : Field := ⟨b, 0x010, 51, 32⟩
def rErrorSummaryCount (b : Nat) : Field := ⟨b, 0x010, 31, 16⟩
def rErrorSummarySwitchRefused (b : Nat) : Field := ⟨b, 0x010, 7, 7⟩
def rErrorSummaryUncorrected (b : Nat) : Field := ⟨b, 0x010, 6, 6⟩
def rErrorSummaryCorrected (b : Nat) : Field := ⟨b, 0x010, 5, 5⟩
def rErrorSummaryAdjusted (b : Nat) : Field := ⟨b, 0x010, 4, 4⟩
def rErrorSummaryOverflow (b : Nat) : Field := ⟨b, 0x010, 3, 3⟩
def rErrorSummaryBadAccess (b : Nat) : Field := ⟨b, 0x010, 2, 2⟩
def rErrorSummaryProtected (b : Nat) : Field := ⟨b, 0x010, 1, 1⟩
def rErrorSummaryLockedWrite (b : Nat) : Field := ⟨b, 0x010, 0, 0⟩

/-! Fields of the ident registers. -/

def rNodeIdDomain : Field := ⟨0x0F0, 0x020, 37, 32⟩
def rNodeIdNode : Field := ⟨0x0F0, 0x020, 13, 0⟩
def rPartOrderingCode : Field := ⟨0x0F0, 0x028, 63, 0⟩
def rUnitStepping : Field := ⟨0x0F0, 0x030, 63, 48⟩
def rUnitSerial : Field := ⟨0x0F0, 0x030, 47, 0⟩
def rVendorEnterprise : Field := ⟨0x0F0, 0x038, 31, 0⟩
def rGlobalStatusFaultCause : Field := ⟨0x0F0, 0x040, 47, 40⟩
def rGlobalStatusShortfall : Field := ⟨0x0F0, 0x040, 16, 16⟩
def rGlobalStatusNodeState : Field := ⟨0x0F0, 0x040, 3, 0⟩
def rFmNodesEntries (k : Nat) : Field := ⟨0x0F0, 0x048 + 0x8 * k, 63, 0⟩
def rErrorMapBlocks (k : Nat) : Field := ⟨0x0F0, 0x060 + 0x8 * k, 63, 0⟩
def rEventPtrLost : Field := ⟨0x0F0, 0x080, 63, 48⟩
def rEventPtrTail : Field := ⟨0x0F0, 0x080, 43, 32⟩
def rEventPtrHead : Field := ⟨0x0F0, 0x080, 11, 0⟩
def rFlashCtlOp : Field := ⟨0x0F0, 0x088, 63, 62⟩
def rFlashCtlResult : Field := ⟨0x0F0, 0x088, 61, 59⟩
def rFlashCtlAddr : Field := ⟨0x0F0, 0x088, 26, 0⟩
def rPowerCfgFloorLevel : Field := ⟨0x0F0, 0x090, 2, 0⟩
def rPowerStatusRowPowerW : Field := ⟨0x0F0, 0x098, 63, 52⟩
def rPowerStatusLevel : Field := ⟨0x0F0, 0x098, 34, 32⟩
def rPowerStatusBudget : Field := ⟨0x0F0, 0x098, 18, 0⟩
def rThermalStatusHottestLogicC : Field := ⟨0x0F0, 0x0A0, 63, 56⟩
def rThermalStatusHottestStackC : Field := ⟨0x0F0, 0x0A0, 55, 48⟩
def rThermalStatusHottestDie : Field := ⟨0x0F0, 0x0A0, 47, 43⟩
def rThermalStatusEmergencyDies : Field := ⟨0x0F0, 0x0A0, 39, 20⟩
def rThermalStatusTrip : Field := ⟨0x0F0, 0x0A0, 3, 3⟩
def rThermalStatusEmergency : Field := ⟨0x0F0, 0x0A0, 2, 2⟩
def rThermalStatusThrottle : Field := ⟨0x0F0, 0x0A0, 1, 1⟩
def rThermalStatusAlert : Field := ⟨0x0F0, 0x0A0, 0, 0⟩
def rRailStatusExcursion : Field := ⟨0x0F0, 0x0A8, 28, 16⟩
def rRailStatusOutOfRange : Field := ⟨0x0F0, 0x0A8, 12, 0⟩

/-! Fields of the annex registers. -/

def rAnnexCfgEndpoint (a : Nat) : Field := ⟨0x068 + a, 0x020, 32, 32⟩
def rAnnexCfgHdmGib (a : Nat) : Field := ⟨0x068 + a, 0x020, 15, 0⟩
def rAnnexLinkRetrains (a : Nat) : Field := ⟨0x068 + a, 0x028, 63, 32⟩
def rAnnexLinkSpeed (a : Nat) : Field := ⟨0x068 + a, 0x028, 7, 6⟩
def rAnnexLinkWidth (a : Nat) : Field := ⟨0x068 + a, 0x028, 5, 4⟩
def rAnnexLinkLink (a : Nat) : Field := ⟨0x068 + a, 0x028, 3, 0⟩
def rAnnexErrorsUncorrectable (a : Nat) : Field := ⟨0x068 + a, 0x030, 63, 32⟩
def rAnnexErrorsCorrectable (a : Nat) : Field := ⟨0x068 + a, 0x030, 31, 0⟩

/-! Fields of the array registers. -/

def rArrayInfoInService (d a : Nat) : Field := ⟨0x020 + d, 0x4000 * (a + 1) + 0x000, 16, 16⟩
def rArrayInfoSpareCells (d a : Nat) : Field := ⟨0x020 + d, 0x4000 * (a + 1) + 0x000, 10, 8⟩
def rArrayInfoPhysical (d a : Nat) : Field := ⟨0x020 + d, 0x4000 * (a + 1) + 0x000, 5, 0⟩
def rArrayTilesTiles (d a : Nat) : Field := ⟨0x020 + d, 0x4000 * (a + 1) + 0x008, 63, 0⟩

end Sys2Proof.Machine
end

