-- ==== Sys2Proof/Machine/Regs.lean ====
section
/-! DEFINITION. The stored registers: fields, saturating counters, error records, and the row and identity of the node. -/

namespace Sys2Proof.Machine

/-- Key of a register in `State.regs`. -/
def regKey (b o : Nat) : Nat := b * 0x100000 + o

/-- The stored bits of a register. -/
def State.stored (s : State) (b o : Nat) : Word := (Tbl.get s.regs (regKey b o)).getD (resetWord b o)

/-- Store a register's bits; a register at its Reset value is not listed. -/
def State.setStored (s : State) (b o : Nat) (w : Word) : State :=
  { s with regs := if w = resetWord b o then Tbl.erase s.regs (regKey b o)
                   else Tbl.set s.regs (regKey b o) w }

/-- A stored field. -/
def State.fld (s : State) (f : Field) : Nat := bits (s.stored f.block f.offset) f.hi f.lo

/-- Set a stored field. -/
def State.setFld (s : State) (f : Field) (v : Nat) : State :=
  s.setStored f.block f.offset (setBits (s.stored f.block f.offset) f.hi f.lo v)

/-- The greatest value a field holds. -/
def Field.max (f : Field) : Nat := 2 ^ (f.hi + 1 - f.lo) - 1

/-- Add to a saturating counter (R424, Table 17-2). -/
def State.count (s : State) (f : Field) (n : Nat) : State := s.setFld f (min f.max (s.fld f + n))

/-- Raise a maximum field. -/
def State.raise (s : State) (f : Field) (v : Nat) : State := s.setFld f (max (s.fld f) (min f.max v))

/-- Record an event in a block's ERROR_SUMMARY: set the bit, count it (Table 17-2). -/
def State.mark (s : State) (b bit : Nat) : State :=
  (s.setFld ⟨b, 0x010, bit, bit⟩ 1).count (rErrorSummaryCount b) 1

/-- Record an access event (bits 0, 1, 2) with its offset. -/
def State.markAccess (s : State) (b bit o : Nat) : State :=
  (s.mark b bit).setFld (rErrorSummaryLastOffset b) o

/-- The present row (R31). -/
def State.row (s : State) : Nat := s.clock.row

/-- A row number as its 48-bit field. -/
def row48 (r : Nat) : Nat := r % 2 ^ 48

/-- NODE of NODE_ID. -/
def State.nodeId (s : State) : Nat := s.fld rNodeIdNode

/-- DOMAIN of NODE_ID. -/
def State.domain (s : State) : Nat := s.fld rNodeIdDomain

/-- Queue pair of a connection key (R312). -/
def connQp (k : Nat) : Nat := k / 4096

end Sys2Proof.Machine
end

