-- ==== Sys2Proof/Machine/Wire.lean ====
section
/-! DEFINITION. Packets and paths (R303 to R307, R315): what a message takes on the wire, the path of each packet, the sending
window, and the class queues of the ports. -/

namespace Sys2Proof.Machine

/-- The present nanosecond, counted from row 0. -/
def State.now (s : State) : Nat := s.clock.row * 4096 + s.clock.ns

/-! Routing entries (R305, R306). -/

/-- The routing entry of a node of this domain, or of another domain. -/
def State.entryOf (s : State) (node domain : Nat) : Nat := if domain = s.domain then node else 16384 + domain

/-- Offset of a routing entry in the Transport Engine block. -/
def routeOffset (entry : Nat) : Nat := 0x80000 + 16 * entry

/-- The valid paths of an entry: their place, and local port x 8 + remote port (Table 12-2). -/
def State.paths (s : State) (entry : Nat) : List (Nat × Nat) :=
  (List.range 8).filterMap fun j =>
    let b := bits (s.stored 0x038 (routeOffset entry)) (8 * j + 7) (8 * j)
    if 128 ≤ b then some (j, b % 8 * 8 + b / 8 % 8) else none

/-- Key of a path of an entry. -/
def pathKey (entry path : Nat) : Nat := entry * 64 + path

/-- The port takes part in spraying. -/
def State.sprays (s : State) (p : Nat) : Bool := match s.ports[p]? with | some q => q.spraying | none => false

/-- A path is usable: VALID, its local port Up, not held down (R306). -/
def State.usablePaths (s : State) (entry : Nat) : List (Nat × Nat) :=
  (s.paths entry).filter fun x => s.sprays (x.2 / 8) && (Tbl.get s.xport.held (pathKey entry x.2)).isNone

/-- Paths repeated by the WIDTH of their local port: 8, 4 or 2 lanes. -/
def State.weightedPaths (s : State) (ps : List (Nat × Nat)) : List (Nat × Nat) :=
  ps.flatMap fun x => List.replicate (match s.ports[x.2 / 8]? with | some q => q.lanes / 2 | none => 0) x

/-- The spray's next usable path of an entry, another than `avoid` where there is one, with the path's next sequence number: each
path comes in a cycle as often as its width says. DESIGN CHOICE (log entry 169): the order of a cycle is that of the entry. -/
def State.pickPath (s : State) (entry : Nat) (avoid : Option Nat) : Option ((Nat × Nat) × Nat) × State :=
  let all := s.weightedPaths (s.usablePaths entry)
  let others := all.filter fun x => some x.2 ≠ avoid
  let ps := if others = [] then all else others
  let i := Tbl.num s.xport.sprayAt entry
  match ps[i % ps.length]? with
  | none => (none, s)
  | some x =>
    let n := Tbl.num s.xport.pathSeq (pathKey entry x.2)
    (some (x, n), { s with xport := { s.xport with
      sprayAt := Tbl.set s.xport.sprayAt entry (i + 1)
      pathSeq := Tbl.set s.xport.pathSeq (pathKey entry x.2) ((n + 1) % 65536) } })

/-- GENERATION of an entry (Table 12-2). -/
def State.generation (s : State) (entry : Nat) : Nat := bits (s.stored 0x038 (routeOffset entry + 8)) 15 0

/-! Frames and class queues (R303, R344). -/

/-- Bytes of a frame with this payload on a port: Ethernet header, transport header, payload, check sequence, and MACsec out of
rack. -/
def State.frameLength (s : State) (p payload : Nat) : Nat :=
  14 + 32 + payload + 4 + if s.fld (rPortCfgOutOfRack p) = 1 then Config.macsecBytes else 0

/-- Key of a port's class queue. -/
def classKey (p tc : Nat) : Nat := 8 * p + tc

/-- Queue a packet for egress on the port of its path; a retransmission goes ahead of new packets of its class (R317). -/
def State.enqueue (s : State) (h : TxHeader) (front : Bool) : State :=
  let f : Queued := { length := s.frameLength h.srcPort h.payload, header := h, waited := none }
  let q := (Tbl.get s.tm.queues (classKey h.srcPort h.tc)).getD []
  { s with tm := { s.tm with queues := Tbl.set s.tm.queues (classKey h.srcPort h.tc) (if front then f :: q else q ++ [f]) } }

/-- The header of a packet to a node, before it has a path. -/
def txTo (node domain kind tc dstQp srcQp payload : Nat) : TxHeader :=
  { kind := kind, tc := tc, dstNode := node, dstDomain := domain, dstQp := dstQp, srcQp := srcQp, psn := 0, first := true,
    last := true, pathSeq := 0, srcPort := 0, dstPort := 0, pathIndex := 0, payload := payload, generation := 0 }

/-- The header on a path. -/
def TxHeader.onPath (h : TxHeader) (x : Nat × Nat) (seq generation : Nat) : TxHeader :=
  { h with pathSeq := seq, srcPort := x.2 / 8, dstPort := x.2 % 8, pathIndex := x.1, generation := generation }

/-- A message that no queue pair of the table carries: one packet. -/
def State.datagram (s : State) (h : TxHeader) : State :=
  let entry := s.entryOf h.dstNode h.dstDomain
  match s.pickPath entry none with
  | (some (x, n), s) => s.enqueue (h.onPath x n (s.generation entry)) false
  | (none, s) => s

/-! Packets of a queue pair (R315). -/

/-- Change a packet not yet acknowledged. -/
def State.setUnacked (s : State) (k psn : Nat) (f : Unacked → Unacked) : State :=
  { s with xport := { s.xport with
    unacked := s.xport.unacked.map fun u => if u.conn = k ∧ u.psn = psn then f u else u } }

/-- The header of a packet of a connection. -/
def Unacked.header (u : Unacked) (c : Conn) : TxHeader :=
  { txTo c.peerNode c.peerDomain u.kind u.tc c.peerQp (connQp u.conn) u.length with
    psn := u.psn
    first := u.first
    last := u.last }

/-- Send a packet, the first time or again: it takes a path, the path's next sequence number and the entry's GENERATION, or waits
for a path. -/
def State.dispatch (s : State) (u : Unacked) (avoid : Option Nat) (front : Bool) : State :=
  match Tbl.get s.xport.conns u.conn, s.pickPath u.entry avoid with
  | some c, (some (x, n), s) =>
    let g := s.generation u.entry
    (s.setUnacked u.conn u.psn fun u => { u with
      path := x.2
      index := x.1
      pathSeq := n
      generation := g
      used := addNum u.used x.2
      tries := u.tries + 1
      sent := s.now
      resend := false }).enqueue ((u.header c).onPath x n g) front
  | _, (_, s) => s.setUnacked u.conn u.psn fun u => { u with resend := true }

/-- Traffic class of a connection's messages (Table 12-3); a trunk, to another domain, is in TC2 (R329). -/
def State.tcOf (s : State) (c : Conn) : Nat :=
  if c.peerDomain ≠ s.domain then 2 else match c.cls with | 0 => 6 | 1 => 4 | 2 => 3 | _ => 0

/-- Traffic class of the ACKs and NAKs of packets (R316). -/
def ackTc (tc : Nat) : Nat := if tc = 6 then 5 else tc

/-- Packets a sender keeps unacknowledged on a queue pair (R315). -/
def sendWindow : Nat := 512

/-- Send the packets of a connection that the window now admits. -/
def State.pump (s : State) (k : Nat) : State :=
  ((s.xport.unacked.filter fun u => u.conn = k).take sendWindow).foldl
    (fun s u => if u.tries = 0 ∧ !u.resend then s.dispatch u none false else s) s

/-- The frames a message takes: at most 8,192 bytes of payload each, and at least one. -/
def chunks (bytes : Nat) : List Nat :=
  if bytes = 0 then [0]
  else (List.range ((bytes + 8191) / 8192)).map fun i => min 8192 (bytes - 8192 * i)

/-- A message leaves on a connection in packets of a KIND, FIRST on the first and LAST on the last. -/
def State.packets (s : State) (k kind tc bytes : Nat) : State :=
  match Tbl.get s.xport.conns k with
  | none => s
  | some c =>
    let entry := s.entryOf c.peerNode c.peerDomain
    let ls := chunks bytes
    let us := ((List.range ls.length).zip ls).map fun x =>
      ({ conn := k, psn := (c.sendPsn + x.1) % 2 ^ 24, kind := kind, first := x.1 = 0, last := x.1 + 1 = ls.length, entry := entry,
         generation := 0, used := [], path := 0, index := 0, pathSeq := 0, tc := tc, length := x.2, tries := 0, sent := 0,
         resend := false } : Unacked)
    let s := { s with xport := { s.xport with
      unacked := s.xport.unacked ++ us
      conns := Tbl.set s.xport.conns k { c with sendPsn := (c.sendPsn + ls.length) % 2 ^ 24 } } }
    s.pump k

/-! What a message takes. -/

/-- Bytes of a completion's body (Table 8-1). -/
def CplBody.length : CplBody → Nat
  | .none => 0
  | .partials ps => ps.foldl (fun n p => n + (partialBytes p).length) 0
  | .report _ _ _ _ _ => 8
  | .counts _ _ => 16
  | .matched _ => 8
  | .results rs => (rs.length + 7) / 8 * 8
  | .data bs => bs.length

/-- The key of a live connection that passes a test. -/
def State.findConn (s : State) (p : Nat → Conn → Bool) : Option Nat :=
  (s.xport.conns.find? fun x => x.2.state ≠ .quarantine && p x.1 x.2).map Prod.fst

/-- A message leaves on the first connection that passes a test; with none it has no packets. -/
def State.packetsOn (s : State) (p : Nat → Conn → Bool) (kind tc bytes : Nat) : State :=
  match s.findConn p with
  | some k => s.packets k kind tc bytes
  | none => s

/-- A connection of a queue pair with a peer, which is a queue pair of a node: so partner records of one node stay apart (R312, log
entry 39). -/
def Conn.isOf (c : Conn) (k qp node peer : Nat) : Bool := connQp k = qp && c.peerNode = node && c.peerQp = peer

/-- A queue pair to a node of this domain that serves no other (R262, R332). -/
def State.links (s : State) (c : Conn) (node cls : Nat) : Bool :=
  c.peerNode = node && c.peerDomain = s.domain && !c.relay && c.cls = cls && c.state = .ready

/-- Bytes of a record of a BULK message, padded to 8 (R330). -/
def bulkSize (r : BulkRecord) : Nat := (16 + r.message.length + 7) / 8 * 8

/-- Traffic class of a message that a gateway passes on: a command on a relay queue pair goes in the class of the queue pair, an
answer in TC5 (Table 12-3, R332). -/
def State.relayTc (s : State) (k : Nat) : Nat :=
  match Tbl.get s.xport.conns k with
  | some c => if c.relay then s.tcOf c else 5
  | none => 5

/-- Queue the packets of a message: completions and events in TC5, loans in TC3, sub-commands in TC6 or TC4, CM and
management in TC7, trunks in TC2 (Table 12-3, R310, R329). Those on the fixed queue pairs, ACKs and NAKs are single packets. -/
def State.wire (s : State) : Sent → State
  | .completion qp node peer _ _ _ o => s.packetsOn (fun k c => c.isOf k qp node peer) 0 5 (16 + o.body.length)
  | .eventMsg qp node _ => s.packetsOn (fun k c => connQp k = qp && c.peerNode = node) 0 5 48
  | .fmEvent node _ => s.datagram (txTo node s.domain 0 7 1 1 40)
  | .cmReply kind qp node domain peer _ _ _ _ _ => match kind with
    | .accept | .qpError => s.datagram (txTo node domain 3 7 0 0 64)
    | _ => s.packetsOn (fun k c => c.isOf k qp node peer && c.peerDomain = domain) 3 7 64
  | .mgmtReply path dst _ _ es => match path with
    | .fm => s.datagram (txTo dst s.domain 0 7 1 1 (8 + 16 * es.length))
    | _ => s
  | .loan _ dst m => s.packetsOn (fun _ c => s.links c dst 2) 0 3 (32 + m.data.length)
  | .subCommand m =>
    s.packetsOn (fun _ c => s.links c m.lender (if m.scheduled then 0 else 1)) 0 (if m.scheduled then 6 else 4)
      (32 + m.body.payload.length)
  | .ack k tc _ _ => match Tbl.get s.xport.conns k with
    | some c => s.datagram (txTo c.peerNode c.peerDomain 1 (ackTc tc) c.peerQp (connQp k) 16)
    | none => s
  | .nak node domain tc _ _ _ => s.datagram (txTo node domain 2 tc 0 0 8)
  | .bulk k _ rs => s.packets k 4 2 (rs.foldl (fun n r => n + bulkSize r) 0)
  | .relayed k _ _ m => s.packets k 0 (s.relayTc k) m.length
  | .i3cReply _ => s
  | .laneWord _ _ _ => s
  | .frame _ _ _ _ _ _ _ => s
  | .vault _ _ _ _ _ => s
  | .endpointData _ _ => s
  | .rowsyncOut _ => s
  | .ppsOut _ => s

/-- Retransmit a packet on another usable path, ahead of new packets of its class (R317). -/
def State.retransmit (s : State) (u : Unacked) : State :=
  (s.count rRetransPackets 1).dispatch u (some u.path) true

/-- Send again every packet that waits for a usable path. -/
def State.resendWaiting (s : State) : State :=
  (s.xport.unacked.filter Unacked.resend).foldl (fun s u => s.dispatch u none true) s

/-- A port has left Up: its queues are emptied, and every packet sent on it and not acknowledged goes out on the others
(R307). -/
def State.leavePort (s : State) (p : Nat) : State :=
  let s := { s with tm := { s.tm with queues := s.tm.queues.filter fun x => x.1 / 8 ≠ p } }
  (s.xport.unacked.filter fun u => 0 < u.tries && !u.resend && u.path / 8 = p).foldl State.retransmit s

end Sys2Proof.Machine
end

