-- ==== Sys2Proof/Machine/Ops.lean ====
section
/-! DEFINITION. The named operations every meaning is written with: register fields, error records, events,
messages, free choices and memory lines. -/

namespace Sys2Proof.Machine

/-- What a meaning answers. -/
abbrev Out := Host.Outcome State Fault Refusal

/-- The node's clocks run: power is on, no trip holds, reset is released. -/
def State.runs (s : State) : Bool := s.node.state ≠ .off && !s.node.tripped && !s.node.porstLow

/-- Send on the network ports, where its packets are queued: in Off and Fault the node sends nothing there (R27), nor while its
clocks stand. -/
def State.send (s : State) (m : Sent) : State :=
  if s.runs ∧ s.node.state ≠ .fault then { s with out := s.out ++ [m] }.wire m else s

/-- Send on a path that does not use the network ports (R413). -/
def State.sendAside (s : State) (m : Sent) : State := { s with out := s.out ++ [m] }

/-- A free value and the state that has used it (log entry 2). -/
def State.free (s : State) : Nat × State := (Config.freeNat s.fresh, { s with fresh := s.fresh + 1 })

/-- A free choice among 0 .. m-1: the first acceptable number from a free start (log entry 2). -/
def State.choose (s : State) (m : Nat) (ok : Nat → Bool) : Option Nat × State :=
  (firstFrom ok (Config.freeNat s.fresh) m m, { s with fresh := s.fresh + 1 })

/-- The fabric-manager nodes: entries 0 to 6 of FM_NODES with VALID set (Table 17-6). -/
def State.managers (s : State) : List Nat :=
  (List.range 7).filterMap fun i =>
    let w := bits (s.stored 0x0F0 (0x048 + 8 * (i / 4))) (16 * (i % 4) + 15) (16 * (i % 4))
    if w / 2 ^ 15 = 1 then some (w % 2 ^ 14) else none

/-- Enter a record in the event ring (R420); losing the oldest is an overflow of a queue of records (Table 17-2). -/
def State.ring (s : State) (e : Event) : State :=
  let h := s.fld rEventPtrHead
  let t := s.fld rEventPtrTail
  let h' := (h + 1) % 4096
  let s := { s with mgmt := { s.mgmt with ring := Tbl.set s.mgmt.ring h e }, fresh := s.fresh + 1 }
  let s := s.setFld rEventPtrHead h'
  if h' = t then ((s.setFld rEventPtrTail ((t + 1) % 4096)).count rEventPtrLost 1).mark 0x0F0 3 else s

/-- An event record of this row (Table 17-5). ARG0 and ARG1 are free where no rule gives them for the
kind (log entry 2). -/
def State.event (s : State) (kind block unit : Nat) : Event :=
  { kind := kind, block := block, unit := unit, tenant := 0, row := row48 s.row, handle := 0,
    arg0 := Config.eventArg s.fresh 0, arg1 := Config.eventArg s.fresh 1 }

/-- Post an event that goes to the fabric managers (R419). -/
def State.postFm (s : State) (e : Event) : State :=
  s.managers.foldl (fun s n => s.send (.fmEvent n e)) (s.ring e)

/-- Post an event to one requester, on the queue pair that carried its command (R419). -/
def State.postTo (s : State) (qp node : Nat) (e : Event) : State := (s.ring e).send (.eventMsg qp node e)

/-- The connections an event for a tenant goes to: for each requester node the lowest-numbered Ready SCHED
or BEST queue pair of that tenant (R419). -/
def tenantConns (conns : Tbl Conn) (tenant : Nat) : List (Nat × Nat) :=
  conns.foldl (fun acc (kc : Nat × Conn) =>
    if kc.2.state = .ready ∧ kc.2.cls ≤ 1 ∧ kc.2.tenant = tenant ∧ ¬ acc.any (fun a => a.2 = kc.2.peerNode)
    then acc ++ [(connQp kc.1, kc.2.peerNode)] else acc) []

/-- Post an event to a tenant, at most one message of a kind to a requester in a row (R89, R419). -/
def State.postTenant (s : State) (tenant : Nat) (e : Event) : State :=
  (tenantConns s.xport.conns tenant).foldl (fun s a =>
    if s.cat.posted.contains (a.2, e.kind) then s
    else { s with cat := { s.cat with posted := (a.2, e.kind) :: s.cat.posted } }.send (.eventMsg a.1 a.2 e))
    (s.ring e)

/-- Bytes of the stacks: 12 stacks of 64 GiB (Table 1-2). -/
def stackBytes : Nat := 12 * 64 * 2 ^ 30

/-- Leaf space: the stacks below the reserve (R14, 744 GiB). -/
def leafBytes : Nat := 744 * 2 ^ 30

/-- The 64-byte line of a byte. -/
def lineOf (a : Nat) : Nat := a / 64

/-- Some line of [a, a+n) is poisoned. -/
def State.poisoned (s : State) (a n : Nat) : Bool :=
  n ≠ 0 && s.poison.any fun l => lineOf a ≤ l && l ≤ lineOf (a + n - 1)

/-- Bytes of the stacks. -/
def State.load (s : State) (a n : Nat) : List Byte := Mem.bytes s.mem a n

/-- Write bytes of the stacks. -/
def State.store (s : State) (a : Nat) (bs : List Byte) : State := { s with mem := Mem.write s.mem a bs }

/-- Make every byte of [lo, hi) read 0, and its lines good. -/
def State.zero (s : State) (lo hi : Nat) : State :=
  { s with mem := Mem.clear s.mem lo hi, poison := s.poison.filter fun l => l * 64 < lo || hi ≤ l * 64 }

/-- Poison a line. -/
def State.poisonLine (s : State) (l : Nat) : State := { s with poison := addNum s.poison l }

/-- NODE_STATE codes (Table 17-6). -/
def NodeState.code : NodeState → Nat
  | .off => 0 | .boot => 1 | .training => 2 | .attested => 3 | .castOn => 4 | .serving => 5
  | .draining => 6 | .boundOff => 7 | .fault => 8

/-- Change the state of the node and post event 0x0003 (R26, R418); an unchanged state posts nothing. -/
def State.toNode (s : State) (n : NodeState) : State :=
  if s.node.state = n then s
  else
    let e := s.event 0x0003 0x0F0 0
    { s with node := { s.node with state := n } }.postFm e

end Sys2Proof.Machine
end

