-- ==== Sys2Proof/Machine/Flags.lean ====
section
/-! DEFINITION. The codes a completion carries and the outcomes they make: STATUS (Table 8-4), the causes of
LATE (Table 2-10), DETAIL (Tables 4-2, 8-5, 8-6), and the ranking of R50. -/

namespace Sys2Proof

/-- STATUS codes (Table 8-4). -/
def Status.code : Status → Nat
  | .ok => 0x00 | .late => 0x01 | .noSequence => 0x02 | .notOwner => 0x03 | .alreadyFree => 0x04
  | .noSpace => 0x05 | .lengthLimit => 0x06 | .formatUnsupported => 0x07 | .shapeLimit => 0x08
  | .keyInvalid => 0x09 | .cacheLost => 0x0A | .poisoned => 0x0B | .notResident => 0x0C
  | .deniedSecure => 0x0D | .noResource => 0x0E | .flushed => 0x0F | .revoked => 0x10
  | .maskedEmpty => 0x11

/-- A command that took its effect: OK or MASKED_EMPTY. -/
def Status.good : Status → Bool
  | .ok | .maskedEmpty => true
  | _ => false

namespace Machine

/-- Cause codes of LATE (Table 2-10). -/
def Cause.code : Cause → Nat
  | .arrival => 1 | .walk => 2 | .cls => 3 | .compute => 4 | .lender => 5 | .sync => 6 | .age => 7

/-- A completion of a status and DETAIL without a body, with the command's HANDLE. -/
def Outcome.bare (h : Head) (st : Status) (detail : Nat) : Outcome :=
  { status := st, detail := detail, handle := h.handle, body := .none }

/-- OK with a body. -/
def Outcome.good (h : Head) (body : CplBody) : Outcome :=
  { status := .ok, detail := 0, handle := h.handle, body := body }

/-- LATE with its cause (R49). -/
def Outcome.tooLate (h : Head) (c : Cause) : Outcome := Outcome.bare h .late c.code

/-- NO_RESOURCE with a code of Table 8-5. -/
def Outcome.noRes (h : Head) (d : Nat) : Outcome := Outcome.bare h .noResource d

/-- SHAPE_LIMIT with a code of Table 8-6. -/
def Outcome.shape (h : Head) (d : Nat) : Outcome := Outcome.bare h .shapeLimit d

/-- POISONED with a code of Table 4-2. -/
def Outcome.poison (h : Head) (d : Nat) : Outcome := Outcome.bare h .poisoned d

/-- The first check that fails decides (R196). -/
def firstFail : List (Bool × Outcome) → Option Outcome
  | [] => none
  | (b, o) :: t => if b then some o else firstFail t

/-- CACHE_LOST comes before NOT_RESIDENT, which comes before LATE with cause CLASS (R50). -/
def walkRank : Status → Nat
  | .cacheLost => 0 | .notResident => 1 | _ => 2

/-- Opcodes of Table 8-1. -/
def opOpen : Nat := 0x01
def opClose : Nat := 0x02
def opFork : Nat := 0x03
def opAppend : Nat := 0x10
def opAttend : Nat := 0x11
def opAttendMulti : Nat := 0x12
def opMerge : Nat := 0x13
def opGrad : Nat := 0x14
def opPrefixFind : Nat := 0x20
def opPrefixPublish : Nat := 0x21
def opPin : Nat := 0x30
def opUnpin : Nat := 0x31
def opPromote : Nat := 0x32
def opDemote : Nat := 0x33
def opMigrate : Nat := 0x34
def opFreeRange : Nat := 0x35
def opRead : Nat := 0x40
def opWrite : Nat := 0x41
def opFetchAdd : Nat := 0x42
def opCmpSwap : Nat := 0x43
def opVecAdd : Nat := 0x44

/-- The assigned opcodes (Table 8-1). -/
def assignedOps : List Nat :=
  [opOpen, opClose, opFork, opAppend, opAttend, opAttendMulti, opMerge, opGrad, opPrefixFind, opPrefixPublish, opPin, opUnpin,
   opPromote, opDemote, opMigrate, opFreeRange, opRead, opWrite, opFetchAdd, opCmpSwap, opVecAdd]

/-- The opcode of a cache command's constructor and its header (R193); none for any other command. -/
def cacheCommand : Instr → Option (Nat × Head)
  | .openSeq h _ => some (opOpen, h)
  | .closeSeq h => some (opClose, h)
  | .fork h _ => some (opFork, h)
  | .append h _ => some (opAppend, h)
  | .attend h _ => some (opAttend, h)
  | .attendMulti h _ => some (opAttendMulti, h)
  | .merge h _ => some (opMerge, h)
  | .grad h _ => some (opGrad, h)
  | .prefixFind h _ => some (opPrefixFind, h)
  | .prefixPublish h _ => some (opPrefixPublish, h)
  | .pin h _ => some (opPin, h)
  | .unpin h _ => some (opUnpin, h)
  | .promote h _ => some (opPromote, h)
  | .demote h _ => some (opDemote, h)
  | .migrate h _ => some (opMigrate, h)
  | .freeRange h _ => some (opFreeRange, h)
  | .readMem h _ => some (opRead, h)
  | .writeMem h _ => some (opWrite, h)
  | .fetchAdd h _ => some (opFetchAdd, h)
  | .cmpSwap h _ => some (opCmpSwap, h)
  | .vecAdd h _ => some (opVecAdd, h)
  | _ => none

/-- ATTEND, ATTEND_MULTI, APPEND, MERGE and GRAD may be scheduled (R43). -/
def mayBeScheduled (op : Nat) : Bool := 0x10 ≤ op && op ≤ 0x14

end Machine
end Sys2Proof
end

