-- ==== Sys2Proof/Machine/Leaf.lean ====
section
/-! DEFINITION. Where a leaf lies and what it holds: granules, element and scale addresses, and reading a
key or a value (chapter 03). -/

namespace Sys2Proof.Machine

/-- The stack of a granule (R60). -/
def granStack (g : Nat) : Nat := g % 12

/-- The NBU region of a granule within its stack (R60). -/
def granRegion (g : Nat) : Nat := g / 12 / 16384

/-- The granule number of the k-th granule of a region. -/
def granAt (t region k : Nat) : Nat := 12 * (region * 16384 + k) + t

/-- A granule of leaf space: in the stacks and not in the reserve (R60). -/
def granIsLeaf (g : Nat) : Bool := g < 12 * 256 * 16384 && g / 12 % 16384 < 15872

/-- Bytes of a leaf's element area (R61). -/
def elemBytes (fmt d : Nat) : Nat := 64 * d * fmtBits fmt

/-- Granules of a leaf's element area (Table 3-1). -/
def leafGranules (fmt d : Nat) : Nat := ceilDiv (elemBytes fmt d) 16384

/-- Scale slots of a scale granule (Table 3-1). -/
def scaleSlots (d : Nat) : Nat := 16384 / (16 * d)

/-- D of one leaf of a sequence: half the model's in split-head mode (R63). -/
def leafD (d : Nat) : Nat := if 256 < d then d / 2 else d

/-- The granules g, g+12, ... of a leaf (R61). -/
def runOf (g n : Nat) : List Nat := (List.range n).map fun k => g + 12 * k

/-- Local offset of byte x of the element area whose first granule is g (R65). -/
def elemAddr (g x : Nat) : Nat := (g + 12 * (x / 16384)) * 16384 + x % 16384

/-- Local offset of byte x of a scale slot (R62). -/
def scaleAddr (sc : Nat × Nat) (d x : Nat) : Nat := sc.1 * 16384 + sc.2 * 16 * d + x

/-- Bytes of the element area. -/
def State.elems (s : State) (g x n : Nat) : List Byte :=
  (List.range n).map fun i => Mem.get s.mem (elemAddr g (x + i))

/-- Some line of bytes x .. x+n-1 of the element area is poisoned. -/
def State.elemsPoisoned (s : State) (g x n : Nat) : Bool :=
  s.poison.any fun l => (List.range n).any fun i => lineOf (elemAddr g (x + i)) = l

/-- A half of a leaf as a walk resolved it: its first granule and its scale slot. -/
structure HalfLoc where
  granule : Nat
  scale : Option (Nat × Nat)
  deriving DecidableEq, Repr

/-- A decoded vector with the DETAIL code of Table 4-2 for its source, if it has one (R96, R387). -/
def State.vecAt (s : State) (h : HalfLoc) (fmt d x sx : Nat) : List F32 × Option Nat :=
  let n := vecBytes fmt d
  let k := scaleBytes fmt d
  let sc := match h.scale with
    | some p => (List.range k).map fun i => Mem.get s.mem (scaleAddr p d (sx + i))
    | none => List.replicate k 0
  let bad := s.elemsPoisoned h.granule x n || match h.scale with
    | some p => s.poisoned (scaleAddr p d sx) k
    | none => false
  let v := decodeVec fmt d (s.elems h.granule x n) sc
  (v, if bad then some 1 else if v.all ffinite then none else some 2)

/-- The key of a leaf position (R65). -/
def State.keyAt (s : State) (h : HalfLoc) (fmt d pos : Nat) : List F32 × Option Nat :=
  s.vecAt h fmt d (pos * vecBytes fmt d) (pos * (d / 32))

/-- The value of a leaf position (R65). -/
def State.valueAt (s : State) (h : HalfLoc) (fmt d pos : Nat) : List F32 × Option Nat :=
  s.vecAt h fmt d (32 * d * fmtBits fmt + pos * vecBytes fmt d) (8 * d + pos * (d / 32))

/-- The lower of two DETAIL codes (R100). -/
def lowCode : Option Nat → Option Nat → Option Nat
  | none, b => b
  | a, none => a
  | some a, some b => some (min a b)

/-- All bytes of a leaf in the stacks: element area, then scales (R68). -/
def State.leafData (s : State) (h : HalfLoc) (fmt d : Nat) : List Byte :=
  s.elems h.granule 0 (elemBytes fmt d) ++ match h.scale with
    | some p => (List.range (16 * d)).map fun i => Mem.get s.mem (scaleAddr p d i)
    | none => []

/-- A leaf in the stacks reads poison somewhere. -/
def State.leafPoisoned (s : State) (h : HalfLoc) (fmt d : Nat) : Bool :=
  (List.range (leafGranules fmt d)).any (fun k => s.poison.any fun l =>
    l / 256 = h.granule + 12 * k && decide (k * 16384 + l % 256 * 64 < elemBytes fmt d)) ||
  match h.scale with
  | some p => s.poisoned (scaleAddr p d 0) (16 * d)
  | none => false

/-- Write a leaf's bytes into the stacks. -/
def State.putLeaf (s : State) (h : HalfLoc) (fmt d : Nat) (bs : List Byte) : State :=
  let e := elemBytes fmt d
  let s := ((List.range e).zip (bs.take e)).foldl
    (fun s p => { s with mem := Mem.set s.mem (elemAddr h.granule p.1) p.2 }) s
  match h.scale with
  | some p => s.store (scaleAddr p d 0) ((bs.drop e).take (16 * d))
  | none => s

end Sys2Proof.Machine
end

