-- ==== Sys2Proof/Machine/Catalogue.lean ====
section
/-! DEFINITION. The catalogue (chapter 03): handles, sequences, cards, allocation, references, freeing, the
release of resources, table pages and the walk's caches. -/

namespace Sys2Proof.Machine

/-! Handles and sequences. -/

/-- Slot of a handle (R70). -/
def handleSlot (h : Nat) : Nat := h / 4096

/-- Generation of a handle (R70). -/
def handleGen (h : Nat) : Nat := h % 4096

/-- A slot that has never been opened since reset. -/
def Seq.fresh : Seq :=
  { state := .closed, model := 0, generation := 0, tenant := 0, mirrored := false, pinned := false,
    split := false, format := 0, d := 0, layers := 0, kvHeads := 0, length := 0, headDir := 0, buddy := 0,
    lastUse := 0, openRow := 0, damaged := false, loanSeq := false }

/-- The entry of a slot (Table 3-3). -/
def State.seqAt (s : State) (slot : Nat) : Seq := (Tbl.get s.cat.seqs slot).getD Seq.fresh

/-- Change a slot's entry. -/
def State.setSeq (s : State) (slot : Nat) (q : Seq) : State :=
  { s with cat := { s.cat with seqs := Tbl.set s.cat.seqs slot q } }

/-- Sequence slots of the node (Table 3-7). -/
def seqSlots : Nat := 1048576

/-- The handle of a slot's present generation. -/
def handleOf (slot : Nat) (q : Seq) : Nat := slot * 4096 + q.generation

/-- Halves of a block: two in split-head mode (R63). -/
def Seq.halves (q : Seq) : Nat := if q.split then 2 else 1

/-- D of the sequence's leaves. -/
def Seq.leafD (q : Seq) : Nat := if q.split then q.d / 2 else q.d

/-- Every (layer, head) of a sequence. -/
def Seq.heads (q : Seq) : List (Nat × Nat) :=
  (List.range q.layers).flatMap fun l => (List.range q.kvHeads).map fun h => (l, h)

/-- Key of a head (R72). -/
def headKey (slot layer head half : Nat) : Nat := ((slot * 256 + layer) * 64 + head) * 2 + half

/-- Key of a shelfmark (R69). -/
def leafKey (slot layer head half block : Nat) : Nat := headKey slot layer head half * 65536 + block

/-- The card that stands under a shelfmark. -/
def State.leafAt (s : State) (slot layer head half block : Nat) : Option Nat :=
  Tbl.get s.cat.leaves (leafKey slot layer head half block)

/-- The blocks a head holds, in order. -/
def State.blocksOf (s : State) (slot layer head half : Nat) : List Nat :=
  let k := headKey slot layer head half
  s.cat.leaves.filterMap fun p => if p.1 / 65536 = k then some (p.1 % 65536) else none

/-- The cards under a sequence's shelfmarks, with their keys. -/
def State.leavesOf (s : State) (slot : Nat) : List (Nat × Nat) :=
  s.cat.leaves.filter fun p => p.1 / (65536 * 2 * 64 * 256) = slot

/-! Cards. -/

/-- A card by its number. -/
def State.card (s : State) (n : Nat) : Option Card := Tbl.get s.cat.cards n

/-- Change a card (R85). -/
def State.setCard (s : State) (n : Nat) (f : Card → Card) : State :=
  { s with cat := { s.cat with cards := Tbl.modify s.cat.cards n f } }

/-- The leaf is or was Shared: its location stands in the card alone. -/
def Card.isShared (c : Card) : Bool := c.state = .shared || c.state = .moving true

/-- The leaf lies in the stacks. -/
def Card.inStacks (c : Card) : Bool := match c.loc with | .stack _ => true | _ => false

/-- A leaf pointer is invalid (R64). `annex` is the annex size in granules. -/
def LeafPtr.invalid (node annex : Nat) : LeafPtr → Bool
  | .stack g => !granIsLeaf g
  | .annex _ g => annex ≤ g
  | .loan l _ => l = node || l = 0x3FFF
  | .raw _ => true

/-- The place of a leaf in the stacks. -/
def Card.place (c : Card) : Option HalfLoc :=
  match c.loc with
  | .stack g => some ⟨g, c.scale⟩
  | _ => none

/-- Card numbers of the card area (R14). -/
def cardCount : Nat := 50331648

/-- A card number is free: in no card and in nothing released but not returned (R78). -/
def State.cardFree (s : State) (n : Nat) : Bool :=
  (Tbl.get s.cat.cards n).isNone && s.cat.releasing.all fun r => r.card ≠ some n

/-- Cards not in use. -/
def State.freeCards (s : State) : Nat :=
  cardCount - s.cat.cards.length - (s.cat.releasing.filter fun r => r.card.isSome).length

/-! Granules and scale slots (R60 to R62, R143, R144). -/

/-- Leaf granules of the node (R60). -/
def leafGranTotal : Nat := 48758784

/-- Free stack leaf granules. -/
def State.freeGranules (s : State) : Nat := leafGranTotal - s.cat.granules.length

/-- The placement index of R143. -/
def placement (slot layer head block : Nat) : Nat := (97 * slot + layer + 2 * head + 13 * block) % 3072

/-- A region is in fallback from the row after its NBU stopped until a spare serves it (R160, R163), and
every region of a stack whose THERMAL_CAP is 0 (Table 6-2). `lost` lists the regions of a stack without
an NBU. -/
def Stack.regionOut (k : Stack) (lost : List Nat) (region : Nat) : Bool :=
  k.thermalCap = 0 || lost.contains region

/-- Granule k of a region is free. -/
def Cat.granFree (c : Cat) (t region k : Nat) : Bool := !c.granules.contains (granAt t region k)

/-- A start of G consecutive free granules of a region, searched from a free start. -/
def Cat.findRun (c : Cat) (t region g start : Nat) : Option Nat :=
  firstFrom (fun k => k + g ≤ 15872 && (List.range g).all fun i => c.granFree t region (k + i)) start 15872 15872

/-- Take granules. -/
def Cat.takeRun (c : Cat) (g n : Nat) : Cat := { c with granules := runOf g n ++ c.granules }

/-- A scale granule of the region cut for D that has a free slot, with the slot (R62). -/
def Cat.findSlot (c : Cat) (t region d start : Nat) : Option (Nat × Nat) :=
  (c.scales.filter fun p => p.2.d = d && granStack p.1 = t && granRegion p.1 = region).findSome? fun p =>
    (firstFrom (fun k => !p.2.slots.contains k) start (scaleSlots d) (scaleSlots d)).map fun k => (p.1, k)

/-- Take a scale slot. -/
def Cat.takeSlot (c : Cat) (sc : Nat × Nat) (d : Nat) : Cat :=
  { c with scales := match Tbl.get c.scales sc.1 with
      | some g => Tbl.set c.scales sc.1 { g with slots := addNum g.slots sc.2 }
      | none => Tbl.set c.scales sc.1 { d := d, slots := [sc.2] } }

/-- Take a run of granules for each of some halves, searched from a start: their first granules. -/
def Cat.takeHalves (c : Cat) (t region g start : Nat) : Nat → Option (List Nat × Cat)
  | 0 => some ([], c)
  | n + 1 => match c.findRun t region g start with
    | none => none
    | some k => (Cat.takeHalves (c.takeRun (granAt t region k) g) t region g start n).map fun x =>
        (granAt t region k :: x.1, x.2)

/-- Take a scale slot in an MX format, a new scale granule being cut where none has a free slot (log entry 12). -/
def Cat.placeScale (c : Cat) (t region fmt d start : Nat) : Option (Option (Nat × Nat) × Cat) :=
  if !fmtIsMx fmt then some (none, c)
  else match c.findSlot t region d start with
    | some sc => some (some sc, c.takeSlot sc d)
    | none => (c.findRun t region 1 start).map fun j =>
        let sc := (granAt t region j, start % scaleSlots d)
        (some sc, (c.takeRun sc.1 1).takeSlot sc d)

/-- Take a scale slot for each half that has its granules. -/
def Cat.placeScales (c : Cat) (t region fmt d start : Nat) : List Nat → Option (List HalfLoc × Cat)
  | [] => some ([], c)
  | g :: gs => match c.placeScale t region fmt d start with
    | none => none
    | some (sc, c) => (c.placeScales t region fmt d start gs).map fun x => (⟨g, sc⟩ :: x.1, x.2)

/-- Room in a region for a leaf's halves: their granules and scale slots. Where runs from the free start leave none for the other
half, those from the lowest granule on are tried, which find room wherever there is any. -/
def Cat.placeHalves (c : Cat) (t region fmt d start n : Nat) : Option (List HalfLoc × Cat) :=
  let g := leafGranules fmt d
  ((c.takeHalves t region g start n).or (c.takeHalves t region g 0 n)).bind fun x => x.2.placeScales t region fmt d start x.1

/-- The first region from a placement index with room, regions in fallback passed over (R144). -/
def Cat.placeFrom (c : Cat) (out : Nat → Nat → Bool) (fmt d halves start : Nat) :
    Nat → Nat → Option (List HalfLoc × Cat)
  | _, 0 => none
  | p, n + 1 =>
    let t := p % 12
    let r := p / 12
    match (if out t r then none else c.placeHalves t r fmt d start halves) with
    | some x => some x
    | none => c.placeFrom out fmt d halves start ((p + 1) % 3072) n

/-- The regions of a stack whose NBU is stopped and that no spare serves: FALLBACK_MAP. -/
def State.fallbackMap (s : State) (t : Nat) : List Nat :=
  (List.range 256).filter fun r => s.fld ⟨0x010 + t, 0x030 + 8 * (r / 64), r % 64, r % 64⟩ = 1

/-- A region is in fallback (R160): its NBU is stopped, THERMAL_CAP is 0 (Table 6-2), or the NBU group is held (Table 15-5). -/
def State.inFallback (s : State) (t r : Nat) : Bool :=
  (Tbl.get s.vault.blocks (0x010 + t)).isSome ||
  (match s.stackUnits[t]? with | some k => k.thermalCap = 0 | none => false) ||
  s.fld ⟨0x010 + t, 0x030 + 8 * (r / 64), r % 64, r % 64⟩ = 1

/-- Take granules and scale slots for a leaf (R143, R144), the start of the search being free. -/
def State.takeLeaf (s : State) (p fmt d halves : Nat) : Option (List HalfLoc) × State :=
  let start := Config.freeNat s.fresh
  let s := { s with fresh := s.fresh + 1 }
  match s.cat.placeFrom s.inFallback fmt d halves start (p % 3072) 3072 with
  | some (hs, c) => (some hs, { s with cat := c })
  | none => (none, s)

/-- Take a card number (a free choice). -/
def State.takeCard (s : State) (c : Card) : Option Nat × State :=
  match s.choose cardCount s.cardFree with
  | (some n, s) => (some n, { s with cat := { s.cat with cards := Tbl.set s.cat.cards n c } })
  | (none, s) => (none, s)

/-! Table pages (R71 to R73). -/

/-- Table pages of the pool (Table 3-7). -/
def tablePages : Nat := 1015808

/-- Pages of a head directory: 8 bytes for each layer, head and half slot (R72). -/
def dirPagesFor (layers kvHeads : Nat) : Nat := ceilDiv (layers * kvHeads * 16) 2048

/-- Groups of 256 blocks (block bits [15:8]) of some blocks. -/
def blockGroups (blocks : List Nat) : List Nat := (blocks.map fun b => b / 256).dedup

/-- No table of a head. -/
def HeadTable.none : HeadTable := { dir := Option.none, leafPages := [] }

/-- Groups for which a head's table lacks a leaf page, where it holds these blocks: none for nothing or for block 0 alone,
held inline (R72). A page once taken stays until the sequence closes or compaction packs it (log entry 13). -/
def HeadTable.groupsLacking (t : HeadTable) (blocks : List Nat) : List Nat :=
  if (blocks = [] ∨ blocks = [0]) ∧ t.leafPages = [] then []
  else (blockGroups blocks).filter fun g => !t.leafPages.any fun p => p.1 = g

/-- A head's table lacks a block directory for these blocks: one of them is at block 256 or above (R72). -/
def HeadTable.dirLacking (t : HeadTable) (blocks : List Nat) : Bool := t.dir.isNone && blocks.any fun b => 256 ≤ b

/-- Pages a head's table lacks for these blocks. -/
def HeadTable.lacking (t : HeadTable) (blocks : List Nat) : Nat :=
  (t.groupsLacking blocks).length + if t.dirLacking blocks then 1 else 0

/-- The pages of a head's table. -/
def HeadTable.pages (t : HeadTable) : List Nat := t.dir.toList ++ t.leafPages.map Prod.snd

/-- Pages a head's blocks need from nothing. -/
def headPages (blocks : List Nat) : Nat := HeadTable.none.lacking blocks

/-- The table of a head and half. -/
def State.headTable (s : State) (k : Nat) : HeadTable := (Tbl.get s.cat.heads k).getD HeadTable.none

/-- Table pages not taken. -/
def State.freePages (s : State) : Nat := tablePages - s.cat.pages.length

/-- The key of a sequence's head directory in `dirPages`. -/
def dirKey (slot : Nat) : Nat := slot

/-- Some number of consecutive table pages is free. -/
def pagesFree (taken : List Nat) (n p : Nat) : Bool :=
  p + n ≤ tablePages && (List.range n).all fun i => !taken.contains (p + i)

/-- Take `n` consecutive table pages; none where the pool cannot supply them. -/
def State.grabPages (s : State) (n : Nat) : Option (List Nat × State) :=
  if n = 0 then some ([], s)
  else match s.choose tablePages (pagesFree s.cat.pages n) with
  | (some p, s) =>
    let ps := (List.range n).map fun i => p + i
    some (ps, { s with cat := { s.cat with pages := ps ++ s.cat.pages } })
  | (none, _) => none

/-- The same in the shadow while compaction runs: every change of the tables is written to both copies (R91). The shadow has
a pool of its own, whose lowest free pages are taken. -/
def Shadow.grab (x : Shadow) (n : Nat) : List Nat × Shadow :=
  if n = 0 then ([], x)
  else
    let p := (firstFrom (pagesFree x.pages n) 0 tablePages tablePages).getD 0
    let ps := (List.range n).map fun i => p + i
    (ps, { x with pages := ps ++ x.pages })

/-- Change the shadow, where compaction runs. -/
def State.inShadow (s : State) (f : Shadow → Shadow) : State := { s with cat := { s.cat with shadow := s.cat.shadow.map f } }

/-- The shadow takes the pages of a head directory. -/
def Shadow.takeDir (x : Shadow) (slot n : Nat) : Shadow :=
  let (ps, x) := x.grab n
  { x with dirPages := Tbl.set x.dirPages slot ps }

/-- Take `n` consecutive table pages for the head directory of a slot. -/
def State.takePages (s : State) (slot n : Nat) : Option State :=
  (s.grabPages n).map fun x =>
    if n = 0 then x.2
    else { x.2 with cat := { x.2.cat with dirPages := Tbl.set x.2.cat.dirPages slot x.1 } }.inShadow fun y => y.takeDir slot n

/-- Pages a head still lacks to hold its present blocks and the given ones. -/
def State.pagesLacking (s : State) (slot layer head half : Nat) (blocks : List Nat) : Nat :=
  (s.headTable (headKey slot layer head half)).lacking ((s.blocksOf slot layer head half ++ blocks).dedup.mergeSort)

/-- A head's table takes the leaf pages of groups and, where it lacks one, a block directory, out of pages given one by one. -/
def HeadTable.grow (t : HeadTable) (dir : Bool) (groups pages : List Nat) : HeadTable :=
  match dir, pages with
  | true, p :: ps => { dir := some p, leafPages := t.leafPages ++ groups.zip ps }
  | _, ps => { t with leafPages := t.leafPages ++ groups.zip ps }

/-- Take pages one at a time. -/
def State.grabSingles (s : State) : Nat → Option (List Nat × State)
  | 0 => some ([], s)
  | n + 1 => (s.grabPages 1).bind fun x => (x.2.grabSingles n).map fun y => (x.1 ++ y.1, y.2)

/-- The same in the shadow. -/
def Shadow.grabSingles (x : Shadow) : Nat → List Nat × Shadow
  | 0 => ([], x)
  | n + 1 =>
    let (p, x) := x.grab 1
    let (ps, x) := x.grabSingles n
    (p ++ ps, x)

/-- The shadow's table of a head grows to hold these blocks. -/
def Shadow.growHead (x : Shadow) (k : Nat) (blocks : List Nat) : Shadow :=
  let t := (Tbl.get x.heads k).getD HeadTable.none
  let (ps, x) := x.grabSingles (t.lacking blocks)
  { x with heads := Tbl.set x.heads k (t.grow (t.dirLacking blocks) (t.groupsLacking blocks) ps) }

/-- Give a head's table the pages it lacks for a block it newly holds. -/
def State.growHead (s : State) (slot layer head half block : Nat) : State :=
  let k := headKey slot layer head half
  let blocks := (s.blocksOf slot layer head half ++ [block]).dedup.mergeSort
  let t := s.headTable k
  if t.lacking blocks = 0 then s.inShadow fun x => x.growHead k blocks
  else match s.grabSingles (t.lacking blocks) with
    | none => s
    | some (ps, s) =>
      { s with cat := { s.cat with
        heads := Tbl.set s.cat.heads k (t.grow (t.dirLacking blocks) (t.groupsLacking blocks) ps) } }.inShadow
        fun x => x.growHead k blocks

/-! Entries of the tables (Table 3-4). -/

/-- The bits of a leaf pointer (Table 3-9). -/
def LeafPtr.bits32 : LeafPtr → Nat
  | .stack g => g
  | .annex p g => 2 ^ 30 + (if p then 2 ^ 29 else 0) + g
  | .loan l i => 2 * 2 ^ 30 + l * 2 ^ 16 + i
  | .raw b => b

/-- STATE of a card (Table 3-2); LEAF_STATE of the entries that name it. -/
def CardState.code : CardState → Nat
  | .allocated => 1 | .filling => 2 | .sealed => 3 | .shared => 4 | .moving _ => 5 | .lost => 6

/-- The leaf-page entry of a block: 0 for a hole; the pointer is all ones while the leaf is Shared. -/
def State.leafEntry (s : State) (slot layer head half block : Nat) : Nat :=
  match (s.leafAt slot layer head half block).bind fun n => (s.card n).map fun c => (n, c) with
  | none => 0
  | some (n, c) => c.state.code * 2 ^ 60 + n * 2 ^ 32 + if c.isShared then 2 ^ 32 - 1 else c.loc.bits32

/-- The head-directory entry of a layer, head and half. -/
def State.headEntry (s : State) (slot layer head half : Nat) : Nat :=
  let t := s.headTable (headKey slot layer head half)
  match t.dir, t.leafPages with
  | some p, _ => 3 * 2 ^ 62 + p
  | none, (_, p) :: _ => 2 * 2 ^ 62 + p
  | none, [] =>
    let e := s.leafEntry slot layer head half 0
    if e = 0 then 0 else 2 ^ 62 + e % 2 ^ 58

/-- The block-directory entry of a group of 256 blocks. -/
def State.blockEntry (s : State) (slot layer head half group : Nat) : Nat :=
  match (s.headTable (headKey slot layer head half)).leafPages.find? fun p => p.1 = group with
  | some p => p.2
  | none => 0xFFFFF

/-! The walkers' caches (R76, R77). -/

/-- The walker of a sequence slot (R74); a failed walker's slots go to another (R390). -/
def State.walkerOf (s : State) (slot : Nat) : Nat := (Tbl.get s.cat.walkerMap (slot % 16)).getD (slot % 16)

/-- The tag of a span of 16 blocks. -/
def clbTag (slot gen layer head half span : Nat) : Nat :=
  ((headKey slot layer head half) * 4096 + gen) * 4096 + span

/-- The key of the first shelfmark of a tag's span. -/
def tagKey (tag : Nat) : Nat := tag / 4096 / 4096 * 65536 + tag % 4096 * 16

/-- A span is held in a walker's CLB. -/
def State.clbHit (s : State) (walker tag : Nat) : Bool := s.cat.clb.any fun e => e.walker = walker && e.tag = tag

/-- The 16 leaf-page entries of a tag's span. -/
def State.spanLeaves (s : State) (tag : Nat) : List (Option Nat) :=
  (List.range 16).map fun i => Tbl.get s.cat.leaves (tagKey tag + i)

/-- Look a span up in a walker's CLB, filling it on a miss; the replaced way is the node's own (R76). -/
def State.clbLookup (s : State) (walker tag : Nat) : State :=
  if s.clbHit walker tag then s
  else
    let set := Config.clbSet tag % 1024
    let way := Config.clbWay s.fresh % 8
    let keep := s.cat.clb.filter fun e => !(e.walker = walker && e.set = set && e.way = way)
    { s with cat := { s.cat with clb := ⟨walker, set, way, tag, s.spanLeaves tag⟩ :: keep }, fresh := s.fresh + 1 }

/-- Look spans up, one after the other; whether one missed. -/
def State.lookUpTags (s : State) (walker : Nat) (tags : List Nat) : Bool × State :=
  tags.foldl (fun (x : Bool × State) t => (x.1 || !x.2.clbHit walker t, x.2.clbLookup walker t)) (false, s)

/-- The tags of the spans of some blocks of a head, over both halves in split-head mode (R75 step 3). -/
def State.blockTags (s : State) (slot layer head : Nat) (blocks : List Nat) : List Nat :=
  let q := s.seqAt slot
  ((blocks.map fun b => b / 16).dedup).flatMap fun k =>
    (List.range q.halves).map fun f => clbTag slot q.generation layer head f k

/-- A walk looks the spans of some blocks up (R75 step 3). -/
def State.lookBlocks (s : State) (slot layer head : Nat) (blocks : List Nat) : State :=
  (s.lookUpTags (s.walkerOf slot) (s.blockTags slot layer head blocks)).2

/-- The leaf-page entry of a shelfmark changes; the CLB of its walker takes the change in the same cycle (R77). -/
def State.setEntry (s : State) (key : Nat) (card : Option Nat) : State :=
  { s with cat := { s.cat with
    leaves := match card with
      | some n => Tbl.set s.cat.leaves key n
      | none => Tbl.erase s.cat.leaves key
    clb := s.cat.clb.map fun e =>
      if tagKey e.tag ≤ key ∧ key < tagKey e.tag + 16 then { e with leaves := setAt e.leaves (key - tagKey e.tag) fun _ => card }
      else e } }

/-- The CLB entries that hold a leaf leave the CLBs of all walkers (R77). -/
def State.clbDrop (s : State) (card : Nat) : State :=
  { s with cat := { s.cat with clb := s.cat.clb.filter fun e => !e.leaves.contains (some card) } }

/-- Change a card; where the leaf is Shared, no CLB entry keeps it (R77). -/
def State.changeCard (s : State) (n : Nat) (f : Card → Card) : State :=
  match s.card n with
  | some c => if c.isShared then (s.clbDrop n).setCard n f else s.setCard n f
  | none => s

/-- Stand a card under a shelfmark, with the table pages it takes. -/
def State.putLeafAt (s : State) (slot layer head half block card : Nat) : State :=
  (s.growHead slot layer head half block).setEntry (leafKey slot layer head half block) (some card)

/-! Release (R78). -/

/-- A command has begun a walk: it names a sequence and does not wait for its turn to start (R52, R75). -/
def Cmd.walks (c : Cmd) : Bool := c.seqSlot < seqSlots && c.deferred.isNone

/-- Row of the earliest walk whose command has not completed (OLDEST_WALK_ROW); the present row where none
is in flight. -/
def State.oldestWalk (s : State) : Nat :=
  s.work.cmds.foldl (fun m p => if p.2.walks then min m p.2.row else m) s.row

/-- Release resources in this row. -/
def State.release (s : State) (r : Released) : State :=
  { s with cat := { s.cat with releasing := s.cat.releasing ++ [r] } }

/-- Whether the zeroing of R379 applies to a tenant's granules: it is sealed. -/
def State.tenantSealed (s : State) (tenant : Nat) : Bool :=
  match Tbl.get s.vault.tenants tenant with
  | some t => t.isSealed
  | none => false

/-- Return one released record to the free lists; a granule whose last slot is freed goes back to leaf
space (R62). -/
def State.giveBack (s : State) (r : Released) : State :=
  let s := if r.zero then
      let s := r.granules.foldl (fun s g => s.zero (g * 16384) ((g + 1) * 16384)) s
      match r.scale with
      | some sc =>
        let d := match Tbl.get s.cat.scales sc.1 with | some g => g.d | none => 0
        s.zero (scaleAddr sc d 0) (scaleAddr sc d (16 * d))
      | none => s
    else s
  let c := s.cat
  let c := { c with granules := c.granules.filter fun g => !r.granules.contains g,
                    pages := c.pages.filter fun p => !r.pages.contains p }
  let s := { s with mover := { s.mover with granules := s.mover.granules.filter fun g => !r.annex.contains g } }
  let c := match r.scale with
    | none => c
    | some sc => match Tbl.get c.scales sc.1 with
      | none => c
      | some g =>
        let left := g.slots.filter fun k => k ≠ sc.2
        if left = [] then { c with scales := Tbl.erase c.scales sc.1, granules := c.granules.filter (· ≠ sc.1) }
        else { c with scales := Tbl.set c.scales sc.1 { g with slots := left } }
  { s with cat := c }

/-- Nothing released in a row may still be seen: no command is left whose walk began at or before it (R78). -/
def State.walksPast (s : State) (row : Nat) : Bool := s.work.cmds.all fun p => !p.2.walks || row < p.2.row

/-- Return everything released whose commands have completed. -/
def State.giveBackDue (s : State) : State :=
  let due := s.cat.releasing.filter fun r => s.walksPast r.row
  let s := { s with cat := { s.cat with releasing := s.cat.releasing.filter fun r => !s.walksPast r.row } }
  due.foldl State.giveBack s

/-! Leaves (Table 3-5). -/

/-- The resources of a leaf at its place in the stacks. -/
def Card.stackRelease (c : Card) (row : Nat) (card : Option Nat) (zero : Bool) : Released :=
  match c.loc with
  | .stack g => { row := row, granules := runOf g (leafGranules c.format c.d), annex := [], scale := c.scale, card := card,
                  pages := [], zero := zero }
  | _ => { row := row, granules := [], annex := [], scale := none, card := card, pages := [], zero := false }

/-- A release of annex granules alone. -/
def annexRelease (row : Nat) (gs : List Nat) : Released :=
  { row := row, granules := [], annex := gs, scale := none, card := none, pages := [], zero := false }

/-- A release of table pages alone. -/
def pageRelease (row : Nat) (ps : List Nat) : Released :=
  { row := row, granules := [], annex := [], scale := none, card := none, pages := ps, zero := false }

/-- Release the run of granules an annex copy takes, under R78. -/
def State.dropAnnexCopy (s : State) (card : Nat) : State :=
  match Tbl.get s.mover.copies card with
  | none => s
  | some a =>
    { s with mover := { s.mover with copies := Tbl.erase s.mover.copies card } }.release
      (annexRelease s.row ((List.range a.run).map fun i => a.first + i))

/-! Loan messages (R260, R262, Table 10-2). -/

/-- The loan handle a lender has given for a sequence; 0 where it has given none (R260). -/
def State.loanHandle (s : State) (lender handle : Nat) : Nat :=
  match s.cat.loanMap.find? fun x => x.1 = lender && x.2.1 = handle with
  | some x => x.2.2
  | none => 0

/-- A loan message about a card of a sequence: its header (Table 10-2), without data. -/
def Card.loanMsg (c : Card) (q : Seq) (node slot borrowerHandle lenderHandle : Nat) : LoanMsg :=
  { qp := 0, srcQp := 0, src := node, result := 0, loanSlot := slot, borrowerHandle := borrowerHandle,
    lenderHandle := lenderHandle, layer := c.layer, head := c.head, half := c.half, block := c.block, model := c.model,
    format := c.format, d := q.d, layers := q.layers - 1, kvHeads := q.kvHeads, origin := c.origin, crc := c.crc, data := [] }

/-- A message to a lender about a card of this node. -/
def State.loanMsg (s : State) (lender slot : Nat) (c : Card) : LoanMsg :=
  c.loanMsg (s.seqAt (handleSlot c.handle)) lender slot c.handle (s.loanHandle lender c.handle)

/-- A card is on loan to a lender. -/
def Card.lentTo (c : Card) (lender : Nat) : Bool := match c.loc with | .loan l _ => l = lender | _ => false

/-- Send RELEASE for a loan slot of a card (R263). With the last loan of a sequence its loan sequence closes at the lender, and the
handle is forgotten: the next LEND opens another (R259, R262). -/
def State.sendRelease (s : State) (lender slot n : Nat) (c : Card) : State :=
  let s := s.send (.loan .release lender (s.loanMsg lender slot c))
  if s.cat.cards.any fun p => p.1 ≠ n && p.2.handle = c.handle && p.2.lentTo lender then s
  else { s with cat := { s.cat with loanMap := s.cat.loanMap.filter fun x => !(x.1 = lender && x.2.1 = c.handle) } }

/-- What a Moving leaf is again once its move has ended (Table 3-5). -/
def Card.settle (c : Card) : Card :=
  match c.state with
  | .moving wasShared => { c with state := if wasShared then .shared else .sealed }
  | _ => c

/-- Release what a move has reserved, under R78: granules and scale slots of the stacks, or a run of the annex. -/
def State.unreserve (s : State) (m : Move) : State :=
  match m.dest with
  | .stack => (m.granules.zip m.scales).foldl (fun s g =>
      s.release { row := s.row, granules := g.1, annex := [], scale := g.2, card := none, pages := [], zero := false }) s
  | _ => s.release (annexRelease s.row m.granules.flatten)

/-- Release the loan slots that a lender has given for the halves of a move that does not end there (R254). -/
def State.releaseAcks (s : State) (m : Move) : State :=
  match m.dest with
  | .loan l => m.acks.foldl (fun s a => match s.card a.1 with
      | some c => s.sendRelease l a.2 a.1 c
      | none => s) s
  | _ => s

/-- What became of a request of range commands. -/
inductive MoveEnd where
  | acted | passed | noSpace
  deriving DecidableEq, Repr

/-- Cards whose PINNED an UNPIN clears once a move has ended (R224). -/
def State.unpinsAt (s : State) (m : Nat) : List Nat :=
  s.work.cmds.flatMap fun p => (p.2.unpins.filter fun u => u.1 = m).map Prod.snd

/-- A request ends: it leaves its queue, and the commands that wait for it take note. A PIN or an UNPIN has counted the leaf
(R224). -/
def State.endMove (s : State) (m : Nat) (how : MoveEnd) : State :=
  match Tbl.get s.mover.moves m with
  | none => s
  | some mv =>
    let n := mv.cards.length
    let s := { s with mover := { s.mover with moves := Tbl.erase s.mover.moves m } }
    let s := (s.unpinsAt m).foldl (fun s k => s.setCard k fun c => { c with pinned := false }) s
    { s with work := { s.work with cmds := Tbl.mapVals s.work.cmds fun _ c =>
        if (c.moves.contains m) = false then c
        else
          let c := { c with moves := c.moves.filter (· ≠ m), unpins := c.unpins.filter fun u => u.1 ≠ m }
          let skip (c : Cmd) : Cmd := if c.opcode = opPin ∨ c.opcode = opUnpin then c
            else { c with affected := c.affected - n, skipped := c.skipped + n }
          match how with
          | .acted => c
          | .passed => skip c
          | .noSpace => { skip c with noSpace := true } } }

/-- Abandon the moves of a leaf and release what they took (R79); another half of the leaf is no longer Moving, and a command
that asked for such a move has skipped its leaves. -/
def State.abandonMoves (s : State) (card : Nat) : State :=
  (s.mover.moves.filter fun p => p.2.cards.contains card).foldl (fun s p =>
    (p.2.cards.filter (· ≠ card)).foldl (fun s n => s.changeCard n Card.settle)
      (((s.endMove p.1 .passed).unreserve p.2).releaseAcks p.2)) s

/-- Free a leaf: its place in every tier is released under R78 and its card with it, and no REF_LINK names it any more; a copy
on loan is released at its lender (R263). -/
def State.freeLeaf (s : State) (n : Nat) : State :=
  match s.card n with
  | none => s
  | some c =>
    let s := s.abandonMoves n
    let s := s.dropAnnexCopy n
    let s := match c.loc with
      | .loan l slot => s.sendRelease l slot n c
      | _ => s
    let s := s.release (c.stackRelease s.row (some n) (s.tenantSealed c.owner || s.tenantSealed c.origin))
    { s with cat := { s.cat with
      cards := Tbl.mapVals (Tbl.erase s.cat.cards n) fun _ k => if k.link = some n then { k with link := none } else k } }

/-- Drop one reference on a leaf (R86): the last one frees it, and a Shared or Lost leaf that holds more loses one (Table
3-5). -/
def State.dropRef (s : State) (n : Nat) : State :=
  match s.card n with
  | none => s
  | some c =>
    if 1 < c.refs then s.changeCard n fun c => { c with refs := c.refs - 1 }
    else s.freeLeaf n

/-- Remove a shelfmark and drop its reference; the block becomes a hole. -/
def State.dropLeafAt (s : State) (slot layer head half block : Nat) : State :=
  match s.leafAt slot layer head half block with
  | none => s
  | some n => (s.setEntry (leafKey slot layer head half block) none).dropRef n

/-- The other half of a leaf's block in split-head mode: the card under the partner shelfmark, or, where no shelfmark names
the leaf, one of the same sequence and block (R63). -/
def State.partner (s : State) (n : Nat) : Option Nat :=
  match s.card n with
  | none => none
  | some c =>
    match (s.cat.leaves.find? fun p => p.2 = n).bind fun p =>
        Tbl.get s.cat.leaves (if c.half = 0 then p.1 + 65536 else p.1 - 65536) with
    | some m => if m ≠ n then some m else none
    | none => (s.cat.cards.find? fun p => p.2.handle = c.handle && p.2.layer = c.layer && p.2.head = c.head
        && p.2.block = c.block && p.2.half ≠ c.half).map Prod.fst

/-- A card's leaf becomes Lost without an event. Its moves end. -/
def State.loseQuiet (s : State) (n : Nat) : State :=
  match s.card n with
  | none => s
  | some c =>
    if c.state = .lost then s
    else
      (s.abandonMoves n).changeCard n fun c => { c with state := .lost }

/-- The event of a Lost leaf, KIND 0x0007, for its owning tenant (R418). -/
def State.postLost (s : State) (n : Nat) : State :=
  match s.card n with
  | none => s
  | some c => s.postTenant c.owner { s.event 0x0007 0x050 0 with tenant := c.owner, handle := c.handle, arg0 := n }

/-- The halves of a leaf's block that are not yet Lost. -/
def State.halvesLeft (s : State) (n : Nat) : List Nat :=
  (n :: (s.partner n).toList).filter fun k => match s.card k with
    | some c => c.state ≠ .lost
    | none => false

/-- A leaf becomes Lost, with its other half (R63); an event goes to the owning tenant (Table 3-5, R418). -/
def State.loseLeaf (s : State) (n : Nat) : State :=
  (s.halvesLeft n).foldl (fun s k => (s.loseQuiet k).postLost k) s

/-- A leaf may take a further reference: it is Sealed, Shared, or one of them and Moving (R79, R82). -/
def Card.sharable (c : Card) : Bool :=
  match c.state with
  | .sealed => true | .shared => true | .moving _ => true
  | .allocated => false | .filling => false | .lost => false

/-- A leaf takes a further reference: it becomes Shared (R79). -/
def State.share (s : State) (n : Nat) : State :=
  (s.clbDrop n).setCard n fun c =>
    match c.state with
    | .moving _ => { c with state := .moving true, owner := 0xFFF, refs := c.refs + 1 }
    | .sealed => { c with state := .shared, owner := 0xFFF, refs := c.refs + 1 }
    | .shared => { c with refs := c.refs + 1 }
    | _ => c

/-- Why a reference cannot be taken (R83), with the cards of the saturated leaf. -/
inductive RefFail where
  | notResident (cards : List Nat)
  | cacheLost (cards : List Nat)
  | noSpace
  deriving DecidableEq, Repr

/-- Copy a leaf's bytes within the stacks. -/
def State.copyLeaf (s : State) (src dst : HalfLoc) (fmt d : Nat) : State :=
  s.putLeaf dst fmt d (s.leafData src fmt d)

/-- The card of the copy made of a saturated leaf (R83). DESIGN CHOICE (log entry 153): of LAST_USE_ROW, PINNED and MIRRORED,
which R83 does not list, the copy takes the present row and clear flags. -/
def Card.copyFor (c : Card) (handle row : Nat) (h : HalfLoc) : Card :=
  { c with handle := handle, owner := 0xFFF, state := .shared, refs := 1, link := none, pinned := false,
           mirrored := false, loc := .stack h.granule, scale := h.scale, lastUse := row48 row,
           annexGranules := 0 }

/-- Make the copies of the halves of a saturated leaf at places already taken. -/
def State.copyHalves (s : State) (handle : Nat) : List (Nat × Card × HalfLoc × HalfLoc) → Except RefFail (List Nat × State)
  | [] => .ok ([], s)
  | (n, c, src, dst) :: t =>
    match s.takeCard (c.copyFor handle s.row dst) with
    | (none, _) => .error .noSpace
    | (some m, s) =>
      let s := s.copyLeaf src dst c.format c.d
      match (s.changeCard n fun c => { c with link := some m }).copyHalves handle t with
      | .ok (ms, s) => .ok (m :: ms, s)
      | .error e => .error e

/-- The copy that the halves of a saturated leaf link to, where it has room: it is Shared and not Lost (R83). -/
def State.linkedCopy (s : State) (cs : List (Nat × Card)) : Option (List Nat) :=
  (cs.mapM fun (p : Nat × Card) => p.2.link).bind fun ms =>
    if ms.all fun m => match s.card m with | some c => c.sharable && c.refs < 65535 | none => false then some ms else none

/-- Take a reference on a leaf, given by the cards of its halves, for a sequence's HANDLE (R82, R83): the
cards that carry it. For a saturated leaf its linked copy takes it where that has room; otherwise the leaf is
copied in the stacks, both halves in one region, and linked to the new copy. -/
def State.takeRef (s : State) (handle : Nat) (ns : List Nat) : Except RefFail (List Nat × State) :=
  match ns.mapM fun n => (s.card n).map fun c => (n, c) with
  | none => .error (.cacheLost [])
  | some cs =>
    if !(cs.all fun p => p.2.sharable) then .error (.cacheLost ns)
    else if cs.all fun p => p.2.refs < 65535 then .ok (ns, ns.foldl State.share s)
    else match s.linkedCopy cs with
    | some ms => .ok (ms, ms.foldl State.share s)
    | none => match cs.mapM fun p => p.2.place.map fun l => (p.1, p.2, l), cs.head? with
      | some ps, some (_, c) =>
        if ps.any fun p => s.leafPoisoned p.2.2 p.2.1.format p.2.1.d then .error (.cacheLost ns)
        else match s.takeLeaf (placement (handleSlot handle) c.layer c.head c.block) c.format c.d cs.length with
        | (some hs, s) => s.copyHalves handle ((ps.zip hs).map fun p => (p.1.1, p.1.2.1, p.1.2.2, p.2))
        | (none, _) => .error .noSpace
      | _, _ => .error (.notResident ns)

/-- The cards of a block's halves; none for a hole. -/
def State.cardsAt (s : State) (slot layer head block : Nat) : Option (List Nat) :=
  (List.range (s.seqAt slot).halves).mapM fun half => s.leafAt slot layer head half block

/-- Stand cards under the halves of a block. -/
def State.putCards (s : State) (slot layer head block : Nat) (cards : List Nat) : State :=
  ((List.range cards.length).zip cards).foldl (fun s p => s.putLeafAt slot layer head p.1 block p.2) s

/-! Requests for moves (R253, R255, R265). -/

/-- A request to move a leaf. -/
def Move.request (cards : List Nat) (cls : MoveClass) (dest : Dest) (row : Nat) : Move :=
  { cards := cards, cls := cls, dest := dest, fallback := false, condense := false, queued := row,
    started := none, channel := 0, granules := [], scales := [], recalled := [], acks := [], lentAt := none,
    returns := false, waits := false }

/-- Put a move in its class's queue. -/
def State.queueMove (s : State) (m : Move) : State :=
  { s with mover := { s.mover with moves := Tbl.set s.mover.moves s.mover.next m, next := s.mover.next + 1 } }

/-- Moves of a class not yet started. -/
def State.queuedOf (s : State) (cls : MoveClass) : Nat :=
  (s.mover.moves.filter fun p => p.2.cls = cls && p.2.started.isNone).length

/-- A move of the leaf is queued or running. -/
def State.hasMove (s : State) (card : Nat) : Bool := s.mover.moves.any fun p => p.2.cards.contains card

/-- A promotion of the leaf is queued or running. -/
def State.isPromoted (s : State) (card : Nat) : Bool :=
  s.mover.moves.any fun p => p.2.cards.contains card && p.2.cls = .demand && p.2.dest = .stack

/-- The promotion that NOT_RESIDENT starts (R25): no second request for a leaf (R255), and none past the
queue's 16,384 entries (Table 10-3). One for a leaf that moves, or whose prefetch waits, is recorded beside it (R253). -/
def State.promote (s : State) (cards : List Nat) : State :=
  if cards.any s.isPromoted ∨ 16384 ≤ s.queuedOf .demand then s
  else s.queueMove (Move.request cards .demand .stack s.row)

/-- What a reference that could not be taken leaves: the saturated leaf's promotion, or its loss (R83). -/
def State.refFailed (s : State) : RefFail → State
  | .notResident cards => s.promote cards
  | .cacheLost cards => cards.foldl State.loseLeaf s
  | .noSpace => s

/-! Leaves on loan (R260, R261). -/

/-- The lender of a leaf on loan, with the handle of the loan sequence there. -/
def State.loanOf (s : State) (cards : List Nat) : Option (Nat × Nat) :=
  cards.findSome? fun n => (s.card n).bind fun c => match c.loc with
    | .loan l _ => some (l, s.loanHandle l c.handle)
    | _ => none

/-! Ends and pending positions (R175, R178). -/

/-- The end of a head in the tables: BASE_POSITION + VALID_COUNT of its highest block, 0 without a leaf. -/
def State.tableEnd (s : State) (slot layer head : Nat) : Nat :=
  match (s.blocksOf slot layer head 0).getLast? with
  | none => 0
  | some b => match s.leafAt slot layer head 0 b with
    | some n => b * 256 + match s.card n with | some c => c.valid | none => 0
    | none => 0

/-- The end e of R175: with the positions of every admitted APPEND. -/
def State.endOf (s : State) (slot layer head : Nat) : Nat :=
  s.work.appends.foldl (fun e a =>
    if a.seqSlot = slot ∧ a.layer = layer ∧ a.head = head then max e a.endPos else e)
    (s.tableEnd slot layer head)

/-- VALID_COUNT a leaf will hold once the pending scheduled writes of its head end (R178). -/
def State.pendingValid (s : State) (card valid : Nat) : Nat :=
  s.work.appends.foldl (fun v a =>
    if a.scheduled then a.acts.foldl (fun v act => match act with
      | .raise cs w => if cs.contains card then max v w else v
      | _ => v) v
    else v) valid

/-- An admitted APPEND has positions in the leaf of a card still to be raised. -/
def AppendJob.writes (a : AppendJob) (c : Card) : Bool :=
  a.seqSlot = handleSlot c.handle && a.layer = c.layer && a.head = c.head && a.first < (c.block + 1) * 256 &&
    c.block * 256 < a.endPos

/-- The first leaf position that an APPEND writes in a block. -/
def AppendJob.low (a : AppendJob) (block : Nat) : Nat := a.first - block * 256

/-- VALID_COUNT of a leaf without the positions of L8 APPENDs that go on: they are visible only to walks that begin after the
APPEND's last raise (R179). -/
def State.shownValid (s : State) (c : Card) (valid : Nat) : Nat :=
  s.work.appends.foldl (fun v a => if !a.scheduled && a.writes c then min v (a.low c.block) else v) valid

/-- A pending scheduled APPEND writes this leaf. -/
def State.appendWrites (s : State) (card : Nat) : Bool :=
  s.work.appends.any fun a => a.scheduled && a.acts.any fun act => match act with
    | .raise cs _ => cs.contains card
    | _ => false

/-! Host accesses and the conflict queues (R154). -/

/-- A region has its NBU in the round its stack runs. -/
def State.inRound (s : State) (t region : Nat) : Bool :=
  match s.stackUnits[t]? with
  | none => false
  | some k => match k.round with
    | none => false
    | some r => r.items.any fun i => match Tbl.get s.work.items i with
      | some x => x.region = region
      | none => false

/-- Change a stack's units. -/
def State.setStack (s : State) (t : Nat) (f : Stack → Stack) : State :=
  { s with stackUnits := setAt s.stackUnits t f }

/-- One host access to a region. A region in a round takes it into its conflict queue of eight entries, where it is counted
among the waits, or holds it at the input while that is full (R154): the answer says that it waits. -/
def State.hostAccess (s : State) (t region : Nat) (who : Accessor) : Bool × State :=
  if s.inRound t region then
    let a : Access := { region := region, came := s.clock.ns, entered := s.clock.ns, who := who }
    let q := match s.stackUnits[t]? with | some k => (Tbl.get k.conflicts region).getD [] | none => []
    if q.length < 8 then
      (true, (s.setStack t fun k => { k with conflicts := Tbl.set k.conflicts region (q ++ [a]) }).count (rConflictWaits t) 1)
    else (true, s.setStack t fun k => { k with held := k.held ++ [a] })
  else (false, s)

/-- The (stack, region) pairs of the leaf granules that bytes [a, a+n) of the stacks lie in; the reserve is served
without a queue (R155). -/
def regionsOf (a n : Nat) : List (Nat × Nat) :=
  ((List.range ((a + n - 1) / 16384 + 1 - a / 16384)).filterMap fun i =>
    let g := a / 16384 + i
    if granIsLeaf g then some (granStack g, granRegion g) else none).dedup

/-- Host accesses to some regions: how many of them wait. -/
def State.hostRegions (s : State) (who : Accessor) (rs : List (Nat × Nat)) : Nat × State :=
  rs.foldl (fun (x : Nat × State) r =>
    let (w, s) := x.2.hostAccess r.1 r.2 who
    (if w then x.1 + 1 else x.1, s)) (0, s)

/-- The host accesses of bytes of the stacks. -/
def State.hostBytes (s : State) (a n : Nat) (who : Accessor) : Nat × State := s.hostRegions who (regionsOf a n)

/-- A command reads leaves: their LAST_USE_ROW is the present row (R67). It is not part of what a CLB entry holds. -/
def State.useCards (s : State) (cards : List Nat) : State :=
  cards.foldl (fun s n => s.setCard n fun c => { c with lastUse := row48 s.row }) s

/-! Compaction (R91). -/

/-- The shadow loses pages. -/
def Shadow.dropPages (x : Shadow) (ps : List Nat) : Shadow := { x with pages := x.pages.filter fun p => !ps.contains p }

/-- The shadow takes the pages of a leaf record. -/
def Shadow.addRecord (x : Shadow) (entry n : Nat) : Shadow :=
  let (ps, x) := x.grab n
  { x with records := Tbl.set x.records entry ps }

/-- The shadow loses a leaf record. -/
def Shadow.dropRecord (x : Shadow) (entry : Nat) : Shadow :=
  { x.dropPages ((Tbl.get x.records entry).getD []) with records := Tbl.erase x.records entry }

/-- A key of `heads` belongs to a slot. -/
def headOf (slot k : Nat) : Bool := k / (2 * 64 * 256) = slot

/-- The shadow loses the tables of a slot. -/
def Shadow.dropSeq (x : Shadow) (slot : Nat) : Shadow :=
  let heads := x.heads.filter fun p => headOf slot p.1
  { x.dropPages ((Tbl.get x.dirPages slot).getD [] ++ heads.flatMap fun p => p.2.pages) with
    dirPages := Tbl.erase x.dirPages slot
    heads := x.heads.filter fun p => !headOf slot p.1 }

/-- Build the shadow: the pages that the tables need, taken in order from the shadow's pool. Leaf pages and block directories
that no block needs any more, and those of heads that block 0 alone is left of, are not taken over. -/
def State.buildShadow (s : State) : Shadow :=
  let x : Shadow := { pages := [], dirPages := [], heads := [], records := [] }
  let x := s.cat.dirPages.foldl (fun x p => x.takeDir p.1 p.2.length) x
  let x := s.index.recordPages.foldl (fun x p => x.addRecord p.1 p.2.length) x
  (s.cat.leaves.map fun p => p.1 / 65536).dedup.foldl (fun x k =>
    x.growHead k (s.cat.leaves.filterMap fun p => if p.1 / 65536 = k then some (p.1 % 65536) else none)) x

/-- Compaction starts, unless it runs already or walks begun before the last swap still use the former copy (R91, R78). -/
def State.compactBegin (s : State) : State :=
  let past : Bool := match s.cat.swapRow with | some r => s.walksPast (r - 1) | none => true
  if s.fld rCompactPhase = 0 ∧ past then
    { s with cat := { s.cat with shadow := some s.buildShadow } }.setFld rCompactPhase 1
  else s

/-- A command found too few table pages: compaction starts (Table 3-7). -/
def State.pagesOut (s : State) (o : Outcome) : State :=
  if o.status = .noResource ∧ o.detail = 0xA then s.compactBegin else s

end Sys2Proof.Machine
end

