-- ==== Sys2Proof/Machine/Operands.lean ====
section
/-! DEFINITION. The layouts of command bodies (Tables 8-7 to 8-14): their lengths, and the values their payloads
carry. -/

namespace Sys2Proof.Machine

/-- The greatest BODY_LENGTH: a message is at most 2,097,152 bytes with its header (R192). -/
def maxBody : Nat := 2097152 - 16

/-- n bytes of a payload from byte x, 0 where the payload ends. -/
def slice (bs : List Byte) (x n : Nat) : List Byte := (List.range n).map fun i => bs.getD (x + i) 0

/-- A little-endian number of a payload (R4). -/
def num (bs : List Byte) (x n : Nat) : Nat := leNat (slice bs x n)

end Sys2Proof.Machine

namespace Sys2Proof
open Machine

/-! Attention bodies (Tables 8-9, 8-10). -/

/-- Bytes of the fixed fields. -/
def attnFixed (grad : Bool) : Nat := if grad then 48 else 16

/-- Bytes of QCOUNT x QHEADS vectors. -/
def AttnBody.vectors (b : AttnBody) (fmt d : Nat) : Nat := b.qcount * b.qheads * (d * fmtBits fmt / 8)

/-- BODY_LENGTH of the full layout. -/
def AttnBody.size (b : AttnBody) (grad : Bool) (d : Nat) : Nat :=
  attnFixed grad + 4 * b.qcount + b.vectors b.qFormat d +
    if grad then b.vectors b.doFormat d + 12 * b.qcount * b.qheads else 0

/-- POSITIONS. -/
def AttnBody.positions (b : AttnBody) : List Nat :=
  (List.range b.qcount).map fun i => num b.payload (4 * i) 4 % 2 ^ 24

/-- Vector (position j, head h) of a block of vectors that begins at byte x. -/
def AttnBody.vector (b : AttnBody) (x fmt d j h : Nat) : List F32 :=
  let n := d * fmtBits fmt / 8
  decodeVec fmt d (slice b.payload (x + (j * b.qheads + h) * n) n) []

/-- Query of position j and head h (R95). -/
def AttnBody.query (b : AttnBody) (d j h : Nat) : List F32 :=
  b.vector (4 * b.qcount) b.qFormat d j h

/-- DO of position j and head h. -/
def AttnBody.dOut (b : AttnBody) (d j h : Nat) : List F32 :=
  b.vector (4 * b.qcount + b.vectors b.qFormat d) b.doFormat d j h

/-- The k-th of the FP32 tables M, LINV, DELTA (k = 0, 1, 2). -/
def AttnBody.stat (b : AttnBody) (d k j h : Nat) : F32 :=
  let x := 4 * b.qcount + b.vectors b.qFormat d + b.vectors b.doFormat d + 4 * k * b.qcount * b.qheads
  BitVec.ofNat 32 (num b.payload (x + 4 * (j * b.qheads + h)) 4)

/-- Every (position, head) of a command, in order (R211). -/
def AttnBody.pairs (b : AttnBody) : List (Nat × Nat) :=
  (List.range b.qcount).flatMap fun j => (List.range b.qheads).map fun h => (j, h)

/-- Every number of the payload is finite (R96). -/
def AttnBody.payloadFinite (b : AttnBody) (grad : Bool) (d : Nat) : Bool :=
  b.pairs.all fun p => (b.query d p.1 p.2).all ffinite &&
    (!grad || ((b.dOut d p.1 p.2).all ffinite && [0, 1, 2].all fun k => ffinite (b.stat d k p.1 p.2)))

/-! APPEND (Table 8-8). -/

/-- Bytes of one of KEYS and VALUES. -/
def AppendBody.half (b : AppendBody) (d : Nat) : Nat := b.count * (d * fmtBits b.inFormat / 8)

/-- Bytes of SCALES. -/
def AppendBody.scaleLen (b : AppendBody) (d : Nat) : Nat :=
  if fmtIsMx b.inFormat then 2 * b.count * (d / 32) else 0

/-- BODY_LENGTH of the full layout. -/
def AppendBody.size (b : AppendBody) (d : Nat) : Nat := 16 + 2 * b.half d + b.scaleLen d

/-- Bytes and scales of the key (v = false) or the value of the i-th position. -/
def AppendBody.raw (b : AppendBody) (d : Nat) (v : Bool) (i : Nat) : List Byte × List Byte :=
  let n := d * fmtBits b.inFormat / 8
  let k := scaleBytes b.inFormat d
  let x := if v then b.half d else 0
  let sx := 2 * b.half d + if v then b.count * k else 0
  (slice b.payload (x + i * n) n, slice b.payload (sx + i * k) k)

/-- The same as FP32 values (R95). -/
def AppendBody.values (b : AppendBody) (d : Nat) (v : Bool) (i : Nat) : List F32 :=
  let r := b.raw d v i
  decodeVec b.inFormat d r.1 r.2

/-- Every number of the payload is finite (R96). -/
def AppendBody.payloadFinite (b : AppendBody) (d : Nat) : Bool :=
  (List.range b.count).all fun i => (b.values d false i).all ffinite && (b.values d true i).all ffinite

/-- A vector as it is stored in one half of the leaf: bytes and scales. It is copied when it is already in
the storage format and otherwise converted (R176). Elements of half 1 begin at D/2 (R63). -/
def AppendBody.stored (b : AppendBody) (fmt d : Nat) (split : Bool) (half : Nat) (v : Bool) (i : Nat) :
    List Byte × List Byte :=
  let n := if split then d / 2 else d
  if b.inFormat = fmt then
    let r := b.raw d v i
    (slice r.1 (half * vecBytes fmt n) (vecBytes fmt n), slice r.2 (half * scaleBytes fmt n) (scaleBytes fmt n))
  else encodeVec fmt (((b.values d v i).drop (half * n)).take n)

/-! MERGE (Table 8-11). -/

/-- Read n partials from bytes; none where one overruns or bytes are left over (R216). -/
def parsePartials (d : Nat) : Nat → List Byte → Option (List Partial)
  | 0, [] => some []
  | 0, _ :: _ => none
  | n + 1, bs =>
    let size := 16 + (if leNat ((bs.drop 8).take 1) / 2 % 2 = 1 then 2 else 4) * d
    if bs.length < size then none
    else (parsePartials d n (bs.drop size)).map fun ps => partialOfBytes d (bs.take size) :: ps

/-- The partials of a MERGE body. -/
def MergeBody.partials (b : MergeBody) : Option (List Partial) :=
  parsePartials b.d (b.inputs * b.qheads) b.payload

/-- The counts of Table 8-11 and MODE. -/
def MergeBody.countsOk (b : MergeBody) : Bool :=
  2 ≤ b.inputs && b.inputs ≤ 64 && 1 ≤ b.qheads && b.qheads ≤ 16 && b.inputs * b.qheads ≤ 512 &&
    64 ≤ b.d && b.d ≤ 512 && b.mode ≤ 1

/-! Prefix, range and raw bodies. -/

/-- BODY_LENGTH of a prefix command. -/
def ChainBody.size (b : ChainBody) : Nat := 16 + 8 * b.count

/-- BODY_LENGTH of a raw command's fixed fields. -/
def rawFixed (op : Nat) : Nat := if op = 0x42 then 24 else if op = 0x43 then 32 else 16

/-- BODY_LENGTH of a raw command's full layout (Table 8-14). -/
def RawBody.size (b : RawBody) (op : Nat) : Nat :=
  rawFixed op + if op = 0x41 then b.length else if op = 0x44 then 4 * b.length else 0

/-- LENGTH lies in its range. -/
def RawBody.lengthOk (b : RawBody) (op : Nat) : Bool :=
  if op = 0x42 ∨ op = 0x43 then b.length = 8
  else if op = 0x44 then 1 ≤ b.length && b.length ≤ 16384
  else 1 ≤ b.length && b.length ≤ 1048576

/-- Bytes a raw command reaches. -/
def RawBody.bytes (b : RawBody) (op : Nat) : Nat := if op = 0x44 then 4 * b.length else b.length

/-- Head dimensions of R63 and Table 8-7. -/
def dAllowed (d : Nat) : Bool := [64, 96, 128, 160, 192, 256, 320, 384, 512].contains d

end Sys2Proof
end

