-- ==== Sys2Proof/Machine/Stitch.lean ====
section
/-! DEFINITION. Stitch programs (chapter 05): the instructions, their words and costs, the loader's checks,
and what an instruction does to a context. -/

namespace Sys2Proof.Machine

/-- A stitch instruction (Table 5-4). `n` is the count 1 to 8; `row`, `q`, `vr` its first row,
accumulator or query head, and vector register; `c` and `ci` the chunk. -/
inductive SOp where
  | nop
  | rep (count len : Nat)
  | endOp
  | gmark
  | sli (sd : Nat) (imm : Int)
  | sadd (sd sa sb : Nat)
  | ssub (sd sa sb : Nat)
  | azero (q n : Nat)
  | kdot (row n c : Nat) (ci hf add : Bool) (q : Nat)
  | accv (row n c : Nat) (ci hf : Bool) (q : Nat)
  | sscl (row n c : Nat) (ci : Bool) (mk : Nat)
  | sbias (row n c : Nat) (ci : Bool) (mk : Nat)
  | smax (vr row n c : Nat) (ci : Bool) (mk : Nat)
  | rmax (vr n : Nat)
  | sexp (vr row n c : Nat) (ci : Bool) (mk : Nat)
  | vset (vr n k : Nat)
  | mset (mk cond sa c : Nat) (ci : Bool)
  | mand (mk ma mb : Nat)
  | mor (mk ma mb : Nat)
  | emit (vr row n : Nat) (split : Bool) (q : Nat)
  deriving DecidableEq, Repr

/-- Bits [h:l] of an instruction word. -/
def wbits (w h l : Nat) : Nat := w / 2 ^ l % 2 ^ (h + 1 - l)

/-- A two's complement number of `n` bits. -/
def signed (n v : Nat) : Int := if 2 ^ (n - 1) ≤ v then (v : Int) - 2 ^ n else v

/-- Decode a word (Tables 5-3 and 5-4); none for a reserved opcode, a reserved field that is not zero, or
the reserved VSET constant. -/
def decodeStitch (w : Nat) : Option SOp :=
  let f := wbits w
  let n := f 16 14 + 1
  let ci := decide (f 10 10 = 1)
  let only (mask : Nat) (o : SOp) : Option SOp := if w &&& (0x3FFFFFF - mask) = 0 then some o else none
  match f 31 26 with
  | 0x00 => only 0 .nop
  | 0x01 => only 0x3FFF000 (.rep (f 25 18 + 1) (f 17 12 + 1))
  | 0x02 => only 0 .endOp
  | 0x03 => only 0 .gmark
  | 0x04 => only 0x3C3FFFF (.sli (f 25 22) (signed 18 (f 17 0)))
  | 0x05 => only 0x3FFC000 (.sadd (f 25 22) (f 21 18) (f 17 14))
  | 0x06 => only 0x3FFC000 (.ssub (f 25 22) (f 21 18) (f 17 14))
  | 0x10 => only 0x001C007 (.azero (f 2 0) n)
  | 0x11 => only 0x01FFCCF (.kdot (f 20 17) n (f 13 11) ci (f 7 7 = 1) (f 6 6 = 1) (f 3 0))
  | 0x12 => only 0x01FFC87 (.accv (f 20 17) n (f 13 11) ci (f 7 7 = 1) (f 2 0))
  | 0x20 => only 0x01FFF00 (.sscl (f 20 17) n (f 13 11) ci (f 9 8))
  | 0x21 => only 0x01FFF00 (.sbias (f 20 17) n (f 13 11) ci (f 9 8))
  | 0x22 => only 0x3FFFF00 (.smax (f 25 21) (f 20 17) n (f 13 11) ci (f 9 8))
  | 0x23 => only 0x3E1C000 (.rmax (f 25 21) n)
  | 0x24 => only 0x3FFFF00 (.sexp (f 25 21) (f 20 17) n (f 13 11) ci (f 9 8))
  | 0x25 => if f 5 4 = 3 then none else only 0x3E1C030 (.vset (f 25 21) n (f 5 4))
  | 0x28 => only 0x30FFC00 (.mset (f 25 24) (f 19 18) (f 17 14) (f 13 11) ci)
  | 0x29 => only 0x3F00000 (.mand (f 25 24) (f 23 22) (f 21 20))
  | 0x2A => only 0x3F00000 (.mor (f 25 24) (f 23 22) (f 21 20))
  | 0x30 => only 0x3FFC047 (.emit (f 25 21) (f 20 17) n (f 6 6 = 1) (f 2 0))
  | _ => none

/-! What an instruction does to its context. -/

/-- The leaf of a context: format, leaf D and where its halves lie. -/
structure CtxLeaf where
  fmt : Nat
  d : Nat
  halves : List HalfLoc
  deriving DecidableEq, Repr

/-- The model constants a context uses (R101). -/
structure Params where
  scoreScale : F32
  slopes : List F32
  deriving DecidableEq, Repr

/-- Half HF of a leaf. -/
def CtxLeaf.half (l : CtxLeaf) (hf : Bool) : HalfLoc :=
  l.halves.getD (if hf then 1 else 0) ⟨0, none⟩

/-- A scalar register as a signed integer. -/
def Ctx.scalar (c : Ctx) (i : Nat) : Int := (c.s.getD i 0).toInt

/-- Lane i of a vector register. -/
def Ctx.lane (c : Ctx) (r i : Nat) : F32 := (Tbl.get c.v (32 * r + i)).getD fzero

/-- A score-buffer entry. -/
def Ctx.score (c : Ctx) (row pos : Nat) : Score := (Tbl.get c.sb (256 * row + pos)).getD ⟨fzero, false, none⟩

/-- Write a score-buffer entry. -/
def Ctx.setScore (c : Ctx) (row pos : Nat) (e : Score) : Ctx :=
  { c with sb := Tbl.set c.sb (256 * row + pos) e }

/-- Meet poison with a DETAIL code; the lowest is kept (R100, R132). -/
def Ctx.meet (c : Ctx) (code : Option Nat) : Ctx := { c with poison := lowCode c.poison code }

/-- The code of a result: 4 where it is non-finite (R132). -/
def badResult (x : F32) : Option Nat := if ffinite x then none else some 4

/-- The chunk an instruction acts on. -/
def Ctx.chunk (c : Ctx) (n : Nat) (ci : Bool) : Nat := if ci then c.index else n

/-- Lane i of mask mk. -/
def Ctx.masked (c : Ctx) (mk i : Nat) : Bool := (c.m.getD mk 0).toNat.testBit i

/-- Run a function for each row j below n and each lane below 32. -/
def Ctx.eachLane (c : Ctx) (n : Nat) (f : Ctx → Nat → Nat → Ctx) : Ctx :=
  (List.range n).foldl (fun c j => (List.range 32).foldl (fun c i => f c j i) c) c

/-- KDOT (R125). -/
def kdotOp (s : State) (l : CtxLeaf) (c : Ctx) (row n ch : Nat) (hf add : Bool) (q : Nat) : Ctx :=
  (List.range 32).foldl (fun c i =>
    let pos := 32 * ch + i
    if c.scalar 2 ≤ pos then
      (List.range n).foldl (fun c j =>
        let e := c.score (row + j) pos
        c.setScore (row + j) pos { e with value := fzero, mark := if add then e.mark else none }) c
    else
      let (key, code) := s.keyAt (l.half hf) l.fmt l.d pos
      (List.range n).foldl (fun c j =>
        let e := c.score (row + j) pos
        let query := ((c.query.getD (q + j) []).drop (if hf then l.d else 0)).take l.d
        let x := dot query key l.d
        let x := if add then fadd e.value x else x
        let qcode := if query.all ffinite then none else some 3
        let mark := lowCode (lowCode code qcode) (badResult x)
        c.setScore (row + j) pos
          { e with value := x, mark := if add then lowCode e.mark mark else mark }) c) c

/-- ACCV (R126, R132). -/
def accvOp (s : State) (l : CtxLeaf) (c : Ctx) (row n ch : Nat) (hf : Bool) (q : Nat) : Ctx :=
  (List.range 32).foldl (fun c i =>
    let pos := 32 * ch + i
    if (List.range n).any (fun j => (c.score (row + j) pos).visible) then
      let (v, code) := if c.scalar 2 ≤ pos then (List.replicate l.d fzero, none)
        else s.valueAt (l.half hf) l.fmt l.d pos
      (List.range n).foldl (fun c j =>
        let e := c.score (row + j) pos
        if e.visible then
          let lanes := v.map fun x => fmul e.value x
          let bad := if lanes.all ffinite then badResult e.value else some 4
          let c := c.meet (lowCode (lowCode e.mark code) bad)
          { c with acc := Tbl.set c.acc (256 * (q + j) + pos) { lanes := lanes, p := e.value } }
        else c) c
    else c) c

/-- Slots 0 to 255 of one lane of an accumulator. -/
def Ctx.lanesOf (c : Ctx) (a : Nat) (f : Slot → F32) : List F32 :=
  (List.range 256).map fun p => match Tbl.get c.acc (256 * a + p) with
    | some x => f x
    | none => fzero

/-- EMIT (R127): the partial of one query head as node (0, BLOCK) of the merge tree. -/
def Ctx.partialOf (c : Ctx) (l : CtxLeaf) (block vr : Nat) (split : Bool) (a a' : Nat) : Partial :=
  let m := c.lane vr 0
  let d := if split then 2 * l.d else l.d
  if m = fnegInf then partialNone d 0 block
  else
    let half (a : Nat) := (List.range l.d).map fun k => treeSum 8 (c.lanesOf a fun x => x.lanes.getD k fzero)
    { m := m, l := treeSum 8 (c.lanesOf a fun x => x.p), empty := false, oBf16 := false, level := 0,
      group := block, o := half a ++ if split then half a' else [] }

/-- EMIT for the heads below S6. -/
def emitOp (l : CtxLeaf) (block : Nat) (c : Ctx) (vr row n : Nat) (split : Bool) (q : Nat) : Ctx :=
  (List.range n).foldl (fun c j =>
    if ((row + j : Nat) : Int) < c.scalar 6 then
      let p := c.partialOf l block (vr + j) split (q + j) (q + n + j)
      let c := c.meet (if p.empty || (ffinite p.l && p.o.all ffinite) then none else some 4)
      { c with emitted := c.emitted ++ [(row + j, p)] }
    else c) c

/-- MSET's comparison (Table 5-3). -/
def condHolds (cond : Nat) (k x : Int) : Bool :=
  match cond with
  | 0 => k < x
  | 1 => k ≤ x
  | 2 => x ≤ k
  | _ => x < k

/-- What an instruction does to the state of its context, its program counter aside (R123 to R127). -/
def stitchOp (s : State) (l : CtxLeaf) (par : Params) (block : Nat) (c : Ctx) : SOp → Ctx
  | .nop | .gmark => c
  | .rep count len => { c with rep := some ⟨c.word + 1, len, count - 1⟩, index := 0 }
  | .endOp => { c with ended := true }
  | .sli sd imm => { c with s := setAt c.s sd fun _ => BitVec.ofInt 32 imm }
  | .sadd sd sa sb => { c with s := setAt c.s sd fun _ => c.s.getD sa 0 + c.s.getD sb 0 }
  | .ssub sd sa sb => { c with s := setAt c.s sd fun _ => c.s.getD sa 0 - c.s.getD sb 0 }
  | .azero q n => { c with acc := c.acc.filter fun e => e.1 < 256 * q || 256 * (q + n) ≤ e.1 }
  | .kdot row n ch ci hf add q => kdotOp s l c row n (c.chunk ch ci) hf add q
  | .accv row n ch ci hf q => accvOp s l c row n (c.chunk ch ci) hf q
  | .sscl row n ch ci mk => c.eachLane n fun c j i =>
      let pos := 32 * c.chunk ch ci + i
      if c.masked mk i then
        let e := c.score (row + j) pos
        let x := fmul e.value par.scoreScale
        (c.meet (lowCode e.mark (badResult x))).setScore (row + j) pos { e with value := x }
      else c
  | .sbias row n ch ci mk => c.eachLane n fun c j i =>
      let pos := 32 * c.chunk ch ci + i
      if c.masked mk i then
        let e := c.score (row + j) pos
        let slope := par.slopes.getD ((c.scalar 5).toNat + row + j) fzero
        let x := fadd e.value (fmul slope (fint (c.scalar 1 + pos - c.scalar 0)))
        (c.meet (lowCode e.mark (badResult x))).setScore (row + j) pos { e with value := x }
      else c
  | .smax vr row n ch ci mk => c.eachLane n fun c j i =>
      let pos := 32 * c.chunk ch ci + i
      if c.masked mk i then
        let e := c.score (row + j) pos
        let c := c.meet e.mark
        { c with v := Tbl.set c.v (32 * (vr + j) + i) (fmax (c.lane (vr + j) i) e.value) }
      else c
  | .rmax vr n => (List.range n).foldl (fun c j =>
      let m := (List.range 32).foldl (fun m i => fmax m (c.lane (vr + j) i)) (c.lane (vr + j) 0)
      (List.range 32).foldl (fun c i => { c with v := Tbl.set c.v (32 * (vr + j) + i) m }) c) c
  | .sexp vr row n ch ci mk => c.eachLane n fun c j i =>
      let pos := 32 * c.chunk ch ci + i
      let e := c.score (row + j) pos
      if c.masked mk i then
        let y := fsub e.value (c.lane (vr + j) 0)
        let x := fexp2 y
        let bad := if 0 < fkey y then some 4 else badResult x
        (c.meet (lowCode e.mark bad)).setScore (row + j) pos { e with value := x, visible := true }
      else c.setScore (row + j) pos ⟨fzero, false, none⟩
  | .vset vr n k =>
      let x := match k with | 0 => fzero | 1 => fnegInf | _ => fone
      (List.range n).foldl (fun c j =>
        (List.range 32).foldl (fun c i => { c with v := Tbl.set c.v (32 * (vr + j) + i) x }) c) c
  | .mset mk cond sa ch ci =>
      let base := c.scalar 1 + 32 * c.chunk ch ci
      let bits := (List.range 32).foldl (fun (b i : Nat) =>
        if condHolds cond (base + (i : Int)) (c.scalar sa) then b + 2 ^ i else b) 0
      { c with m := setAt c.m mk fun _ => BitVec.ofNat 32 bits }
  | .mand mk ma mb => { c with m := setAt c.m mk fun _ => c.m.getD ma 0 &&& c.m.getD mb 0 }
  | .mor mk ma mb => { c with m := setAt c.m mk fun _ => c.m.getD ma 0 ||| c.m.getD mb 0 }
  | .emit vr row n split q => emitOp l block c vr row n split q

/-- Move past an instruction: a REP's body repeats with the next index (R123). -/
def Ctx.advance (c : Ctx) : Ctx :=
  let w := c.word + 1
  match c.rep with
  | some r =>
    if w = r.start + r.len then
      if r.count = 0 then { c with word := w, rep := none, index := 0 }
      else { c with word := r.start, rep := some { r with count := r.count - 1 }, index := c.index + 1 }
    else { c with word := w }
  | none => { c with word := w }

/-- Execute an instruction in a context: its effect, then the next word. -/
def Ctx.run (s : State) (l : CtxLeaf) (par : Params) (block : Nat) (c : Ctx) (o : SOp) : Ctx :=
  if c.ended then c else
  let c' := stitchOp s l par block { c with steps := c.steps + 1 } o
  match o with
  | .rep _ _ => { c' with word := c'.word + 1 }
  | .endOp => c'
  | _ => c'.advance

/-- The query store: 16 heads of 512 elements, +0 where the command gives none (Table 5-1). -/
def queryStore (query : List (List F32)) : List (List F32) :=
  (List.range 16).map fun h =>
    let q := (query.getD h []).take 512
    q ++ List.replicate (512 - q.length) fzero

/-- A context at launch (Tables 5-1 and 5-2), the `turn`-th of its item. -/
def Ctx.launch (cmd item visit pos base valid window sinks headIndex heads d turn : Nat)
    (query : List (List F32)) : Ctx :=
  { cmd := cmd, item := item, visit := visit, pos := pos, word := 0, index := 0, rep := none,
    s := [pos, base, valid, window, sinks, 16 * headIndex, heads, d].map (BitVec.ofNat 32)
          ++ List.replicate 8 0,
    v := [], acc := [], m := [0, 0, 0, 0], sb := [], query := queryStore query, emitted := [], poison := none,
    ended := false, turn := turn, steps := 0 }

/-! Programs: the sequence of execution, costs (R129 to R134) and the loader's checks (R128, R138). -/

/-- The instructions in order of execution, each with the value of I and whether it stands in a REP body;
none where R128 is broken: a body that holds REP or END or runs past the last word. -/
def unroll : Nat → List SOp → Option (List (SOp × Nat × Bool))
  | 0, l => if l = [] then some [] else none
  | _ + 1, [] => some []
  | fuel + 1, .rep count len :: t =>
    let body := t.take len
    if body.length < len ∨ t.length ≤ len ∨ body.any (fun o => match o with | .rep _ _ => true | .endOp => true | _ => false) then none
    else
      let reps := (List.range count).flatMap fun i => body.map fun o => (o, i, true)
      (unroll fuel (t.drop len)).map fun r => (.rep count len, 0, false) :: (reps ++ r)
  | fuel + 1, o :: t => (unroll fuel t).map fun r => (o, 0, false) :: r

/-- The units of Table 5-4. -/
inductive SUnit where
  | b | h | x
  deriving DecidableEq, Repr

/-- The unit of an instruction. -/
def SOp.unitOf : SOp → SUnit
  | .nop | .rep _ _ | .endOp | .sli _ _ | .sadd _ _ _ | .ssub _ _ _ | .emit _ _ _ _ _ => .x
  | .gmark | .azero _ _ | .kdot _ _ _ _ _ _ _ | .accv _ _ _ _ _ _ => .b
  | _ => .h

/-- Products of a chunk each cell forms in a cycle (Table 5-4). -/
def cellRate (fmt : Nat) : Nat := if fmt = 5 ∨ fmt = 6 then 256 else if fmtBits fmt = 8 then 128 else 64

/-- Pair cycles (Table 5-4) at a format and a leaf D. -/
def SOp.pairCycles (fmt d : Nat) : SOp → Nat
  | .endOp | .gmark => 0
  | .nop | .rep _ _ | .sli _ _ | .sadd _ _ _ | .ssub _ _ _ | .azero _ _ | .mset _ _ _ _ _ | .mand _ _ _
  | .mor _ _ _ => 1
  | .kdot _ n _ _ _ _ _ | .accv _ n _ _ _ _ =>
      let bk := 4 * d * fmtBits fmt + if fmtIsMx fmt then d else 0
      max (ceilDiv bk 64) (ceilDiv (32 * d * n) 512) + 2
  | .sscl _ n _ _ _ | .sbias _ n _ _ _ | .smax _ _ n _ _ _ => ceilDiv n 4 + 1
  | .rmax _ n => ceilDiv n 4 + 4
  | .sexp _ _ n _ _ _ => ceilDiv n 2 + 1
  | .vset _ n _ => ceilDiv n 4
  | .emit _ _ n split _ => ceilDiv (n * ((if split then 2 * d else d) + 2)) 16 + 8

/-- Cell cycles (Table 5-4). -/
def SOp.cellCycles (fmt d : Nat) : SOp → Nat
  | .kdot _ n _ _ _ _ _ | .accv _ n _ _ _ _ => ceilDiv (32 * d * n) (cellRate fmt) + 2
  | .emit _ _ n split _ => n * ceilDiv (if split then 2 * d else d) 32 + 2
  | o => o.pairCycles fmt d

/-- Names of what instructions of both units touch: registers, masks, accumulators and score-buffer rows by
chunk. -/
def SOp.touches (i : Nat) : SOp → List Nat × List Nat
  | .azero q n => ([], (List.range n).map fun j => 300 + q + j)
  | .kdot row n c ci _ add _ =>
      let r := (List.range n).map fun j => 1000 + 256 * (row + j) + (if ci then i else c)
      (if add then r else [], r)
  | .accv row n c ci _ q =>
      ((List.range n).map fun j => 1000 + 256 * (row + j) + (if ci then i else c),
       (List.range n).map fun j => 300 + q + j)
  | .sscl row n c ci mk | .sbias row n c ci mk =>
      let r := (List.range n).map fun j => 1000 + 256 * (row + j) + (if ci then i else c)
      ((200 + mk) :: r, r)
  | .smax vr row n c ci mk =>
      let v := (List.range n).map fun j => 100 + vr + j
      ((200 + mk) :: v ++ (List.range n).map fun j => 1000 + 256 * (row + j) + (if ci then i else c), v)
  | .rmax vr n => let v := (List.range n).map fun j => 100 + vr + j; (v, v)
  | .sexp vr row n c ci mk =>
      let r := (List.range n).map fun j => 1000 + 256 * (row + j) + (if ci then i else c)
      ((200 + mk) :: r ++ (List.range n).map fun j => 100 + vr + j, r)
  | .vset vr n _ => ([], (List.range n).map fun j => 100 + vr + j)
  | .mset mk _ sa _ _ => ([sa], [200 + mk])
  | .mand mk ma mb | .mor mk ma mb => ([200 + ma, 200 + mb], [200 + mk])
  | _ => ([], [])

/-- The pair's timeline while it is computed: finish of the last instruction of B, H and X, the instructions
of B and H still of use with their finish, and the times of the GMARKs. -/
structure PairTime where
  b : Nat
  h : Nat
  x : Nat
  past : List (SUnit × Nat × List Nat × List Nat)
  marks : List Nat
  deriving DecidableEq, Repr

/-- One instruction on the timeline of R129. -/
def PairTime.next (fmt d : Nat) (t : PairTime) (e : SOp × Nat × Bool) : PairTime :=
  let u : SUnit := e.1.unitOf
  let (rd, wr) := e.1.touches e.2.1
  match u with
  | .x =>
    let f := max t.b (max t.h t.x) + e.1.pairCycles fmt d
    { t with x := f, past := [] }
  | _ =>
    let own := max t.x (if u = SUnit.b then t.b else t.h)
    let start := t.past.foldl (fun m p =>
      if p.1 ≠ u ∧ (p.2.2.1.any wr.contains ∨ p.2.2.2.any wr.contains ∨ p.2.2.2.any rd.contains)
      then max m p.2.1 else m) own
    let f := start + e.1.pairCycles fmt d
    let t := { t with past := (u, f, rd, wr) :: t.past.filter fun p =>
                 (if p.1 = SUnit.b then t.h else t.b) < p.2.1 }
    let t := if u = SUnit.b then { t with b := f } else { t with h := f }
    if e.1 = .gmark then { t with marks := f :: t.marks } else t

/-- The pair timeline of a program. -/
def pairTime (fmt d : Nat) (p : List (SOp × Nat × Bool)) : PairTime :=
  p.foldl (PairTime.next fmt d) ⟨0, 0, 0, [], []⟩

/-- b for a stitch pair (R129, R134): END is an X instruction of no cycles. -/
def pairCount (fmt d : Nat) (p : List (SOp × Nat × Bool)) : Nat := (pairTime fmt d p).x

/-- b for a cell (R130, R134). -/
def cellCount (fmt d : Nat) (p : List (SOp × Nat × Bool)) : Nat :=
  p.foldl (fun n e => n + e.1.cellCycles fmt d) 0

/-- Some granule is longer than 600 cycles (R131): the marks, latest first, with start and END. -/
def longGranule : Nat → List Nat → Bool
  | t, [] => 600 < t
  | t, m :: ms => 600 < t - m || longGranule m ms

/-- a of R134. -/
def loadCost (heads d : Nat) : Nat := ceilDiv (heads * d * 2) 64 + 16

/-- Operand ranges of one instruction (R128, Table 5-3): the chunk, where it is I, is 0 to 7. -/
def SOp.operandsOk (split : Bool) (i : Nat) (inRep : Bool) (o : SOp) : Bool :=
  let ch (c : Nat) (ci : Bool) := if ci then inRep && c = 0 && i ≤ 7 else c ≤ 7
  match o with
  | .sli sd _ => 8 ≤ sd
  | .sadd sd _ _ | .ssub sd _ _ => 8 ≤ sd
  | .azero q n => q + n ≤ 8
  | .kdot row n c ci hf _ q => row + n ≤ 16 && q + n ≤ 16 && ch c ci && (split || !hf)
  | .accv row n c ci hf q => row + n ≤ 16 && q + n ≤ 8 && ch c ci && (split || !hf)
  | .sscl row n c ci _ | .sbias row n c ci _ => row + n ≤ 16 && ch c ci
  | .smax vr row n c ci _ | .sexp vr row n c ci _ => vr + n ≤ 32 && row + n ≤ 16 && ch c ci
  | .rmax vr n | .vset vr n _ => vr + n ≤ 32
  | .mset _ _ _ c ci => ch c ci
  | .emit vr row n sp q =>
      vr + n ≤ 32 && row + n ≤ 16 && q + (if sp then 2 * n else n) ≤ 8 && (split || !sp)
  | _ => true

/-- No accumulator slot can be written twice in a write period (R126), and no head is emitted twice
(R128): `w` holds the chunks written, as 8a + chunk, `e` the heads emitted. -/
def writesOk : List (SOp × Nat × Bool) → List Nat → List Nat → Bool
  | [], _, _ => true
  | (.azero q n, _, _) :: t, w, e => writesOk t (w.filter fun k => k < 8 * q || 8 * (q + n) ≤ k) e
  | (.accv _ n c ci _ q, i, _) :: t, w, e =>
    let ks := (List.range n).map fun j => 8 * (q + j) + if ci then i else c
    !ks.any w.contains && writesOk t (ks ++ w) e
  | (.emit _ row n _ _, _, _) :: t, w, e =>
    let hs := (List.range n).map fun j => row + j
    !hs.any e.contains && writesOk t w (hs ++ e)
  | _ :: t, w, e => writesOk t w e

/-- The words of a program are well formed: END once and last, every operand in range, no slot or head
twice (R128, R126). -/
def programWordsOk (split : Bool) (ops : List SOp) (p : List (SOp × Nat × Bool)) : Bool :=
  ops.getLast? = some .endOp && ops.dropLast.all (fun o => o ≠ .endOp) &&
  p.all (fun e => e.1.operandsOk split e.2.1 e.2.2) && writesOk p [] []

/-- A cost entry agrees with the node's own computation and the limits (R134, R138). -/
def costOk (heads : Nat) (p : List (SOp × Nat × Bool)) (c : Cost) : Bool :=
  1 ≤ c.format && c.format ≤ 7 && [64, 96, 128, 160, 192, 256].contains c.d &&
  c.aPair = loadCost heads c.d && c.aCell = loadCost heads c.d &&
  c.bPair = pairCount c.format c.d p && c.bCell = cellCount c.format c.d p &&
  c.bPair ≤ 3046 && c.bCell ≤ 5482 &&
  !longGranule (pairTime c.format c.d p).x (pairTime c.format c.d p).marks

/-- No two entries name the same pair of format and D. -/
def costsDistinct : List Cost → Bool
  | [] => true
  | c :: cs => cs.all (fun e => e.format ≠ c.format || e.d ≠ c.d) && costsDistinct cs

/-- Every check of R138 on a program's words and costs. -/
def programOk (heads : Nat) (split : Bool) (costs : List Cost) (words : List (BitVec 32)) : Bool :=
  match words.mapM fun w => decodeStitch w.toNat with
  | none => false
  | some ops => match unroll (ops.length + 1) ops with
    | none => false
    | some p => programWordsOk split ops p && costs.all (costOk heads p) && costsDistinct costs

/-- The program's instructions in order of execution; empty where a word does not decode. -/
def Program.ops (p : Program) : List SOp := (p.words.mapM fun w => decodeStitch w.toNat).getD []

/-- Run a context to its END: the order of execution of the unrolled words. -/
def Ctx.runAll (s : State) (l : CtxLeaf) (par : Params) (block : Nat) (c : Ctx) (p : Program) : Ctx :=
  match unroll (p.ops.length + 1) p.ops with
  | none => c
  | some es => es.foldl (fun c e => c.run s l par block e.1) c

end Sys2Proof.Machine
end

