-- ==== Sys2Proof/Machine/Pattern.lean ====
section
/-! DEFINITION. The pattern: bank images, row entries, slots, and the checks of an arm (chapter 02). -/

namespace Sys2Proof.Machine

/-- A little-endian field of a byte image. -/
def imgNat (m : List Host.Cell) (a n : Nat) : Nat := leNat (Mem.bytes m a n)

/-- PATTERN_ID of a bank; 0 means none (Table 2-4). -/
def patId (m : List Host.Cell) : Nat := imgNat m 0 4

/-- LENGTH of a bank. -/
def patLength (m : List Host.Cell) : Nat := imgNat m 4 2

/-- BASE_ROW of a bank. -/
def patBase (m : List Host.Cell) : Nat := imgNat m 8 6

/-- Row entry k of a bank (Table 2-5), at 0x1_0000 + 16 k (R423). -/
def patEntryAt (m : List Host.Cell) (k : Nat) : RowEntry :=
  let a := 0x10000 + 16 * k
  let flags := imgNat m (a + 3) 1
  { firstSlot := imgNat m a 2, slotCount := imgNat m (a + 2) 1, l8Open := flags % 2 = 1,
    swatch := flags / 2 % 2 = 1, nbuCap := imgNat m (a + 4) 2 % 2048, arrayCap := imgNat m (a + 6) 1,
    plannedNs := imgNat m (a + 8) 2 }

/-- The entry that governs commands received in row r (R39); none where no pattern is active. -/
def patEntry (m : List Host.Cell) (r : Nat) : Option RowEntry :=
  if patId m = 0 ∨ patLength m = 0 then none
  else some (patEntryAt m (((r : Int) - patBase m) % (patLength m : Int)).toNat)

/-- A slot of the pool (Table 2-6). -/
structure SlotRec where
  requester : Nat
  cls : Nat
  model : Nat
  path : Nat
  maxCmds : Nat
  maxLeaves : Nat
  program : Nat
  walkBudget : Nat
  deriving DecidableEq, Repr

/-- Slot i of a bank, at 0x2_0000 + 16 i. -/
def patSlotAt (m : List Host.Cell) (i : Nat) : SlotRec :=
  let a := 0x20000 + 16 * i
  let r := imgNat m a 2
  let b := imgNat m (a + 2) 1
  { requester := r % 2 ^ 14, cls := r / 2 ^ 14, model := b % 64, path := b / 64, maxCmds := imgNat m (a + 3) 1,
    maxLeaves := imgNat m (a + 4) 3, program := imgNat m (a + 8) 2, walkBudget := imgNat m (a + 10) 2 }

/-- The slots of a row entry. -/
def entrySlots (e : RowEntry) : List Nat := (List.range e.slotCount).map fun i => e.firstSlot + i

/-- The slot that matches a command (R40). -/
def matchSlot (m : List Host.Cell) (e : RowEntry) (node model : Nat) : Option (Nat × SlotRec) :=
  (entrySlots e).findSome? fun i =>
    let r := patSlotAt m i
    if r.requester = node ∧ r.model = model then some (i, r) else none

/-- No two slots of a row share requester and model (R40). -/
def slotsDistinct (m : List Host.Cell) : List Nat → Bool
  | [] => true
  | i :: is =>
    let a := patSlotAt m i
    is.all (fun j => let b := patSlotAt m j; a.requester ≠ b.requester || a.model ≠ b.model) && slotsDistinct m is

/-- Every byte of [a, a+n) is 0. -/
def imgZero (m : List Host.Cell) (a n : Nat) : Bool := imgNat m a n = 0

/-- A slot meets Table 2-6 and names a library program. -/
def slotOk (s : State) (m : List Host.Cell) (i : Nat) : Bool :=
  let r := patSlotAt m i
  let a := 0x20000 + 16 * i
  r.cls ≤ 1 && r.path ≤ 2 && 1 ≤ r.maxCmds && (Tbl.get s.node.library r.program).isSome &&
    imgZero m (a + 7) 1 && imgZero m (a + 12) 4

/-- A row entry meets Table 2-5. -/
def entryOk (s : State) (m : List Host.Cell) (k : Nat) : Bool :=
  let e := patEntryAt m k
  let a := 0x10000 + 16 * k
  e.slotCount ≤ 128 && e.firstSlot + e.slotCount ≤ 65536 && imgNat m (a + 3) 1 < 4 &&
    imgNat m (a + 4) 2 ≤ 1536 && e.arrayCap ≤ 192 && e.plannedNs ≤ 3046 &&
    imgZero m (a + 7) 1 && imgZero m (a + 10) 6 &&
    slotsDistinct m (entrySlots e) && (entrySlots e).all (slotOk s m)

/-- The programs a bank's row entries name. -/
def bankPrograms (m : List Host.Cell) : List Nat :=
  if patId m = 0 then []
  else (List.range (patLength m)).flatMap fun k =>
    (entrySlots (patEntryAt m k)).map fun i => (patSlotAt m i).program

/-- The resident set: programs of the active and the pending bank and the default programs of the loaded
models (R137). -/
def State.residentSet (s : State) : List Nat :=
  (bankPrograms s.pat.active ++ bankPrograms s.pat.pending
    ++ s.node.models.map fun p => p.2.defaultProgram).dedup.filter fun p => (Tbl.get s.node.library p).isSome

/-- Words of a set of programs. -/
def State.wordsOf (s : State) (ps : List Nat) : Nat :=
  ps.foldl (fun n p => n + match Tbl.get s.node.library p with | some g => g.words.length | none => 0) 0

/-- The pending bank passes R55 and the resident set fits (R137). -/
def State.bankOk (s : State) (switchRow : Nat) : Bool :=
  let m := s.pat.pending
  patId m ≠ 0 && 1 ≤ patLength m && patLength m ≤ 4096 && patBase m ≤ switchRow &&
    imgZero m 6 2 && imgZero m 14 2 && (List.range (patLength m)).all (entryOk s m) &&
    s.wordsOf s.residentSet ≤ 1024

end Sys2Proof.Machine
end

