-- ==== Sys2Proof/Machine/Admit.lean ====
section
/-! DEFINITION. What every cache command goes through: its connection, its completion, the receipt of R44, R194
and R201, the pattern slot and budgets of R45, and the sequence check of R75. -/

namespace Sys2Proof.Machine

/-! Monitors (R401). -/

/-- A monitor's 32-bit two's complement field. -/
def asInt32 (n : Nat) : Int := if 2 ^ 31 ≤ n then (n : Int) - 2 ^ 32 else n

/-- A signed number saturated to 32 bits. -/
def sat32 (i : Int) : Int := max (-(2 ^ 31)) (min (2 ^ 31 - 1) i)

/-- The 32-bit field of a signed number. -/
def ofInt32 (i : Int) : Nat := (i % 2 ^ 32).toNat

/-- One sample into monitor k: MIN, MAX, SAMPLES and the histogram bin. -/
def State.sampleInto (s : State) (k : Nat) (v : Int) : State :=
  let v := sat32 v
  let s := if asInt32 (s.fld (rMonRangeMax k)) < v then s.setFld (rMonRangeMax k) (ofInt32 v) else s
  let s := if v < asInt32 (s.fld (rMonRangeMin k)) then s.setFld (rMonRangeMin k) (ofInt32 v) else s
  let s := s.count (rMonCountSamples k) 1
  let d := sat32 (v - asInt32 (s.fld (rMonCtlBase k))) / (2 ^ s.fld (rMonCtlBinShift k) : Nat)
  let bin := (max 0 (min 31 d)).toNat
  s.count ⟨0x080, 0x1000 + 0x80 * k + 8 * (bin / 2), 32 * (bin % 2) + 31, 32 * (bin % 2)⟩ 1

/-- One sample of a source and one of its INSTANCE numbers: every enabled monitor on it takes it. -/
def State.sample (s : State) (source : Nat) (inst : List Nat) (v : Int) : State :=
  (List.range 16).foldl (fun s k =>
    if s.fld (rMonCtlEnable k) = 1 ∧ s.fld (rMonCtlSource k) = source
      ∧ (inst = [] ∨ s.fld (rMonCtlInstance k) ∈ inst)
    then s.sampleInto k v else s) s

/-! Gauge counts (R393). -/

/-- Key of a part among the counts of the epoch. -/
def gaugeKey (kind unit : Nat) : Nat := kind * 2 ^ 20 + unit

/-- Add weighted occurrences to a part's count. -/
def State.gauge (s : State) (kind unit weight : Nat) : State :=
  { s with health := { s.health with
    counts := Tbl.set s.health.counts (gaugeKey kind unit) (Tbl.num s.health.counts (gaugeKey kind unit) + weight) } }

/-! Connections and completions. -/

/-- Set the instant of the row. -/
def State.tick (s : State) (ns : Nat) : State := { s with clock := { s.clock with ns := ns } }

/-- The connection a message came on: that of its queue pair with its sender's queue pair (R312). -/
def State.conn (s : State) (qp node domain peer : Nat) : Option (Nat × Conn) :=
  s.xport.conns.find? fun p => p.2.isOf p.1 qp node peer && p.2.peerDomain = domain && p.2.state ≠ .quarantine

/-- The connection of a command. -/
def State.sender (s : State) (h : Head) : Option (Nat × Conn) := s.conn h.qp h.srcNode h.srcDomain h.srcQp

/-- Change a connection. -/
def State.setConn (s : State) (k : Nat) (f : Conn → Conn) : State :=
  { s with xport := { s.xport with conns := Tbl.modify s.xport.conns k f } }

/-- Send a completion (R195): one for each command, with SENT_ROW. The port it leaves by is the spray's
(log entry 2); a connection that is gone takes none (Table 12-5). -/
def State.reply (s : State) (op : Nat) (h : Head) (o : Outcome) : State :=
  match s.sender h with
  | none => s
  | some _ =>
    let (p, s) := s.free
    let s := s.sample 0x01 [p % 8, 0xFFFF] s.clock.ns
    s.send (.completion h.qp h.srcNode h.srcQp h.tag op (s.row % 65536) o)

/-- The commands of a list that came on a connection. -/
def Waiting.onConn (s : State) (k : Nat) (w : Waiting) : Bool :=
  match cacheCommand w.cmd with
  | some (_, h) => match s.sender h with | some (k', _) => k' = k | none => false
  | none => false

/-- Complete commands not yet admitted with one outcome (R202, R405). -/
def State.dropWaiting (s : State) (out : Head → Outcome) (ws : List Waiting) : State :=
  ws.foldl (fun s w => match cacheCommand w.cmd with
    | some (op, h) => s.reply op h (out h)
    | none => s) s

/-- The counter of an error cause (Table 12-8). -/
def qpErrorField (cause : Nat) : Field :=
  if cause = 1 then rQpErrorsProtocol else if cause = 2 then rQpErrorsRevoked
  else if cause = 3 then rQpErrorsUnreachable else rQpErrorsOther

/-- A Ready or Closing connection enters Error (Table 12-5): QP_ERROR goes to the peer, and every command
received on it and not yet admitted completes with FLUSHED (R202). -/
def State.qpError (s : State) (k cause : Nat) : State :=
  match Tbl.get s.xport.conns k with
  | none => s
  | some c =>
    if c.state = .ready ∨ c.state = .closing then
      let s := s.setConn k fun c => { c with state := .error, cause := cause, since := s.row }
      let s := s.count (qpErrorField cause) 1
      let s := s.send (.cmReply .qpError 0 c.peerNode c.peerDomain c.peerQp 0 cause (connQp k) 0 0)
      let gone := (s.work.held ++ s.work.waiting).filter (Waiting.onConn s k)
      let s := { s with work := { s.work with
        held := s.work.held.filter fun w => !Waiting.onConn s k w
        waiting := s.work.waiting.filter fun w => !Waiting.onConn s k w } }
      s.dropWaiting (fun h => Outcome.bare h .flushed 0) gone
    else s

/-- The acting tenant (R309, R332). -/
def actingTenant (c : Conn) (h : Head) : Nat := if c.relay then h.relayTenant.getD 0 else c.tenant

/-- A relayed command whose TENANT is 0, 0xFFF, or neither Admitted nor Keyed here (R332). -/
def State.relayRefused (s : State) (c : Conn) (h : Head) : Bool :=
  c.relay && (let t := actingTenant c h
    t = 0 || t = 0xFFF || match Tbl.get s.vault.tenants t with
      | some x => x.state ≠ .admitted && x.state ≠ .keyed
      | none => true)

/-! Receipt. -/

/-- The command is handled as scheduled: one of R43's, on a SCHED queue pair of this domain, not relayed,
without FENCE (R37, R201, R309). -/
def State.scheduled (s : State) (op : Nat) (h : Head) (c : Conn) : Bool :=
  mayBeScheduled op && c.cls = 0 && !h.fence && !c.relay && h.srcDomain = s.domain

/-- A command that waits is a scheduled one. -/
def State.schedWaiting (s : State) (w : Waiting) : Bool :=
  match cacheCommand w.cmd with
  | some (op, h) => match s.sender h with
    | some (_, c) => s.scheduled op h c
    | none => false
  | none => false

/-- The intended row of receipt (R43). -/
def intendedRow (tag row : Nat) : Int :=
  let d := ((tag : Int) - row) % 65536
  row + if 32768 ≤ d then d - 65536 else d

/-- The row in which a command of a row is handled: its row of receipt, or the intended row where it comes one row before that
(R44). -/
def handledRow (sched : Bool) (h : Head) (row : Nat) : Nat :=
  let r := if sched ∧ 3328 < h.ns then row + 1 else row
  if sched ∧ intendedRow h.rowTag r = r + 1 then r + 1 else r

/-- Check 1 of R196 fails: the node state does not serve the command (R27, R405). -/
def State.refusesState (s : State) (op : Nat) : Bool :=
  let past := match s.node.bindoff with | some r => r ≤ s.row | none => false
  match s.node.state with
  | .serving => past || !s.runs
  | .draining => past || !s.runs || op = opOpen || op = opFork
  | _ => true

/-- Two commands of one sender on one queue pair. -/
def sameSender (a b : Head) : Bool := a.qp = b.qp && a.srcNode = b.srcNode && a.srcDomain = b.srcDomain && a.srcQp = b.srcQp

/-- Heads of the commands received and not completed (R194). -/
def State.inFlight (s : State) : List Head :=
  s.work.cmds.map (fun p => p.2.head) ++
    (s.work.held ++ s.work.waiting).filterMap fun w => (cacheCommand w.cmd).map Prod.snd

/-- The command must wait at a FENCE (R201): its own, while an earlier command of its queue pair has not
completed, or an earlier one's. -/
def State.fenced (s : State) (h : Head) : Bool :=
  (s.work.waiting.any fun w => match cacheCommand w.cmd with
    | some (_, g) => sameSender g h
    | none => false) || (h.fence && s.inFlight.any (sameSender · h))

/-- A scheduled command that comes after its intended row (R44). -/
def comesLate (sched : Bool) (h : Head) (row : Nat) : Bool :=
  let r := if 3328 < h.ns then row + 1 else row
  sched && intendedRow h.rowTag r < r

/-- The checks of R196 made at arrival. LATE with cause ARRIVAL comes before every other status of a command
that is served (R50, log entry 14); one received after 3,328 ns gets it in the next row. DEDUCED (log entry 29): of the two
conditions of R194, the limit of 4,096 is tested first, as the rule names it first. -/
def State.arrivalFail (s : State) (op : Nat) (h : Head) (sched : Bool) : Option Outcome :=
  let late := comesLate sched h s.row
  firstFail [
    (s.refusesState op, Outcome.noRes h 0x1),
    (late && h.ns ≤ 3328, Outcome.tooLate h .arrival),
    (!late && 4096 ≤ s.inFlight.length, Outcome.noRes h 0x4),
    (!late && s.inFlight.any (fun g => sameSender g h && g.tag = h.tag), Outcome.noRes h 0x3)]

/-- Receive a command: the connection's state, the checks at arrival, holding and fencing; then `run`, the
rest of its admission and its effect, with the row of receipt. -/
def State.receive (s : State) (i : Instr) (run : Nat → State → State) : State :=
  match cacheCommand i with
  | none => s
  | some (op, h) =>
    match s.sender h with
    | none => s
    | some (k, c) =>
      let s := s.tick h.ns
      match c.state with
      | .closing | .quarantine => s
      | .error => s.reply op h (Outcome.bare h .flushed 0)
      | .ready =>
        if c.cls = 2 then s.qpError k 1
        else
          let sched := s.scheduled op h c
          match s.arrivalFail op h sched with
          | some o => s.reply op h o
          | none =>
            let r := handledRow sched h s.row
            if s.fenced h then { s with work := { s.work with waiting := s.work.waiting ++ [⟨r, i⟩] } }
            else if r ≠ s.row then { s with work := { s.work with held := s.work.held ++ [⟨r, i⟩] } }
            else run r s

/-! The pattern slot and the row's budgets (R39, R40, R45). -/

/-- The slot a command received in row r runs under: none in L8; or why it has none. -/
def State.grant (s : State) (op : Nat) (h : Head) (c : Conn) (r : Nat) : Except Outcome (Option (Nat × SlotRec)) :=
  if s.scheduled op h c then
    if intendedRow h.rowTag r < r then .error (Outcome.tooLate h .arrival)
    else if intendedRow h.rowTag r ≠ r then .error (Outcome.noRes h 0x5)
    else match patEntry s.pat.active r with
    | none => .error (Outcome.noRes h 0x5)
    | some e => match matchSlot s.pat.active e h.srcNode h.model with
      | none => .error (Outcome.noRes h 0x5)
      | some x => .ok (some x)
  else .ok none

/-- Latency class of a command (R42). -/
def grantClass : Option (Nat × SlotRec) → LatClass
  | none => .l8
  | some (_, r) => if r.cls = 0 then .l2 else .l3

/-- What a slot has been charged in a row. -/
def State.charged (s : State) (r slot : Nat) : Charge :=
  (s.work.charges.find? fun c => c.row = r && c.slot = slot).getD ⟨r, slot, 0, 0, 0⟩

/-- L8 commands that have not started (R52): those that wait for their turn, and L8 APPENDs with no line written. -/
def State.l8Waiting (s : State) : Nat :=
  s.work.l8.length + (s.work.appends.filter fun a => !a.scheduled && !a.started).length

/-- Check 9 of R196: the slot's budgets, or the L8 queue's room (R45, R52). -/
def State.budgetFail (s : State) (h : Head) (g : Option (Nat × SlotRec)) (r leaves lookups : Nat) : Option Outcome :=
  match g with
  | none => if 1024 ≤ s.l8Waiting then some (Outcome.noRes h 0x8) else none
  | some (i, rec) =>
    let c := s.charged r i
    if rec.maxCmds < c.cmds + 1 ∨ rec.maxLeaves < c.leaves + leaves ∨ rec.walkBudget < c.lookups + lookups
    then some (Outcome.noRes h 0x6) else none

/-- Charge a command's budgets; a command that fails later is never charged (R45). -/
def State.charge (s : State) (g : Option (Nat × SlotRec)) (r leaves lookups : Nat) : State :=
  match g with
  | none => s
  | some (i, _) =>
    let c := s.charged r i
    { s with work := { s.work with charges :=
        ⟨r, i, c.cmds + 1, c.leaves + leaves, c.lookups + lookups⟩ ::
          (s.work.charges.filter fun c => !(c.row = r && c.slot = i)) } }

/-- Enter a command among those in flight. -/
def State.enter (s : State) (c : Cmd) : State :=
  { s with work := { s.work with cmds := Tbl.set s.work.cmds s.work.next c, next := s.work.next + 1 } }

/-- A command in flight. -/
def State.cmd (s : State) (n : Nat) : Option Cmd := Tbl.get s.work.cmds n

/-- Change a command in flight. -/
def State.setCmd (s : State) (n : Nat) (f : Cmd → Cmd) : State :=
  { s with work := { s.work with cmds := Tbl.modify s.work.cmds n f } }

/-- A command that has no sequence. -/
def noSeq : Nat := seqSlots

/-- A command as it enters flight. -/
def Cmd.start (op : Nat) (h : Head) (tenant : Nat) (g : Option (Nat × SlotRec)) (program row seqSlot : Nat) : Cmd :=
  { opcode := op, head := h, tenant := tenant, cls := grantClass g, slotIndex := g.map Prod.fst,
    path := match g with | some (_, r) => r.path | none => 0, program := program, row := row, stage := .queued,
    seqSlot := seqSlot, attn := none, mergeIn := none, forkIn := none, deferred := none, key := none, visits := [], lookups := 0,
    parts := [], sums := [], work := 0, subs := [], poison := none, result := none, moves := [], unpins := [],
    affected := 0, skipped := 0, noSpace := false }

/-- A command leaves the in-flight count of the key it was admitted under (R186, R327). -/
def State.dropKey (s : State) (n : Nat) : State :=
  match s.cmd n with
  | none => s
  | some c => match c.key with
    | none => s
    | some i =>
      let s := s.setCmd n fun c => { c with key := none }
      { s with xport := { s.xport with keys := Tbl.modify s.xport.keys i fun k => { k with inFlight := k.inFlight - 1 } } }

/-- Remove a command and everything that works for it (R49: its work is abandoned and its buffers freed). -/
def State.leave (s : State) (n : Nat) : State :=
  { s with
    work := { s.work with
      cmds := Tbl.erase s.work.cmds n
      l8 := s.work.l8.filter (· ≠ n)
      raws := s.work.raws.filter fun j => j.id ≠ n
      items := s.work.items.filter fun p => p.2.cmd ≠ n
      ctxs := s.work.ctxs.filter fun p => p.2.cmd ≠ n }
    arrays := { s.arrays with due := s.arrays.due.filter fun t => t.cmd ≠ n } }

/-- Complete a command in flight with an outcome. -/
def State.complete (s : State) (n : Nat) (o : Outcome) : State :=
  match s.cmd n with
  | none => s
  | some c => ((s.dropKey n).leave n).reply c.opcode c.head o

/-- Decide the outcome of a command in flight. A scheduled one is sent by COMPLETION_SEND, an L8 one at
once (R195, R212). The first decision stands. -/
def State.decide (s : State) (n : Nat) (o : Outcome) : State :=
  match s.cmd n with
  | none => s
  | some c =>
    if c.result.isSome then s
    else if c.cls = .l8 then s.complete n o
    else
      let s := (s.dropKey n).setCmd n fun c => { c with result := some o, stage := .sent }
      { s with
        work := { s.work with
          items := s.work.items.filter fun p => p.2.cmd ≠ n
          ctxs := s.work.ctxs.filter fun p => p.2.cmd ≠ n }
        arrays := { s.arrays with due := s.arrays.due.filter fun t => t.cmd ≠ n } }

/-! The turn of an L8 command (R52). -/

/-- A FORK of a sequence waits for writes (R207). -/
def State.forkPending (s : State) (slot : Nat) : Bool := s.work.cmds.any fun p => p.2.forkIn.isSome && p.2.seqSlot = slot

/-- An L8 command without granules waits for its turn: others wait before it, or it would take leaves of a sequence out of
reach of a FORK admitted earlier (R74, R207). One that none waits before starts as it is received. DESIGN CHOICE (log entry
154): it then needs no L8_COMMAND_START. -/
def State.mustWait (s : State) (op slot : Nat) : Bool :=
  s.work.l8 ≠ [] || ((op = opFreeRange || op = opDemote || op = opMigrate) && s.forkPending slot)

/-- A command enters flight and waits for its turn to start. -/
def State.defer (s : State) (i : Instr) (op : Nat) (h : Head) (tenant row slot : Nat) : State :=
  let n := s.work.next
  let s := s.enter { Cmd.start op h tenant none 0 row slot with deferred := some i }
  { s with work := { s.work with l8 := s.work.l8 ++ [n] } }

/-- A command that waits for its turn changes the tables of a sequence: a walk of a later L8 command waits for it (R74). -/
def State.changeWaits (s : State) (slot : Nat) : Bool :=
  s.work.l8.any fun n => match s.cmd n with
    | some c => c.deferred.isSome && c.seqSlot = slot
    | none => false

/-! The sequence (R75 step 1, R196 check 7). -/

/-- Why a command may not act on its sequence; none when it may. -/
def State.seqFail (s : State) (op tenant : Nat) (h : Head) : Option Outcome :=
  let q := s.seqAt (handleSlot h.handle)
  firstFail [
    (q.state = .closed || q.state = .retired || q.generation ≠ handleGen h.handle, Outcome.bare h .noSequence 0),
    (q.tenant ≠ tenant && !(op = opFork && q.tenant = 0xFFF), Outcome.bare h .notOwner 0),
    (q.state = .closing, Outcome.bare h (if op = opClose then .alreadyFree else .noSequence) 0),
    (q.model ≠ h.model, Outcome.shape h 0x1)]

/-- A damaged sequence gives CACHE_LOST with an empty leaf report, except to CLOSE (Table 16-1). -/
def damagedOutcome (h : Head) : Outcome :=
  { status := .cacheLost, detail := 0, handle := h.handle, body := .report 0 0 0 0 0 }

/-- The sequence of a command is damaged. -/
def State.damaged (s : State) (h : Head) : Bool := (s.seqAt (handleSlot h.handle)).damaged

/-- Commands in flight on a sequence (IN_FLIGHT of Table 3-3). -/
def State.seqInFlight (s : State) (slot : Nat) : Nat :=
  (s.work.cmds.filter fun p => p.2.seqSlot = slot).length

/-- The counters and events of R87 to R89 for a CLOSE or FREE_RANGE that gives this status; at most one event
of each kind for a requester in a row. -/
def State.freeEvents (s : State) (h : Head) (st : Status) : State :=
  let post (s : State) (kind : Nat) : State :=
    if s.cat.posted.contains (h.srcNode, kind) then s
    else
      let s := { s with cat := { s.cat with posted := (h.srcNode, kind) :: s.cat.posted } }
      s.postTo h.qp h.srcNode { s.event kind 0x050 0 with handle := h.handle }
  match st with
  | .alreadyFree => post (s.count rFreeEventsDoubleFreeCount 1) 0x0005
  | .noSequence => post (s.count rFreeEventsStaleHandleCount 1) 0x0005
  | .notOwner => post (s.count rFreeEventsNotOwnerCount 1) 0x0006
  | _ => s

/-- BODY_LENGTH covers the fixed fields and the message is within R192. -/
def bodyFail (h : Head) (fixed : Nat) : Option Outcome :=
  if h.bodyLen < fixed ∨ maxBody < h.bodyLen then some (Outcome.shape h 0x5) else none

/-- BODY_LENGTH agrees with the full layout. -/
def sizeFail (h : Head) (size : Nat) : Option Outcome :=
  if h.bodyLen ≠ size then some (Outcome.shape h 0x5) else none

/-- The first failure of a list of checks. -/
def firstSome : List (Option Outcome) → Option Outcome
  | [] => none
  | some o :: _ => some o
  | none :: t => firstSome t

/-- A leaf of a command: layer, head, half, block. -/
abbrev LeafName := Nat × Nat × Nat × Nat

/-- The leaf report of Table 8-4 over the leaves with a status, in order of layer, head, block and half. -/
def leafReport : List LeafName → CplBody
  | [] => .report 0 0 0 0 0
  | (l, h, f, b) :: t => .report b l h f (t.length + 1)

/-- A completion with a leaf report. -/
def Outcome.leaves (h : Head) (st : Status) (l : List LeafName) : Outcome :=
  { status := st, detail := 0, handle := h.handle, body := leafReport l }

/-- A check that fails with an outcome. -/
def failIf (b : Bool) (o : Outcome) : Option Outcome := if b then some o else none

end Sys2Proof.Machine
end

