-- ==== Sys2Proof/Machine/Measure.lean ====
section
/-! DEFINITION. The vault's measurements and its log, tenant slots as the registers show them, claims, and the consent that
takes effect at a row start (R368 to R370, R379, R380, R383, R384). -/

namespace Sys2Proof.Machine

/-- Bytes of a digest. -/
def digestBytes (d : Digest) : List Byte := leBytes 48 d.toNat

/-- Records the measurement log holds (R370). -/
def logMax : Nat := 65536

/-- Extend measurement 10, 11 or 12 by an event digest, and append a record while the log has room (R369, R370). -/
def State.extend (s : State) (index kind : Nat) (d : Digest) : State :=
  let v (x : Digest) : Digest := Config.sha384 (digestBytes x ++ digestBytes d)
  let u := s.vault
  let u : Vault :=
    if index = 10 then { u with meas10 := v u.meas10 }
    else if index = 11 then { u with meas11 := v u.meas11 }
    else { u with meas12 := v u.meas12 }
  { s with vault := if u.log.length < logMax then { u with log := u.log ++ [⟨index, kind, row48 s.row, d⟩] } else u }

/-! Tenants. -/

/-- A slot of a tenant that is Free. -/
def Tenant.free : Tenant :=
  { state := .free, auth := 0, isSealed := false, key := none, keyDue := none, ticket := none, consent := 0,
    consentDue := none }

/-- The slot of a tenant. -/
def State.tenantAt (s : State) (t : Nat) : Tenant := (Tbl.get s.vault.tenants t).getD Tenant.free

/-- Set a tenant's slot. -/
def State.setTenant (s : State) (t : Nat) (x : Tenant) : State :=
  { s with vault := { s.vault with tenants := Tbl.set s.vault.tenants t x } }

/-- Entry j of MANAGER_KEYS (R407). -/
def State.managerKey (s : State) (j : Nat) : Digest :=
  BitVec.ofNat 384 ((List.range 6).foldl (fun n i => n + (s.stored 0x080 (0x300 + 0x40 * j + 8 * i)).toNat * 2 ^ (64 * i)) 0)

/-- The manager keys that are not zero. -/
def State.managerKeys (s : State) : List Digest := ((List.range 7).map s.managerKey).filter (· ≠ 0)

/-- A requester whose leaf certificate has this hash authenticates for a tenant (R375). No one does for 0xFFF. -/
def State.leafServes (s : State) (d : Digest) (t : Nat) : Bool :=
  if t = 0 then s.managerKeys.contains d
  else if t = 0xFFF then false
  else match Tbl.get s.vault.tenants t with
    | some x => x.auth = d
    | none => false

/-- Sessions that authenticate for a tenant. -/
def State.sessionsOf (s : State) (t : Nat) : Nat :=
  (s.vault.sessions.filter fun p => match p.2.leaf with
    | some d => s.leafServes d t
    | none => false).length

/-- Open sequences of a tenant. -/
def State.openSequences (s : State) (t : Nat) : Nat :=
  (s.cat.seqs.filter fun p => p.2.state = .opened && p.2.tenant = t).length

/-- STATE of TENANT_INFO. -/
def TenantState.code : TenantState → Nat
  | .free => 0 | .admitted => 1 | .keyed => 2 | .withdrawing => 3

/-- TENANT_INFO of a tenant (Table 15-6): bit 57 CONDENSE, 56 PROFILE, 55 DEBUG. -/
def State.tenantInfo (s : State) (t : Nat) : Word :=
  match Tbl.get s.vault.tenants t with
  | none => 0
  | some x =>
    let b (p : Bool) : Nat := if p then 1 else 0
    setBits (setBits (setBits (setBits (setBits (setBits 0 63 62 x.state.code) 61 61 (b x.isSealed)) 60 60
      (b x.ticket.isSome)) 59 58 (min 3 (s.sessionsOf t))) 57 55 x.consent) 20 0 (s.openSequences t)

/-- A change of a tenant extends measurement 11 (R369). The record's KIND is a free value (log entry 2). -/
def State.measureTenant (s : State) (t : Nat) : State :=
  let (k, s) := s.free
  s.extend 11 (k % 256) (Config.sha384 (leBytes 16 (s.tenantInfo t).toNat ++ leBytes 2 t))

/-- Consent given in the row before takes effect (R383). -/
def State.applyConsents (s : State) : State :=
  s.vault.tenants.foldl (fun s p => match p.2.consentDue with
    | some c => (s.setTenant p.1 { p.2 with consent := c, consentDue := none }).measureTenant p.1
    | none => s) s

/-! Banks (R55, R369). -/

/-- The bytes a bank digest covers: the header, the row entries, and each slot they name, once, in ascending order. -/
def bankBytes (m : List Host.Cell) : List Byte :=
  let rows := List.range (patLength m)
  let slots := (rows.flatMap fun k => entrySlots (patEntryAt m k)).dedup.mergeSort
  Mem.bytes m 0 16 ++ rows.flatMap (fun k => Mem.bytes m (0x10000 + 16 * k) 16) ++
    slots.flatMap fun i => Mem.bytes m (0x20000 + 16 * i) 16

/-- A bank that is armed extends measurement 10. -/
def State.measureBank (s : State) (switchRow : Nat) : State :=
  let (k, s) := s.free
  s.extend 10 (k % 256) (Config.sha384 (digestBytes (Config.sha384 (bankBytes s.pat.pending)) ++ leBytes 8 switchRow))

/-! Claims (R380). -/

/-- The blocks the vault claims. -/
def claimable (b : Nat) : Bool :=
  b < 0x00C || (0x010 ≤ b && b < 0x01C) || (0x020 ≤ b && b < 0x024) || (0x068 ≤ b && b < 0x06C) ||
    [0x038, 0x040, 0x050, 0x058, 0x060, 0x070].contains b

/-- The vault holds a claim on a block. -/
def State.isClaimed (s : State) (b : Nat) : Bool := s.vault.claimed && claimable b

/-- A capture (KIND 1) or an emergency cut (KIND 2) of a claimed block extends measurement 12 (R369). -/
def State.measureBlock (s : State) (b kind : Nat) : State :=
  if s.isClaimed b then
    s.extend 12 kind (Config.sha384 (leBytes 1 b ++ leBytes 1 kind ++ leBytes 6 (row48 s.row)))
  else s

end Sys2Proof.Machine
end

