-- ==== Sys2Proof/Machine/SeqCmds.lean ====
section
/-! DEFINITION. OPEN, CLOSE and FORK (R203 to R207), and a sequence's end. -/

namespace Sys2Proof.Machine

/-- The fields a new sequence takes. -/
def Seq.opened (old : Seq) (model tenant format d layers kvHeads : Nat) (b : OpenBody) (dir row : Nat) : Seq :=
  { state := .opened, model := model, generation := old.generation, tenant := tenant, mirrored := b.mirrored,
    pinned := b.pinned, split := 256 < d, format := format, d := d, layers := layers, kvHeads := kvHeads,
    length := 0, headDir := dir, buddy := b.buddy, lastUse := row48 row, openRow := row48 row,
    damaged := false, loanSeq := false }

/-- Take a Closed slot of the node's choosing and the pages of a head directory (R203): the slot and the new
state, or the code of Table 8-5. -/
def State.takeSlot (s : State) (layers kvHeads : Nat) : Except Nat (Nat × State) :=
  match s.choose seqSlots (fun k => (s.seqAt k).state = .closed) with
  | (none, _) => .error 0x9
  | (some slot, s) => match s.takePages (dirKey slot) (dirPagesFor layers kvHeads) with
    | none => .error 0xA
    | some s => .ok (slot, s)

/-- First page of a slot's head directory. -/
def State.dirPage (s : State) (slot : Nat) : Nat := (((Tbl.get s.cat.dirPages (dirKey slot)).getD []).headD 0)

/-! OPEN. -/

/-- The checks of OPEN that need no search (R196, R203, Table 8-7). -/
def openFail (s : State) (c : Conn) (h : Head) (b : OpenBody) : Option Outcome :=
  firstSome [
    bodyFail h 16,
    failIf (s.relayRefused c h) (Outcome.bare h .deniedSecure 0),
    failIf (b.library && actingTenant c h ≠ 0) (Outcome.bare h .notOwner 0),
    failIf (!(1 ≤ b.format && b.format ≤ 7)) (Outcome.bare h .formatUnsupported 0),
    failIf (!dAllowed b.d) (Outcome.shape h 0x3),
    failIf (!(1 ≤ b.layers && b.layers ≤ 256 && 1 ≤ b.kvHeads && b.kvHeads ≤ 64)) (Outcome.shape h 0x1),
    sizeFail h 16,
    s.budgetFail h none s.row 0 0,
    failIf (Tbl.get s.node.models h.model).isNone (Outcome.noRes h 0xB)]

/-- OPEN after receipt (R203). -/
def admitOpen (h : Head) (b : OpenBody) (r : Nat) (s : State) : State :=
  match s.sender h with
  | none => s
  | some (_, c) => match openFail s c h b with
    | some o => s.reply opOpen h o
    | none =>
      if s.mustWait opOpen noSeq then s.defer (.openSeq h b) opOpen h (actingTenant c h) r noSeq
      else match s.takeSlot b.layers b.kvHeads with
      | .error d => (s.pagesOut (Outcome.noRes h d)).reply opOpen h (Outcome.noRes h d)
      | .ok (slot, s) =>
        let tenant := if b.library then 0xFFF else actingTenant c h
        let q := (s.seqAt slot).opened h.model tenant b.format b.d b.layers b.kvHeads b (s.dirPage slot) s.row
        (s.setSeq slot q).reply opOpen h { Outcome.good h .none with handle := handleOf slot q }

/-! CLOSE. -/

/-- The checks of CLOSE. -/
def closeFail (s : State) (c : Conn) (h : Head) : Option Outcome :=
  firstSome [
    bodyFail h 0,
    failIf (s.relayRefused c h) (Outcome.bare h .deniedSecure 0),
    s.seqFail opClose (actingTenant c h) h,
    sizeFail h 0,
    s.budgetFail h none s.row 0 0]

/-- CLOSE after receipt (R205). -/
def admitClose (h : Head) (r : Nat) (s : State) : State :=
  match s.sender h with
  | none => s
  | some (_, c) => match closeFail s c h with
    | some o => (s.freeEvents h o.status).reply opClose h o
    | none =>
      let slot := handleSlot h.handle
      if s.mustWait opClose slot then s.defer (.closeSeq h) opClose h (actingTenant c h) r slot
      else (s.setSeq slot { s.seqAt slot with state := .closing }).reply opClose h (Outcome.good h .none)

/-- The end of a Closing sequence on which no command is in flight (Table 3-6): its references are dropped, its
pages released, and its generation rises or its slot is retired (R70). A damaged sequence's references are
dropped by the sweep over the cards whose HANDLE names it (Table 16-1), which are among its shelfmarks. -/
def State.endSequence (s : State) (slot : Nat) : State :=
  let q := s.seqAt slot
  if q.state ≠ .closing ∨ s.seqInFlight slot ≠ 0 then s
  else
    let s := (s.leavesOf slot).foldl (fun s p => (s.setEntry p.1 none).dropRef p.2) s
    let pages := (Tbl.get s.cat.dirPages (dirKey slot)).getD [] ++
      (s.cat.heads.filter fun p => headOf slot p.1).flatMap fun p => p.2.pages
    let s := (s.release (pageRelease s.row pages)).inShadow fun x => x.dropSeq slot
    let s := { s with cat := { s.cat with
      dirPages := Tbl.erase s.cat.dirPages (dirKey slot)
      heads := s.cat.heads.filter fun p => !headOf slot p.1 } }
    s.setSeq slot (if q.generation = 0xFFF then { Seq.fresh with state := .retired, generation := 0xFFF }
      else { Seq.fresh with generation := q.generation + 1 })

/-! FORK. -/

/-- The (layer, head, block) of a source below a position, in order, with its cards. -/
def State.forkBlocks (s : State) (slot fp : Nat) : List (Nat × Nat × Nat × List Nat) :=
  (s.seqAt slot).heads.flatMap fun lh =>
    (s.blocksOf slot lh.1 lh.2 0).filterMap fun b =>
      if b * 256 < fp then (s.cardsAt slot lh.1 lh.2 b).map fun cs => (lh.1, lh.2, b, cs) else none

/-- The leaves of blocks whose card passes a test, named half by half. -/
def State.namesWhere (s : State) (l : List (Nat × Nat × Nat × List Nat)) (p : Card → Bool) : List LeafName :=
  l.flatMap fun x => ((List.range x.2.2.2.length).zip x.2.2.2).filterMap fun y =>
    match s.card y.2 with
    | some c => if p c then some (x.1, x.2.1, y.1, x.2.2.1) else none
    | none => none

/-- Writes of an admitted APPEND to a leaf below the fork position are not yet done (R207). -/
def State.forkWaits (s : State) (slot fp : Nat) : Bool :=
  s.work.appends.any fun a => a.seqSlot = slot && a.acts.any fun x => match x with
    | .raise cs _ => cs.any fun c => match s.card c with
      | some k => k.block * 256 < fp
      | none => false
    | .line _ _ _ => false

/-- The card of the Filling copy at the fork position (Table 3-5). -/
def Card.forkCopy (c : Card) (handle tenant valid row : Nat) (q : Seq) (l : HalfLoc) : Card :=
  { c with handle := handle, owner := tenant, origin := tenant, model := q.model, state := .filling, valid := valid,
           loc := .stack l.granule, scale := l.scale, refs := 1, pinned := q.pinned, mirrored := q.mirrored,
           published := false, openSet := false, link := none, lastUse := row48 row, annexGranules := 0,
           crc := 0, chain := 0 }

/-- Copy the halves of the leaf that holds the fork position into places already taken. -/
def State.forkHalves (s : State) (handle tenant valid : Nat) (q : Seq) :
    List (Card × HalfLoc × HalfLoc) → Option (List Nat × State)
  | [] => some ([], s)
  | (c, src, dst) :: t =>
    match s.takeCard (c.forkCopy handle tenant valid s.row q dst) with
    | (none, _) => none
    | (some m, s) => ((s.copyLeaf src dst c.format c.d).forkHalves handle tenant valid q t).map fun r => (m :: r.1, r.2)

/-- Take the references and copies of a FORK into a new slot, block by block (R206). Only Sealed and Shared leaves, or such
leaves while they move, give references (R82). -/
def State.forkInto (s : State) (slot handle tenant fp : Nat) (q : Seq) :
    List (Nat × Nat × Nat × List Nat) → Except RefFail State
  | [] => .ok s
  | (l, hd, b, cs) :: t =>
    if (b + 1) * 256 ≤ fp then
      match s.takeRef handle cs with
      | .error e => .error e
      | .ok (ms, s) => (s.putCards slot l hd b ms).forkInto slot handle tenant fp q t
    else
      match cs.mapM fun n => (s.card n).bind fun c => c.place.map fun p => (c, p) with
      | none => .error (.notResident cs)
      | some src =>
        if src.any fun p => s.leafPoisoned p.2 p.1.format p.1.d then .error (.cacheLost cs)
        else match s.takeLeaf (placement slot l hd b) q.format q.leafD cs.length with
        | (none, _) => .error .noSpace
        | (some ds, s) => match s.forkHalves handle tenant (fp % 256) q ((src.zip ds).map fun p => (p.1.1, p.1.2, p.2)) with
          | none => .error .noSpace
          | some (ms, s) => (s.putCards slot l hd b ms).forkInto slot handle tenant fp q t

/-- The table pages a FORK's blocks take beyond the head directory. -/
def State.forkPages (s : State) (slot fp : Nat) : Nat :=
  let q := s.seqAt slot
  q.heads.foldl (fun n lh => n + q.halves * headPages ((s.blocksOf slot lh.1 lh.2 0).filter fun b => b * 256 < fp)) 0

/-- FORK_POSITION lies past the end of some layer and head of the source (R206). -/
def State.forkBeyond (s : State) (slot fp : Nat) : Bool :=
  (s.seqAt slot).heads.any fun lh => !(1 ≤ fp && fp ≤ s.endOf slot lh.1 lh.2)

/-- The walk of a FORK looks up the spans of the blocks below its position (R75). -/
def State.forkWalk (s : State) (slot fp : Nat) : State :=
  (s.seqAt slot).heads.foldl (fun s lh => s.lookBlocks slot lh.1 lh.2 (List.range (ceilDiv fp 256))) s

/-- A FORK takes effect, entirely or not at all (R206, R207): the outcome and the state it leaves. Slot, pages and space come
first (check 10 of R196), then what the walk finds. An APPEND it waited for may have failed, so that its position is past
the end. -/
def State.doFork (s : State) (h : Head) (tenant : Nat) (b : OpenBody) : Outcome × State :=
  let src := handleSlot h.handle
  let q := s.seqAt src
  let fp := b.forkPosition
  let s := s.forkWalk src fp
  let blocks := s.forkBlocks src fp
  let isLost (c : Card) : Bool := c.state = .lost || c.loc.invalid s.nodeId s.mover.size
  let lost := s.namesWhere blocks isLost
  let away := blocks.filter fun x => fp < (x.2.2.1 + 1) * 256 && x.2.2.2.any fun n =>
    match s.card n with | some c => !c.inStacks | none => false
  let fit := blocks.filter fun x => !away.contains x && s.namesWhere [x] isLost = []
  if s.forkBeyond src fp then (Outcome.shape h 0x6, s)
  else match s.takeSlot q.layers q.kvHeads with
  | .error d => (Outcome.noRes h d, s.pagesOut (Outcome.noRes h d))
  | .ok (slot, t) =>
    if t.freePages < s.forkPages src fp then (Outcome.noRes h 0xA, { s with fresh := t.fresh }.pagesOut (Outcome.noRes h 0xA))
    else
      let new := (t.seqAt slot).opened q.model (if b.library then 0xFFF else tenant) q.format q.d q.layers q.kvHeads b
        (t.dirPage slot) s.row
      let new := { new with length := min q.length fp }
      let t := t.setSeq slot new
      let handle := handleOf slot new
      let late := { s with fresh := t.fresh + blocks.length }
      match t.forkInto slot handle new.tenant fp new fit with
      | .error .noSpace => (Outcome.bare h .noSpace 0, late)
      | r =>
        if lost ≠ [] then (Outcome.leaves h .cacheLost lost, late)
        else if away ≠ [] then
          (Outcome.leaves h .notResident (s.namesWhere away fun _ => true), away.foldl (fun s x => s.promote x.2.2.2) late)
        else match r with
        | .ok t => ({ Outcome.good h .none with handle := handle }, t)
        | .error e =>
          let left := late.refFailed e
          let named (cs : List Nat) : List LeafName := s.namesWhere (blocks.filter fun x => x.2.2.2 = cs) fun _ => true
          match e with
          | .notResident cs => (Outcome.leaves h .notResident (named cs), left)
          | .cacheLost cs => (Outcome.leaves h .cacheLost (named cs), left)
          | .noSpace => (Outcome.bare h .noSpace 0, left)

/-- The checks of FORK. -/
def forkFail (s : State) (c : Conn) (h : Head) (b : OpenBody) : Option Outcome :=
  let slot := handleSlot h.handle
  firstSome [
    bodyFail h 16,
    failIf (s.relayRefused c h) (Outcome.bare h .deniedSecure 0),
    s.seqFail opFork (actingTenant c h) h,
    failIf (b.library && actingTenant c h ≠ 0) (Outcome.bare h .notOwner 0),
    failIf (s.forkBeyond slot b.forkPosition) (Outcome.shape h 0x6),
    sizeFail h 16,
    s.budgetFail h none s.row 0 0,
    failIf (s.damaged h) (damagedOutcome h)]

/-- FORK after receipt. It stays in flight while writes of earlier APPENDs to its source go on (R207); later commands that
would take leaves of the source away wait behind it (`mustWait`). -/
def admitFork (h : Head) (b : OpenBody) (r : Nat) (s : State) : State :=
  match s.sender h with
  | none => s
  | some (_, c) => match forkFail s c h b with
    | some o => s.reply opFork h o
    | none =>
      let tenant := actingTenant c h
      let slot := handleSlot h.handle
      if s.mustWait opFork slot then s.defer (.fork h b) opFork h tenant r slot
      else if s.forkWaits slot b.forkPosition then
        s.enter { Cmd.start opFork h tenant none 0 r slot with forkIn := some b }
      else
        let (o, s) := s.doFork h tenant b
        s.reply opFork h o

/-- Run the FORKs whose wait has ended. -/
def State.runForks (s : State) : State :=
  s.work.cmds.foldl (fun s p => match p.2.forkIn with
    | none => s
    | some b =>
      if s.forkWaits p.2.seqSlot b.forkPosition then s
      else
        let (o, s) := s.doFork p.2.head p.2.tenant b
        s.complete p.1 o) s

/-- OPEN (R203). -/
def execOpenSeq (h : Head) (b : OpenBody) (s : State) : Out := .next (s.receive (.openSeq h b) (admitOpen h b))

/-- CLOSE (R205). -/
def execCloseSeq (h : Head) (s : State) : Out := .next (s.receive (.closeSeq h) (admitClose h))

/-- FORK (R206, R207). -/
def execFork (h : Head) (b : OpenBody) (s : State) : Out := .next (s.receive (.fork h b) (admitFork h b))

/-- SEQUENCE_CLOSED: a Closing slot reaches Closed or Retired (R70, R81). -/
def execSequenceClosed (slot : Nat) (s : State) : Out := .next (s.endSequence slot)

end Sys2Proof.Machine
end

