-- ==== Sys2Proof/Machine/Append.lean ====
section
/-! DEFINITION. APPEND: its admission and the writes of the append converters (R175 to R179, R208, R209, R442). -/

namespace Sys2Proof.Machine

/-! Room in the tiers (R251). -/

/-- A pool device takes no new run: fenced or evacuating (R268). -/
def State.deviceOut (s : State) (k : Nat) : Bool :=
  (s.fld rPoolStatusFenced).testBit k || (s.fld rPoolStatusEvacuating).testBit k

/-- Free annex granules on devices neither fenced nor evacuating (ANNEX_FREE). -/
def State.annexFree (s : State) : Nat :=
  (List.range s.mover.devices).foldl (fun n k =>
    if s.deviceOut k then n
    else n + ((s.mover.size + s.mover.devices - 1 - k) / s.mover.devices
      - (s.mover.granules.filter fun g => g % s.mover.devices = k).length)) 0

/-- The lenders of LENDER0 to LENDER7 that are not being passed over, in register order. -/
def State.lenders (s : State) : List Nat :=
  (List.range 8).filterMap fun k =>
    let n := s.fld (rLenderNode k)
    if s.fld (rLenderValid k) = 1 ∧ (Tbl.get s.mover.passed n).isNone then some n else none

/-- The annex or a lender still has room (R251). -/
def State.roomElsewhere (s : State) : Bool := s.annexFree ≠ 0 || s.lenders ≠ []

/-! Admission. -/

/-- Bytes an APPEND writes: elements in the storage format and their scales. -/
def writtenBytes (b : AppendBody) (fmt d : Nat) : Nat :=
  2 * b.count * (vecBytes fmt d + scaleBytes fmt d)

/-- The write budget of a row and die: 2,983 ns at 160 B/ns (R177). -/
def writeBudget : Nat := 2983 * 160

/-- Key in `appendBytes` of the bytes charged to a die in a row. -/
def writeKey (row die : Nat) : Nat := 8 * row + die

/-- Key in `appendBytes` of a die's bytes written and not yet counted in a whole KiB. -/
def restKey (die : Nat) : Nat := die + 4

/-- A card of a leaf newly allocated (Table 3-5). -/
def Card.allocate (q : Seq) (handle layer head half block row : Nat) (l : HalfLoc) : Card :=
  { handle := handle, owner := q.tenant, origin := q.tenant, model := q.model, layer := layer, head := head,
    half := half, block := block, state := .allocated, valid := 0, format := q.format, d := q.leafD,
    loc := .stack l.granule, scale := l.scale, refs := 1, pinned := q.pinned, mirrored := q.mirrored,
    published := false, openSet := false, link := none, lastUse := row48 row, annexGranules := 0, crc := 0,
    chain := 0 }

/-- Cards for the halves of a block placed. -/
def State.allocateHalves (s : State) (q : Seq) (handle layer head block : Nat) :
    List (Nat × HalfLoc) → Option (List Nat × State)
  | [] => some ([], s)
  | (half, l) :: t =>
    match s.takeCard (Card.allocate q handle layer head half block s.row l) with
    | (none, _) => none
    | (some n, s) => (s.allocateHalves q handle layer head block t).map fun r => (n :: r.1, r.2)

/-- Take granules, scale slots, cards and table pages for the blocks an APPEND newly enters (R176), or why
that fails (R209, Table 3-7). -/
def State.allocateBlocks (s : State) (slot layer head : Nat) (h : Head) : List Nat → Except Outcome State
  | [] => .ok s
  | b :: bs =>
    let q := s.seqAt slot
    match s.takeLeaf (placement slot layer head b) q.format q.leafD q.halves with
    | (none, s) => .error (if s.roomElsewhere then Outcome.noRes h 0xD else Outcome.bare h .noSpace 0)
    | (some ls, s) =>
      match s.allocateHalves q h.handle layer head b ((List.range ls.length).zip ls) with
      | none => .error (Outcome.bare h .noSpace 0)
      | some (ns, s) =>
        if s.freePages < (List.range q.halves).foldl (fun n f => n + s.pagesLacking slot layer head f [b]) 0
        then .error (Outcome.noRes h 0xA)
        else (s.putCards slot layer head b ns).allocateBlocks slot layer head h bs

/-- The blocks of positions [first, first + count). -/
def blockSpan (first count : Nat) : List Nat :=
  (List.range ((first + count - 1) / 256 + 1 - first / 256)).map fun i => first / 256 + i

/-! The lines (R177). -/

/-- The cells of a stored vector of leaf position p: its bytes and its scales. -/
def vectorCells (l : HalfLoc) (fmt d : Nat) (v : Bool) (p : Nat) (r : List Byte × List Byte) : List Host.Cell :=
  let x := (if v then 32 * d * fmtBits fmt else 0) + p * vecBytes fmt d
  let sx := (if v then 8 * d else 0) + p * (d / 32)
  ((List.range r.1.length).zip r.1).map (fun c => (elemAddr l.granule (x + c.1), c.2)) ++
    match l.scale with
    | some sc => ((List.range r.2.length).zip r.2).map fun c => (scaleAddr sc d (sx + c.1), c.2)
    | none => []

/-- Put a cell into the line it belongs to; lines stand in the order of their first byte. -/
def addToLines (c : Host.Cell) : List (Nat × List Host.Cell) → List (Nat × List Host.Cell)
  | [] => [(lineOf c.1, [c])]
  | (l, cs) :: t => if l = lineOf c.1 then (l, cs ++ [c]) :: t else (l, cs) :: addToLines c t

/-- The writes of one block: the lines of the new keys, values and scales of every half, then the raise. -/
def State.blockActs (s : State) (q : Seq) (b : AppendBody) (block : Nat) (cards : List Nat) : List AppendAct :=
  let lo := max b.first (block * 256)
  let hi := min (b.first + b.count) ((block + 1) * 256)
  let cells := ((List.range cards.length).zip cards).flatMap fun hc =>
    match (s.card hc.2).bind Card.place with
    | none => []
    | some l => [false, true].flatMap fun v => (List.range (hi - lo)).flatMap fun i =>
        vectorCells l q.format q.leafD v (lo + i - block * 256)
          (b.stored q.format q.d q.split hc.1 v (lo + i - b.first))
  (cells.foldl (fun ls c => addToLines c ls) []).map (fun x => AppendAct.line x.1 x.2 cards)
    ++ [.raise cards (hi - block * 256)]

/-- CLB lookups of an APPEND's walk: the spans of its blocks in every half (R75, R76). -/
def appendLookups (q : Seq) (b : AppendBody) : Nat := ((blockSpan b.first b.count).map fun k => k / 16).dedup.length * q.halves

/-- The checks of APPEND in the order of R196, up to the space it needs. -/
def appendFail (s : State) (c : Conn) (h : Head) (b : AppendBody) (g : Option (Nat × SlotRec)) (r : Nat) : Option Outcome :=
  let slot := handleSlot h.handle
  let q := s.seqAt slot
  let e := s.endOf slot b.layer b.head
  let die := s.walkerOf slot / 4
  firstSome [
    bodyFail h 16,
    failIf (!(1 ≤ b.count && b.count ≤ 65536)) (Outcome.shape h 0x5),
    failIf (s.relayRefused c h) (Outcome.bare h .deniedSecure 0),
    s.seqFail opAppend (actingTenant c h) h,
    failIf (q.layers ≤ b.layer || q.kvHeads ≤ b.head) (Outcome.shape h 0x1),
    failIf (!(b.inFormat ≤ 2 || b.inFormat = q.format)) (Outcome.bare h .formatUnsupported 0),
    failIf (!(b.first = e || (e % 256 = 0 && b.first % 256 = 0 && e < b.first))) (Outcome.shape h 0x6),
    failIf (16777216 < b.first + b.count) (Outcome.bare h .lengthLimit 0),
    sizeFail h (b.size q.d),
    s.budgetFail h g r 0 (appendLookups q b),
    failIf (g.isSome && writeBudget < Tbl.num s.work.appendBytes (writeKey r die) + writtenBytes b q.format q.d)
      (Outcome.noRes h 0x7)]

/-- The last checks of APPEND: its payload, then what the walk would find at the tail. -/
def appendLast (s : State) (h : Head) (b : AppendBody) : Option Outcome :=
  let slot := handleSlot h.handle
  let q := s.seqAt slot
  let lost := (List.range q.halves).filterMap fun f =>
    match (s.leafAt slot b.layer b.head f (b.first / 256)).bind s.card with
    | some c => if c.state = .lost then some (b.layer, b.head, f, b.first / 256) else none
    | none => none
  firstSome [
    failIf (!b.payloadFinite q.d) (Outcome.poison h 0x3),
    failIf q.damaged (damagedOutcome h),
    failIf (lost ≠ []) (Outcome.leaves h .cacheLost lost)]

/-- Admit an APPEND that has passed every check (R176): the charges, the leaves, and the writes that wait. -/
def State.admitWrites (s : State) (c : Conn) (h : Head) (b : AppendBody) (g : Option (Nat × SlotRec)) (r : Nat) : State :=
  let slot := handleSlot h.handle
  let q := s.seqAt slot
  let die := s.walkerOf slot / 4
  let bytes := writtenBytes b q.format q.d
  let s := (s.charge g r 0 (appendLookups q b)).lookBlocks slot b.layer b.head (blockSpan b.first b.count)
  let charged := Tbl.set s.work.appendBytes (writeKey r die) (Tbl.num s.work.appendBytes (writeKey r die) + bytes)
  let s := if g.isSome then { s with work := { s.work with appendBytes := charged } } else s
  let acts := (blockSpan b.first b.count).flatMap fun k =>
    match s.cardsAt slot b.layer b.head k with
    | some cs => s.blockActs q b k cs
    | none => []
  let job : AppendJob := { cmd := s.work.next, die := die, scheduled := g.isSome, row := r, seqSlot := slot,
                           layer := b.layer, head := b.head, first := b.first, endPos := b.first + b.count, bytes := bytes,
                           lengthWas := q.length, started := false, waits := false, acts := acts }
  let s := s.enter { Cmd.start opAppend h (actingTenant c h) g 0 r slot with lookups := appendLookups q b }
  { s with work := { s.work with appends := s.work.appends ++ [job] } }

/-- APPEND after receipt (R208). -/
def admitAppend (h : Head) (b : AppendBody) (r : Nat) (s : State) : State :=
  match s.sender h with
  | none => s
  | some (_, c) => match s.grant opAppend h c r with
    | .error o => s.reply opAppend h o
    | .ok g => match appendFail s c h b g r with
      | some o =>
        let s := if o.status = .noResource ∧ o.detail = 0x7 then s.count (rAppendWorkRefused (s.walkerOf (handleSlot h.handle) / 4)) 1 else s
        s.reply opAppend h o
      | none =>
        let slot := handleSlot h.handle
        let new := (blockSpan b.first b.count).filter fun k => (s.cardsAt slot b.layer b.head k).isNone
        match s.allocateBlocks slot b.layer b.head h new with
        | .error o => ({ s with fresh := s.fresh + 2 * new.length + 2 }.pagesOut o).reply opAppend h o
        | .ok t => match appendLast s h b with
          | some o => { s with fresh := t.fresh }.reply opAppend h o
          | none => t.admitWrites c h b g r

/-! The converter's writes. -/

/-- Raise VALID_COUNT of a leaf; at 256 the leaf is sealed with its CRC (R66, R68, R79). -/
def State.raiseValid (s : State) (card valid : Nat) : State :=
  match s.card card with
  | none => s
  | some c =>
    let slot := handleSlot c.handle
    let q := s.seqAt slot
    let s := if q.generation = handleGen c.handle ∧ q.state ≠ .closed
      then s.setSeq slot { q with length := max q.length (c.block * 256 + valid) } else s
    if c.state = .allocated ∨ c.state = .filling then
      if valid = 256 then
        let crc := match c.place with
          | some l => crc32c (s.leafData l c.format c.d)
          | none => 0
        s.setCard card fun c => { c with state := .sealed, valid := 256, crc := crc }
      else s.setCard card fun c => { c with state := .filling, valid := valid }
    else s.setCard card fun c => { c with valid := max c.valid valid }

/-- A line write leaves a poisoned line as it is unless it covers the whole line (R442): the write fails. -/
def State.lineRefused (s : State) (l : Nat) (cells : List Host.Cell) : Bool :=
  s.poison.contains l && cells.length < 64

/-- Write a line atomically; a whole line clears its poison (R442). -/
def State.writeLine (s : State) (l : Nat) (cells : List Host.Cell) : State :=
  { s with
    mem := cells.foldl (fun m c => Mem.set m c.1 c.2) s.mem
    poison := if 64 ≤ cells.length then s.poison.filter (· ≠ l) else s.poison }

/-- Bytes written, counted in whole KiB in APPEND_WORK. -/
def State.countWritten (s : State) (die bytes : Nat) : State :=
  let n := Tbl.num s.work.appendBytes (restKey die) + bytes
  let s := { s with work := { s.work with appendBytes := Tbl.set s.work.appendBytes (restKey die) (n % 1024) } }
  s.count (rAppendWorkWrittenKib die) (n / 1024)

/-- Remove an APPEND's job and complete it. -/
def State.endAppend (s : State) (cmd : Nat) (o : Head → Outcome) : State :=
  let s := { s with work := { s.work with appends := s.work.appends.filter fun a => a.cmd ≠ cmd } }
  let s := match s.cmd cmd with
    | some c => s.decide cmd (o c.head)
    | none => s
  s.runForks

/-- The raises that follow the last line of a leaf. -/
def State.raises (s : State) : List AppendAct → List AppendAct × State
  | .raise cs v :: t => (cs.foldl (fun s c => s.raiseValid c v) s).raises t
  | l => (l, s)

/-! An APPEND that fails (R49, R199, Table 3-5). -/

/-- Visits of walks that counted positions of an APPEND that failed no longer do (R66). -/
def State.clipVisits (s : State) (cards : List Nat) (valid : Nat) : State :=
  { s with work := { s.work with cmds := Tbl.mapVals s.work.cmds fun _ c =>
    { c with visits := c.visits.map fun v =>
        if v.cards.any cards.contains then { v with valid := min v.valid valid } else v } } }

/-- A block's leaf is again as an APPEND found it: gone where the APPEND allocated it, else with VALID_COUNT back below the
APPEND's positions. A leaf that is Lost stays Lost. -/
def State.rollBlock (s : State) (a : AppendJob) (block : Nat) : State :=
  match s.cardsAt a.seqSlot a.layer a.head block with
  | none => s
  | some cs =>
    let own (n : Nat) : Bool := match s.card n with
      | some c => c.state = .allocated || c.state = .filling || (c.state = .sealed && c.refs = 1)
      | none => false
    let s := s.clipVisits cs (a.low block)
    if !cs.all own then s
    else if a.first ≤ block * 256 then
      (List.range cs.length).foldl (fun s f => s.dropLeafAt a.seqSlot a.layer a.head f block) s
    else cs.foldl (fun s n => s.setCard n fun c =>
      if a.low block < c.valid then { c with state := .filling, valid := a.low block, crc := 0 } else c) s

/-- LENGTH of a sequence without the positions of an APPEND that failed. -/
def State.rollLength (s : State) (a : AppendJob) : State :=
  let q := s.seqAt a.seqSlot
  let left := (s.leavesOf a.seqSlot).foldl (fun m p => match s.card p.2 with
    | some c => max m (p.1 % 65536 * 256 + c.valid)
    | none => m) a.lengthWas
  s.setSeq a.seqSlot { q with length := min q.length left }

/-- Take back what an APPEND has done (R199), last block first. -/
def State.rollBack (s : State) (a : AppendJob) : State :=
  ((blockSpan a.first (a.endPos - a.first)).reverse.foldl (fun s k => s.rollBlock a k) s).rollLength a

/-- APPENDs admitted after one to the same head: their positions follow on its own. -/
def State.laterAppends (s : State) (a : AppendJob) : List AppendJob :=
  s.work.appends.filter fun b => a.cmd < b.cmd && b.seqSlot = a.seqSlot && b.layer = a.layer && b.head = a.head

/-- Remove APPENDs' jobs and take back what they have done, the latest first. -/
def State.dropJobs (s : State) (js : List AppendJob) : State :=
  let s := { s with work := { s.work with appends := s.work.appends.filter fun a => !js.any fun b => b.cmd = a.cmd } }
  js.reverse.foldl State.rollBack s

/-- An APPEND fails (R49). The APPENDs admitted after it to the same head, whose positions would follow a gap, fail with it:
DESIGN CHOICE (log entry 155). -/
def State.abandonAppend (s : State) (n : Nat) (o : Head → Outcome) : State :=
  match s.work.appends.find? fun a => a.cmd = n with
  | none => s
  | some a =>
    let later := s.laterAppends a
    (later.foldl (fun s b => match s.cmd b.cmd with
      | some c => s.decide b.cmd (o c.head)
      | none => s) (s.dropJobs (a :: later)))

/-! The lines. -/

/-- The APPEND whose line is next on a die: the row's scheduled ones first, in order of admission, then L8 ones;
each from the row after its admission (R177, R179). None while that line waits in a conflict queue. -/
def State.nextAppend (s : State) (die : Nat) : Option AppendJob :=
  let due := s.work.appends.filter fun a => a.die = die && a.row < s.row
  let first := match due.find? fun a => a.scheduled with
    | some a => some a
    | none => due.head?
  match first with
  | some a => if a.waits then none else some a
  | none => none

/-- Change a job. -/
def State.setJob (s : State) (n : Nat) (f : AppendJob → AppendJob) : State :=
  { s with work := { s.work with appends := s.work.appends.map fun b => if b.cmd = n then f b else b } }

/-- Go on with a job: what is left of it, or its end. -/
def State.goOn (s : State) (a : AppendJob) (acts : List AppendAct) : State :=
  if acts = [] then s.endAppend a.cmd fun h => Outcome.good h .none
  else s.setJob a.cmd fun b => { b with acts := acts, started := true, waits := false }

/-- The leaves of an APPEND that no line has reached are Free again (Table 3-5). -/
def State.dropAllocated (s : State) (a : AppendJob) : State :=
  (blockSpan a.first (a.endPos - a.first)).reverse.foldl (fun s k =>
    match s.cardsAt a.seqSlot a.layer a.head k with
    | none => s
    | some cs => (List.range cs.length).foldl (fun s f => match (cs[f]?).bind s.card with
      | some c => if c.state = .allocated then s.dropLeafAt a.seqSlot a.layer a.head f k else s
      | none => s) s) s

/-- A line that only partly covers a poisoned line fails the APPEND (R442): the leaf becomes Lost, the leaves after it are
Free again, and the lines written stay. -/
def State.poisonAppend (s : State) (a : AppendJob) (cards : List Nat) : State :=
  let s := cards.foldl State.loseLeaf s
  let lost := cards.filterMap s.card
  let later := s.laterAppends a
  let s := ((s.clipVisits cards (a.low (match lost with | c :: _ => c.block | [] => 0))).dropJobs later).dropAllocated a
  let s := later.foldl (fun s b => match s.cmd b.cmd with
    | some c => s.decide b.cmd (Outcome.leaves c.head .cacheLost (lost.map fun k => (k.layer, k.head, k.half, k.block)))
    | none => s) s
  s.endAppend a.cmd fun h => Outcome.poison h 0x1

/-- The next line of an APPEND is written, with the raises that follow it (R177). -/
def State.writeNext (s : State) (a : AppendJob) : State :=
  match a.acts with
  | [] => s.endAppend a.cmd fun h => Outcome.good h .none
  | .raise cs v :: t => let (rest, s) := s.raises (.raise cs v :: t); s.goOn a rest
  | .line l cells cards :: t =>
    if s.lineRefused l cells then s.poisonAppend a cards
    else
      let s := (s.writeLine l cells).countWritten a.die cells.length
      let s := cards.foldl (fun s c => s.setCard c fun k => if k.state = .allocated then { k with state := .filling } else k) s
      let (rest, s) := s.raises t
      s.goOn a rest

/-- Write the next line of an APPEND (R177): a host access, which waits while the leaf's region is in a round (R154). -/
def State.appendLine (s : State) (a : AppendJob) : State :=
  match a.acts with
  | .line l _ _ :: _ =>
    let (w, s) := s.hostBytes (l * 64) 64 (.line a.cmd)
    if w = 0 then s.writeNext a else s.setJob a.cmd fun b => { b with waits := true }
  | _ => s.writeNext a

/-- The line that a job waits to write is served. -/
def State.serveLine (s : State) (n : Nat) : State :=
  match s.work.appends.find? fun a => a.cmd = n && a.waits with
  | some a => s.writeNext a
  | none => s

/-- One line on an attention die, in the work window (R177, R179). -/
def State.appendStep (s : State) (die ns : Nat) : State :=
  if ns < 256 ∨ 3839 < ns then s
  else match s.nextAppend die with
    | none => s
    | some a => (s.tick ns).appendLine a

/-- APPEND (R208). -/
def execAppend (h : Head) (b : AppendBody) (s : State) : Out := .next (s.receive (.append h b) (admitAppend h b))

end Sys2Proof.Machine
end

