-- ==== Sys2Proof/Machine/Raw.lean ====
section
/-! DEFINITION. Memory keys and the raw commands (R227 to R231, R321 to R324, R410, R442), and the accesses of the
annex endpoint (R275). -/

namespace Sys2Proof.Machine

/-! The region check (R323, R324). -/

/-- Bits of RIGHTS (Table 12-4). -/
def rightRead : Nat := 0
def rightWrite : Nat := 1
def rightAtomic : Nat := 2

/-- The key index and the offset in its region that a KEY and OFFSET name: through the process space on a
COMPAT queue pair (R324). -/
def State.keyIndex (s : State) (compat : Bool) (tenant key off len : Nat) : Option (Nat × Nat × Nat) :=
  if compat then
    if 4096 ≤ key then none
    else s.xport.keys.findSome? fun p => match p.2.process with
      | some (n, base) =>
        if n = key ∧ p.2.tenant = tenant ∧ (p.2.state = .valid ∨ p.2.state = .revoking)
          ∧ base ≤ off ∧ off + len ≤ base + p.2.length
        then some (p.1, p.2.generation, off - base) else none
      | none => none
  else some (key / 4096, key % 4096, off)

/-- A key is Revoking from the first nanosecond of the row after that in which its revocation was admitted (R325). -/
def Key.isRevoking (k : Key) (row : Nat) : Bool :=
  k.state = .revoking || (k.state = .valid && match k.revokeDue with | some r => r < row | none => false)

/-- Steps 1 to 4 of R323: the key's index and entry and the local offset of the access, or the status. -/
def State.keyCheck (s : State) (compat : Bool) (tenant key right off len : Nat) : Except Status (Nat × Key × Nat) :=
  match s.keyIndex compat tenant key off len with
  | none => .error .keyInvalid
  | some (i, gen, off) => match Tbl.get s.xport.keys i with
    | none => .error .keyInvalid
    | some k =>
      if (k.state ≠ .valid ∧ k.state ≠ .revoking) ∨ k.generation ≠ gen then .error .keyInvalid
      else if k.tenant ≠ tenant ∧ tenant ≠ 0 then .error .keyInvalid
      else if k.isRevoking s.row then .error .revoked
      else if !k.rights.testBit right ∨ k.length < off + len then .error .keyInvalid
      else .ok (i, k, k.base + off)

/-! Which leaf bytes lie in (R61, R62, R268). -/

/-- Two byte ranges meet. -/
def meets (a n b m : Nat) : Bool := a < b + m && b < a + n && n ≠ 0 && m ≠ 0

/-- First local offset of the annex window (R268). -/
def annexBase : Nat := 0x080000000000

/-- First local offset after the annex window. -/
def annexEnd : Nat := annexBase + 8128 * 2 ^ 30

/-- Bytes [a, a+n) meet a leaf granule, or the scale slot, of this leaf. -/
def State.cardMeets (s : State) (number : Nat) (c : Card) (a n : Nat) : Bool :=
  match c.loc with
  | .stack g => ((runOf g (leafGranules c.format c.d)).any fun x => meets a n (x * 16384) 16384) ||
      match c.scale with
      | some sc => meets a n (scaleAddr sc c.d 0) (16 * c.d)
      | none => false
  | .annex _ _ => match Tbl.get s.mover.copies number with
      | some k => meets a n (annexBase + k.first * 16384) (k.run * 16384)
      | none => false
  | _ => false

/-- A leaf of a sealed tenant, which tenant 0 may not reach (R379). -/
def State.sealedFrom (s : State) (tenant : Nat) (c : Card) : Bool :=
  tenant = 0 && (s.tenantSealed c.owner || s.tenantSealed c.origin)

/-- A leaf lets a tenant access its bytes (R229). -/
def Card.lets (c : Card) (tenant : Nat) (reads : Bool) : Bool :=
  if reads then c.owner = tenant || c.origin = tenant || c.origin = 0xFFF || (c.isShared && c.openSet)
  else c.owner = tenant && !c.isShared && match c.state with | .moving _ => false | _ => true

/-- Bytes lie in an ALLOC region of a tenant (R321). -/
def State.inAlloc (s : State) (tenant a n : Nat) : Bool :=
  s.xport.keys.any fun p => !p.2.span && p.2.tenant = tenant && (p.2.state = .valid || p.2.state = .revoking)
    && p.2.base ≤ a && a + n ≤ p.2.base + p.2.length

/-- Step 5 of R323: R229 on every leaf the bytes meet; no key and no leaf of a sealed tenant to tenant 0 (R379); and through a SPAN region of a tenant other than 0, only
bytes of leaves or of its own ALLOC regions. Leaves and regions begin and end on multiples of 512 bytes. -/
def State.accessOk (s : State) (k : Key) (tenant : Nat) (reads : Bool) (a n : Nat) : Bool :=
  (s.cat.cards.all fun p => !s.cardMeets p.1 p.2 a n || (p.2.lets tenant reads && !s.sealedFrom tenant p.2)) &&
    !(tenant = 0 && s.tenantSealed k.tenant) &&
    (!k.span || tenant = 0 || (List.range ((a + n - 1) / 512 + 1 - a / 512)).all fun i =>
      let x := (a / 512 + i) * 512
      (s.cat.cards.any fun p => s.cardMeets p.1 p.2 x 512) || s.inAlloc tenant x 512)

/-- R323 as a check of R196. -/
def State.keyFail (s : State) (h : Head) (c : Conn) (key right off len : Nat) (reads : Bool) : Except Outcome (Nat × Nat) :=
  let tenant := actingTenant c h
  match s.keyCheck c.compat tenant key right off len with
  | .error e => .error (Outcome.bare h e 0)
  | .ok (i, k, a) => if s.accessOk k tenant reads a len then .ok (i, a) else .error (Outcome.bare h .deniedSecure 0)

/-! Reading and writing bytes. -/

/-- A byte of a leaf's granules or scale slot stands for a position at or above VALID_COUNT (R66). -/
def Card.undefinedAt (c : Card) (a : Nat) : Bool :=
  match c.loc with
  | .stack g =>
    let half := 32 * c.d * fmtBits c.format
    ((List.range (leafGranules c.format c.d)).any fun k =>
      a / 16384 = g + 12 * k &&
        (let x := k * 16384 + a % 16384
         decide (x < 2 * half) && decide (c.valid ≤ x % half / vecBytes c.format c.d))) ||
    match c.scale with
    | some sc => meets a 1 (scaleAddr sc c.d 0) (16 * c.d) &&
        decide (c.valid ≤ (a - scaleAddr sc c.d 0) % (8 * c.d) / (c.d / 32))
    | none => false
  | _ => false

/-- A byte of the stacks as a raw command reads it: free where its content is not defined (R66), and in the stack
reserve, whose tables are the node's own. -/
def State.readByte (s : State) (a : Nat) : Byte :=
  if a < stackBytes then
    if !granIsLeaf (a / 16384) || s.cat.cards.any fun p => p.2.undefinedAt a then Config.freeByte s.fresh a
    else Mem.get s.mem a
  else
    if s.cat.cards.any fun p => s.cardMeets p.1 p.2 a 1 then Config.freeByte s.fresh a
    else match Tbl.get s.mover.bytes a with
      | some b => b
      | none => Config.freeByte s.fresh a

/-- Bytes as a raw command reads them. Bytes of the annex are those a raw WRITE put there; a leaf's run holds
ciphertext, and what a pool device holds before any write is not stated: both are free. -/
def State.readBytes (s : State) (a n : Nat) : List Byte := (List.range n).map fun i => s.readByte (a + i)

/-- The annex granules of bytes of the window. -/
def annexGranules (a n : Nat) : List Nat :=
  (List.range ((a - annexBase + n - 1) / 16384 + 1 - (a - annexBase) / 16384)).map fun i => (a - annexBase) / 16384 + i

/-- A read of an annex granule returns poison: its device says so, or is fenced, which is to have failed (R276). -/
def State.granulePoison (s : State) (g : Nat) : Bool :=
  s.mover.poisoned.contains g || (s.fld rPoolStatusFenced).testBit (g % s.mover.devices)

/-- A read of bytes meets poison (R276, R277, R387): in a line of the stacks, or in a granule of the annex. -/
def State.readsPoison (s : State) (a n : Nat) : Bool :=
  if a < stackBytes then s.poisoned a n else (annexGranules a n).any s.granulePoison

/-- A read of a pool device returned poison: it is counted in POOL_EVENTS and the device's gauge, and kept for the limit of
R276. -/
def State.poisonRead (s : State) (dev : Nat) : State :=
  ({ s with mover := { s.mover with
    poisonRows := Tbl.set s.mover.poisonRows dev
      (s.row :: ((Tbl.get s.mover.poisonRows dev).getD []).filter fun r => s.row < r + 4096) } }.count
    rPoolEventsPoisonReads 1).gauge 5 dev 256

/-- The pool device whose poison a raw read of the annex meets first. -/
def State.poisonDevice (s : State) (a n : Nat) : Option Nat :=
  if a < stackBytes then none
  else ((annexGranules a n).find? s.granulePoison).map (· % s.mover.devices)

/-- A raw read met poison: where it read the annex, the device is charged. -/
def State.chargePoison (s : State) (a n : Nat) : State :=
  match s.poisonDevice a n with
  | some k => s.poisonRead k
  | none => s

/-- Write bytes at a local offset; whole lines lose their poison (R442). In the annex, a leaf whose run is written
no longer decrypts to what was stored, and granules written whole return no poison. -/
def State.putBytes (s : State) (a : Nat) (bs : List Byte) : State :=
  let n := bs.length
  if a < stackBytes then
    { s with
      mem := Mem.write s.mem a bs
      poison := s.poison.filter fun l => !(a ≤ l * 64 && l * 64 + 64 ≤ a + n) }
  else
    { s with mover := { s.mover with
      bytes := (List.range n).foldl (fun m i => Tbl.set m (a + i) (bs.getD i 0)) s.mover.bytes
      poisoned := s.mover.poisoned.filter fun g => !(a ≤ annexBase + g * 16384 && annexBase + (g + 1) * 16384 ≤ a + n)
      copies := Tbl.mapVals s.mover.copies fun _ k =>
        { k with touched := k.touched || meets a n (annexBase + k.first * 16384) (k.run * 16384) } } }

/-- A partly covered line at either end of a write is poisoned (R442). -/
def State.edgePoison (s : State) (a n : Nat) : Bool :=
  a < stackBytes && s.poison.any fun l =>
    (l = lineOf a || l = lineOf (a + n - 1)) && !(a ≤ l * 64 && l * 64 + 64 ≤ a + n)

/-- The FP32 elements of bytes. -/
def floats (bs : List Byte) (n : Nat) : List F32 :=
  (List.range n).map fun i => BitVec.ofNat 32 (num bs (4 * i) 4)

/-! The raw commands. -/

/-- The right an opcode needs. -/
def rawRight (op : Nat) : Nat := if op = opRead then rightRead else if op = opWrite then rightWrite else rightAtomic

/-- The address of a raw command is not one it may act on (R230, R410): READ and WRITE act on the stacks and the
annex window, the others on stack offsets, aligned. -/
def rawAddressFail (op a n : Nat) : Bool :=
  let stack := a + n ≤ stackBytes
  let annex := annexBase ≤ a && a + n ≤ annexEnd
  if op = opRead ∨ op = opWrite then !(stack || annex)
  else !stack || a % (if op = opVecAdd then 4 else 8) ≠ 0

/-- The effect of an admitted raw command on local offset a: its outcome and the state (R227, R230, R231, R442). -/
def State.rawEffect (s : State) (op : Nat) (h : Head) (b : RawBody) (a : Nat) : Outcome × State :=
  let n := b.bytes op
  let poison := Outcome.poison h 0x1
  if op = opRead then
    if s.readsPoison a n then (poison, s.chargePoison a n)
    else ({ Outcome.good h (.data (s.readBytes a n)) with status := .ok }, { s with fresh := s.fresh + 1 })
  else if op = opWrite then
    if s.edgePoison a n then (poison, s) else (Outcome.good h .none, s.putBytes a (slice b.data 0 n))
  else if s.poisoned a n then (poison, s)
  else if op = opVecAdd then
    let out := List.zipWith fadd (floats (s.readBytes a n) b.length) (floats b.data b.length)
    if out.all ffinite then
      (Outcome.good h .none, { s.putBytes a (out.flatMap fun x => leBytes 4 x.toNat) with fresh := s.fresh + 1 })
    else (Outcome.poison h 0x4, { s with fresh := s.fresh + 1 })
  else
    let old := leNat (s.readBytes a 8)
    let new := if op = opFetchAdd then (old + b.op0) % 2 ^ 64 else if old = b.op0 then b.op1 else old
    (Outcome.good h (.data (leBytes 8 old)), { s.putBytes a (leBytes 8 new) with fresh := s.fresh + 1 })

/-- The checks of a raw command in the order of R196: its key's index and the local offset, or the outcome. DESIGN CHOICE (log
entry 156): alignment is tested on the local offset, and with the address space after the key, since both depend on it. -/
def rawCheck (op : Nat) (s : State) (c : Conn) (h : Head) (b : RawBody) : Except Outcome (Nat × Nat) :=
  match firstSome [
      bodyFail h (rawFixed op),
      failIf (!b.lengthOk op) (Outcome.shape h 0x5),
      sizeFail h (b.size op),
      failIf (s.relayRefused c h) (Outcome.bare h .deniedSecure 0)] with
  | some o => .error o
  | none => match s.keyFail h c b.key (rawRight op) b.offset (b.bytes op) (op = opRead) with
    | .error o => .error o
    | .ok (i, a) => match firstSome [
        failIf (rawAddressFail op a (b.bytes op)) (Outcome.shape h 0x7),
        s.budgetFail h none s.row 0 0,
        failIf (op = opVecAdd && !(floats b.data b.length).all ffinite) (Outcome.poison h 0x3)] with
      | some o => .error o
      | none => .ok (i, a)

/-! Raw operations in order of admission (R20, R157, R200). -/

/-- Two raw operations touch the same bytes. -/
def RawJob.overlaps (a b : RawJob) : Bool := meets a.addr a.len b.addr b.len

/-- The leaves that raw bytes meet. -/
def State.leavesMet (s : State) (a n : Nat) : List Nat :=
  (s.cat.cards.filter fun p => s.cardMeets p.1 p.2 a n).map Prod.fst

/-- Apply a raw operation: a command completes with its outcome, an endpoint access gives its data. -/
def State.applyRaw (s : State) (j : RawJob) : State :=
  match j.what with
  | .command op h b =>
    let s := if op = opRead then s.useCards (s.leavesMet j.addr j.len) else s
    let (o, s) := s.rawEffect op h b j.addr
    s.complete j.id o
  | .endpoint x => match x.write with
    | none =>
      if s.readsPoison j.addr x.length then (s.chargePoison j.addr x.length).sendAside (.endpointData [] true)
      else { s.sendAside (.endpointData (s.readBytes j.addr x.length) false) with fresh := s.fresh + 1 }
    | some bs => if s.edgePoison j.addr x.length then s else s.putBytes j.addr (slice bs 0 x.length)

/-- Apply, in order of admission, every raw operation that waits for no host access and for no turn, and that no earlier one
on the same bytes waits before (R200). -/
def State.runRaws (s : State) : List RawJob → State
  | [] => s
  | j :: js =>
    let before := s.work.raws.takeWhile fun (i : RawJob) => i.id ≠ j.id
    if j.left ≠ 0 ∨ s.work.l8.contains j.id ∨ before.any j.overlaps then s.runRaws js
    else ({ s with work := { s.work with raws := s.work.raws.filter fun (i : RawJob) => i.id ≠ j.id } }.applyRaw j).runRaws js

/-- Start a raw operation: its host accesses to leaf granules wait where a region is in a round (R154). -/
def State.startRaw (s : State) (id : Nat) : State :=
  match s.work.raws.find? fun j => j.id = id with
  | none => s
  | some j =>
    let s := { s with work := { s.work with l8 := s.work.l8.filter (· ≠ id) } }
    let (w, s) := if j.addr < stackBytes then s.hostBytes j.addr j.len (.raw id) else (0, s)
    let s := { s with work := { s.work with raws := s.work.raws.map fun (i : RawJob) => if i.id = id then { i with left := w } else i } }
    s.runRaws s.work.raws

/-- One host access of a raw operation is served. -/
def State.serveRaw (s : State) (id : Nat) : State :=
  let s := { s with work := { s.work with raws := s.work.raws.map fun (i : RawJob) =>
    if i.id = id then { i with left := i.left - 1 } else i } }
  s.runRaws s.work.raws

/-- Enter a raw operation. -/
def State.addRaw (s : State) (a len : Nat) (what : RawWhat) : Nat × State :=
  (s.work.next, { s with work := { s.work with
    raws := s.work.raws ++ [⟨s.work.next, a, len, 0, what⟩] } })

/-- A raw command after receipt: admitted, it is in flight under its key (R327) until it has been applied, which is at once
where no other command waits before it and none of its bytes lies under a round. Meeting a Revoking key puts its queue pair
into Error (R326). -/
def admitRaw (op : Nat) (h : Head) (b : RawBody) (r : Nat) (s : State) : State :=
  match s.sender h with
  | none => s
  | some (k, c) => match rawCheck op s c h b with
    | .error o =>
      let s := s.reply op h o
      if o.status = .revoked then s.qpError k 2 else s
    | .ok (i, a) =>
      let (n, s) := s.addRaw a (b.bytes op) (.command op h b)
      let s := s.enter { Cmd.start op h (actingTenant c h) none 0 r noSeq with key := some i }
      let s := { s with xport := { s.xport with
        keys := Tbl.modify s.xport.keys i fun k => { k with inFlight := k.inFlight + 1 } } }
      if s.work.l8 = [] then s.startRaw n else { s with work := { s.work with l8 := s.work.l8 ++ [n] } }

/-- READ (R227). -/
def execReadMem (h : Head) (b : RawBody) (s : State) : Out := .next (s.receive (.readMem h b) (admitRaw opRead h b))

/-- WRITE (R227, R442). -/
def execWriteMem (h : Head) (b : RawBody) (s : State) : Out := .next (s.receive (.writeMem h b) (admitRaw opWrite h b))

/-- FETCH_ADD (R230). -/
def execFetchAdd (h : Head) (b : RawBody) (s : State) : Out := .next (s.receive (.fetchAdd h b) (admitRaw opFetchAdd h b))

/-- CMP_SWAP (R230). -/
def execCmpSwap (h : Head) (b : RawBody) (s : State) : Out := .next (s.receive (.cmpSwap h b) (admitRaw opCmpSwap h b))

/-- VEC_ADD (R231). -/
def execVecAdd (h : Head) (b : RawBody) (s : State) : Out := .next (s.receive (.vecAdd h b) (admitRaw opVecAdd h b))

/-! The endpoint on A0 (R275). -/

/-- The region check of an endpoint access, by the tenant of the key marked ENDPOINT (R321): the local offset it reaches. -/
def State.endpointTarget (s : State) (x : EndpointAccess) : Option Nat :=
  if s.fld (rAnnexCfgHdmGib 0) * 2 ^ 30 < x.offset + x.length then none
  else match s.xport.keys.find? fun p => p.2.rights.testBit 3 && (p.2.state = .valid || p.2.state = .revoking) with
  | none => none
  | some (i, k) =>
    let reads := x.write.isNone
    match s.keyCheck false k.tenant (i * 4096 + k.generation) (if reads then rightRead else rightWrite) x.offset x.length with
    | .error _ => none
    | .ok (_, k, a) =>
      if s.accessOk k k.tenant reads a x.length ∧ !rawAddressFail opRead a x.length then some a else none

/-- ENDPOINT_ACCESS: a read that fails, or arrives before Serving, returns poison; a write that fails is dropped and
counted. -/
def State.endpoint (s : State) (x : EndpointAccess) : State :=
  if !s.mover.endpointUp then s
  else
    let target := match s.node.state with
      | .serving | .draining => s.endpointTarget x
      | _ => none
    match x.write, target with
    | none, none => (s.sendAside (.endpointData [] true)).count rPoolEventsEndpointDenied 1
    | some _, none => s.count rPoolEventsEndpointDenied 1
    | _, some a =>
      let (n, s) := s.addRaw a x.length (.endpoint x)
      { s with work := { s.work with next := n + 1 } }.startRaw n

/-- ENDPOINT_ACCESS (R275). -/
def execEndpointAccess (x : EndpointAccess) (s : State) : Out := .next (s.endpoint x)

end Sys2Proof.Machine
end

