-- ==== Sys2Proof/Machine/Attend.lean ====
section
/-! DEFINITION. ATTEND, ATTEND_MULTI and GRAD: their admission, the block skip of R108, the walk of R75 and the
prefetch of R256 (R135, R180, R184, R210 to R215). -/

namespace Sys2Proof.Machine

/-! Block skip (R108). -/

/-- Some position of block b passes the causal, window and sink tests for query position π. -/
def seesBlock (m : Model) (pi b : Nat) : Bool :=
  let lo := b * 256
  let hi := if m.maskMode.testBit 0 then min (lo + 255) pi else lo + 255
  lo ≤ hi && (!m.maskMode.testBit 1 || max lo (pi + 1 - m.window) ≤ min hi (pi + m.window - 1)
    || (m.maskMode.testBit 2 && lo < m.sinks))

/-- A block is not skipped for a command's positions. -/
def blockSeen (m : Model) (ps : List Nat) (b : Nat) : Bool := ps.any fun p => seesBlock m p b

/-- A block lies in a command's range (R210). -/
def AttnRange (b : AttnBody) (k : Nat) : Bool := b.firstBlock ≤ k && k < b.firstBlock + b.blockCount

/-- The blocks of a command's range that the head holds and that are not skipped, in order. -/
def State.seenBlocks (s : State) (m : Model) (slot : Nat) (b : AttnBody) : List Nat :=
  (s.blocksOf slot b.layer b.head 0).filter fun k => AttnRange b k && blockSeen m b.positions k

/-- The spans of 16 blocks that the walk looks up: those of the range not wholly skipped. -/
def seenSpans (m : Model) (b : AttnBody) : List Nat :=
  ((List.range ((b.firstBlock + b.blockCount - 1) / 16 + 1 - b.firstBlock / 16)).map (· + b.firstBlock / 16)).filter fun k =>
    (List.range 16).any fun i => AttnRange b (16 * k + i) && blockSeen m b.positions (16 * k + i)

/-! The program (R135). -/

/-- The program a command runs: its slot's, or its model's default (R135). -/
def State.programOf (s : State) (g : Option (Nat × SlotRec)) (model : Nat) : Nat :=
  match g with
  | some (_, r) => r.program
  | none => match Tbl.get s.node.models model with
    | some m => m.defaultProgram
    | none => 0

/-- The cost entry of a format and leaf D. -/
def Program.cost (p : Program) (fmt d : Nat) : Option Cost := p.costs.find? fun c => c.format = fmt && c.d = d

/-- R135: the program against the command. -/
def programFail (h : Head) (p : Program) (m : Model) (q : Seq) (qheads : Nat) : Option Outcome :=
  firstSome [
    failIf (!p.costs.any fun c => c.format = q.format) (Outcome.bare h .formatUnsupported 0),
    failIf (p.cost q.format q.leafD).isNone (Outcome.shape h 0x4),
    failIf (!p.modes.testBit m.maskMode) (Outcome.shape h 0x4),
    failIf (p.qheadsMax < qheads) (Outcome.shape h 0x2),
    failIf (p.split ≠ q.split) (Outcome.shape h 0x4)]

/-! The checks of R196. -/

/-- Check 5: the fixed fields and the counts. -/
def attnCounts (op : Nat) (h : Head) (b : AttnBody) : Option Outcome :=
  let max := if op = opAttendMulti then 1024 else 256
  firstSome [
    bodyFail h (attnFixed (op = opGrad)),
    failIf (!(1 ≤ b.qheads && b.qheads ≤ 16)) (Outcome.shape h 0x2),
    failIf (op = opAttend && b.qcount ≠ 1) (Outcome.shape h 0x6),
    failIf (op ≠ opAttend && !(1 ≤ b.qcount && b.qcount ≤ max)) (Outcome.shape h 0x5),
    failIf (!(1 ≤ b.blockCount && b.blockCount ≤ 65536)) (Outcome.shape h 0x5),
    failIf (65536 < b.firstBlock + b.blockCount) (Outcome.shape h 0x7)]

/-- Check 6 for GRAD: its key, without the range, which depends on the leaves (R184); with the local offset that DEST_OFFSET
stands for. -/
def State.gradKey (s : State) (c : Conn) (h : Head) (b : AttnBody) : Except Outcome (Option (Nat × Key × Nat)) :=
  match s.keyCheck c.compat (actingTenant c h) b.destKey rightAtomic (if c.compat then b.destOffset else 0) 0 with
  | .error e => .error (Outcome.bare h e 0)
  | .ok (i, k, a) => .ok (some (i, k, if c.compat then a else a + b.destOffset))

/-- First byte of a position's sums within the region (R184), as an integer. -/
def gradOffset (b : AttnBody) (d pos : Nat) : Int :=
  (b.destOffset : Int) + ((pos : Int) - b.destBase) * 2 * d * 4

/-- Every position of every non-skipped leaf lies in the region, and R229 lets it be added to (R184). -/
def State.gradRange (s : State) (c : Conn) (h : Head) (b : AttnBody) (x : Nat × Key × Nat) (d : Nat) (blocks : List Nat) :
    Option Outcome :=
  let base : Int := (x.2.2 : Int) - b.destOffset
  blocks.foldl (fun o k => match o with
    | some o => some o
    | none =>
      let lo := gradOffset b d (k * 256)
      let off := base + lo - x.2.1.base
      if off < 0 ∨ (x.2.1.length : Int) < off + 2048 * d then some (Outcome.bare h .keyInvalid 0)
      else
        let a := (base + lo).toNat
        if !s.accessOk x.2.1 (actingTenant c h) false a (2048 * d) then some (Outcome.bare h .deniedSecure 0)
        else if rawAddressFail opVecAdd a (2048 * d) then some (Outcome.shape h 0x7)
        else none) none

/-- What admission finds out of an attention command. -/
structure AttnPlan where
  program : Nat
  blocks : List Nat
  spans : List Nat
  leaves : Nat
  key : Option (Nat × Key × Nat)
  deriving DecidableEq, Repr

/-- Checks 8 to 11. -/
def attnLast (s : State) (c : Conn) (op : Nat) (h : Head) (b : AttnBody) (g : Option (Nat × SlotRec)) (r : Nat)
    (key : Option (Nat × Key × Nat)) (m : Model) (p : Program) (plan : AttnPlan) : Option Outcome :=
  let q := s.seqAt (handleSlot h.handle)
  let grad : Bool := op = opGrad
  firstSome [
    failIf (!(1 ≤ b.qFormat && b.qFormat ≤ 3) || (grad && !(1 ≤ b.doFormat && b.doFormat ≤ 2)))
      (Outcome.bare h .formatUnsupported 0),
    programFail h p m q b.qheads,
    sizeFail h (b.size grad q.d),
    key.bind fun x => s.gradRange c h b x q.d plan.blocks,
    s.budgetFail h g r plan.leaves (plan.spans.length * q.halves),
    failIf (grad && g.isSome && 33554432 < s.work.gradBytes + 2048 * q.d * plan.blocks.length) (Outcome.noRes h 0x7),
    failIf (!b.payloadFinite grad q.d || (grad && !ffinite b.gradFactor)) (Outcome.poison h 0x3)]

/-- Every check of an attention command in the order of R196: its plan, or the first that fails. -/
def attnCheck (s : State) (c : Conn) (op : Nat) (h : Head) (b : AttnBody) (g : Option (Nat × SlotRec)) (r : Nat) :
    Except Outcome AttnPlan :=
  let slot := handleSlot h.handle
  let q := s.seqAt slot
  match firstSome [attnCounts op h b, failIf (s.relayRefused c h) (Outcome.bare h .deniedSecure 0)] with
  | some o => .error o
  | none => match (if op = opGrad then s.gradKey c h b else .ok none) with
    | .error o => .error o
    | .ok key => match firstSome [
        s.seqFail op (actingTenant c h) h,
        failIf (q.layers ≤ b.layer || q.kvHeads ≤ b.head) (Outcome.shape h 0x1)] with
      | some o => .error o
      | none =>
        let program := s.programOf g q.model
        match Tbl.get s.node.models q.model, Tbl.get s.node.library program with
        | some m, some p =>
          let blocks := s.seenBlocks m slot b
          let each := if op = opAttend then 1 else b.qcount
          let plan : AttnPlan := { program := program, blocks := blocks, spans := seenSpans m b,
                                   leaves := blocks.length * q.halves * each, key := key }
          match attnLast s c op h b g r key m p plan with
          | some o => .error o
          | none => .ok plan
        | none, _ => .error (Outcome.noRes h 0xB)
        | _, none => .error (Outcome.bare h .formatUnsupported 0)

/-! The walk (R75). -/

/-- What a leaf gives the walk (R75 steps 4 and 5). -/
inductive Found where
  | here | lost | away | lent (lender : Nat)
  deriving DecidableEq, Repr

/-- Resolve one leaf (R64, R75, R80). -/
def State.found (s : State) (c : Card) : Found :=
  if c.state = .lost ∨ c.loc.invalid s.nodeId s.mover.size then .lost
  else match c.loc with
    | .stack _ => .here
    | .annex _ _ => .away
    | .loan l _ => .lent l
    | .raw _ => .lost

/-- A leaf as the walk takes it: VALID_COUNT with the pending positions of R178 and without those of L8 APPENDs that go on
(R179), of half 0 (Table 5-2). -/
def State.visitOf (s : State) (block : Nat) (cards : List Nat) : Visit :=
  let cs := cards.filterMap s.card
  { block := block, cards := cards,
    granules := cs.map fun c => match c.loc with | .stack g => g | _ => 0,
    scales := cs.map fun c => c.scale,
    valid := match cards.head?, cs.head? with
      | some n, some c => s.shownValid c (s.pendingValid n c.valid)
      | _, _ => 0,
    lender := cs.findSome? fun c => match c.loc with | .loan l _ => some l | _ => none,
    appendWait := cards.any s.appendWrites }

/-- The visits of a walk over blocks. -/
def State.visits (s : State) (slot layer head : Nat) (blocks : List Nat) : List Visit :=
  blocks.filterMap fun k => (s.cardsAt slot layer head k).map fun cs => s.visitOf k cs

/-- The leaves of visits for which a test holds, in order of block and half. -/
def State.leavesWhere (s : State) (layer head : Nat) (vs : List Visit) (p : Found → Bool) : List LeafName :=
  vs.flatMap fun v => ((List.range v.cards.length).zip v.cards).filterMap fun x =>
    match s.card x.2 with
    | some c => if p (s.found c) then some (layer, head, x.1, v.block) else none
    | none => if p .lost then some (layer, head, x.1, v.block) else none

/-- The walk's status, ranked by R50; none when every leaf is served. `refuseLoan` holds for L2 and for GRAD. -/
def State.walkStatus (s : State) (h : Head) (layer head : Nat) (vs : List Visit) (refuseLoan : Bool) : Option Outcome :=
  let lost := s.leavesWhere layer head vs (· = .lost)
  let away := s.leavesWhere layer head vs (· = .away)
  let lent := s.leavesWhere layer head vs fun f => match f with | .lent _ => true | _ => false
  if lost ≠ [] then some (Outcome.leaves h .cacheLost lost)
  else if away ≠ [] then some (Outcome.leaves h .notResident away)
  else if lent ≠ [] ∧ refuseLoan then some (Outcome.tooLate h .cls)
  else none

/-- Look every span of a command up; some of them may miss (R76). -/
def State.lookUp (s : State) (slot layer head : Nat) (spans : List Nat) : Bool × State :=
  let q := s.seqAt slot
  s.lookUpTags (s.walkerOf slot)
    (spans.flatMap fun k => (List.range q.halves).map fun f => clbTag slot q.generation layer head f k)

/-- What the status of a walk leaves behind: promotions after NOT_RESIDENT (R25), the event of R47. -/
def State.walkEffect (s : State) (h : Head) (vs : List Visit) (o : Outcome) : State :=
  match o.status with
  | .notResident => vs.foldl (fun s v =>
      if v.cards.any fun n => match s.card n with | some c => s.found c = .away | none => false
      then s.promote v.cards else s) s
  | .late => s.postTo h.qp h.srcNode { s.event 0x0004 0x050 0 with handle := h.handle }
  | _ => s

/-! Prefetch (R256). -/

/-- PREFETCH_DEPTH of a model slot. -/
def State.prefetchDepth (s : State) (model : Nat) : Nat :=
  s.fld ⟨0x060, 0x030 + 8 * (model / 16), 4 * (model % 16) + 3, 4 * (model % 16)⟩

/-- Queue the prefetch of one block's leaf: it lies in the annex, has no move, and the queue has room. -/
def State.prefetchLeaf (s : State) (cards : List Nat) : State :=
  let away := cards.any fun n => match s.card n with
    | some c => c.state ≠ .lost && match c.loc with | .annex _ _ => true | _ => false
    | none => false
  if !away ∨ cards.any s.hasMove ∨ 65536 ≤ s.queuedOf .prefetch then s
  else s.queueMove (Move.request cards .prefetch .stack s.row)

/-- Queue prefetch for layers L+1 to L+d, modulo LAYERS (the field holds LAYERS less one; the last layer is followed
by layer 0), in the command's blocks and every KV head. -/
def State.prefetch (s : State) (slot : Nat) (b : AttnBody) : State :=
  let q := s.seqAt slot
  let layers := (((List.range (s.prefetchDepth q.model)).map fun i => (b.layer + 1 + i) % q.layers).dedup)
  layers.foldl (fun s l => (List.range q.kvHeads).foldl (fun s hd =>
    ((s.blocksOf slot l hd 0).filter (AttnRange b)).foldl (fun s k =>
      match s.cardsAt slot l hd k with
      | some cs => s.prefetchLeaf cs
      | none => s) s) s) s

/-! Admission. -/

/-- The maximal aligned group (level, group) around a block on loan that holds no block but those on loan there: every other
block of the group is a hole (R46, R261). `held` are the blocks that the head holds in the command's range, skipped ones too,
with their loans. DESIGN CHOICE (log entry 157): the group never reaches past the command's range, even over holes, and
leaves of one lender under different loan handles, which no one command can name, form different groups. -/
def loanGroup (b : AttnBody) (held : List (Nat × Option (Nat × Nat))) (loan : Nat × Nat) (block : Nat) : Nat → Nat × Nat
  | 0 => (0, block)
  | k + 1 =>
    let lo := block / 2 ^ (k + 1) * 2 ^ (k + 1)
    let hi := lo + 2 ^ (k + 1)
    if b.firstBlock ≤ lo ∧ hi ≤ b.firstBlock + b.blockCount
      ∧ held.all fun x => x.1 < lo || hi ≤ x.1 || x.2 = some loan
    then (k + 1, block / 2 ^ (k + 1))
    else loanGroup b held loan block k

/-- The blocks of a command's range that its head holds, with their loans. -/
def State.heldLoans (s : State) (slot : Nat) (b : AttnBody) : List (Nat × Option (Nat × Nat)) :=
  ((s.blocksOf slot b.layer b.head 0).filter (AttnRange b)).map fun k =>
    (k, (s.cardsAt slot b.layer b.head k).bind s.loanOf)

/-- The sub-commands of a command whose visits include loaned leaves (R261). -/
def State.loanGroups (s : State) (slot : Nat) (b : AttnBody) (vs : List Visit) : List SubCmd :=
  let held := s.heldLoans slot b
  (vs.filterMap fun v => (s.loanOf v.cards).map fun l =>
    let g := loanGroup b held l v.block 16
    ({ lender := l.1, handle := l.2, level := g.1, group := g.2, isSent := false, status := none, report := [] } : SubCmd)).dedup

/-- The walker of a sequence slot has failed in this row: its walks stand still until the next (R390). -/
def State.walkerStopped (s : State) (slot : Nat) : Bool := s.cat.walkerDown.contains (slot % 16)

/-- The walk-time sample of a monitor (Table 16-6); the time itself is the node's own, a free value (log entry 2). -/
def State.sampleWalk (s : State) (walker : Nat) : State :=
  let (v, s) := s.free
  s.sample 0x02 [walker, 0xFFFF] v

/-- Enter an attention command whose walk serves every leaf. A scheduled one queues prefetch; an L8 one joins the L8
queue. -/
def State.enterAttn (s : State) (op : Nat) (c : Conn) (h : Head) (b : AttnBody) (g : Option (Nat × SlotRec)) (r : Nat)
    (plan : AttnPlan) (vs : List Visit) (missed : Bool) : State :=
  let slot := handleSlot h.handle
  let q := s.seqAt slot
  let n := s.work.next
  let cmd := { Cmd.start op h (actingTenant c h) g plan.program r slot with
    stage := if missed then .walking else .walked
    attn := some b
    visits := vs
    lookups := plan.spans.length * q.halves
    key := plan.key.map Prod.fst
    work := (vs.filter fun v => v.lender.isNone).length *
      (if op = opGrad then ceilDiv (b.qcount * b.qheads) 64 else b.qcount)
    subs := s.loanGroups slot b vs }
  let s := s.enter cmd
  let s := if missed then s else s.sampleWalk (s.walkerOf slot)
  let s := match plan.key with
    | some (i, _) => { s with xport := { s.xport with keys := Tbl.modify s.xport.keys i fun k => { k with inFlight := k.inFlight + 1 } } }
    | none => s
  let s := (s.setSeq slot { q with lastUse := row48 r }).useCards (vs.flatMap Visit.cards)
  match g with
  | some _ => s.prefetch slot b
  | none => { s with work := { s.work with l8 := s.work.l8 ++ [n] } }

/-- The cache command of an attention opcode. -/
def attnInstr (op : Nat) (h : Head) (b : AttnBody) : Instr :=
  if op = opAttend then .attend h b else if op = opAttendMulti then .attendMulti h b else .grad h b

/-- An attention command after receipt. An L8 one behind a command that waits to change its sequence walks after that (R74).
DESIGN CHOICE (log entry 158): of GRADs, the scheduled ones count towards the row's 32 MiB, those too whose walk then
fails. -/
def admitAttn (op : Nat) (h : Head) (b : AttnBody) (r : Nat) (s : State) : State :=
  match s.sender h with
  | none => s
  | some (k, c) => match s.grant op h c r with
    | .error o => s.reply op h o
    | .ok g => match attnCheck s c op h b g r with
      | .error o =>
        let s := s.reply op h o
        if o.status = .revoked then s.qpError k 2 else s
      | .ok plan =>
        let slot := handleSlot h.handle
        let q := s.seqAt slot
        if g.isNone && s.changeWaits slot then s.defer (attnInstr op h b) op h (actingTenant c h) r slot
        else
        let s := s.charge g r plan.leaves (plan.spans.length * q.halves)
        let s := if op = opGrad ∧ g.isSome
          then { s with work := { s.work with gradBytes := s.work.gradBytes + 2048 * q.d * plan.blocks.length } } else s
        let (missed, s) := s.lookUp slot b.layer b.head plan.spans
        let missed := missed || s.walkerStopped slot
        let vs := s.visits slot b.layer b.head plan.blocks
        match firstSome [failIf q.damaged (damagedOutcome h),
            s.walkStatus h b.layer b.head vs (grantClass g = .l2 || op = opGrad)] with
        | some o =>
          let s := s.walkEffect h vs o
          if g.isSome then (s.prefetch slot b).reply op h o else s.reply op h o
        | none => s.enterAttn op c h b g r plan vs missed

/-- ATTEND (R211). -/
def execAttend (h : Head) (b : AttnBody) (s : State) : Out := .next (s.receive (.attend h b) (admitAttn opAttend h b))

/-- ATTEND_MULTI (R211). -/
def execAttendMulti (h : Head) (b : AttnBody) (s : State) : Out :=
  .next (s.receive (.attendMulti h b) (admitAttn opAttendMulti h b))

/-- GRAD (R215). -/
def execGrad (h : Head) (b : AttnBody) (s : State) : Out := .next (s.receive (.grad h b) (admitAttn opGrad h b))

/-- The walk of a command in flight ends (R76). -/
def State.walkDone (s : State) (n : Nat) : State :=
  match s.cmd n with
  | none => s
  | some c =>
    if c.stage = .walking ∧ !s.walkerStopped c.seqSlot then
      (s.setCmd n fun c => { c with stage := .walked }).sampleWalk (s.walkerOf c.seqSlot)
    else s

/-- WALK_COMPLETE (R76). -/
def execWalkComplete (n : Nat) (s : State) : Out := .next (s.walkDone n)

end Sys2Proof.Machine
end

