-- ==== Sys2Proof/Machine/Merge.lean ====
section
/-! DEFINITION. MERGE (R216 to R218), and the last steps of every command that returns partials (R100, R114 to R116,
R213, R214). -/

namespace Sys2Proof.Machine

/-! Results. -/

/-- LEVEL and GROUP of a range of blocks (R115). -/
def rangeLabel (first count : Nat) : Nat × Nat :=
  match (List.range 17).find? fun k => count = 2 ^ k ∧ first % 2 ^ k = 0 with
  | some k => (k, first / 2 ^ k)
  | none => (0xFF, 0)

/-- O of a partial in BF16 (R116); none on overflow. -/
def partialToBf16 (p : Partial) : Option Partial :=
  (p.o.mapM toBf16).map fun o => { p with oBf16 := true, o := o.map fun x => BitVec.ofNat 32 (x * 2 ^ 16) }

/-- The outcome of a command that returns these partials (R100, R116, R213, R214). -/
def finishPartials (h : Head) (bf16 : Bool) (ps : List Partial) : Outcome :=
  if !ps.all partialFinite then Outcome.poison h 0x4
  else match (if bf16 then ps.mapM partialToBf16 else some ps) with
  | none => Outcome.poison h 0x4
  | some ps => { Outcome.good h (.partials ps) with status := if ps.all fun p => p.empty then .maskedEmpty else .ok }

/-! MERGE. -/

/-- A partial whose LEVEL and GROUP name no node carries LEVEL 0xFF (R115, R217). -/
def partialLabelled (p : Partial) : Partial := if partialNamed p then p else { p with level := 0xFF, group := 0 }

/-- The inputs of head h, in order. -/
def mergeInputs (b : MergeBody) (ps : List Partial) (h : Nat) : List Partial :=
  (List.range b.inputs).map fun i => partialLabelled (ps.getD (i * b.qheads + h) (partialNone b.d 0xFF 0))

/-- Two groups of the tree share no block. -/
def groupsDisjoint (a b : Nat × Nat) : Bool :=
  let k := max a.1 b.1
  a.2 / 2 ^ (k - a.1) ≠ b.2 / 2 ^ (k - b.1)

/-- Pairwise disjoint groups. -/
def allDisjoint : List (Nat × Nat) → Bool
  | [] => true
  | a :: t => t.all (groupsDisjoint a) && allDisjoint t

/-- The groups of the labelled inputs. -/
def labels (ps : List Partial) : List (Nat × Nat) :=
  ps.filterMap fun p => if p.level ≠ 0xFF then some (p.level, p.group) else none

/-- TREE mode's rule on the inputs of a head (R217). -/
def treeInputsOk (ps : List Partial) : Bool := ps.all (fun p => p.empty || p.level ≠ 0xFF) && allDisjoint (labels ps)

/-- The lowest node that covers groups. -/
def coverNode (gs : List (Nat × Nat)) : Nat × Nat :=
  match (List.range 17).find? fun k => gs.all fun g => g.1 ≤ k ∧ gs.all fun g' => g.2 / 2 ^ (k - g.1) = g'.2 / 2 ^ (k - g'.1) with
  | some k => (k, match gs with | g :: _ => g.2 / 2 ^ (k - g.1) | [] => 0)
  | none => (16, 0)

/-- The result of one head (R217). -/
def mergeHead (mode d : Nat) (ps : List Partial) : Partial :=
  if mode = 0 then
    match ps with
    | [] => partialNone d 0xFF 0
    | p :: t => t.foldl (fun acc q =>
        let g := mergeGroup acc q
        mergeTwo acc q g.1 g.2) p
  else match labels ps with
  | [] => partialNone d 0xFF 0
  | gs =>
    let g := coverNode gs
    { mergeTree d (ps.map fun p => (p.level, p.group, p)) with level := g.1, group := g.2, oBf16 := false }

/-- The outcome of a MERGE whose inputs have passed admission. -/
def mergeOutcome (h : Head) (b : MergeBody) : Outcome :=
  match b.partials with
  | none => Outcome.shape h 0x8
  | some ps => finishPartials h h.oBf16 ((List.range b.qheads).map fun i => mergeHead b.mode b.d (mergeInputs b ps i))

/-- The checks of MERGE (R196, R216 to R218). -/
def mergeFail (s : State) (c : Conn) (h : Head) (b : MergeBody) (g : Option (Nat × SlotRec)) (r : Nat) : Option Outcome :=
  firstSome [
    failIf (maxBody < h.bodyLen) (Outcome.shape h 0x5),
    failIf (h.bodyLen < 16 || !b.countsOk || b.payload.length + 16 ≠ h.bodyLen || b.partials.isNone) (Outcome.shape h 0x8),
    failIf (b.mode = 1 && (List.range b.qheads).any fun i => !treeInputsOk (mergeInputs b (b.partials.getD []) i)) (Outcome.shape h 0x8),
    failIf (s.relayRefused c h) (Outcome.bare h .deniedSecure 0),
    s.budgetFail h g r (b.inputs * b.qheads) 0,
    failIf (!(b.partials.getD []).all partialFinite) (Outcome.poison h 0x3)]

/-- MERGE after receipt. Its result is formed by PARTIALS_MERGE, in row n+1 for a scheduled one. -/
def admitMerge (h : Head) (b : MergeBody) (r : Nat) (s : State) : State :=
  match s.sender h with
  | none => s
  | some (_, c) => match s.grant opMerge h c r with
    | .error o => s.reply opMerge h o
    | .ok g => match mergeFail s c h b g r with
      | some o => s.reply opMerge h o
      | none =>
        let n := s.work.next
        let s := s.charge g r (b.inputs * b.qheads) 0
        let s := s.enter { Cmd.start opMerge h (actingTenant c h) g 0 r noSeq with stage := .walked, mergeIn := some b }
        if g.isSome then s else { s with work := { s.work with l8 := s.work.l8 ++ [n] } }

/-- MERGE (R216). -/
def execMerge (h : Head) (b : MergeBody) (s : State) : Out := .next (s.receive (.merge h b) (admitMerge h b))

/-! PARTIALS_MERGE (R48, R114, R117, R183). -/

/-- Rank of a sub-command's failing status (R50, R100). -/
def statusRank (x : Status × Nat) : Nat :=
  match x.1 with
  | .late => if x.2 = 1 ∨ x.2 = 6 then 0 else if x.2 = 3 then 4 else 5
  | .cacheLost => 2 | .notResident => 3
  | .poisoned => if x.2 = 3 then 1 else 6
  | _ => 1

/-- The failing answer of a command's lenders that ranks first. -/
def worstSub (subs : List SubCmd) : Option (Status × Nat) :=
  (subs.filterMap fun u => u.status.bind fun x => if x.1.good then none else some x).foldl (fun (m : Option (Status × Nat)) x =>
    match m with
    | none => some x
    | some y => if statusRank x < statusRank y ∨ (statusRank x = statusRank y ∧ x.2 < y.2) then some x else some y) none

/-- The leaf report over the answers with a status: the lowest block, and all the leaves. -/
def subReport (subs : List SubCmd) (st : Status) : CplBody :=
  let rs := subs.filterMap fun u => match u.status with
    | some (x, _) => if x = st ∧ u.report.length = 5 then some u.report else none
    | none => none
  match rs with
  | [] => .none
  | r :: t =>
    let low := t.foldl (fun (a b : List Nat) => if b.getD 0 0 < a.getD 0 0 then b else a) r
    .report (low.getD 0 0) (low.getD 1 0) (low.getD 2 0) (low.getD 3 0) (rs.foldl (fun n r => n + r.getD 4 0) 0)

/-- The outcome of an attention command all of whose partials are in. -/
def attnOutcome (c : Cmd) (b : AttnBody) (d : Nat) : Outcome :=
  let h := c.head
  let own : Option (Status × Nat) := c.poison.map fun x => (.poisoned, x)
  let bad := match worstSub c.subs, own with
    | some x, some y => if statusRank x < statusRank y then some x else if statusRank y < statusRank x then some y
        else some (x.1, min x.2 y.2)
    | some x, none => some x
    | none, y => y
  match bad with
  | some (st, detail) =>
    { Outcome.bare h st detail with body := if st = .cacheLost ∨ st = .notResident then subReport c.subs st else .none }
  | none =>
    let label := rangeLabel b.firstBlock b.blockCount
    let grad : Bool := c.opcode = opGrad
    finishPartials h (h.oBf16 && !grad) (b.pairs.map fun x =>
      let given := (c.parts.filter fun p => p.pos = x.1 && p.head = x.2).map fun p => (p.level, p.group, p.value)
      { combineTree (if grad then addTwo else mergeTwo) d given with level := label.1, group := label.2 })

/-- A command has been started: it is scheduled, or has left the L8 queue. -/
def State.started (s : State) (n : Nat) : Bool := !s.work.l8.contains n

/-- Every partial a command needs is in (R114): its contexts and, for loaned leaves, its lenders' answers. -/
def State.partsReady (s : State) (n : Nat) (c : Cmd) : Bool :=
  c.result.isNone && c.stage = .walked && c.work = 0 && c.subs.all (fun u => u.status.isSome) && s.started n &&
    (c.cls = .l8 || c.row < s.row) &&
    (c.cls ≠ .l3 || c.subs.all fun u => match u.status with | some x => x.1.good | none => false)

/-- D of the model a command's sequence is in. -/
def State.cmdD (s : State) (c : Cmd) : Nat := (s.seqAt c.seqSlot).d

/-- Combine a command's partials once all are in. A GRAD with sums to add keeps its result for the add phase. -/
def State.mergeParts (s : State) (n : Nat) : State :=
  match s.cmd n with
  | none => s
  | some c =>
    if !s.partsReady n c then s
    else match c.mergeIn, c.attn with
    | some b, _ => s.decide n (mergeOutcome c.head b)
    | none, some b =>
      let o := attnOutcome c b (s.cmdD c)
      if c.opcode = opGrad ∧ o.status = .ok then s.setCmd n fun c => { c with result := some o }
      else s.decide n o
    | none, none => s

/-- PARTIALS_MERGE (R114). -/
def execPartialsMerge (n : Nat) (s : State) : Out := .next (s.mergeParts n)

end Sys2Proof.Machine
end

