-- ==== Sys2Proof/Machine/IndexCmds.lean ====
section
/-! DEFINITION. The Index and its two commands (chapter 09, R219 to R221). -/

namespace Sys2Proof.Machine

/-! Entries. -/

/-- Entries of a bank set (R233). -/
def setSize : Nat := 65536

/-- Bytes 0 to 59 of an entry (Table 9-1). -/
def Entry.bytes (e : Entry) : List Byte :=
  leBytes 8 e.chain ++ leBytes 1 e.priority ++ leBytes 1 (e.set + if e.valid then 128 else 0) ++ leBytes 1 e.model
    ++ leBytes 1 e.format ++ leBytes 2 e.d ++ leBytes 1 (e.layers - 1) ++ leBytes 1 e.kvHeads ++ leBytes 2 e.tenant
    ++ leBytes 2 e.block ++ leBytes 4 e.handle ++ leBytes 4 e.record ++ leBytes 4 0 ++ leBytes 8 e.publishRow
    ++ leBytes 8 e.lastFind ++ leBytes 12 0

/-- An entry that is not valid. -/
def Entry.absent : Entry :=
  ⟨0, 0, 0, false, 0, 0, 0, 0, 0, 0, 0, 0, 0, 0, 0, 0⟩

/-- Rewrite an entry's CRC. -/
def Entry.sealed (e : Entry) : Entry := { e with crc := crc32c e.bytes }

/-- A change of a bank set that is being rebuilt goes to the spare bank as well (R247). -/
def Index.inSpare (x : Index) (n : Nat) (f : Tbl Entry → Tbl Entry) : Index :=
  { x with rebuild := x.rebuild.map fun r => if n / setSize = r.set then { r with entries := f r.entries } else r }

/-- Write an entry and its verification copy. -/
def State.putEntry (s : State) (n : Nat) (e : Entry) : State :=
  let e := e.sealed
  let x : Index := { s.index with entries := Tbl.set s.index.entries n e, copies := Tbl.set s.index.copies n e }
  { s with index := x.inSpare n (fun t => Tbl.set t n e) }

/-! Leaf records (R234). -/

/-- The element of a half that is not there. -/
def noElement : Nat := 0x3FFFFFF

/-- The elements of a record, at the index of R72: the cards of each head's halves, two elements for a head. -/
def recordOf (halves : Nat) : List Nat → List Nat
  | [] => []
  | [c] => [c, noElement]
  | c :: d :: t => if halves = 2 then c :: d :: recordOf halves t else c :: noElement :: recordOf halves (d :: t)

/-- The cards a record names. -/
def recordCards (es : List Nat) : List Nat := es.filter (· ≠ noElement)

/-- The fields R245 compares. -/
def Entry.sameKey (a b : Entry) : Bool :=
  a.chain = b.chain && a.set = b.set && a.model = b.model && a.format = b.format && a.d = b.d && a.layers = b.layers
    && a.kvHeads = b.kvHeads

/-- An entry leaves the Index: it stops matching at once, and keeps its references until it is released (R243). -/
def State.departEntry (s : State) (n : Nat) : State :=
  let x : Index := { s.index with
    entries := Tbl.erase s.index.entries n
    copies := Tbl.erase s.index.copies n
    records := Tbl.erase s.index.records n
    recordPages := Tbl.erase s.index.recordPages n
    departing := s.index.departing ++ [⟨n, recordCards ((Tbl.get s.index.records n).getD []),
      (Tbl.get s.index.recordPages n).getD [], s.row⟩] }
  { s with index := x.inSpare n (fun t => Tbl.erase t n) }.inShadow fun y => y.dropRecord n

/-- What verification found (R245). -/
inductive Verified where
  | good | rewritten | removed
  deriving DecidableEq, Repr

/-- Compare an entry with its verification copy (R245). -/
def State.verifyEntry (s : State) (n : Nat) : Verified × State :=
  match Tbl.get s.index.entries n with
  | none => (.good, s)
  | some e =>
    let failed (s : State) : State := ((s.count rIndexEventsVerifyFail 1).gauge 6 (n / setSize) 256).postFm (s.event 0x000A 0x058 0)
    match Tbl.get s.index.copies n with
    | some c =>
      if crc32c c.bytes ≠ c.crc then (.removed, (failed s).departEntry n)
      else if e.sameKey c then (.good, s)
      else
        let s := failed s
        (.rewritten, { s with index := { s.index with entries := Tbl.set s.index.entries n c } })
    | none => (.removed, (failed s).departEntry n)

/-- A bank set's scope admits a tenant (R236); a sealed tenant's set admits tenant 0 never (R379). -/
def State.setAllowed (s : State) (k tenant : Nat) : Bool :=
  let owner := s.fld (rBankScopeTenant k)
  s.fld (rBankScopeEnable k) = 1 && ((tenant = 0 && !s.tenantSealed owner) || owner = 0xFFF || owner = tenant)

/-- An entry matches a word for a sequence (R238). -/
def Entry.hits (e : Entry) (sets : Nat → Bool) (word : Nat) (q : Seq) : Bool :=
  e.valid && sets e.set && e.chain = word && e.model = q.model && e.format = q.format && e.d = q.d
    && e.layers = q.layers && e.kvHeads = q.kvHeads

/-- The Index is cut, stopped or gated (R381, R382): its array answers nothing. -/
def State.indexHeld (s : State) : Bool := (Tbl.get s.vault.blocks 0x058).isSome

/-- The matching entry: highest PRIORITY, then lowest bank set (R238); none while the Index is held. -/
def State.bestEntry (s : State) (sets : Nat → Bool) (word : Nat) (q : Seq) : Option Nat :=
  if s.indexHeld then none
  else (s.index.entries.foldl (fun (b : Option (Nat × Entry)) p =>
    if !p.2.hits sets word q then b
    else match b with
    | none => some p
    | some x => if x.2.priority < p.2.priority ∨ (x.2.priority = p.2.priority ∧ p.2.set < x.2.set) then some p else b)
    none).map Prod.fst

/-- Look a word up and verify what is found; after the array entry has been rewritten, once more (R245). -/
def State.lookWord (s : State) (sets : Nat → Bool) (word : Nat) (q : Seq) : Nat → Option Nat × State
  | 0 => (none, s)
  | fuel + 1 => match s.bestEntry sets word q with
    | none => (none, s)
    | some n => match s.verifyEntry n with
      | (.good, s) => (some n, s)
      | (.rewritten, s) => s.lookWord sets word q fuel
      | (.removed, s) => (none, s)

/-- The groups of a record's cards, by (layer, head): each holds the halves. -/
def groupCards (halves : Nat) : List (Nat × Nat) → List Nat → List (Nat × Nat × List Nat)
  | [], _ => []
  | (l, h) :: t, cs => (l, h, cs.take halves) :: groupCards halves t (cs.drop halves)

/-! PREFIX_FIND. -/

/-- Take references on groups of cards for a sequence's block and stand them at it. -/
def State.attachBlock (s : State) (slot handle block : Nat) : List (Nat × Nat × List Nat) → Except RefFail State
  | [] => .ok s
  | (l, hd, cs) :: t => match s.takeRef handle cs with
    | .error e => .error e
    | .ok (ms, s) => (s.putCards slot l hd block ms).attachBlock slot handle block t

/-- What attaching words did: the entries used, or why a reference could not be taken and at which block. -/
inductive Attached where
  | done (entries : List Nat)
  | failed (block : Nat) (why : RefFail)
  deriving DecidableEq, Repr

/-- Set LAST_FIND_ROW of an entry (R239 step 6). -/
def State.foundEntry (s : State) (n : Nat) : State :=
  match Tbl.get s.index.entries n with
  | some e => s.putEntry n { e with lastFind := row48 s.row }
  | none => s

/-- Attach words block by block until one has no match (R239). -/
def State.attachWords (s : State) (sets : Nat → Bool) (slot handle : Nat) (q : Seq) : Nat → List Nat → List Nat → Attached × State
  | _, [], used => (.done used, s)
  | b, w :: ws, used => match s.lookWord sets w q 2 with
    | (none, s) => (.done used, s)
    | (some n, s) =>
      let cards := recordCards ((Tbl.get s.index.records n).getD [])
      if cards.any fun k => match s.card k with | some c => c.state = .lost | none => true then
        let e := (Tbl.get s.index.entries n).getD Entry.absent
        let s := (s.departEntry n).count rIndexEventsLostRemoved 1
        (.done used, s.postTenant e.tenant { s.event 0x0009 0x058 0 with tenant := e.tenant, handle := e.handle })
      else match s.attachBlock slot handle b (groupCards q.halves q.heads cards) with
        | .error e => (.failed b e, s)
        | .ok s => (s.foundEntry n).attachWords sets slot handle q (b + 1) ws (used ++ [n])

/-- The sets a PREFIX_FIND's BANKS names. -/
def findSets (b : ChainBody) : List Nat := (List.range 16).filter fun k => b.banks.testBit k

/-- A position may start an APPEND on a head (R175). -/
def State.startOk (s : State) (slot layer head pos : Nat) : Bool :=
  let e := s.endOf slot layer head
  pos = e || (e % 256 = 0 && pos % 256 = 0 && e < pos)

/-- Check 5 of a prefix command. -/
def chainCounts (h : Head) (b : ChainBody) : Option Outcome :=
  firstSome [
    bodyFail h 16,
    failIf (!(1 ≤ b.count && b.count ≤ 64)) (Outcome.shape h 0x5),
    failIf (65536 < b.firstBlock + b.count) (Outcome.shape h 0x7)]

/-- The table pages that attaching every block could take (R220). -/
def State.findPages (s : State) (slot : Nat) (b : ChainBody) : Nat :=
  let q := s.seqAt slot
  let blocks := (List.range b.count).map (· + b.firstBlock)
  q.heads.foldl (fun n lh => (List.range q.halves).foldl (fun n f => n + s.pagesLacking slot lh.1 lh.2 f blocks) n) 0

/-- The checks of PREFIX_FIND (R196, R220, R236). -/
def findFail (s : State) (c : Conn) (h : Head) (b : ChainBody) : Option Outcome :=
  let slot := handleSlot h.handle
  let q := s.seqAt slot
  let tenant := actingTenant c h
  firstSome [
    chainCounts h b,
    failIf (s.relayRefused c h) (Outcome.bare h .deniedSecure 0),
    s.seqFail opPrefixFind tenant h,
    failIf (findSets b = [] || (findSets b).any fun k => !s.setAllowed k tenant) (Outcome.shape h 0x7),
    failIf ((b.words.take b.count).contains 0) (Outcome.shape h 0x9),
    failIf (q.heads.any fun lh => !s.startOk slot lh.1 lh.2 (b.firstBlock * 256) ||
      (s.blocksOf slot lh.1 lh.2 0).any fun k => b.firstBlock ≤ k && k < b.firstBlock + b.count) (Outcome.shape h 0x9),
    sizeFail h b.size,
    s.budgetFail h none s.row 0 0,
    failIf (s.freePages < s.findPages slot b) (Outcome.noRes h 0xA),
    failIf q.damaged (damagedOutcome h)]

/-- The blocks a prefix command names. -/
def chainBlocks (b : ChainBody) : List Nat := (List.range b.count).map (· + b.firstBlock)

/-- A walk looks up the spans of some blocks in every layer and head (R75). -/
def State.walkHeads (s : State) (slot : Nat) (blocks : List Nat) : State :=
  (s.seqAt slot).heads.foldl (fun s lh => s.lookBlocks slot lh.1 lh.2 blocks) s

/-- PREFIX_FIND after receipt (R220, R239). Where a copy cannot be made nothing stays attached; what the Index
itself has learnt stays. -/
def admitFind (h : Head) (b : ChainBody) (r : Nat) (s : State) : State :=
  match s.sender h with
  | none => s
  | some (_, c) => match findFail s c h b with
    | some o => (s.pagesOut o).reply opPrefixFind h o
    | none =>
      let slot := handleSlot h.handle
      let q := s.seqAt slot
      if s.mustWait opPrefixFind slot then s.defer (.prefixFind h b) opPrefixFind h (actingTenant c h) r slot
      else
      let s := s.walkHeads slot (chainBlocks b)
      match s.attachWords (fun k => (findSets b).contains k) slot h.handle q b.firstBlock (b.words.take b.count) [] with
      | (.done ns, t) =>
        let t := if ns = [] then t else t.setSeq slot { t.seqAt slot with lastUse := row48 t.row }
        t.reply opPrefixFind h (Outcome.good h (.matched ns.length))
      | (.failed k e, t) =>
        let s := { s with
          index := t.index
          cat := { s.cat with posted := t.cat.posted }
          regs := t.regs
          mgmt := t.mgmt
          health := t.health
          xport := t.xport
          tm := t.tm
          out := t.out
          fresh := t.fresh }.refFailed e
        let names (cs : List Nat) : List LeafName := q.heads.flatMap fun lh => (List.range q.halves).filterMap fun f =>
          if cs.any fun n => match s.card n with
            | some c => c.layer = lh.1 && c.head = lh.2 && c.half = f
            | none => false
          then some (lh.1, lh.2, f, k) else none
        s.reply opPrefixFind h (match e with
          | .notResident cs => Outcome.leaves h .notResident (names cs)
          | .cacheLost cs => Outcome.leaves h .cacheLost (names cs)
          | .noSpace => Outcome.bare h .noSpace 0)

/-! PREFIX_PUBLISH. -/

/-- Pages of a leaf record (R234). -/
def recordSize (q : Seq) : Nat := ceilDiv (8 * q.layers * q.kvHeads) 2048

/-- Reserve the record pages of n blocks (R241). -/
def State.reserveRecords (s : State) (q : Seq) : Nat → Option (List (List Nat) × State)
  | 0 => some ([], s)
  | n + 1 => (s.grabPages (recordSize q)).bind fun x =>
      (x.2.reserveRecords q n).map fun y => (x.1 :: y.1, y.2)

/-- The entries of a bank set. -/
def State.setEntries (s : State) (k : Nat) : Tbl Entry := s.index.entries.filter fun p => p.1 / setSize = k

/-- The candidate victim of a full set (R242). -/
def State.victimOf (s : State) (k : Nat) : Option (Nat × Entry) :=
  (s.setEntries k).foldl (fun (b : Option (Nat × Entry)) p => match b with
    | none => some p
    | some x => if p.2.priority < x.2.priority ∨ (p.2.priority = x.2.priority ∧ p.2.lastFind < x.2.lastFind) then some p else b) none

/-- Take the entry's references on the leaves of a block (R84). -/
def State.takeAll (s : State) (handle : Nat) : List (List Nat) → Except RefFail (List Nat × State)
  | [] => .ok ([], s)
  | cs :: t => match s.takeRef handle cs with
    | .error e => .error e
    | .ok (ms, s) => match s.takeAll handle t with
      | .error e => .error e
      | .ok (ns, s) => .ok (ms ++ ns, s)

/-- Return reserved pages that were not used. -/
def State.returnPages (s : State) (ps : List Nat) : State :=
  { s with cat := { s.cat with pages := s.cat.pages.filter fun p => !ps.contains p } }

/-- Publish one block (R221, R241): its RESULT and the state. A held Index takes none. -/
def State.publishOne (s : State) (q : Seq) (slot handle tenant set priority block word : Nat) (pages : List Nat) : Nat × State :=
  if s.indexHeld then (2, (s.returnPages pages).count rIndexEventsRefused 1)
  else if (s.setEntries set).any fun p => p.2.chain = word && p.2.model = q.model && p.2.format = q.format && p.2.d = q.d then
    (3, s.returnPages pages)
  else
    let full : Bool := setSize ≤ (s.setEntries set).length
    let victim := if full then s.victimOf set else none
    if (match victim with | some v => (priority ≤ v.2.priority : Bool) | none => false) then
      (2, (s.returnPages pages).count rIndexEventsRefused 1)
    else match s.takeAll handle (q.heads.map fun lh => (s.cardsAt slot lh.1 lh.2 block).getD []) with
    | .error e => (4, (({ s with fresh := s.fresh + 1 }).returnPages pages).refFailed e)
    | .ok (cards, s) =>
      let s := match victim with
        | some v => (s.departEntry v.1).count rIndexEventsReplaced 1
        | none => s
      match s.choose setSize (fun k => (Tbl.get s.index.entries (set * setSize + k)).isNone) with
      | (none, s) => (2, s)
      | (some k, s) =>
        let n := set * setSize + k
        let wide : Bool := s.fld (rBankScopeTenant set) = 0xFFF
        let s := cards.foldl (fun s m => s.changeCard m fun c =>
          { c with published := true, chain := if c.published then c.chain else word, openSet := c.openSet || wide }) s
        let s := s.putEntry n ⟨word, priority, set, true, q.model, q.format, q.d, q.layers, q.kvHeads, tenant, block, handle,
          pages.headD 0, row48 s.row, row48 s.row, 0⟩
        let s := { s with index := { s.index with
          records := Tbl.set s.index.records n (recordOf q.halves cards)
          recordPages := Tbl.set s.index.recordPages n pages } }
        (if full then 1 else 0, s.inShadow (fun x => x.addRecord n pages.length))

/-- Publish blocks in order. -/
def State.publishAll (s : State) (q : Seq) (slot handle tenant set priority : Nat) :
    Nat → List Nat → List (List Nat) → List Nat × State
  | b, w :: ws, ps :: pss =>
    let (r, s) := s.publishOne q slot handle tenant set priority b w ps
    let (rs, s) := s.publishAll q slot handle tenant set priority (b + 1) ws pss
    (r :: rs, s)
  | _, _, _ => ([], s)

/-- Every leaf of a block is Sealed or Shared in every layer, head and half. -/
def State.blockSealed (s : State) (slot block : Nat) : Bool :=
  (s.seqAt slot).heads.all fun lh => match s.cardsAt slot lh.1 lh.2 block with
    | none => false
    | some cs => cs.all fun n => match s.card n with
      | some c => c.state = .sealed || c.state = .shared
      | none => false

/-- The checks of PREFIX_PUBLISH (R196, R221, R236) up to its record pages. -/
def publishFail (s : State) (c : Conn) (h : Head) (b : ChainBody) : Option Outcome :=
  let slot := handleSlot h.handle
  let tenant := actingTenant c h
  firstSome [
    chainCounts h b,
    failIf (s.relayRefused c h) (Outcome.bare h .deniedSecure 0),
    s.seqFail opPrefixPublish tenant h,
    failIf (!s.setAllowed (b.banks % 16) tenant) (Outcome.shape h 0x7),
    failIf ((b.words.take b.count).contains 0) (Outcome.shape h 0x9),
    failIf (!(List.range b.count).all fun i => s.blockSealed slot (b.firstBlock + i)) (Outcome.shape h 0x9),
    sizeFail h b.size,
    s.budgetFail h none s.row 0 0]

/-- The status of a PREFIX_PUBLISH by its results (R221). -/
def publishOutcome (h : Head) (rs : List Nat) : Outcome :=
  let body := CplBody.results (rs ++ List.replicate ((8 - rs.length % 8) % 8) 0)
  if rs.all (· = 2) then { Outcome.noRes h 0xC with body := body }
  else if rs.any (· = 4) ∧ rs.all (fun r => r = 2 ∨ r = 4) then { Outcome.bare h .noSpace 0 with body := body }
  else Outcome.good h body

/-- PREFIX_PUBLISH after receipt. -/
def admitPublish (h : Head) (b : ChainBody) (r : Nat) (s : State) : State :=
  match s.sender h with
  | none => s
  | some (_, c) => match publishFail s c h b with
    | some o => s.reply opPrefixPublish h o
    | none =>
      let slot := handleSlot h.handle
      let q := s.seqAt slot
      if s.mustWait opPrefixPublish slot then s.defer (.prefixPublish h b) opPrefixPublish h (actingTenant c h) r slot
      else
      let s := s.walkHeads slot (chainBlocks b)
      match s.reserveRecords q b.count with
      | none => ({ s with fresh := s.fresh + b.count }.pagesOut (Outcome.noRes h 0xA)).reply opPrefixPublish h (Outcome.noRes h 0xA)
      | some (pss, t) =>
        if q.damaged then { s with fresh := t.fresh }.reply opPrefixPublish h (damagedOutcome h)
        else
          let (rs, t) := t.publishAll q slot h.handle (actingTenant c h) (b.banks % 16) b.priority b.firstBlock
            (b.words.take b.count) pss
          (t.setSeq slot { t.seqAt slot with lastUse := row48 t.row }).reply opPrefixPublish h (publishOutcome h rs)

/-- PREFIX_FIND (R220). -/
def execPrefixFind (h : Head) (b : ChainBody) (s : State) : Out := .next (s.receive (.prefixFind h b) (admitFind h b))

/-- PREFIX_PUBLISH (R221). -/
def execPrefixPublish (h : Head) (b : ChainBody) (s : State) : Out :=
  .next (s.receive (.prefixPublish h b) (admitPublish h b))

/-! The release of a departed entry, and the scrub (R243, R246). -/

/-- Drop a departed entry's references and release its record pages (R243). Finds are single steps here, so
none is still to take its references. -/
def State.releaseDeparted (s : State) (n : Nat) : State :=
  let (gone, kept) := s.index.departing.partition fun d => d.entry = n
  let s := { s with index := { s.index with departing := kept } }
  gone.foldl (fun s d => (d.cards.foldl State.dropRef s).release (pageRelease s.row d.pages)) s

/-- INDEX_ENTRY_RELEASE (R243). -/
def execIndexEntryRelease (n : Nat) (s : State) : Out := .next (s.releaseDeparted n)

/-- Compare the next 256 entries with their copies; a pass ends after the last (R246). -/
def State.scrubIndex (s : State) : State :=
  let s := (List.range 256).foldl (fun s i => (s.verifyEntry (s.index.scrubAt + i)).2) s
  let next := s.index.scrubAt + 256
  if next = 1048576 then
    ({ s with index := { s.index with scrubAt := 0 } }).setFld rScrubStatusLastPassRow (row48 s.row)
  else { s with index := { s.index with scrubAt := next } }

/-! CAM banks (R247). -/

/-- CAM_BANK_REBUILD: a bank set is rebuilt into the spare bank out of the verification copies whose CRC passes. There is one
spare. -/
def State.rebuildBank (s : State) (k : Nat) : State :=
  if 16 ≤ k ∨ s.index.spareUsed ∨ s.index.rebuild.isSome then s
  else
    let good := s.index.copies.filter fun (p : Nat × Entry) => p.1 / setSize = k && crc32c p.2.bytes = p.2.crc
    ({ s with index := { s.index with rebuild := some ⟨k, s.row, good⟩ } }).setFld rScrubStatusRebuild 1

/-- The spare bank is built by the housekeeping window of a later row, and its swap is pending: DESIGN CHOICE (log entry
159). -/
def State.bankBuilt (s : State) : State :=
  match s.index.rebuild with
  | some r => if r.row < s.row then s.setFld rScrubStatusRebuild 2 else s
  | none => s

/-- CAM_REBUILD_SWAP, at the first nanosecond of a row: the spare bank serves the set. An entry whose copy's CRC failed is not
in it and leaves the Index (R245). -/
def State.swapBank (s : State) : State :=
  match s.index.rebuild with
  | none => s
  | some r =>
    if s.clock.ns ≠ 0 ∨ s.fld rScrubStatusRebuild ≠ 2 then s
    else
      let old := (s.index.entries.filter fun (p : Nat × Entry) => p.1 / setSize = r.set).map Prod.fst
      let s := { s with index := { s.index with rebuild := none, spareUsed := true } }
      let s := (old.filter fun n => (Tbl.get r.entries n).isNone).foldl State.departEntry s
      { s with index := { s.index with
        entries := r.entries.foldl (fun (t : Tbl Entry) (p : Nat × Entry) => Tbl.set t p.1 p.2) s.index.entries } }.setFld
        rScrubStatusRebuild 0

/-- CAM_BANK_REBUILD (R247). -/
def execCamBankRebuild (k : Nat) (s : State) : Out := .next (s.rebuildBank k)

/-- CAM_REBUILD_SWAP (R247). -/
def execCamRebuildSwap (s : State) : Out := .next s.swapBank

end Sys2Proof.Machine
end

