-- ==== Sys2Proof/Machine/Range.lean ====
section
/-! DEFINITION. The range commands (R222 to R226): PIN, UNPIN, PROMOTE, DEMOTE, MIGRATE and FREE_RANGE. -/

namespace Sys2Proof.Machine

/-! The range. -/

/-- The range touches a block (R222). -/
def touches (b : RangeBody) (k : Nat) : Bool := k * 256 < b.endPos && b.firstPos < (k + 1) * 256

/-- A block lies inside the range (R222). -/
def isInside (b : RangeBody) (k : Nat) : Bool := b.firstPos ≤ k * 256 && (k + 1) * 256 ≤ b.endPos

/-- The (layer, head) pairs of a range. -/
def rangeHeads (b : RangeBody) : List (Nat × Nat) :=
  (List.range (b.lastLayer + 1 - b.firstLayer)).flatMap fun l =>
    (List.range (b.lastHead + 1 - b.firstHead)).map fun h => (b.firstLayer + l, b.firstHead + h)

/-- The (layer, head, block) of a range that a sequence holds and that pass a test. -/
def State.rangeBlocks (s : State) (slot : Nat) (b : RangeBody) (p : Nat → Bool) : List (Nat × Nat × Nat) :=
  (rangeHeads b).flatMap fun lh =>
    ((s.blocksOf slot lh.1 lh.2 0).filter p).map fun k => (lh.1, lh.2, k)

/-- The cards of a range's touched blocks, each block's halves together. -/
def State.rangeCards (s : State) (slot : Nat) (b : RangeBody) : List (List Nat) :=
  (s.rangeBlocks slot b (touches b)).filterMap fun x => s.cardsAt slot x.1 x.2.1 x.2.2

/-! Completion. -/

/-- The completion of a range command (R199, R225). -/
def rangeOutcome (h : Head) (affected skipped : Nat) (noSpace : Bool) : Outcome :=
  { status := if noSpace then .noSpace else .ok, detail := 0, handle := h.handle, body := .counts affected skipped }

/-- Range commands whose moves have all ended complete (R225). -/
def State.settleRanges (s : State) : State :=
  s.work.cmds.foldl (fun s p =>
    if opPin ≤ p.2.opcode ∧ p.2.opcode ≤ opFreeRange then
      match s.cmd p.1 with
      | none => s
      | some c =>
        if c.moves.any fun m => (Tbl.get s.mover.moves m).isSome then s
        else s.complete p.1 (rangeOutcome c.head c.affected c.skipped c.noSpace)
    else s) s

/-! Requests. -/

/-- A tenant's key slot holds a key (R269). -/
def State.keySet (s : State) (tenant : Nat) : Bool :=
  match Tbl.get s.vault.tenants tenant with
  | some t => t.key.isSome
  | none => false

/-- Ask for a move of a leaf: a request already queued to the same place serves, a queued prefetch becoming the
promotion (R255); otherwise a new one is queued, and applied after a move now running (R253). -/
def State.askMove (s : State) (cards : List Nat) (cls : MoveClass) (dest : Dest) : Nat × State :=
  let same := s.mover.moves.find? fun p => p.2.cards = cards && p.2.dest = dest && p.2.started.isNone
  match same with
  | some (m, mv) =>
    if mv.cls = .prefetch ∧ cls ≠ .prefetch then
      let s := { s with mover := { s.mover with moves := Tbl.erase s.mover.moves m } }
      (s.mover.next, s.queueMove (Move.request cards cls dest s.row))
    else (m, s)
  | none => (s.mover.next, s.queueMove (Move.request cards cls dest s.row))

/-- A move of the leaf takes it, or will take it, out of the stacks. -/
def State.leavingStacks (s : State) (card : Nat) : Bool :=
  s.mover.moves.any fun p => p.2.cards.contains card && p.2.started.isSome &&
    match p.2.dest with | .annex => true | .loan _ => true | _ => false

/-- Stack granules a card's leaf takes. -/
def Card.size (c : Card) : Nat := leafGranules c.format c.d

/-- The pinned limit of Table 3-7. -/
def pinnedLimit : Nat := 36569088

/-- Granules that count against the pinned limit: those of pinned leaves and of ALLOC regions (R321). -/
def State.pinnedGranules (s : State) : Nat :=
  s.cat.cards.foldl (fun n p => if p.2.pinned then n + p.2.size else n) 0
    + s.xport.keys.foldl (fun n p => if !p.2.span && (p.2.state = .valid || p.2.state = .revoking)
        then n + p.2.length / 16384 else n) 0

/-- The progress of a range command while it goes through its leaves. -/
structure Tally where
  affected : Nat
  skipped : Nat
  moves : List Nat
  unpins : List (Nat × Nat)
  deriving DecidableEq, Repr

/-- PIN and UNPIN act on a card: the sequence's tenant owns it and it is not Shared (R223). -/
def pinnable (c : Card) (owner : Nat) : Bool := c.owner = owner && !c.isShared

/-- PIN on the cards of a block (R223, R224). -/
def State.pinBlock (s : State) (owner : Nat) (cards : List Nat) (t : Tally) : Tally × State :=
  let acts := cards.filter fun n => match s.card n with
    | some c => pinnable c owner && !(c.pinned && (c.state = .lost || (c.inStacks && !s.leavingStacks n)))
    | none => false
  let away := acts.filter fun n => match s.card n with
    | some c => c.state ≠ .lost && (!c.inStacks || s.leavingStacks n)
    | none => false
  let s := acts.foldl (fun s n => s.setCard n fun c => { c with pinned := true }) s
  let t := { t with affected := t.affected + acts.length, skipped := t.skipped + (cards.length - acts.length) }
  if away = [] then (t, s)
  else
    let (m, s) := s.askMove away .demand .stack
    ({ t with moves := addNum t.moves m }, s)

/-- The running move of a leaf. -/
def State.runningMove (s : State) (card : Nat) : Option Nat :=
  (s.mover.moves.find? fun p => p.2.cards.contains card && p.2.started.isSome).map Prod.fst

/-- UNPIN on the cards of a block; a Moving leaf is taken once its move has ended (R224). -/
def State.unpinBlock (s : State) (owner : Nat) (cards : List Nat) (t : Tally) : Tally × State :=
  let acts := cards.filter fun n => match s.card n with
    | some c => pinnable c owner && c.pinned
    | none => false
  let later := acts.filterMap fun n => (s.runningMove n).map fun m => (m, n)
  ({ t with affected := t.affected + acts.length, skipped := t.skipped + (cards.length - acts.length)
            moves := later.foldl (fun ms u => addNum ms u.1) t.moves, unpins := t.unpins ++ later },
   acts.foldl (fun s n => if (s.runningMove n).isSome then s else s.setCard n fun c => { c with pinned := false }) s)

/-- The leaf lies at a destination. -/
def Card.liesAt (c : Card) : Dest → Bool
  | .stack => c.inStacks
  | .annex => match c.loc with | .annex _ _ => true | _ => false
  | .loan l => match c.loc with | .loan l' _ => l = l' | _ => false
  | .annexRewrite => false

/-- A range move may take a card (R223, R269, R379): `owner` for DEMOTE and MIGRATE, none for PROMOTE. A Moving leaf is
taken after its move lands (R224). -/
def State.movable (s : State) (c : Card) (owner : Option Nat) (dest : Dest) : Bool :=
  let moving := match c.state with | .moving _ => true | _ => false
  let kind := match owner with
    | none => c.state = .sealed || c.state = .shared || moving
    | some o => (c.state = .sealed || c.state = .moving false) && c.owner = o && !c.pinned
  let lends := match dest with | .loan _ => true | _ => false
  kind && (moving || !c.liesAt dest) && !(lends && s.tenantSealed c.origin) && (dest ≠ .annex || s.keySet c.origin)

/-- A range move on the cards of a block. -/
def State.moveBlock (s : State) (owner : Option Nat) (cls : MoveClass) (dest : Dest) (cards : List Nat) (t : Tally) :
    Tally × State :=
  let acts := cards.filter fun n => match s.card n with
    | some c => s.movable c owner dest
    | none => false
  let t := { t with affected := t.affected + acts.length, skipped := t.skipped + (cards.length - acts.length) }
  if acts = [] then (t, s)
  else
    let (m, s) := s.askMove acts cls dest
    ({ t with moves := addNum t.moves m }, s)

/-- Go through the blocks of a range. -/
def overBlocks (f : State → List Nat → Tally → Tally × State) (s : State) (bs : List (List Nat)) : Tally × State :=
  bs.foldl (fun x cards => f x.2 cards x.1) (⟨0, 0, [], []⟩, s)

/-! The commands. -/

/-- The destination a MIGRATE names. -/
def targetOf (b : RangeBody) : Dest := if b.tier = 0 then .stack else if b.tier = 1 then .annex else .loan b.lender

/-- The bounds of a range are not those of R222 and Table 8-13; a lender is another node. -/
def rangeShape (s : State) (op : Nat) (h : Head) (b : RangeBody) : Option Outcome :=
  let q := s.seqAt (handleSlot h.handle)
  firstSome [
    failIf (q.layers ≤ b.lastLayer || q.kvHeads ≤ b.lastHead) (Outcome.shape h 0x1),
    failIf (b.lastLayer < b.firstLayer || b.lastHead < b.firstHead || b.endPos ≤ b.firstPos || 16777216 < b.endPos)
      (Outcome.shape h 0x7),
    failIf (op = opMigrate && (b.tier = 3 || (b.tier = 2 && (b.lender = s.nodeId || b.lender = 0x3FFF))))
      (Outcome.shape h 0x7),
    failIf (op = opFreeRange && b.endPos / 256 ≤ (b.firstPos + 255) / 256) (Outcome.shape h 0x7)]

/-- The checks of a range command in the order of R196. -/
def rangeFail (s : State) (op : Nat) (c : Conn) (h : Head) (b : RangeBody) : Option Outcome :=
  firstSome [
    bodyFail h 16,
    failIf (s.relayRefused c h) (Outcome.bare h .deniedSecure 0),
    s.seqFail op (actingTenant c h) h,
    rangeShape s op h b,
    sizeFail h 16,
    s.budgetFail h none s.row 0 0,
    failIf (s.damaged h) (damagedOutcome h)]

/-- Complete a range command, or keep it in flight until its moves have ended. -/
def State.endRange (s : State) (op : Nat) (h : Head) (tenant r : Nat) (t : Tally) : State :=
  if t.moves = [] then s.reply op h (rangeOutcome h t.affected t.skipped false)
  else s.enter { Cmd.start op h tenant none 0 r (handleSlot h.handle) with
    stage := .walked
    moves := t.moves
    unpins := t.unpins
    affected := t.affected
    skipped := t.skipped }

/-- The granules PIN would add to the pinned ones. -/
def State.pinAdds (s : State) (owner : Nat) (bs : List (List Nat)) : Nat :=
  bs.flatten.foldl (fun n k => match s.card k with
    | some c => if pinnable c owner && !c.pinned then n + c.size else n
    | none => n) 0

/-- The leaves a FREE_RANGE drops: cards inside, by shelfmark; and the number it passes over. -/
def State.freeRange (s : State) (slot : Nat) (b : RangeBody) : Nat × Nat × State :=
  let halves := (s.seqAt slot).halves
  let inside := s.rangeBlocks slot b (isInside b)
  let edge := s.rangeBlocks slot b fun k => touches b k && !isInside b k
  let t := inside.foldl (fun s x => (List.range halves).foldl (fun s f => s.dropLeafAt slot x.1 x.2.1 f x.2.2) s) s
  (inside.length * halves, edge.length * halves, t)

/-- The effect of a range command that has passed its checks (R223 to R226). -/
def State.doRange (s : State) (op : Nat) (h : Head) (tenant r : Nat) (b : RangeBody) : State :=
  let slot := handleSlot h.handle
  let owner := (s.seqAt slot).tenant
  let bs := s.rangeCards slot b
  if op = opPin then
    if pinnedLimit < s.pinnedGranules + s.pinAdds owner bs then s.reply op h (rangeOutcome h 0 0 true)
    else
      let (t, s) := overBlocks (fun s => s.pinBlock owner) s bs
      s.endRange op h tenant r t
  else if op = opUnpin then
    let (t, s) := overBlocks (fun s => s.unpinBlock owner) s bs
    s.endRange op h tenant r t
  else if op = opPromote then
    let (t, s) := overBlocks (fun s => s.moveBlock none .demand .stack) s bs
    s.endRange op h tenant r t
  else if op = opDemote then
    let (t, s) := overBlocks (fun s => s.moveBlock (some owner) .evict .annex) s bs
    s.endRange op h tenant r t
  else if op = opMigrate then
    let (t, s) := overBlocks (fun s => s.moveBlock (some owner) .evict (targetOf b)) s bs
    s.endRange op h tenant r t
  else
    let (n, k, t) := s.freeRange slot b
    if n = 0 then (s.freeEvents h .alreadyFree).reply op h (Outcome.bare h .alreadyFree 0)
    else (t.reply op h (rangeOutcome h n k false)).settleRanges

/-- The cache command of a range opcode. -/
def rangeInstr (op : Nat) (h : Head) (b : RangeBody) : Instr :=
  if op = opPin then .pin h b else if op = opUnpin then .unpin h b else if op = opPromote then .promote h b
  else if op = opDemote then .demote h b else if op = opMigrate then .migrate h b else .freeRange h b

/-- The walk of a range command looks up the spans of its range (R75). -/
def State.rangeWalk (s : State) (slot : Nat) (b : RangeBody) : State :=
  let blocks := (List.range (ceilDiv b.endPos 256 - b.firstPos / 256)).map (· + b.firstPos / 256)
  (rangeHeads b).foldl (fun s lh => s.lookBlocks slot lh.1 lh.2 blocks) s

/-- A range command after receipt. -/
def admitRange (op : Nat) (h : Head) (b : RangeBody) (r : Nat) (s : State) : State :=
  match s.sender h with
  | none => s
  | some (_, c) => match rangeFail s op c h b with
    | some o => (if op = opFreeRange then s.freeEvents h o.status else s).reply op h o
    | none =>
      let slot := handleSlot h.handle
      if s.mustWait op slot then s.defer (rangeInstr op h b) op h (actingTenant c h) r slot
      else (s.rangeWalk slot b).doRange op h (actingTenant c h) r b

/-- PIN (R223). -/
def execPin (h : Head) (b : RangeBody) (s : State) : Out := .next (s.receive (.pin h b) (admitRange opPin h b))

/-- UNPIN (R223). -/
def execUnpin (h : Head) (b : RangeBody) (s : State) : Out := .next (s.receive (.unpin h b) (admitRange opUnpin h b))

/-- PROMOTE (R223). -/
def execPromote (h : Head) (b : RangeBody) (s : State) : Out := .next (s.receive (.promote h b) (admitRange opPromote h b))

/-- DEMOTE (R223). -/
def execDemote (h : Head) (b : RangeBody) (s : State) : Out := .next (s.receive (.demote h b) (admitRange opDemote h b))

/-- MIGRATE (R223). -/
def execMigrate (h : Head) (b : RangeBody) (s : State) : Out := .next (s.receive (.migrate h b) (admitRange opMigrate h b))

/-- FREE_RANGE (R226). -/
def execFreeRange (h : Head) (b : RangeBody) (s : State) : Out :=
  .next (s.receive (.freeRange h b) (admitRange opFreeRange h b))

end Sys2Proof.Machine
end

