-- ==== Sys2Proof/Machine/Rounds.lean ====
section
/-! DEFINITION. Work items, stitch rounds and the instructions their contexts execute (R119 to R127, R145 to R160). -/

namespace Sys2Proof.Machine

/-! Contexts (R119, Tables 5-1 and 5-2). -/

/-- The leaf, parameters and block of a visit of a command. -/
def State.visitEnv (s : State) (c : Cmd) (v : Visit) : Option (CtxLeaf × Params × Nat) :=
  let q := s.seqAt c.seqSlot
  (Tbl.get s.node.models q.model).map fun m =>
    ({ fmt := q.format, d := q.leafD, halves := (v.granules.zip v.scales).map fun x => ⟨x.1, x.2⟩ },
     { scoreScale := m.scoreScale, slopes := m.slopes }, v.block)

/-- A context of visit `i` of a command for its j-th query position, the `turn`-th of its item. -/
def State.newCtx (s : State) (n : Nat) (c : Cmd) (b : AttnBody) (item i j turn : Nat) : Option Ctx :=
  let q := s.seqAt c.seqSlot
  match Tbl.get s.node.models q.model, c.visits[i]? with
  | some m, some v => some (Ctx.launch n item i (b.positions.getD j 0) (v.block * 256) v.valid
      (if m.maskMode.testBit 1 then m.window else 0)
      (if m.maskMode.testBit 2 then m.sinks else 0) b.head b.qheads q.leafD turn
      ((List.range b.qheads).map fun h => b.query q.d j h))
  | _, _ => none

/-- The partials a context emitted, as nodes (0, block) of the tree for the command's j-th position. -/
def ctxParts (block j : Nat) (c : Ctx) : List NodePartial :=
  c.emitted.map fun e => ⟨0, block, j, e.1, e.2⟩

/-- Put partials a command's context produced into the command. -/
def State.addParts (s : State) (n : Nat) (ps : List NodePartial) (poison : Option Nat) (contexts : Nat) : State :=
  s.setCmd n fun c => { c with parts := c.parts ++ ps, poison := lowCode c.poison poison, work := c.work - contexts }

/-- The halves of a visit's leaf become Lost where a stitch or tile has read a poisoned line of theirs (R387): a key below
VALID_COUNT, or the value that gave the DETAIL code 1. `view` is what it read: the stacks, or the tile's staged data. -/
def State.losePoisoned (s view : State) (fmt d : Nat) (v : Visit) (code : Option Nat) : State :=
  if view.poison = [] then s
  else (v.cards.zip (v.granules.zip v.scales)).foldl (fun s x =>
    let h : HalfLoc := ⟨x.2.1, x.2.2⟩
    let keys : Bool := (List.range v.valid).any fun k => (view.keyAt h fmt d k).2 = some 1
    if keys || (code = some 1 && view.leafPoisoned h fmt d) then s.loseLeaf x.1 else s) s

/-- The same for a visit of a command, by its index. -/
def State.poisonVisit (s view : State) (n i : Nat) (code : Option Nat) : State :=
  match s.cmd n with
  | none => s
  | some c => match c.visits[i]? with
    | some v => let q := s.seqAt c.seqSlot; s.losePoisoned view q.format q.leafD v code
    | none => s

/-- A command misses its COMPUTE checkpoint (R49, R51). -/
def State.computeLate (s : State) (n : Nat) : State :=
  match s.cmd n with
  | none => s
  | some c => s.decide n (Outcome.tooLate c.head .compute)

/-! What a unit has served in the row (R151, R188). -/

/-- The number of an NBU's region among the units. -/
def nbuUnit (t region : Nat) : Nat := t * 256 + region

/-- The number of a logical array among the units. -/
def arrayUnit (a : Nat) : Nat := 3072 + a

/-- A unit takes work of commands. -/
def State.serves (s : State) (unit : Nat) (cmds : List Nat) : State :=
  { s with work := { s.work with served := cmds.map (fun n => (unit, n)) ++ s.work.served } }

/-- A command loses partials it was given: it completes with LATE, cause COMPUTE, a good result not yet sent being
replaced. A GRAD whose sums wait to be added adds none (R185, R188). -/
def State.withdrawCmd (s : State) (n : Nat) : State :=
  match s.cmd n with
  | none => s
  | some c => match c.result with
    | some o =>
      if !o.status.good then s
      else if c.stage = .sent then s.setCmd n fun c => { c with result := some (Outcome.tooLate c.head .compute) }
      else (s.setCmd n fun c => { c with result := none, sums := [] }).computeLate n
    | none => s.computeLate n

/-- Everything that units have produced in the row is withdrawn. -/
def State.withdrawUnits (s : State) (p : Nat → Bool) : State :=
  (((s.work.served.filter fun x => p x.1).map Prod.snd).dedup).foldl State.withdrawCmd s

/-! Items (R145, R150, R158, R160). -/

/-- Where a visit's leaf lies: stack and region. -/
def Visit.place (v : Visit) : Nat × Nat := let g := v.granules.headD 0; (granStack g, granRegion g)

/-- Length of a tile of k steps in ns (R170): bytes of the first and of the largest step, cycle terms a and b, and the
clock in MHz. -/
def tileNs (first largest a b k mhz : Nat) : Nat :=
  ceilDiv (first * mhz + a * 1280000 + k * max (b * 1280000) (largest * 8 * mhz)) (1280 * mhz)

/-- Bytes of a step that reads one visit's leaves (R170). -/
def stepBytes (q : Seq) : Nat := q.halves * (elemBytes q.format q.leafD + if fmtIsMx q.format then 16 * q.leafD else 0)

/-- The time a tile has in a row: from 256 ns to 3,839 ns. -/
def workNs : Nat := 3583

/-- The greatest k from `fuel` down to 1 for which a tile fits in a row at a clock; 1 where none does (R174). -/
def fitSteps (first largest a b mhz : Nat) : Nat → Nat
  | 0 => 1
  | k + 1 => if tileNs first largest a b (k + 1) mhz ≤ workNs then k + 1 else fitSteps first largest a b mhz k

/-- Cut a list into pieces of at most n. -/
def pieces {α : Type} (n : Nat) : Nat → List α → List (List α)
  | 0, _ => []
  | _ + 1, [] => []
  | fuel + 1, l => l.take (max 1 n) :: pieces n fuel (l.drop (max 1 n))

/-- The lowest ACLK of Table 18-1, in MHz. -/
def slowAclk : Nat := 1536

/-- The most contexts of an L8 item: what both a round (R150) and an item tile on the arrays (R171) can take, since its
region may fall back before it is issued (R162). -/
def l8Contexts (cost : Cost) (q : Seq) (n : Nat) : Nat :=
  min (fitSteps (stepBytes q) (stepBytes q) cost.aCell cost.bCell slowAclk n) ((workNs - cost.aPair) / cost.bPair)

/-- Key of an item: its command, its region in all, and its part. -/
def itemKey (cmd place part : Nat) : Nat := (cmd * 3072 + place) * 65536 + part

/-- Add an item. -/
def State.addItem (s : State) (key : Nat) (x : Item) : State :=
  { s with work := { s.work with items := Tbl.set s.work.items key x } }

/-- Change every item. -/
def State.setItems (s : State) (f : Nat → Item → Item) : State :=
  { s with work := { s.work with items := Tbl.mapVals s.work.items f } }

/-- Form the work items of an ATTEND whose walk is done (R145). -/
def State.formItems (s : State) (n : Nat) : State :=
  match s.cmd n with
  | none => s
  | some c =>
    let q := s.seqAt c.seqSlot
    match (Tbl.get s.node.library c.program).bind fun p => p.cost q.format q.leafD with
    | none => s
    | some cost =>
      let own := (List.range c.visits.length).filter fun i => match c.visits[i]? with
        | some v => v.lender.isNone
        | none => false
      let place (i : Nat) : Nat × Nat := match c.visits[i]? with | some v => v.place | none => (0, 0)
      let places := (own.map place).dedup
      places.foldl (fun s tr =>
        let idx := own.filter fun i => place i = tr
        let fb := s.inFallback tr.1 tr.2
        let arr := c.path = 1 || fb
        let parts := if c.cls = .l8 then pieces (l8Contexts cost q idx.length) idx.length idx else [idx]
        ((List.range parts.length).zip parts).foldl (fun s p =>
          s.addItem (itemKey n (tr.2 * 12 + tr.1) p.1)
            { cmd := n, stack := tr.1, region := tr.2, visits := p.2, scheduled := c.cls ≠ .l8,
              order := c.slotIndex.getD 0, path := c.path, program := c.program, cost := cost,
              onArray := arr, fallback := fb && c.path ≠ 1, issued := false }) s) s

/-- Items in the order of R146: by slot, then command, then region. -/
def itemBefore (a b : Nat × Item) : Bool :=
  a.2.order < b.2.order || (a.2.order = b.2.order &&
    (a.2.cmd < b.2.cmd || (a.2.cmd = b.2.cmd && (a.2.region < b.2.region || (a.2.region = b.2.region && a.1 ≤ b.1)))))

/-- The items of a stack not yet issued that go on its NBUs; none whose NBU has stopped in this row. L8 items stand in
order of receipt. -/
def State.openItems (s : State) (t : Nat) (scheduled : Bool) : List (Nat × Item) :=
  let gone := match s.stackUnits[t]? with | some k => k.fallNext | none => []
  (s.work.items.filter fun p => p.2.stack = t && p.2.scheduled = scheduled && !p.2.onArray && !p.2.issued
      && !gone.contains p.2.region).mergeSort
    fun a b => if scheduled then itemBefore a b else a.2.cmd < b.2.cmd || (a.2.cmd = b.2.cmd && itemBefore a b)

/-- Take into a round, from the items after the opening one, those of its program and cost entry whose region is not
yet in it, until it is full (R146). -/
def fillRound (cap : Nat) (o : Item) : List (Nat × Item) → List (Nat × Item) → List (Nat × Item)
  | r, [] => r
  | r, x :: t =>
    if r.length < cap ∧ x.2.program = o.program ∧ x.2.cost = o.cost ∧ !(r.any fun y => y.2.region = x.2.region)
    then fillRound cap o (r ++ [x]) t else fillRound cap o r t

/-- The round that the first unissued item opens. -/
def nextRound (cap : Nat) : List (Nat × Item) → List (Nat × Item)
  | [] => []
  | x :: t => if cap = 0 then [] else fillRound cap x.2 [x] (t.take 1024)

/-- Length of a round in MCLK cycles, which are ns at 1.0 GHz (R147). -/
def roundNs (r : List (Nat × Item)) : Nat :=
  match r with
  | [] => 0
  | x :: _ => x.2.cost.aPair + x.2.cost.bPair * r.foldl (fun m y => max m y.2.visits.length) 0

/-- A context of the items waits for writes of an APPEND (R147, R178). -/
def State.itemsWait (s : State) (r : List (Nat × Item)) : Bool :=
  r.any fun x => match s.cmd x.2.cmd with
    | some c => x.2.visits.any fun i => match c.visits[i]? with
      | some v => v.appendWait && v.cards.any s.appendWrites
      | none => false
    | none => false

/-- Bytes of scheduled APPEND writes still to come on a die before those that a visit waits for have ended: the jobs of the
row in order, up to the last one that writes one of its cards (R177, R178). -/
def State.writeLeft (s : State) (cards : List Nat) : Nat :=
  let bytes (a : AppendJob) : Nat := a.acts.foldl (fun n x => match x with
    | .line _ cells _ => n + cells.length
    | .raise _ _ => n) 0
  let writes (a : AppendJob) : Bool := a.acts.any fun x => match x with
    | .raise cs _ => cs.any cards.contains
    | .line _ _ _ => false
  let due := s.work.appends.filter fun a => a.scheduled && a.row < s.row
  due.foldl (fun m a => if writes a then
      max m ((due.filter fun b => b.die = a.die && b.cmd ≤ a.cmd).foldl (fun n b => n + bytes b) 0) else m) 0

/-- The wait for APPEND writes that a unit counts in its prediction for some visits of a command, in ns (R178). -/
def State.visitsWaitNs (s : State) (n : Nat) (is : List Nat) : Nat :=
  match s.cmd n with
  | none => 0
  | some c => is.foldl (fun m i => match c.visits[i]? with
      | some v => if v.appendWait && v.cards.any s.appendWrites then max m (ceilDiv (s.writeLeft v.cards) 160) else m
      | none => m) 0

/-- The wait of a round. -/
def State.itemsWaitNs (s : State) (r : List (Nat × Item)) : Nat :=
  r.foldl (fun m x => max m (s.visitsWaitNs x.2.cmd x.2.visits)) 0

/-! Spill (R159). -/

/-- The keys of the items in the first round predicted not to fit and in later ones; `wait` is the wait of a round for
APPEND writes from 256 ns on (R148, R178). -/
def misfits (cap : Nat) (wait : List (Nat × Item) → Nat) : Nat → Nat → List (Nat × Item) → List Nat
  | 0, _, _ => []
  | _ + 1, _, [] => []
  | fuel + 1, now, items =>
    let r := nextRound cap items
    let start := max now (256 + wait r)
    if r = [] then items.map Prod.fst
    else if 3839 < start + roundNs r then items.map Prod.fst
    else misfits cap wait fuel (start + roundNs r) (items.filter fun x => !r.any fun y => y.1 = x.1)

/-- ROUND_SPILL on a stack: the PATH 10 items that would not fit go to the arrays. -/
def State.spill (s : State) (t : Nat) : State :=
  let items := s.openItems t true
  let bad := misfits (s.fld (rCapNowEffectiveCap t)) s.itemsWaitNs (items.length + 1) 256 items
  let moved := (items.filter fun x => x.2.path = 2 && bad.contains x.1).map Prod.fst
  let s := s.setItems fun k x => if moved.contains k then { x with onArray := true } else x
  s.count (rPathItemsSpilled t) moved.length

/-! The staging of leaf data by the arrays (R167, R170). -/

/-- A visit that waits for APPEND writes (R178). -/
def State.visitWaits (s : State) (n i : Nat) : Bool :=
  match (s.cmd n).bind fun c => c.visits[i]? with
  | some v => v.appendWait && v.cards.any s.appendWrites
  | none => false

/-- The visits of a tile, by command and index. -/
def State.tileVisits (s : State) (t : Tile) : List (Nat × Nat) :=
  match t.kind with
  | .item => t.items.flatMap fun k => match Tbl.get s.work.items k with
      | some x => x.visits.map fun i => (x.cmd, i)
      | none => []
  | _ => t.visits.map fun i => (t.cmd, i)

/-- A half of a leaf in the stacks, with its format and D. -/
structure Laid where
  loc : HalfLoc
  fmt : Nat
  d : Nat
  deriving DecidableEq, Repr

/-- Where the leaf of a visit lies. -/
def State.visitLeaves (s : State) (x : Nat × Nat) : List Laid :=
  match s.cmd x.1 with
  | none => []
  | some c => match c.visits[x.2]? with
    | some v => let q := s.seqAt c.seqSlot; (v.granules.zip v.scales).map fun g => ⟨⟨g.1, g.2⟩, q.format, q.leafD⟩
    | none => []

/-- Granules that hold bytes of a leaf. -/
def Laid.granules (l : Laid) : List Nat :=
  runOf l.loc.granule (leafGranules l.fmt l.d) ++ (l.loc.scale.map Prod.fst).toList

/-- A byte of the stacks belongs to a leaf. -/
def Laid.holds (l : Laid) (a : Nat) : Bool :=
  (runOf l.loc.granule (leafGranules l.fmt l.d)).contains (a / 16384) || match l.loc.scale with
    | some p => scaleAddr p l.d 0 ≤ a && a < scaleAddr p l.d (16 * l.d)
    | none => false

/-- The leaves of a tile. -/
def State.tileLeaves (s : State) (t : Tile) : List Laid := ((s.tileVisits t).flatMap s.visitLeaves).dedup

/-- What an array stages for a tile. -/
def State.stage (s : State) (t : Tile) : List Host.Cell × List Nat :=
  let ls := s.tileLeaves t
  (s.mem.filter fun c => ls.any fun l => l.holds c.1, s.poison.filter fun k => ls.any fun l => l.holds (k * 64))

/-- Change the tile on an array. -/
def State.setTile (s : State) (a : Nat) (f : Tile → Tile) : State :=
  { s with arrays := { s.arrays with running := s.arrays.running.map fun t => if t.array = a then f t else t } }

/-- A tile's staging reads begin, once the APPENDs that its contexts wait for have written (R178): host accesses, which wait
while their regions are in a round (R154). -/
def State.beginTile (s : State) (t : Tile) : State :=
  if t.left.isSome ∨ (s.tileVisits t).any fun x => s.visitWaits x.1 x.2 then s
  else
    let (w, s) := s.hostRegions (.tile t.array)
      (((s.tileLeaves t).flatMap Laid.granules).map fun g => (granStack g, granRegion g)).dedup
    s.setTile t.array fun t => { t with left := some w, staged := if w = 0 then some (s.stage t) else none }

/-- Tiles that waited for APPEND writes begin. -/
def State.beginTiles (s : State) : State := s.arrays.running.foldl State.beginTile s

/-- A staging read of an array is served. -/
def State.serveTile (s : State) (a : Nat) : State :=
  s.setTile a fun t => match t.left with
    | some (k + 1) => { t with left := some k, staged := if k = 0 then some (s.stage t) else none }
    | _ => t

/-! Rounds (R146 to R150). -/

/-- Contexts of a stack's round still run. -/
def State.roundBusy (s : State) (t : Nat) : Bool :=
  match s.stackUnits[t]? with
  | none => false
  | some k => match k.round with
    | none => false
    | some r => s.work.ctxs.any fun x => r.items.contains x.2.item

/-- A host access is served: what waited for it goes on. -/
def State.serveAccess (s : State) (a : Access) : State :=
  match a.who with
  | .raw id => s.serveRaw id
  | .line n => (s.serveLine n).beginTiles
  | .tile a => s.serveTile a
  | .other => s

/-- The queued accesses of a stack, region by region. -/
def State.queuedAccesses (s : State) (t : Nat) : List Access :=
  match s.stackUnits[t]? with
  | some k => k.conflicts.flatMap Prod.snd
  | none => []

/-- The longest wait of a queued access, from its entry into the queue, is kept (R154). -/
def State.countWaits (s : State) (t : Nat) : State :=
  (s.queuedAccesses t).foldl (fun s a =>
    let w := s.clock.ns - a.entered
    (s.raise (rConflictMaxWaitNs t) w).sample 0x03 [t] w) s

/-- Serve every queued access of a stack (R154). -/
def State.serveConflicts (s : State) (t : Nat) : State :=
  (s.queuedAccesses t).foldl State.serveAccess ((s.countWaits t).setStack t fun k => { k with conflicts := [] })

/-- Held accesses join their queues in order of arrival, up to eight to a region (R154): the queues, what is still held, and
how many joined. -/
def joinHeld (ns : Nat) : Tbl (List Access) → List Access → Tbl (List Access) × List Access × Nat
  | q, [] => (q, [], 0)
  | q, a :: t =>
    let l := (Tbl.get q a.region).getD []
    if l.length < 8 then
      let r := joinHeld ns (Tbl.set q a.region (l ++ [{ a with entered := ns }])) t
      (r.1, r.2.1, r.2.2 + 1)
    else
      let r := joinHeld ns q t
      (r.1, a :: r.2.1, r.2.2)

/-- A pause of a stack's round begins: the queues are served, then held accesses join (R149, R154). -/
def State.pauseRound (s : State) (t : Nat) : State :=
  match (s.stackUnits[t]?).bind Stack.round with
  | none => s
  | some r =>
    if r.paused then s
    else
      let s := s.serveConflicts t
      match s.stackUnits[t]? with
      | none => s
      | some k =>
        let j := joinHeld s.clock.ns k.conflicts k.held
        (s.setStack t fun k => { k with conflicts := j.1, held := j.2.1, round := some { r with paused := true } }).count
          (rConflictWaits t) j.2.2

/-- A stack's round ends: its regions take host accesses without waiting, those still held among them. -/
def State.endRound (s : State) (t : Nat) : State :=
  let held := match s.stackUnits[t]? with | some k => k.held | none => []
  (s.queuedAccesses t ++ held).foldl State.serveAccess
    ((s.countWaits t).setStack t fun k => { k with round := none, conflicts := [], held := [] })

/-- Every unissued scheduled item of a stack makes its command LATE, and the stack issues none in this row (R148). -/
def State.stopScheduled (s : State) (t : Nat) : State :=
  let cmds := ((s.openItems t true).map fun x => x.2.cmd).dedup
  cmds.foldl State.computeLate (s.setStack t fun k => { k with noSched := true })

/-- Launch the contexts of a round's items (CONTEXT_LAUNCH). -/
def State.launchItem (s : State) (key : Nat) (x : Item) : State :=
  match s.cmd x.cmd with
  | none => s
  | some c => match c.attn with
    | none => s
    | some b => ((List.range x.visits.length).zip x.visits).foldl (fun s i => match s.newCtx x.cmd c b key i.2 0 i.1 with
      | some k => { s with work := { s.work with ctxs := Tbl.set s.work.ctxs (key * 65536 + i.2) k } }
      | none => s) s

/-- Issue a round at an instant. DESIGN CHOICE (log entry 160): BUSY_CYCLES takes the round's predicted length as it is issued,
also where the round is later cut (R149, R165). -/
def State.issueRound (s : State) (t ns : Nat) (scheduled : Bool) (r : List (Nat × Item)) : State :=
  let len := roundNs r
  let keys := r.map Prod.fst
  let s := s.setItems fun k x => if keys.contains k then { x with issued := true } else x
  let program := match r with | x :: _ => x.2.program | [] => 0
  let s := s.setStack t fun k => { k with round := some ⟨program, scheduled, ns, len, false, keys⟩ }
  let s := r.foldl (fun s x => (s.serves (nbuUnit t x.2.region) [x.2.cmd]).launchItem x.1 x.2) s
  ((s.count (rRoundsIssued t) 1).count (rBusyCyclesCount t) (r.length * len)).sample 0x04 [t] len

/-- The most items of a round: EFFECTIVE_CAP, and a head slice for each; 8 of the 136 slices are spares (R142, R152). -/
def State.roundCap (s : State) (t : Nat) : Nat :=
  min (s.fld (rCapNowEffectiveCap t)) (match s.stackUnits[t]? with | some k => 136 - k.slicesFailed | none => 0)

/-- STITCH_ROUND_START: the next round of a stack, scheduled ones first (R146 to R148, R150). -/
def State.startRound (s : State) (t ns : Nat) : State :=
  match s.stackUnits[t]?, s.pat.exec with
  | some k, some e =>
    if ns < 256 ∨ 3839 < ns ∨ s.roundBusy t then s
    else
      let s := (s.tick ns).endRound t
      let cap := s.roundCap t
      let sched := s.openItems t true
      if sched ≠ [] ∧ !k.noSched then
        let r := nextRound cap sched
        if r = [] ∨ 3839 < ns + s.itemsWaitNs r + roundNs r then s.stopScheduled t
        else if s.itemsWait r then s
        else s.issueRound t ns true r
      else if e.l8Open ∧ !k.noL8 then
        let r := nextRound cap (s.openItems t false)
        if r = [] ∨ s.itemsWait r then s
        else if 3839 < ns + roundNs r then s.setStack t fun k => { k with noL8 := true }
        else s.issueRound t ns false r
      else s
  | _, _ => s

/-! The rest of a context, and the cut of a round (R149). -/

/-- What a context has still to execute, in order. -/
def Ctx.rest (c : Ctx) (ops : List SOp) : List (SOp × Nat × Bool) :=
  let tail (k : Nat) := (unroll (ops.length + 1) (ops.drop k)).getD []
  match c.rep with
  | none => tail c.word
  | some r =>
    let body := (ops.drop r.start).take r.len
    (body.drop (c.word - r.start)).map (fun o => (o, c.index, true)) ++
      (List.range r.count).flatMap (fun i => body.map fun o => (o, c.index + 1 + i, true)) ++ tail (r.start + r.len)

/-- Cycles a round still needs: the rest of the context each item is in, and its contexts after it; the longest item
decides, as the NBUs run in lockstep. -/
def State.roundLeft (s : State) (r : Round) : Nat :=
  r.items.foldl (fun m key => match Tbl.get s.work.items key with
    | none => m
    | some x =>
      let cs := s.work.ctxs.filter fun y => y.2.item = key
      match cs, Tbl.get s.node.library x.program with
      | y :: _, some p => max m (pairCount x.cost.format x.cost.d (y.2.rest p.ops) + x.cost.bPair * (cs.length - 1))
      | _, _ => m) 0

/-- ROUND_CUT: the unfinished contexts are not run, their commands complete with LATE, cause COMPUTE, and R148 applies
to the rest of the row. -/
def State.cutRound (s : State) (t : Nat) (r : Round) : State :=
  let cmds := ((s.work.ctxs.filter fun x => r.items.contains x.2.item).map fun x => x.2.cmd).dedup
  let s := { s with work := { s.work with ctxs := s.work.ctxs.filter fun x => !r.items.contains x.2.item } }
  let s := cmds.foldl State.computeLate ((s.count (rRoundsCut t) 1).endRound t)
  if r.scheduled then s.stopScheduled t else s.setStack t fun k => { k with noL8 := true }

/-- PAUSE_RESUME: the round goes on, or ends where it would pass 3,839 ns. -/
def State.resumeRound (s : State) (t ns : Nat) : State :=
  match (s.stackUnits[t]?).bind Stack.round with
  | none => s
  | some r =>
    if !r.paused ∨ !s.roundBusy t then s
    else
      let s := s.tick ns
      if 3839 < ns + s.roundLeft r then s.cutRound t r
      else s.setStack t fun k => { k with round := some { r with paused := false } }

/-! The instructions. -/

/-- The round that a context runs in. -/
def State.ctxRound (s : State) (c : Ctx) : Option (Nat × Round) :=
  (Tbl.get s.work.items c.item).bind fun i => ((s.stackUnits[i.stack]?).bind Stack.round).bind fun r =>
    if r.items.contains c.item then some (i.stack, r) else none

/-- Every NBU of a round keeps step with the broadcast (R147): no context is left of an earlier turn, and none of this turn has
executed fewer instructions. -/
def State.inStep (s : State) (r : Round) (c : Ctx) : Bool :=
  s.work.ctxs.all fun y => !r.items.contains y.2.item || c.turn < y.2.turn || (y.2.turn = c.turn && c.steps ≤ y.2.steps)

/-- A context may execute an instruction: it is the word its program has next (R119, R123), its round is not paused, and the
other NBUs of the round are in step (R147, R149). -/
def State.mayRun (s : State) (c : Ctx) (o : SOp) : Bool :=
  match s.ctxRound c with
  | none => false
  | some (_, r) => !r.paused && s.inStep r c && match Tbl.get s.node.library r.program with
    | some p => p.ops[c.word]? = some o
    | none => false

/-- Every NBU of the round has executed the instruction that ends a granule: the broadcast pauses (R131, R149). -/
def State.pauseWhenAll (s : State) (t turn steps : Nat) (r : Round) : State :=
  if s.work.ctxs.all fun y => !r.items.contains y.2.item || turn < y.2.turn || steps ≤ y.2.steps then s.pauseRound t else s

/-- A context that has ended gives its partials to its command; the last one ends the round (R121, R127). -/
def State.endCtx (s : State) (x : Nat) (c : Ctx) (block : Nat) : State :=
  let r := s.ctxRound c
  let s := { s with work := { s.work with ctxs := Tbl.erase s.work.ctxs x } }
  let s := (s.poisonVisit s c.cmd c.visit c.poison).addParts c.cmd (ctxParts block 0 c) c.poison 1
  match r with
  | none => s
  | some (t, r) => if s.roundBusy t then s.pauseWhenAll t c.turn c.steps r else s.endRound t

/-- Execute one instruction in a context. A GMARK and an END begin a pause of the round (R131, R149). -/
def State.runOp (s : State) (x : Nat) (o : SOp) : State :=
  match Tbl.get s.work.ctxs x with
  | none => s
  | some c => match (s.cmd c.cmd).bind fun k => (k.visits[c.visit]?).bind fun v => s.visitEnv k v with
    | none => s
    | some (l, par, block) =>
      if !s.mayRun c o then s
      else
        let c' := c.run s l par block o
        let s := { s with work := { s.work with ctxs := Tbl.set s.work.ctxs x c' } }
        match o with
        | .endOp => s.endCtx x c' block
        | .gmark => match s.ctxRound c' with
          | some (t, r) => s.pauseWhenAll t c'.turn c'.steps r
          | none => s
        | _ => s

/-- NOP (Table 5-4). -/
def execNop (x : Nat) (s : State) : Out := .next (s.runOp x .nop)
/-- REP (R123). -/
def execRep (x count len : Nat) (s : State) : Out := .next (s.runOp x (.rep count len))
/-- END (R121). -/
def execEndOp (x : Nat) (s : State) : Out := .next (s.runOp x .endOp)
/-- GMARK (R131). -/
def execGmark (x : Nat) (s : State) : Out := .next (s.runOp x .gmark)
/-- SLI (Table 5-4). -/
def execSli (x sd : Nat) (imm : Int) (s : State) : Out := .next (s.runOp x (.sli sd imm))
/-- SADD (Table 5-4). -/
def execSadd (x sd sa sb : Nat) (s : State) : Out := .next (s.runOp x (.sadd sd sa sb))
/-- SSUB (Table 5-4). -/
def execSsub (x sd sa sb : Nat) (s : State) : Out := .next (s.runOp x (.ssub sd sa sb))
/-- AZERO (R126). -/
def execAzero (x q n : Nat) (s : State) : Out := .next (s.runOp x (.azero q n))
/-- KDOT (R125). -/
def execKdot (x row n c : Nat) (ci hf add : Bool) (q : Nat) (s : State) : Out := .next (s.runOp x (.kdot row n c ci hf add q))
/-- ACCV (R126). -/
def execAccv (x row n c : Nat) (ci hf : Bool) (q : Nat) (s : State) : Out := .next (s.runOp x (.accv row n c ci hf q))
/-- SSCL (Table 5-4, R103). -/
def execSscl (x row n c : Nat) (ci : Bool) (mk : Nat) (s : State) : Out := .next (s.runOp x (.sscl row n c ci mk))
/-- SBIAS (Table 5-4, R103). -/
def execSbias (x row n c : Nat) (ci : Bool) (mk : Nat) (s : State) : Out := .next (s.runOp x (.sbias row n c ci mk))
/-- SMAX (Table 5-4). -/
def execSmax (x vr row n c : Nat) (ci : Bool) (mk : Nat) (s : State) : Out := .next (s.runOp x (.smax vr row n c ci mk))
/-- RMAX (Table 5-4). -/
def execRmax (x vr n : Nat) (s : State) : Out := .next (s.runOp x (.rmax vr n))
/-- SEXP (R105). -/
def execSexp (x vr row n c : Nat) (ci : Bool) (mk : Nat) (s : State) : Out := .next (s.runOp x (.sexp vr row n c ci mk))
/-- VSET (Table 5-4). -/
def execVset (x vr n k : Nat) (s : State) : Out := .next (s.runOp x (.vset vr n k))
/-- MSET (Table 5-4). -/
def execMset (x mk cond sa c : Nat) (ci : Bool) (s : State) : Out := .next (s.runOp x (.mset mk cond sa c ci))
/-- MAND (Table 5-4). -/
def execMand (x mk ma mb : Nat) (s : State) : Out := .next (s.runOp x (.mand mk ma mb))
/-- MOR (Table 5-4). -/
def execMor (x mk ma mb : Nat) (s : State) : Out := .next (s.runOp x (.mor mk ma mb))
/-- EMIT (R127). -/
def execEmit (x vr row n : Nat) (split : Bool) (q : Nat) (s : State) : Out := .next (s.runOp x (.emit vr row n split q))

/-- STITCH_ROUND_START (R146). -/
def execStitchRoundStart (t ns : Nat) (s : State) : Out := .next (s.startRound t ns)

/-- PAUSE_RESUME (R149). -/
def execPauseResume (t ns : Nat) (s : State) : Out := .next (s.resumeRound t ns)

end Sys2Proof.Machine
end

