-- ==== Sys2Proof/Machine/Grad.lean ====
section
/-! DEFINITION. The arithmetic of the gradient service (R181 to R184) and its add phase (R184 to R186). -/

namespace Sys2Proof.Machine

/-- Position κ is visible to query position π (R107); `valid` is the leaf's VALID_COUNT, `k` the leaf position. -/
def visible (m : Model) (pi block valid k : Nat) : Bool :=
  let kappa := block * 256 + k
  k < valid && (!m.maskMode.testBit 0 || kappa ≤ pi) &&
    (!m.maskMode.testBit 1 || (pi < kappa + m.window && kappa < pi + m.window)
      || (m.maskMode.testBit 2 && kappa < m.sinks))

/-- The key or the value of a leaf position over all D elements, with its DETAIL code. -/
def State.wholeVec (s : State) (l : CtxLeaf) (v : Bool) (k : Nat) : List F32 × Option Nat :=
  l.halves.foldl (fun a h =>
    let r := if v then s.valueAt h l.fmt l.d k else s.keyAt h l.fmt l.d k
    (a.1 ++ r.1, lowCode a.2 r.2)) ([], none)

/-- The dot product of two vectors of whole heads: by halves in split-head mode (R102, R104). -/
def wholeDot (l : CtxLeaf) (a b : List F32) : F32 :=
  if l.halves.length = 2 then fadd (dot (a.take l.d) (b.take l.d) l.d) (dot (a.drop l.d) (b.drop l.d) l.d)
  else dot a b l.d

/-- p and g of a visible position in BF16 as FP32 values, and the code of poison met (R181). -/
structure GradPair where
  p : F32
  g : F32
  code : Option Nat
  deriving DecidableEq, Repr

/-- A BF16 value as FP32, with code 4 where the conversion overflows. -/
def bf16Of (x : F32) : F32 × Option Nat :=
  match toBf16 x with
  | some w => (BitVec.ofNat 32 (w * 2 ^ 16), if ffinite x then none else some 4)
  | none => (fzero, some 4)

/-- R181 for one pair and one key position. -/
def gradPair (m : Model) (l : CtxLeaf) (b : AttnBody) (d j h : Nat) (q dO key value : List F32) (kappa : Nat) : GradPair :=
  let pi := b.positions.getD j 0
  let x := fmul (wholeDot l q key) m.scoreScale
  let x := if m.maskMode.testBit 3 then
      fadd x (fmul (m.slopes.getD (16 * b.head + h) fzero) (fint ((kappa : Int) - pi))) else x
  let y := fsub x (b.stat d 0 j h)
  let p := fmul (fexp2 y) (b.stat d 1 j h)
  let dp := wholeDot l dO value
  let ds := fmul p (fsub dp (b.stat d 2 j h))
  let g := fmul ds b.gradFactor
  let code := if 0 < fkey y ∨ !(ffinite x && ffinite p && ffinite dp && ffinite ds && ffinite g) then some 4 else none
  let (pb, c1) := bf16Of p
  let (gb, c2) := bf16Of g
  ⟨pb, gb, lowCode code (lowCode c1 c2)⟩

/-- Every visible position of a leaf for one pair: the position, p and g, the key, the value. -/
def State.gradRow (s : State) (m : Model) (l : CtxLeaf) (b : AttnBody) (d : Nat) (v : Visit) (j h : Nat) :
    List (Nat × GradPair × List F32) :=
  (List.range 256).filterMap fun k =>
    if visible m (b.positions.getD j 0) v.block v.valid k then
      let (key, c1) := s.wholeVec l false k
      let (value, c2) := s.wholeVec l true k
      let x := gradPair m l b d j h (b.query d j h) (b.dOut d j h) key value (v.block * 256 + k)
      some (k, { x with code := lowCode x.code (lowCode c1 c2) }, key)
    else none

/-- The dQ partial of a pair for one leaf (R183, R215). -/
def gradPartial (d block : Nat) (rows : List (Nat × GradPair × List F32)) : Partial :=
  if rows = [] then partialNone d 0 block
  else
    { m := fzero, l := fzero, empty := false, oBf16 := false, level := 0, group := block,
      o := (List.range d).map fun i => treeSum 8 ((List.range 256).map fun k =>
        match rows.find? fun r => r.1 = k with
        | some r => fmul r.2.1.g (r.2.2.getD i fzero)
        | none => fzero) }

/-- The partials and poison of pairs first .. first+count-1 of a GRAD for one visit. -/
def State.gradVisit (s : State) (c : Cmd) (b : AttnBody) (v : Visit) (first count : Nat) : List NodePartial × Option Nat :=
  let q := s.seqAt c.seqSlot
  match Tbl.get s.node.models q.model, s.visitEnv c v with
  | some m, some (l, _, _) =>
    ((b.pairs.drop first).take count).foldl (fun a x =>
      let rows := s.gradRow m l b q.d v x.1 x.2
      (a.1 ++ [⟨0, v.block, x.1, x.2, gradPartial q.d v.block rows⟩],
       rows.foldl (fun c r => lowCode c r.2.1.code) a.2)) ([], none)
  | _, _ => ([], none)

/-- Levels of the tree over n inputs (R182). -/
def treeLevels (n : Nat) : Nat := ((List.range 16).find? fun k => n ≤ 2 ^ k).getD 16

/-- The dK and dV sums of one leaf position over the pairs of a tile, an aligned subtree of the tree over all pairs (R182):
none where no pair of the tile sees it. -/
def State.gradSums (s : State) (m : Model) (l : CtxLeaf) (b : AttnBody) (d : Nat) (v : Visit) (first count k : Nat) :
    Option (List F32 × List F32) :=
  let pairs := (b.pairs.drop first).take count
  let sees (x : Nat × Nat) : Bool := visible m (b.positions.getD x.1 0) v.block v.valid k
  if !pairs.any sees then none
  else
    let key := (s.wholeVec l false k).1
    let value := (s.wholeVec l true k).1
    let terms := pairs.map fun x =>
      if sees x then
        let g := gradPair m l b d x.1 x.2 (b.query d x.1 x.2) (b.dOut d x.1 x.2) key value (v.block * 256 + k)
        some (g, b.query d x.1 x.2, b.dOut d x.1 x.2)
      else none
    let n := min 6 (treeLevels b.pairs.length)
    let sum (f : GradPair → List F32 → List F32 → F32) : F32 :=
      treeSum n ((List.range (2 ^ n)).map fun t => match terms.getD t none with
        | some (g, q, o) => f g q o
        | none => fzero)
    some ((List.range d).map fun i => sum fun g q _ => fmul g.g (q.getD i fzero),
          (List.range d).map fun i => sum fun g _ o => fmul g.p (o.getD i fzero))

/-- The sums that a gradient tile forms for one visit. -/
def State.visitSums (s : State) (c : Cmd) (b : AttnBody) (v : Visit) (first count : Nat) : List GradSum :=
  let q := s.seqAt c.seqSlot
  match Tbl.get s.node.models q.model, s.visitEnv c v with
  | some m, some (l, _, _) => (List.range 256).filterMap fun k =>
      (s.gradSums m l b q.d v first count k).map fun x => ⟨v.block * 256 + k, first / 64, x.1 ++ x.2⟩
  | _, _ => []

/-- The sums of a position over every pair: those of its tiles, combined by the upper levels of the tree; a tile none of whose
pairs sees the position gives +0 (R182). -/
def gradTotal (pairs : Nat) (gs : List GradSum) : List F32 :=
  let n := treeLevels (ceilDiv pairs 64)
  (List.range (match gs with | g :: _ => g.sums.length | [] => 0)).map fun i =>
    treeSum n ((List.range (2 ^ n)).map fun t => match gs.find? fun g => g.tile = t with
      | some g => g.sums.getD i fzero
      | none => fzero)

/-- Add FP32 vectors to bytes of the stacks under the rule of VEC_ADD; none where a line is poisoned or a result is
not finite (R231). -/
def State.addFloats (s : State) (a : Nat) (xs : List F32) : Option State :=
  if s.poisoned a (4 * xs.length) then none
  else
    let out := List.zipWith fadd (floats (s.load a (4 * xs.length)) xs.length) xs
    if out.all ffinite then some (s.putBytes a (out.flatMap fun x => leBytes 4 x.toNat)) else none

/-- Positions that a GRAD adds to: those that some pair sees (R184). -/
def Cmd.sumPositions (c : Cmd) : List Nat := (c.sums.map fun g => g.pos).dedup

/-- The local offset of a position's sums (R184). -/
def sumAddr (b : AttnBody) (d : Nat) (base : Int) (pos : Nat) : Nat := (base + gradOffset b d pos).toNat

/-- The adds of a GRAD, all or none. -/
def State.addGrad (s : State) (c : Cmd) (b : AttnBody) (d : Nat) (base : Int) : List Nat → Option State
  | [] => some s
  | p :: ps => (s.addFloats (sumAddr b d base p) (gradTotal b.pairs.length (c.sums.filter fun g => g.pos = p))).bind fun s =>
      s.addGrad c b d base ps

/-- The poison an add meets: a poisoned line (R387) or a sum that is not finite (R231). -/
def State.addPoison (s : State) (c : Cmd) (b : AttnBody) (d : Nat) (base : Int) : Nat :=
  if c.sumPositions.any fun p => s.poisoned (sumAddr b d base p) (8 * d) then 1 else 4

/-- The host accesses of the adds. -/
def State.touchSums (s : State) (c : Cmd) (b : AttnBody) (d : Nat) (base : Int) : State :=
  ((c.sumPositions.map fun p => p / 256).dedup).foldl (fun s k =>
    (s.hostBytes (sumAddr b d base (k * 256)) (2048 * d) .other).2) s

/-- The local offset that offset 0 of a command's DEST_KEY stands for: on a COMPAT queue pair, through the process
space (R324). -/
def State.gradBase (s : State) (c : Cmd) (k : Key) : Int :=
  match s.sender c.head, k.process with
  | some (_, q), some (_, off) => if q.compat then (k.base : Int) - off else k.base
  | _, _ => k.base

/-- GRAD_ADD_PHASE: the key is checked again; the sums that the tiles formed are added; the result may leave (R184 to R186). A
scheduled GRAD adds from 256 ns of row n+2, an earlier one of the same sequence first (R185). -/
def State.gradAdd (s : State) (n : Nat) : State :=
  match s.cmd n with
  | none => s
  | some c => match c.attn, c.result, c.key.bind fun i => Tbl.get s.xport.keys i with
    | some b, some o, some k =>
      let early := c.cls ≠ .l8 && s.row < c.row + 2
      let behind := s.work.cmds.any fun p => p.1 < n && p.2.opcode = opGrad && p.2.seqSlot = c.seqSlot && p.2.key.isSome
      if c.opcode ≠ opGrad ∨ c.stage = .sent ∨ !o.status.good ∨ early ∨ behind then s
      else
        let finish (s : State) (o : Outcome) : State :=
          (s.setCmd n fun c => { c with result := none }).decide n o
        if k.state ≠ .valid ∨ k.isRevoking s.row then finish s (Outcome.bare c.head .revoked 0)
        else
          let base := s.gradBase c k
          let d := (s.seqAt c.seqSlot).d
          match s.addGrad c b d base c.sumPositions with
          | some t => finish (t.touchSums c b d base) o
          | none => finish s (Outcome.poison c.head (s.addPoison c b d base))
    | _, _, _ => s

/-- GRAD_ADD_PHASE (R184). -/
def execGradAddPhase (n : Nat) (s : State) : Out := .next (s.gradAdd n)

end Sys2Proof.Machine
end

