-- ==== Sys2Proof/Machine/Tiles.lean ====
section
/-! DEFINITION. The attention arrays' tiles (R168 to R174, R187). -/

namespace Sys2Proof.Machine

/-! Forming tiles (R171, R174). -/

/-- ACLK of a die in the row, in MHz. -/
def State.aclk (s : State) (die : Nat) : Nat := s.fld (rAclkNowMhz die)

/-- The lowest ACLK of any attention die in the row. -/
def State.slowestAclk (s : State) : Nat := (List.range 4).foldl (fun m d => min m (s.aclk d)) (s.aclk 0)

/-- A cost entry with the cycle terms a and b of a tile for a command (R170, R187). -/
def State.tileCost (s : State) (c : Cmd) : Nat × Nat :=
  let q := s.seqAt c.seqSlot
  if c.opcode = opGrad then (ceilDiv (4 * q.d) 64 + 16, 64 + 20 * q.d)
  else match (Tbl.get s.node.library c.program).bind fun p => p.cost q.format q.leafD with
    | some x => (x.aCell, x.bCell)
    | none => (0, 0)

/-- The tiles of an ATTEND_MULTI or a GRAD: groups of 64 positions or pairs, each over runs of k leaves in block
order (R174). -/
def State.formTiles (s : State) (n : Nat) : State :=
  match s.cmd n with
  | none => s
  | some c => match c.attn with
    | none => s
    | some b =>
      let q := s.seqAt c.seqSlot
      let (x, y) := s.tileCost c
      let own := (List.range c.visits.length).filter fun i => match c.visits[i]? with
        | some v => v.lender.isNone
        | none => false
      let mhz := if c.cls = .l8 then slowAclk else s.slowestAclk
      let k := fitSteps (stepBytes q) (stepBytes q) x y mhz own.length
      let total := if c.opcode = opGrad then b.qcount * b.qheads else b.qcount
      let tiles := (List.range (ceilDiv total 64)).flatMap fun g =>
        (pieces k own.length own).map fun run =>
          ({ kind := if c.opcode = opGrad then .gradient else .position, cmd := n, scheduled := c.cls ≠ .l8,
             order := c.slotIndex.getD 0, visits := run, first := 64 * g, count := min 64 (total - 64 * g), items := [],
             array := 0, startNs := 0, endNs := 0, left := none, staged := none } : Tile)
      { s with arrays := { s.arrays with due := s.arrays.due ++ tiles } }

/-! Arrays. -/

/-- A logical array is in service: not in OUT_MAP, not stopped in this row (R188), its die not held (R381, R382). -/
def State.arrayIn (s : State) (a : Nat) : Bool :=
  !(s.fld (rOutMapArrays (a / 48))).testBit (a % 48) && !s.arrays.outNext.contains a
    && (Tbl.get s.vault.blocks (0x020 + a / 48)).isNone

/-- The lowest-numbered free array. -/
def State.freeArray (s : State) : Option Nat :=
  (List.range 192).find? fun a => s.arrayIn a && s.arrays.running.all fun t => t.array ≠ a

/-- Arrays in service. -/
def State.arraysIn (s : State) : Nat := ((List.range 192).filter s.arrayIn).length

/-- Arrays that scheduled tiles hold. -/
def State.scheduledArrays (s : State) : Nat := (s.arrays.running.filter fun t => t.scheduled).length

/-- The items on the arrays not yet issued, in order: fallback ones of the row, then spilled ones, and the items of PATH
01 slots apart. -/
def State.arrayItems (s : State) (p : Item → Bool) : List (Nat × Item) :=
  (s.work.items.filter fun x => x.2.onArray && !x.2.issued && p x.2).mergeSort itemBefore

/-- The steps, first bytes, largest bytes and cycle terms of an item tile (R170). -/
def State.itemTileNs (s : State) (xs : List (Nat × Item)) (mhz : Nat) : Nat :=
  let bytes (x : Nat × Item) : Nat := match s.cmd x.2.cmd with
    | some c => stepBytes (s.seqAt c.seqSlot)
    | none => 0
  let k := xs.foldl (fun m x => max m x.2.visits.length) 0
  let step (i : Nat) : Nat := xs.foldl (fun n x => if i < x.2.visits.length then n + bytes x else n) 0
  tileNs (step 0) ((List.range k).foldl (fun m i => max m (step i)) 0)
    (xs.foldl (fun m x => max m x.2.cost.aCell) 0) (xs.foldl (fun m x => max m x.2.cost.bCell) 0) k mhz

/-- The predicted time of an item tile: its wait for APPEND writes, then its length (R170, R178). -/
def State.itemTileSpan (s : State) (xs : List (Nat × Item)) (mhz : Nat) : Nat := s.itemsWaitNs xs + s.itemTileNs xs mhz

/-- Take items into a tile in order for as long as its predicted end stays at or before 3,839 ns, 64 at most. -/
def State.takeItems (s : State) (ns mhz : Nat) : List (Nat × Item) → List (Nat × Item) → List (Nat × Item)
  | r, [] => r
  | r, x :: t =>
    if r.length < 64 ∧ ns + s.itemTileSpan (r ++ [x]) mhz ≤ 3839 then s.takeItems ns mhz (r ++ [x]) t else r

/-- A tile for items. -/
def itemTile (xs : List (Nat × Item)) (scheduled : Bool) : Tile :=
  { kind := .item, cmd := match xs with | x :: _ => x.2.cmd | [] => 0, scheduled := scheduled, order := 0, visits := [],
    first := 0, count := 0, items := xs.map Prod.fst, array := 0, startNs := 0, endNs := 0, left := none, staged := none }

/-- Length of a position or gradient tile on a clock. -/
def State.tileLength (s : State) (t : Tile) (mhz : Nat) : Nat :=
  match s.cmd t.cmd with
  | none => 0
  | some c =>
    let f := stepBytes (s.seqAt c.seqSlot)
    let (a, b) := s.tileCost c
    tileNs f f a b t.visits.length mhz

/-- The predicted time of a position or gradient tile. -/
def State.tileSpan (s : State) (t : Tile) (mhz : Nat) : Nat := s.visitsWaitNs t.cmd t.visits + s.tileLength t mhz

/-- Cells a tile uses. -/
def Tile.cells (t : Tile) : Nat := match t.kind with | .item => t.items.length | _ => t.count

/-- The commands a tile serves. -/
def State.tileCmds (s : State) (t : Tile) : List Nat :=
  match t.kind with
  | .item => (t.items.filterMap fun k => (Tbl.get s.work.items k).map fun x => x.cmd).dedup
  | _ => [t.cmd]

/-- Items of fallback regions that a tile serves, counted on their stacks (FALLBACK_ITEMS of Table 6-4). -/
def State.countFallback (s : State) (t : Tile) : State :=
  t.items.foldl (fun s k => match Tbl.get s.work.items k with
    | some x => if x.fallback then s.count (rPathItemsFallbackItems x.stack) 1 else s
    | none => s) s

/-- Start a tile on an array, predicted to take `span` ns. -/
def State.runTile (s : State) (t : Tile) (a ns span : Nat) : State :=
  let die := a / 48
  let t := { t with array := a, startNs := ns, endNs := ns + span }
  let s := (s.serves (arrayUnit a) (s.tileCmds t)).setItems fun k x => if t.items.contains k then { x with issued := true } else x
  let s := { s with arrays := { s.arrays with
    running := s.arrays.running ++ [t]
    lastEnd := if t.scheduled then Tbl.set s.arrays.lastEnd die (max (Tbl.num s.arrays.lastEnd die) t.endNs)
      else s.arrays.lastEnd } }
  (((s.countFallback t).count (rTilesIssued die) 1).count (rArrayTilesTiles die (a % 48)) 1).beginTile t

/-- Count tiles not issued on the die of their command's walker (TILES.CUT), and make their commands LATE. DESIGN CHOICE (log
entry 162): an item that was never put in a tile counts as one. -/
def State.cutTiles (s : State) (cmds : List Nat) : State :=
  let s := cmds.foldl (fun s n => match s.cmd n with
    | some c => s.count (rTilesCut (s.walkerOf c.seqSlot / 4)) 1
    | none => s) s
  cmds.dedup.foldl State.computeLate s

/-- The scheduled tiles still due and the items on the arrays that pass a test are not issued. -/
def State.cutDue (s : State) (p : Item → Bool) : State :=
  let cmds := ((s.arrays.due.filter fun t => t.scheduled).map fun t => t.cmd) ++ (s.arrayItems p).map fun x => x.2.cmd
  { s with arrays := { s.arrays with due := s.arrays.due.filter fun t => !t.scheduled } }.cutTiles cmds

/-- A scheduled tile does not fit: no further one is issued in the row (R171). -/
def State.stopTiles (s : State) : State :=
  { s with arrays := { s.arrays with noSched := true } }.cutDue fun x => x.scheduled && x.path = 1

/-- The first scheduled tile in slot order, then command order; with the rest of the tiles due. -/
def firstTile : List Tile → Option Tile
  | [] => none
  | t :: ts => match firstTile ts with
    | none => some t
    | some u => if u.order < t.order ∨ (u.order = t.order ∧ u.cmd < t.cmd) then some u else some t

/-- Remove the first tile equal to one. -/
def dropTile (t : Tile) (l : List Tile) : List Tile := l.erase t

/-- An item comes before a tile, by slot and command. -/
def itemFirst (x : Nat × Item) : Option Tile → Bool
  | some t => x.2.order < t.order || (x.2.order = t.order && x.2.cmd < t.cmd)
  | none => true

/-- Issue one scheduled tile on a free array (R171 steps 1 to 3). DESIGN CHOICE (log entry 161): items of PATH 01 slots that
stand before the next position or gradient tile share one item tile, across commands and slots, for as long as its predicted
end stays at or before 3,839 ns. -/
def State.issueScheduled (s : State) (a ns : Nat) : State :=
  let mhz := s.aclk (a / 48)
  let tile := firstTile (s.arrays.due.filter fun t => t.scheduled)
  let items := (s.arrayItems fun x => x.scheduled && x.path = 1).filter fun x => itemFirst x tile
  match items, tile with
  | _ :: _, _ =>
    let xs := s.takeItems ns mhz [] items
    if xs = [] then s.stopTiles else s.runTile (itemTile xs true) a ns (s.itemTileSpan xs mhz)
  | [], some t =>
    if 3839 < ns + s.tileSpan t mhz then s.stopTiles
    else { s with arrays := { s.arrays with due := dropTile t s.arrays.due } }.runTile t a ns (s.tileSpan t mhz)
  | [], none => s

/-- Issue one item tile for fallback regions or spilled work (R171 step 4); an item that cannot end by 3,839 ns makes
its command LATE (R159). -/
def State.issueMoved (s : State) (a ns : Nat) (items : List (Nat × Item)) : State :=
  let mhz := s.aclk (a / 48)
  let xs := s.takeItems ns mhz [] items
  match xs, items with
  | [], x :: _ => s.cutTiles [x.2.cmd]
  | [], [] => s
  | _, _ => s.runTile (itemTile xs false) a ns (s.itemTileSpan xs mhz)

/-- Issue one L8 tile, in order of receipt (R171 step 5). -/
def State.issueL8 (s : State) (a ns : Nat) : State :=
  let mhz := s.aclk (a / 48)
  let tile := (s.arrays.due.filter fun t => !t.scheduled).head?
  let items := ((s.arrayItems fun x => !x.scheduled).mergeSort fun x y => x.2.cmd ≤ y.2.cmd).filter fun x =>
    match tile with | some t => x.2.cmd < t.cmd | none => true
  let full : State := { s with arrays := { s.arrays with noL8 := true } }
  match items, tile with
  | _ :: _, _ =>
    let xs := s.takeItems ns mhz [] items
    if xs = [] then full else s.runTile (itemTile xs false) a ns (s.itemTileSpan xs mhz)
  | [], some t =>
    if 3839 < ns + s.tileSpan t mhz then full
    else { s with arrays := { s.arrays with due := dropTile t s.arrays.due } }.runTile t a ns (s.tileSpan t mhz)
  | [], none => s

/-- Scheduled tiles, or items of PATH 01 slots, are still to be issued in the row. -/
def State.scheduledDue (s : State) : Bool :=
  !s.arrays.noSched && (s.arrays.due.any (fun t => t.scheduled) || (s.arrayItems fun x => x.scheduled && x.path = 1) ≠ [])

/-- An array outside the ARRAY_CAP count is left for other tiles while scheduled ones are still to be issued (R171 step 4). -/
def State.outsideCap (s : State) (cap : Nat) : Bool :=
  (s.arrays.running.filter fun t => !t.scheduled).length + cap < s.arraysIn

/-- TILE_ISSUE: the next tile of R171's order, on the lowest-numbered free array. Scheduled tiles hold ARRAY_CAP arrays at most;
while they wait for one of these, item tiles of fallback regions, then of spilled items, go to arrays outside the count. -/
def State.issueTile (s : State) (ns : Nat) : State :=
  match s.pat.exec, s.freeArray with
  | some e, some a =>
    if ns < 256 ∨ 3839 < ns then s
    else
      let s := s.tick ns
      if s.scheduledDue ∧ s.scheduledArrays < e.arrayCap then s.issueScheduled a ns
      else if s.scheduledDue ∧ !s.outsideCap e.arrayCap then s
      else
        let fallback := s.arrayItems fun x => x.scheduled && x.path ≠ 1 && x.fallback
        let moved := s.arrayItems fun x => x.scheduled && x.path ≠ 1 && !x.fallback
        if fallback ≠ [] then s.issueMoved a ns fallback
        else if moved ≠ [] then s.issueMoved a ns moved
        else if e.l8Open ∧ !s.arrays.noL8 ∧ !s.scheduledDue then s.issueL8 a ns
        else s
  | _, _ => s

/-! The end of a tile. -/

/-- The partials of one visit of a command for its j-th position, computed by a cell. -/
def State.cellPartials (s : State) (n : Nat) (c : Cmd) (b : AttnBody) (i j : Nat) : List NodePartial × Option Nat :=
  match (c.visits[i]?).bind fun v => s.visitEnv c v, s.newCtx n c b 0 i j 0, Tbl.get s.node.library c.program with
  | some (l, par, block), some x, some p =>
    let y := x.runAll s l par block p
    (ctxParts block j y, y.poison)
  | _, _, _ => ([], none)

/-- Collect results. -/
def collect (l : List (List NodePartial × Option Nat)) : List NodePartial × Option Nat :=
  l.foldl (fun a x => (a.1 ++ x.1, lowCode a.2 x.2)) ([], none)

/-- Give a command what a tile has computed over some of its visits; `view` is what the array staged. -/
def State.giveTile (s view : State) (n : Nat) (visits : List Nat) (r : List NodePartial × Option Nat) (contexts : Nat) : State :=
  (visits.foldl (fun s i => s.poisonVisit view n i r.2) s).addParts n r.1 r.2 contexts

/-- Compute a tile from what its array has staged, and give its results to its commands (R167). DESIGN CHOICE (log entry
167): the cells' contexts run as one at the tile's end. -/
def State.finishTile (s : State) (t : Tile) (staged : List Host.Cell × List Nat) : State :=
  let view : State := { s with mem := staged.1, poison := staged.2 }
  match t.kind with
  | .item => t.items.foldl (fun s k => match Tbl.get s.work.items k with
      | none => s
      | some x => match s.cmd x.cmd with
        | none => s
        | some c => match c.attn with
          | none => s
          | some b => s.giveTile view x.cmd x.visits (collect (x.visits.map fun i => view.cellPartials x.cmd c b i 0))
              x.visits.length) s
  | kind => match s.cmd t.cmd with
    | none => s
    | some c => match c.attn with
      | none => s
      | some b =>
        if kind = .gradient then
          let vs := t.visits.filterMap fun i => c.visits[i]?
          let s := s.giveTile view t.cmd t.visits (collect (vs.map fun v => view.gradVisit c b v t.first t.count)) t.visits.length
          s.setCmd t.cmd fun c => { c with sums := c.sums ++ vs.flatMap fun v => view.visitSums c b v t.first t.count }
        else
          s.giveTile view t.cmd t.visits (collect (t.visits.flatMap fun i =>
            (List.range t.count).map fun j => view.cellPartials t.cmd c b i (t.first + j))) (t.visits.length * t.count)

/-- An array's tile leaves it at an instant: its cells' cycles are counted (BUSY_CELL_CYCLES), and staging reads of its own
that still wait serve nothing. -/
def State.leaveArray (s : State) (a ns : Nat) : State :=
  let forget (x : Access) : Access := if x.who = .tile a then { x with who := .other } else x
  let s := (s.arrays.running.filter fun t => t.array = a).foldl (fun s t =>
    s.count (rBusyCellCyclesCount (a / 48)) (t.cells * ((ns - t.startNs) * s.aclk (a / 48) / 1000))) s
  { s with
    arrays := { s.arrays with running := s.arrays.running.filter fun t => t.array ≠ a }
    stackUnits := s.stackUnits.map fun k =>
      { k with conflicts := Tbl.mapVals k.conflicts fun _ q => q.map forget, held := k.held.map forget } }

/-- The tile of an array is abandoned at 3,839 ns: its outputs are lost and its commands LATE (R172). -/
def State.withdrawTiles (s : State) (a : Nat) : State :=
  let gone := s.arrays.running.filter fun t => t.array = a
  gone.foldl (fun s t => ((s.tileCmds t).foldl State.computeLate s).count (rTilesCut (a / 48)) 1) (s.leaveArray a 3839)

/-- TILE_END: the tile on an array ends, once its data is staged; past 3,839 ns it is abandoned (R172). -/
def State.endTile (s : State) (a ns : Nat) : State :=
  match s.arrays.running.find? fun t => t.array = a with
  | none => s
  | some t =>
    let s := s.tick ns
    if 3839 < ns then s.withdrawTiles a
    else match t.staged with
      | none => s
      | some m => (s.finishTile t m).leaveArray a ns

/-- APPEND_LINE_WRITE: one line on a die (R177); tiles that waited for the writes of an APPEND begin (R178). -/
def execAppendLineWrite (die : Timed) (s : State) : Out := .next (s.appendStep die.id die.ns).beginTiles

/-- TILE_ISSUE (R171). -/
def execTileIssue (ns : Nat) (s : State) : Out := .next (s.issueTile ns)

/-- TILE_END (R169). -/
def execTileEnd (array ns : Nat) (s : State) : Out := .next (s.endTile array ns)

/-- TILE_ABANDON (R172). -/
def execTileAbandon (array : Nat) (s : State) : Out := .next (s.withdrawTiles array)

end Sys2Proof.Machine
end

