-- ==== Sys2Proof/Machine/CommandLife.lean ====
section
/-! DEFINITION. The life of a command after receipt (R42 to R53, R201): held and fenced commands, the L8 queue,
sub-commands, deadlines and completion. -/

namespace Sys2Proof.Machine

/-! Held and fenced commands (R44, R201). -/

/-- Admit a command received in row r. -/
def admitCommand (i : Instr) (r : Nat) (s : State) : State :=
  match i with
  | .openSeq h b => admitOpen h b r s
  | .closeSeq h => admitClose h r s
  | .fork h b => admitFork h b r s
  | .append h b => admitAppend h b r s
  | .attend h b => admitAttn opAttend h b r s
  | .attendMulti h b => admitAttn opAttendMulti h b r s
  | .merge h b => admitMerge h b r s
  | .grad h b => admitAttn opGrad h b r s
  | .prefixFind h b => admitFind h b r s
  | .prefixPublish h b => admitPublish h b r s
  | .pin h b => admitRange opPin h b r s
  | .unpin h b => admitRange opUnpin h b r s
  | .promote h b => admitRange opPromote h b r s
  | .demote h b => admitRange opDemote h b r s
  | .migrate h b => admitRange opMigrate h b r s
  | .freeRange h b => admitRange opFreeRange h b r s
  | .readMem h b => admitRaw opRead h b r s
  | .writeMem h b => admitRaw opWrite h b r s
  | .fetchAdd h b => admitRaw opFetchAdd h b r s
  | .cmpSwap h b => admitRaw opCmpSwap h b r s
  | .vecAdd h b => admitRaw opVecAdd h b r s
  | _ => s

/-- A command that waited is admitted; the node's state is checked again (R27). -/
def State.resume (s : State) (w : Waiting) : State :=
  match cacheCommand w.cmd with
  | none => s
  | some (op, h) => if s.refusesState op then s.reply op h (Outcome.noRes h 0x1) else admitCommand w.cmd w.row s

/-- EARLY_COMMAND_RELEASE: commands held for this row are received in it (R44). -/
def State.releaseHeld (s : State) : State :=
  let due := s.work.held.filter fun w => w.row ≤ s.row
  due.foldl State.resume { s with work := { s.work with held := s.work.held.filter fun w => s.row < w.row } }

/-- Another command of the sender has been received before and has not completed (R201). -/
def State.senderBusy (s : State) (h : Head) : Bool :=
  (s.work.cmds.any fun p => sameSender p.2.head h) ||
    s.work.held.any fun w => match cacheCommand w.cmd with
      | some (_, g) => sameSender g h
      | none => false

/-- Go through the commands that wait at a FENCE in order: one that no earlier one of its sender still waits before,
and that is no FENCE itself or finds its sender's queue pair clear, is admitted. -/
def State.openFences (s : State) : List Waiting → State
  | [] => s
  | w :: ws => match cacheCommand w.cmd with
    | none => s.openFences ws
    | some (_, h) =>
      let before := s.work.waiting.takeWhile fun x => x ≠ w
      let blocked := before.any fun x => match cacheCommand x.cmd with
        | some (_, g) => sameSender g h
        | none => false
      if blocked ∨ (h.fence ∧ s.senderBusy h) ∨ s.row < w.row then s.openFences ws
      else ({ s with work := { s.work with waiting := s.work.waiting.erase w } }.resume w).openFences ws

/-! The L8 queue (R48, R52, R53). -/

/-- The message of a sub-command: the command's own over the blocks of its group, under the lender's handle and the same model
slot, with ROW_TAG of this row (R46, R261). -/
def subMsg (n : Nat) (c : Cmd) (b : AttnBody) (u : SubCmd) (row : Nat) (scheduled : Bool) : SubMsg :=
  { lender := u.lender, cmd := n, level := u.level, group := u.group, rowTag := row % 65536, scheduled := scheduled,
    opcode := c.opcode, model := c.head.model, handle := u.handle,
    body := { b with firstBlock := u.group * 2 ^ u.level, blockCount := 2 ^ u.level } }

/-- Send the sub-commands of a command to its lenders (R46, R48). -/
def State.forwardSubs (s : State) (n : Nat) (scheduled : Bool) : State :=
  match s.cmd n with
  | none => s
  | some c => match c.attn with
    | none => s
    | some b =>
      let s := (c.subs.filter fun u => !u.isSent).foldl (fun s u => s.send (.subCommand (subMsg n c b u s.row scheduled))) s
      s.setCmd n fun c => { c with subs := c.subs.map fun u => { u with isSent := true } }

/-- Start an L8 command: its items or tiles are formed and its sub-commands sent. -/
def State.startL8 (s : State) (n : Nat) : State :=
  match s.cmd n with
  | none => s
  | some c =>
    let s := { s with work := { s.work with l8 := s.work.l8.filter (· ≠ n) } }
    let s := s.forwardSubs n false
    if c.opcode = opAttend then s.formItems n
    else if c.opcode = opAttendMulti ∨ c.opcode = opGrad then s.formTiles n
    else s

/-- Start a command that has waited for its turn: the rest of its admission and its effect, as if no other waited (R52). One
that then waits for its granules stands at the front of the queue. -/
def State.startDeferred (s : State) (n : Nat) (i : Instr) (r : Nat) : State :=
  let rest := s.work.l8.filter (· ≠ n)
  let s := admitCommand i r { s with work := { s.work with cmds := Tbl.erase s.work.cmds n, l8 := [] } }
  { s with work := { s.work with l8 := s.work.l8 ++ rest } }

/-- Start the command at the front of the L8 queue (R52): one without granules in any row; one with granules where the row's
execution entry has L8_OPEN set and its walk is done. -/
def State.startFront (s : State) (n : Nat) : State :=
  match s.cmd n with
  | none => { s with work := { s.work with l8 := s.work.l8.filter (· ≠ n) } }
  | some c => match c.deferred with
    | some i =>
      if (c.opcode = opFreeRange ∨ c.opcode = opDemote ∨ c.opcode = opMigrate) ∧ s.forkPending c.seqSlot then s
      else s.startDeferred n i c.row
    | none =>
      if s.work.raws.any fun j => j.id = n then s.startRaw n
      else match s.pat.exec with
        | some e => if e.l8Open ∧ c.stage = .walked then s.startL8 n else s
        | none => s

/-- L8_COMMAND_START: fences that can open do so; then the first L8 command starts (R52). -/
def State.startNextL8 (s : State) (ns : Nat) : State :=
  let s := s.tick ns
  let s := s.openFences s.work.waiting
  match s.work.l8 with
  | n :: _ => s.startFront n
  | [] => s

/-- Rows an L8 command may wait (R53). -/
def ageLimit : Nat := 4096

/-- L8_AGE_EXPIRY of an L8 command that has not started, in the queue or as an APPEND without a line written, and of those
that wait at a FENCE. -/
def State.expireAged (s : State) (n : Nat) : State :=
  let age (h : Head) : Outcome := Outcome.tooLate h .age
  let s := match s.cmd n with
    | some c =>
      if s.row < c.row + ageLimit then s
      else if s.work.l8.contains n then s.complete n (age c.head)
      else if s.work.appends.any fun a => a.cmd = n && !a.scheduled && !a.started then
        (s.abandonAppend n age).complete n (age c.head)
      else s
    | none => s
  let old (w : Waiting) : Bool := w.row + ageLimit ≤ s.row && !s.schedWaiting w
  let gone := s.work.waiting.filter old
  { s with work := { s.work with waiting := s.work.waiting.filter fun w => !old w } }.dropWaiting age gone

/-! Sub-commands (R46, R48, R117, R261). -/

/-- L3_FORWARD: in row n+1 the sub-commands go out. -/
def State.forwardL3 (s : State) (n : Nat) : State :=
  match s.cmd n with
  | none => s
  | some c => if c.cls = .l3 ∧ c.stage = .walked ∧ c.row + 1 = s.row then s.forwardSubs n true else s

/-- The pairs of a command with a lender's partials, in order (R211). -/
def lenderParts (b : AttnBody) (level group : Nat) (ps : List Partial) : List NodePartial :=
  (b.pairs.zip ps).map fun x => ⟨level, group, x.1.1, x.1.2, x.2⟩

/-- LENDER_PARTIALS_RECEIVE: a lender's completion of one sub-command. An L3 command takes it by the end of row n+3. -/
def State.lenderAnswer (s : State) (n lender level group : Nat) (st : Status) (detail : Nat) (report : List Nat)
    (ps : List Partial) : State :=
  match s.cmd n with
  | none => s
  | some c => match c.attn with
    | none => s
    | some b =>
      let is (u : SubCmd) : Bool := u.lender = lender && u.level = level && u.group = group && u.isSent && u.status.isNone
      if !c.subs.any is ∨ (c.cls = .l3 ∧ c.row + 3 < s.row) then s
      else
        let full := st.good && ps.length = b.pairs.length
        s.setCmd n fun c => { c with
          subs := c.subs.map fun u => if is u then { u with status := some (st, detail), report := report } else u
          parts := if full then c.parts ++ lenderParts b level group ps else c.parts }

/-! Deadlines (R49). -/

/-- Make every command that passes a test LATE with a cause. -/
def State.lateAll (s : State) (cause : Cause) (p : Cmd → Bool) : State :=
  s.work.cmds.foldl (fun s x =>
    if x.2.result.isNone && p x.2 then (s.abandonAppend x.1 fun h => Outcome.tooLate h cause).decide x.1 (Outcome.tooLate x.2.head cause) else s) s

/-- WALK_DEADLINE: at the end of row n a scheduled walk still open is LATE. -/
def State.walkDeadline (s : State) : State :=
  s.lateAll .walk fun c => c.cls ≠ .l8 && c.stage = .walking && c.row ≤ s.row

/-- COMPUTE_DEADLINE: at the end of row n+1 a scheduled command without its merged result is LATE; of an L3 command
the node's own leaves count (Table 2-9). The result of an APPEND is its writes. -/
def State.computeDeadline (s : State) : State :=
  s.lateAll .compute fun c => c.cls ≠ .l8 && c.row + 1 ≤ s.row && (c.cls = .l2 || c.subs = [] || c.work ≠ 0)

/-- LENDER_DEADLINE: at the end of row n+3 every lender's partials are in (R46). -/
def State.lenderDeadline (s : State) : State :=
  s.lateAll .lender fun c => c.cls = .l3 && c.row + 3 ≤ s.row && c.subs.any fun u => match u.status with
    | some x => !x.1.good
    | none => true

/-! Completion (R42, R49, R195). -/

/-- The row in which the completion of a scheduled command leaves (R42, R46). -/
def Cmd.dueRow (c : Cmd) : Nat := c.row + if c.cls = .l3 then 4 else 2

/-- COMPLETION_SEND: the outcome of a scheduled command leaves the port. A result leaves in row n+2, or n+4 in class
L3; any other status may leave as soon as it is decided. None leaves later (`closeCommands`). -/
def State.sendCompletion (s : State) (n ns : Nat) : State :=
  match s.cmd n with
  | none => s
  | some c => match c.result with
    | none => s
    | some o =>
      if c.stage ≠ .sent ∨ (o.status.good ∧ s.row < c.dueRow) then s
      else (s.tick ns).complete n o

/-! The end of a row (R21, R45, R49). -/

/-- Do something for every scheduled command in flight, in order of admission. -/
def State.eachScheduled (s : State) (f : State → Nat → Cmd → State) : State :=
  s.work.cmds.foldl (fun s p => if p.2.cls = .l8 then s else f s p.1 p.2) s

/-- The checkpoints of the row that ends, at 4,095 ns: walks, merges, and partials of lenders. -/
def State.closePoints (s : State) : State :=
  ((s.walkDeadline.eachScheduled fun s n _ => s.mergeParts n).computeDeadline).lenderDeadline

/-- The adds of the GRADs that are due. DESIGN CHOICE (log entry 168): a scheduled GRAD that an earlier L8 GRAD of its sequence
still stands before (R185) at the end of row n+2 completes with LATE, cause COMPUTE, since its completion is due. -/
def State.closeGrads (s : State) : State :=
  (s.eachScheduled fun s n _ => s.gradAdd n).eachScheduled fun s n c =>
    if c.result.isSome ∧ c.stage ≠ .sent ∧ c.dueRow ≤ s.row then s.withdrawCmd n else s

/-- The end of a row: what its checkpoints decide, and every scheduled completion that is due leaves (R21, R45). -/
def State.closeCommands (s : State) : State :=
  (s.tick 4095).closePoints.closeGrads.eachScheduled fun s n c => if c.dueRow ≤ s.row then s.sendCompletion n 4095 else s

/-- EARLY_COMMAND_RELEASE (R44). -/
def execEarlyCommandRelease (s : State) : Out := .next s.releaseHeld

/-- L3_FORWARD (R46). -/
def execL3Forward (c : Nat) (s : State) : Out := .next (s.forwardL3 c)

/-- LENDER_PARTIALS_RECEIVE (R46, R48). -/
def execLenderPartialsReceive (c lender level group : Nat) (status : Status) (detail : Nat) (report : List Nat)
    (parts : List Partial) (s : State) : Out := .next (s.lenderAnswer c lender level group status detail report parts)

/-- COMPLETION_SEND (R42). -/
def execCompletionSend (c ns : Nat) (s : State) : Out := .next (s.sendCompletion c ns)

/-- WALK_DEADLINE (R49). -/
def execWalkDeadline (s : State) : Out := .next (s.tick 4095).walkDeadline

/-- COMPUTE_DEADLINE (R49). -/
def execComputeDeadline (s : State) : Out := .next (s.tick 4095).computeDeadline

/-- LENDER_DEADLINE (R49). -/
def execLenderDeadline (s : State) : Out := .next (s.tick 4095).lenderDeadline

/-- L8_COMMAND_START (R52). -/
def execL8CommandStart (ns : Nat) (s : State) : Out := .next (s.startNextL8 ns)

/-- L8_AGE_EXPIRY (R53). -/
def execL8AgeExpiry (c : Nat) (s : State) : Out := .next (s.expireAged c)

end Sys2Proof.Machine
end

