-- ==== Sys2Proof/Machine/Units.lean ====
section
/-! DEFINITION. Loss of the node (R27, R28, R389), and faults and spares of NBUs, stitch heads, cells, arrays and walkers
(R12, R161 to R164, R188 to R191, R390). -/

namespace Sys2Proof.Machine

/-! Fault. -/

/-- Everything that waits or works is dropped without a completion: the data path has stopped. -/
def State.dropWork (s : State) : State :=
  { s with
    work := { s.work with
      cmds := []
      held := []
      waiting := []
      l8 := []
      appends := []
      raws := []
      items := []
      ctxs := [] }
    arrays := { s.arrays with
      due := []
      running := [] }
    stackUnits := s.stackUnits.map fun k => { k with round := none, conflicts := [], held := [] } }

/-- Enter Fault from any state but Off (Table 1-8): the data path stops and the cause is recorded. -/
def State.toFault (s : State) (cause : Nat) : State :=
  match s.node.state with
  | .off | .fault => s
  | _ => (s.dropWork.setFld rGlobalStatusFaultCause cause).toNode .fault

/-- A record enters the hardware fault queue; the fault handler takes it by the next row (R400, log entry 15). -/
def State.queueFault (s : State) : State := { s with health := { s.health with faults := s.health.faults ++ [s.row] } }

/-! Shortfall (R12). -/

/-- The event of a unit that no spare can restore. -/
def State.postShort (s : State) (block unit : Nat) : State := s.postFm (s.event 0x0001 block unit)

/-- A spare NBU is testing for a region. -/
def Stack.testsFor (k : Stack) (region : Nat) : Bool :=
  match k.spares[region / 16]? with
  | some (.testing r _) => r = region
  | _ => false

/-- A logical array has a spare under test. -/
def Arrays.testsFor (k : Arrays) (die array : Nat) : Bool :=
  k.testing.any fun x => x.1 = .cell die array || x.1 = .array die array

/-- SHORTFALL of GLOBAL_STATUS: some unit is out of service, and no spare is under test for it. -/
def State.shortfall (s : State) : Bool :=
  ((List.range 12).any fun t => match s.stackUnits[t]? with
    | none => false
    | some k => (s.fallbackMap t).any (fun r => !k.testsFor r) || 8 < k.slicesFailed) ||
  (List.range 192).any fun a =>
    (s.fld (rOutMapArrays (a / 48))).testBit (a % 48) && !s.arrays.testsFor (a / 48) (a % 48)

/-! NBUs (R161 to R164). -/

/-- Bit of a region in FALLBACK_MAP. -/
def fallbackBit (t r : Nat) : Field := ⟨0x010 + t, 0x030 + 8 * (r / 64), r % 64, r % 64⟩

/-- Keep a record of a stopped NBU, unless one is held (Table 6-4). -/
def State.recordNbu (s : State) (t region cause : Nat) : State :=
  if s.fld (rNbuFaultValid t) = 1 then s
  else (((s.setFld (rNbuFaultValid t) 1).setFld (rNbuFaultCause t) cause).setFld (rNbuFaultRegion t) region).setFld
    (rNbuFaultRow t) (row48 s.row)

/-- The spare of a region's group after its unit has stopped: a free one is tested for it, one that served it has failed. -/
def Spare.afterStop (region row : Nat) : Spare → Spare
  | .free => .testing region row
  | .used r => if r = region then .failed else .used r
  | x => x

/-- Stop an NBU (R161, R162). A check code or a missing acknowledgement withdraws what it produced in the row (R151); after
a swatch no command is LATE (R398). The region falls back at the next row, and its group's spare is tested (R163). -/
def State.nbuStop (s : State) (t region cause : Nat) : State :=
  match s.stackUnits[t]? with
  | none => s
  | some k =>
    if 256 ≤ region ∨ cause = 0 ∨ 3 < cause ∨ s.fld (fallbackBit t region) = 1 ∨ k.fallNext.contains region then s
    else
      let s := s.queueFault.recordNbu t region cause
      let s := if cause = 3 then s else
        let cmds := ((s.openItems t true).filter fun x => x.2.region = region).map fun x => x.2.cmd
        cmds.dedup.foldl State.computeLate (s.withdrawUnits fun u => u = nbuUnit t region)
      let spares := setAt k.spares (region / 16) (Spare.afterStop region s.row)
      let s := s.setStack t fun k => { k with fallNext := region :: k.fallNext, spares := spares }
      match spares[region / 16]? with
      | some (.testing r _) => if r = region then s else s.postShort (0x010 + t) region
      | _ => s.postShort (0x010 + t) region

/-- An NBU that has not acknowledged a pause within 32 cycles stops (R161). -/
def State.pauseTimeout (s : State) (t region : Nat) : State :=
  match (s.stackUnits[t]?).bind Stack.round with
  | some r => if r.paused ∧ s.inRound t region then s.nbuStop t region 2 else s
  | none => s

/-- SPARE_CTL of an NBU group with OP 01 (R164): the group's spare is tested for the region. A request for the region that the
spare is already tested for learns how that test ends; one for another, or a spare in use or failed, is refused. -/
def State.mapNbu (s : State) (t region : Nat) : State :=
  match (s.stackUnits[t]?).bind fun k => k.spares[region / 16]? with
  | some .free =>
    (s.setStack t fun k => { k with spares := setAt k.spares (region / 16) fun _ => .testing region s.row }).setFld
      (rSpareCtlResult t) 1
  | some (.testing r _) => s.setFld (rSpareCtlResult t) (if r = region then 1 else 3)
  | _ => s.setFld (rSpareCtlResult t) 3

/-- The request that started a spare test learns how it ended. -/
def State.nbuResult (s : State) (t region result : Nat) : State :=
  if s.fld (rSpareCtlResult t) = 1 ∧ s.fld (rSpareCtlRegion t) = region then s.setFld (rSpareCtlResult t) result else s

/-- Send a region's items where they belong now (R158, R160). -/
def State.reroute (s : State) (t region : Nat) : State :=
  let fb := s.inFallback t region
  s.setItems fun _ x => if x.stack = t ∧ x.region = region ∧ !x.issued
    then { x with fallback := fb && x.path ≠ 1, onArray := x.path = 1 || fb || (x.onArray && !x.fallback) } else x

/-- A spare NBU that has passed takes over its region at the first nanosecond of row f+5 (R163, R164). -/
def State.takeNbu (s : State) (t group : Nat) : State :=
  match (s.stackUnits[t]?).bind fun k => k.spares[group]? with
  | some (.testing region f) =>
    if s.row ≠ f + 5 then s
    else
      let s := if s.fld (fallbackBit t region) = 1 then s else s.recordNbu t region 4
      let s := s.setStack t fun k => { k with spares := setAt k.spares group fun _ => .used region }
      (((s.setFld (fallbackBit t region) 0).nbuResult t region 2).reroute t region).spill t
  | _ => s

/-- A spare NBU that has not taken over by its row has failed its test. -/
def State.failNbuTest (s : State) (t group : Nat) : State :=
  match (s.stackUnits[t]?).bind fun k => k.spares[group]? with
  | some (.testing region f) =>
    if s.row ≤ f + 5 then s
    else
      let s := s.setStack t fun k => { k with spares := setAt k.spares group fun _ => .failed }
      let s := s.nbuResult t region 4
      if s.fld (fallbackBit t region) = 1 then s.postShort (0x010 + t) region else s
  | _ => s

/-! Cells and arrays (R188 to R191). -/

/-- Number of a logical array's physical array on the node. -/
def State.physicalArray (s : State) (die array : Nat) : Nat := die * 52 + s.fld (rArrayInfoPhysical die array)

/-- Spare cells of a logical array's physical array that are neither used, failed nor under test. -/
def State.freeCells (s : State) (die array : Nat) : Nat :=
  4 - Tbl.num s.arrays.spareCells (s.physicalArray die array)
    - (s.arrays.testing.filter fun x => x.1 = .cell die array).length

/-- Spare arrays of a die that are neither used, failed nor under test. -/
def State.freeSpareArrays (s : State) (die : Nat) : Nat :=
  4 - Tbl.num s.arrays.spareArrays die - (s.arrays.testing.filter fun x => match x.1 with
    | .array d _ => d = die
    | _ => false).length

/-- Start the test of a spare. -/
def State.testSpare (s : State) (x : SpareTarget) (row : Nat) : State :=
  { s with arrays := { s.arrays with testing := s.arrays.testing ++ [(x, row)] } }

/-- Test a spare for an array that is out: a cell where one is left, else an array of the die, else none (R189, R190). -/
def State.restoreArray (s : State) (die array row : Nat) (cells : Bool) : State :=
  if s.arrays.testsFor die array then s
  else if cells ∧ s.freeCells die array ≠ 0 then s.testSpare (.cell die array) row
  else if s.freeSpareArrays die ≠ 0 then s.testSpare (.array die array) row
  else s.postShort (0x020 + die) array

/-- Keep a record of a stopped cell, unless one is held (Table 7-5). -/
def State.recordCell (s : State) (die array cell cause : Nat) : State :=
  if s.fld (rArrayFaultValid die) = 1 then s
  else ((((s.setFld (rArrayFaultValid die) 1).setFld (rArrayFaultCause die) cause).setFld (rArrayFaultArray die)
    (s.fld (rArrayInfoPhysical die array))).setFld (rArrayFaultCell die) cell).setFld (rArrayFaultRowRow die) (row48 s.row)

/-- Stop a cell (R188). A check code or a gauge withdraws what its array produced in the row; after a swatch, which no tile runs
beside, no command is LATE (R398). The array is out of service from the next row. -/
def State.cellStop (s : State) (die array cell cause : Nat) : State :=
  let a := die * 48 + array
  if 4 ≤ die ∨ 48 ≤ array ∨ 68 ≤ cell ∨ cause = 0 ∨ 3 < cause ∨ (s.fld (rOutMapArrays die)).testBit array
    ∨ s.arrays.outNext.contains a then s
  else
    let s := s.queueFault.recordCell die array cell cause
    let s := if cause = 2 then s else (s.leaveArray a s.clock.ns).withdrawUnits fun u => u = arrayUnit a
    { s with arrays := { s.arrays with outNext := a :: s.arrays.outNext } }.restoreArray die array s.row true

/-- SPARE_CTL of an attention die: OP 01 asks for a spare cell, OP 10 for a spare array (R191). -/
def State.mapArray (s : State) (die array : Nat) (cell : Bool) : State :=
  let free := if cell then s.freeCells die array else s.freeSpareArrays die
  if 48 ≤ array ∨ free = 0 then s.setFld (rAttSpareCtlResult die) 3
  else (s.testSpare (if cell then .cell die array else .array die array) s.row).setFld (rAttSpareCtlResult die) 1

/-- The request that started a test learns how it ended. -/
def State.arrayResult (s : State) (die array : Nat) (cell : Bool) (result : Nat) : State :=
  if s.fld (rAttSpareCtlResult die) = 1 ∧ s.fld (rAttSpareCtlArray die) = array
    ∧ s.fld (rAttSpareCtlOp die) = (if cell then 1 else 2) then s.setFld (rAttSpareCtlResult die) result else s

/-- The row in which a spare's test began, if one runs. -/
def State.testRow (s : State) (x : SpareTarget) : Option Nat := (s.arrays.testing.find? fun y => y.1 = x).map Prod.snd

/-- A test ends. -/
def State.dropTest (s : State) (x : SpareTarget) : State :=
  match s.arrays.testing.find? fun y => y.1 = x with
  | some y => { s with arrays := { s.arrays with testing := s.arrays.testing.erase y } }
  | none => s

/-- A logical array comes back. -/
def State.arrayBack (s : State) (die array : Nat) : State :=
  s.setFld ⟨0x020 + die, 0x030, array, array⟩ 0

/-- A spare cell of an array is used or has failed. -/
def State.useCell (s : State) (die array : Nat) : State :=
  let k := s.physicalArray die array
  { s with arrays := { s.arrays with spareCells := Tbl.set s.arrays.spareCells k (Tbl.num s.arrays.spareCells k + 1) } }

/-- A spare array of a die is used or has failed. -/
def State.useArray (s : State) (die : Nat) : State :=
  { s with arrays := { s.arrays with
    spareArrays := Tbl.set s.arrays.spareArrays die (Tbl.num s.arrays.spareArrays die + 1) } }

/-- SPARE_TAKEOVER (R163, R189): a spare that has passed takes over at the first nanosecond of row f+5. DESIGN CHOICE (log entry
163): the spare arrays of a die, physical arrays 48 to 51, are taken in that order, failed ones passed over. -/
def State.takeSpare (s : State) : SpareTarget → State
  | .nbu t g => s.takeNbu t g
  | .cell d a =>
    if s.testRow (.cell d a) = some (s.row - 5) ∧ 5 ≤ s.row then
      (((s.dropTest (.cell d a)).useCell d a).arrayBack d a).arrayResult d a true 2
    else s
  | .array d a =>
    if s.testRow (.array d a) = some (s.row - 5) ∧ 5 ≤ s.row then
      let n := Tbl.num s.arrays.spareArrays d
      ((((s.dropTest (.array d a)).setFld (rArrayInfoPhysical d a) (48 + n)).useArray d).arrayBack d a).arrayResult d a false 2
    else s

/-- A spare cell or array that has not taken over by its row has failed its test; an array still out is tested for again. -/
def State.failArrayTest (s : State) (x : SpareTarget × Nat) : State :=
  if s.row ≤ x.2 + 5 then s
  else
    let s := s.dropTest x.1
    match x.1 with
    | .nbu _ _ => s
    | .cell d a =>
      let s := (s.useCell d a).arrayResult d a true 4
      if (s.fld (rOutMapArrays d)).testBit a then s.restoreArray d a (s.row - 1) false else s
    | .array d a =>
      let s := (s.useArray d).arrayResult d a false 4
      if (s.fld (rOutMapArrays d)).testBit a then s.restoreArray d a (s.row - 1) false else s

/-- Spare tests whose row has passed end in failure. -/
def State.endTests (s : State) : State :=
  let s := (List.range 12).foldl (fun s t => (List.range 16).foldl (fun s g => s.failNbuTest t g) s) s
  s.arrays.testing.foldl State.failArrayTest s

/-! Stitch heads and walkers (R390). -/

/-- A head slice fails: the round is cut at detection; one of 8 hidden spares takes over at the next row. -/
def State.sliceFault (s : State) (t slice : Nat) : State :=
  match s.stackUnits[t]? with
  | none => s
  | some k =>
    if 136 ≤ slice then s
    else
      let s := match k.round with
        | some r => if s.roundBusy t then s.cutRound t r else s
        | none => s
      let s := s.queueFault.setStack t fun k => { k with slicesFailed := k.slicesFailed + 1 }
      if 8 < k.slicesFailed + 1 then s.postShort (0x010 + t) slice else s

/-- A walker fails: its walks stand still and what its CLB holds is gone; from the next row its sequences are walked by
another. -/
def State.walkerFault (s : State) (w : Nat) : State :=
  if 16 ≤ w then s
  else
    let p := (Tbl.get s.cat.walkerMap w).getD w
    { s.queueFault with cat := { s.cat with
      clb := s.cat.clb.filter fun e => e.walker ≠ p
      walkerDown := addNum s.cat.walkerDown w } }

/-- NBU_STOP (R161, R162). -/
def execNbuStop (t region cause : Nat) (s : State) : Out := .next (s.nbuStop t region cause)

/-- NBU_PAUSE_ACK_TIMEOUT (R161). -/
def execNbuPauseAckTimeout (t region : Nat) (s : State) : Out := .next (s.pauseTimeout t region)

/-- CELL_STOP (R188). -/
def execCellStop (die array cell cause : Nat) (s : State) : Out := .next (s.cellStop die array cell cause)

/-- STITCH_SLICE_FAULT (R390). -/
def execStitchSliceFault (t slice : Nat) (s : State) : Out := .next (s.sliceFault t slice)

/-- WALKER_FAULT (R390). -/
def execWalkerFault (w : Nat) (s : State) : Out := .next (s.walkerFault w)

/-- SPARE_TAKEOVER (R163, R189). -/
def execSpareTakeover (target : SpareTarget) (s : State) : Out := .next (s.takeSpare target)

/-- A fatal error in a stack controller or stack interface, the Row Sequencer, a network die or the keeper die (R390). -/
def State.fatalError (s : State) (block : Nat) : State :=
  match blockAt block with
  | some (.stackCtl, _) | some (.seqr, _) | some (.port, _) | some (.xport, _) | some (.tm, _) | some (.index, _)
    | some (.cat, _) | some (.keeper, _) | some (.ident, _) => (s.mark block 6).toFault 0x04
  | _ => s

/-- FATAL_ERROR (R390). -/
def execFatalError (block : Nat) (s : State) : Out := .next (s.fatalError block)

/-- REFCLK_NET0_FAIL (R436): without its reference in service ROWCLK cannot be disciplined. -/
def execRefclkNet0Fail (s : State) : Out := .next (s.toFault 0x04)

end Sys2Proof.Machine
end

