-- ==== Sys2Proof/Machine/Dram.lean ====
section
/-! DEFINITION. Errors and repair of stack memory, and patrol reading (R385 to R387, R442). -/

namespace Sys2Proof.Machine

/-- INSTANCE of a DRAM bank. -/
def bankUnit (t region bank : Nat) : Nat := t * 1024 + region * 4 + bank

/-- Keep LAST_ERROR, unless one is held (Table 16-8). -/
def State.lastError (s : State) (t region bank uncorrected : Nat) : State :=
  if s.fld (rLastErrorValid t) = 1 then s
  else ((((s.setFld (rLastErrorValid t) 1).setFld (rLastErrorUncorrected t) uncorrected).setFld (rLastErrorRegion t)
    region).setFld (rLastErrorBank t) bank).setFld (rLastErrorRow t) (row48 s.row)

/-! Corrected errors and repair (R385, R386). -/

/-- Key of a row of a bank. -/
def dramKey (region bank dramRow : Nat) : Nat := (region * 4 + bank) * 2 ^ 24 + dramRow

/-- Key of a row of a bank in which a column group gave corrections. -/
def columnKey (region bank column dramRow : Nat) : Nat := ((region * 4 + bank) * 2 ^ 12 + column) * 2 ^ 24 + dramRow

/-- A line is corrected and written back; it counts toward repair of its row and of its column group. -/
def State.corrected (s : State) (t region bank dramRow column : Nat) : State :=
  if 12 ≤ t ∨ 256 ≤ region ∨ 4 ≤ bank then s
  else
    let s := (((s.count (rEccCountsCorrected t) 1).lastError t region bank 0).gauge 1 (bankUnit t region bank) 1)
    s.setStack t fun k => { k with
      corrected := Tbl.set k.corrected (dramKey region bank dramRow) (Tbl.num k.corrected (dramKey region bank dramRow) + 1)
      columnRows := Tbl.set k.columnRows (columnKey region bank column dramRow) 1 }

/-- Distinct rows of a bank in which a column group has given corrections in the epoch. -/
def Stack.columnCount (k : Stack) (region bank column : Nat) : Nat :=
  (k.columnRows.filter fun p => p.1 / 2 ^ 24 = (region * 4 + bank) * 2 ^ 12 + column).length

/-- A repair in a housekeeping window: of a row, or of a column group once REPAIR_LIMIT distinct rows of the bank call for it.
Without a spare there is none, and the case is counted. Poison is copied with the line (R442). -/
def State.repair (s : State) (t region bank dramRow : Nat) (column : Option Nat) : State :=
  match s.stackUnits[t]? with
  | none => s
  | some k =>
    if 256 ≤ region ∨ 4 ≤ bank then s
    else
      let unit := bankUnit t region bank
      let refused := s.gauge 1 unit 256
      let done (s : State) : State := (s.count (rRepairRepairs t) 1).gauge 1 unit 64
      match column with
      | none =>
        let b := region * 4 + bank
        if 8 ≤ Tbl.num k.rowSpares b then refused
        else
          let s := s.setStack t fun k => { k with
            rowSpares := Tbl.set k.rowSpares b (Tbl.num k.rowSpares b + 1)
            corrected := Tbl.erase k.corrected (dramKey region bank dramRow)
            repairDue := 2 * dramKey region bank dramRow :: k.repairDue }
          done (s.setFld (rRepairSpareRowsLeft t) (s.fld (rRepairSpareRowsLeft t) - 1))
      | some c =>
        let pc := region / 4
        if k.columnCount region bank c < s.fld (rRepairRepairLimit t) then s
        else if 4 ≤ Tbl.num k.colSpares pc then refused
        else
          let s := s.setStack t fun k => { k with
            colSpares := Tbl.set k.colSpares pc (Tbl.num k.colSpares pc + 1)
            columnRows := k.columnRows.filter fun p => p.1 / 2 ^ 24 ≠ (region * 4 + bank) * 2 ^ 12 + c
            repairDue := (2 * ((region * 4 + bank) * 2 ^ 12 + c) + 1) :: k.repairDue }
          done (s.setFld (rRepairSpareColsLeft t) (s.fld (rRepairSpareColsLeft t) - 1))

/-! Uncorrectable errors (R387, Table 16-1). -/

/-- The leaf whose bytes a line holds becomes Lost. -/
def State.loseAt (s : State) (line : Nat) : State :=
  (s.cat.cards.filter fun p => s.cardMeets p.1 p.2 (line * 64) 64).foldl (fun s p => s.loseLeaf p.1) s

/-- A sequence is damaged: the owning tenant receives one event of KIND 0x0008 for it. -/
def State.damage (s : State) (slot : Nat) : State :=
  let q := s.seqAt slot
  if q.damaged ∨ seqSlots ≤ slot then s
  else (s.setSeq slot { q with damaged := true }).postTenant q.tenant
    { s.event 0x0008 0x050 0 with tenant := q.tenant, handle := handleOf slot q }

/-- What a reader of a poisoned line meets (Table 16-1). -/
def State.readerMeets (s : State) (line : Nat) : PoisonReader → State
  | .command => s
  | .patrol => s.loseAt line
  | .card n => s.loseLeaf n
  | .sequence slot => s.damage slot
  | .indexCopy n => match Tbl.get s.index.entries n with
    | some _ =>
      (((s.count rIndexEventsVerifyFail 1).gauge 6 (n / setSize) 256).postFm (s.event 0x000A 0x058 0)).departEntry n
    | none => s
  | .transport qp => (s.xport.conns.filter fun p => connQp p.1 = qp).foldl (fun s p => s.qpError p.1 5) s

/-- A granule of the annex whose device returns poison from now on (R276). DESIGN CHOICE (log entry 172): a line of the annex window
tells it, since no row of the table does. -/
def State.poolPoison (s : State) (addr : Nat) : State :=
  let g := (addr - annexBase) / 16384
  if annexBase ≤ addr ∧ g < s.mover.size then { s with mover := { s.mover with poisoned := addNum s.mover.poisoned g } } else s

/-- A line of the stacks has an uncorrectable error: it reads as poison. Which bank of its region it lies in is a free
value (log entry 2). -/
def State.uncorrectable (s : State) (addr : Nat) (reader : PoisonReader) : State :=
  if stackBytes ≤ addr then s.poolPoison addr
  else
    let g := addr / 16384
    let t := granStack g
    let (b, s) := s.free
    let s := (((s.poisonLine (lineOf addr)).count (rEccCountsUncorrected t) 1).lastError t (granRegion g) (b % 4) 1).gauge 1
      (bankUnit t (granRegion g) (b % 4)) 1024
    s.queueFault.readerMeets (lineOf addr) reader

/-- The place of a line in its stack's own order: 256 lines to a granule. -/
def stackLine (l : Nat) : Nat × Nat := (granStack (l / 256), l / 256 / 12 * 256 + l % 256)

/-- Patrol reading of a run of a stack's lines (R385): leaf data that reads as poison makes the leaf Lost. -/
def State.patrol (s : State) (t first lines : Nat) : State :=
  (s.poison.filter fun l => (stackLine l).1 = t && first ≤ (stackLine l).2 && (stackLine l).2 < first + lines).foldl
    State.loseAt s

/-- DRAM_CORRECTED_ERROR (R385). -/
def execDramCorrectedError (t region bank dramRow column : Nat) (s : State) : Out :=
  .next (s.corrected t region bank dramRow column)

/-- DRAM_UNCORRECTABLE_ERROR (R387). -/
def execDramUncorrectableError (addr : Nat) (reader : PoisonReader) (s : State) : Out := .next (s.uncorrectable addr reader)

/-- DRAM_ROW_REPAIR (R386). -/
def execDramRowRepair (t region bank dramRow : Nat) (column : Option Nat) (s : State) : Out :=
  .next (s.repair t region bank dramRow column)

/-- PATROL_READ (R385). -/
def execPatrolRead (t firstLine lines : Nat) (s : State) : Out := .next (s.patrol t firstLine lines)

end Sys2Proof.Machine
end

