-- ==== Sys2Proof/Machine/Ports.lean ====
section
/-! DEFINITION. Network ports and links (chapter 11): lane-control words, swaps, narrowing, retrains, Test, link state,
MACsec associations and time stamps. -/

namespace Sys2Proof.Machine

/-- Change a port. -/
def State.setPort (s : State) (p : Nat) (f : Port → Port) : State := { s with ports := setAt s.ports p f }

/-- The port's MODE (Table 11-5): 0 disabled, 1 standard, 2 direct. -/
def State.portMode (s : State) (p : Nat) : Nat := s.fld (rPortCfgMode p)

/-- The port's block is cut, stopped or gated (R381, R382). -/
def State.portHeld (s : State) (p : Nat) : Bool := (Tbl.get s.vault.blocks (0x030 + p)).isSome

/-- Change a port that exists, is not disabled (R282) and is not held. -/
def State.onPort (s : State) (p : Nat) (f : Port → State → State) : State :=
  match s.ports[p]? with
  | none => s
  | some q => if s.portMode p = 0 ∨ s.portHeld p then s else f q s

/-! Lane maps (Table 11-2). -/

/-- The physical lane of a logical lane: 0xF where unused. -/
def laneAt (map i : Nat) : Nat := map / 16 ^ i % 16

/-- The map whose logical lanes 0, 1, ... stand on these physical lanes. -/
def mapOf (lanes : List Nat) : Nat :=
  (List.range 8).foldl (fun m i => m + (lanes.getD i 15) * 16 ^ i) 0

/-- The physical lanes a map uses. -/
def lanesOf (map : Nat) : List Nat := ((List.range 8).map (laneAt map)).filter (· < 9)

/-- Logical lane i moves to physical lane k. -/
def moveLane (map i k : Nat) : Nat := mapOf (setAt ((List.range 8).map (laneAt map)) i fun _ => k)

/-- Eight logical lanes on physical lanes 0 to 7. -/
def plainMap : Nat := mapOf (List.range 8)

/-- No logical lane in use. -/
def noMap : Nat := 0xFFFFFFFF

/-- Logical lanes a set of healthy physical lanes carries: eight, four, two or none (R292, R293). -/
def widthOf (healthy : Nat) : Nat :=
  if 8 ≤ healthy then 8 else if 4 ≤ healthy then 4 else if 2 ≤ healthy then 2 else 0

/-- The bit mask of a list of lanes. -/
def laneMask (l : List Nat) : Nat := (List.range 9).foldl (fun m k => if l.contains k then m + 2 ^ k else m) 0

/-- The lanes of a mask. -/
def lanesIn (mask : Nat) : List Nat := (List.range 9).filter fun k => mask.testBit k

/-! Lane-control words (R289, Table 11-2). -/

/-- TYPE of a word. -/
def LaneType.code : LaneType → Nat
  | .status => 0 | .swapRequest => 1 | .swapAck => 2 | .narrowRequest => 3 | .narrowAck => 4 | .retrain => 5 | .test => 6

/-- Bytes 0 to 13 of a word. -/
def laneBytes (k : LaneType) (w : LaneWord) : List Byte :=
  leBytes 1 k.code ++ leBytes 1 w.seq ++ leBytes 2 w.node ++ leBytes 1 w.port ++ leBytes 1 w.actSeq ++ leBytes 2 w.failed
    ++ leBytes 4 w.map ++ leBytes 1 w.domain ++ [0]

/-- The reserved bits of bytes 0 to 13 of a word (Table 11-2). -/
def laneReserved : List Byte := [0, 0, 0, 0xC0, 0xF8, 0, 0, 0xFE, 0, 0, 0, 0, 0xC0, 0xFF]

/-- Bytes with what their reserved bits hold. The CRC covers them; otherwise they are ignored (R6). -/
def withReserved (mask given bs : List Byte) : List Byte :=
  ((List.range bs.length).zip bs).map fun x => x.2 ||| (given.getD x.1 0 &&& mask.getD x.1 0)

/-- A word's CRC passes, over the bytes as they came. -/
def laneGood (k : LaneType) (w : LaneWord) : Bool := crc16 (withReserved laneReserved w.reserved (laneBytes k w)) = w.crc

/-- Which end's pair (node number, port) is lower leads (R288). -/
def State.leads (s : State) (p : Nat) (q : Port) : Bool :=
  s.nodeId < q.partnerNode || (s.nodeId = q.partnerNode && p < q.partnerPort)

/-- RESULT of PORT_CTL. -/
def State.portResult (s : State) (p r : Nat) : State := s.setFld (rPortCtlResult p) r

/-- An operation of PORT_CTL that is still in progress is abandoned to the partner (R294). -/
def State.abandonCtl (s : State) (p : Nat) : State := if s.fld (rPortCtlResult p) = 1 then s.portResult p 5 else s

/-- A change that PORT_CTL started ends with a RESULT. -/
def State.endCtl (s : State) (p r : Nat) (c : Option LaneChange) : State :=
  match c with
  | some x => if x.fromCtl then s.portResult p r else s
  | none => s

/-! Retrain and loss (R293, R295). -/

/-- The port leaves the Up state: it carries no frames and takes no part in spraying. -/
def Port.stop (q : Port) (l : Link) (row : Nat) : Port :=
  { q with link := l, lanes := 0, txMap := noMap, rxMap := noMap, change := none, due := none, downSince := row,
           spraying := false, met := false }

/-- A port changes and no longer sprays: what it carried leaves by the others (R307). -/
def State.stopPort (s : State) (p : Nat) (f : Port → Port) : State :=
  let was := s.sprays p
  let s := s.setPort p f
  if was then s.leavePort p else s

/-- A port changes and may spray again: packets that wait for a path are sent. -/
def State.startPort (s : State) (p : Nat) (f : Port → Port) : State := (s.setPort p f).resendWaiting

/-- A request for a retrain or Test that this end makes; it leaves the map it has. -/
def Port.ask (q : Port) (kind : LaneType) (fromCtl : Bool) : Option LaneChange :=
  some ⟨kind, q.txMap, 0, none, fromCtl, false⟩

/-- A retrain begins; FAILED_LANES is cleared. One that this end asks for sends a retrain word. -/
def State.retrain (s : State) (p : Nat) (asks fromCtl : Bool) : State :=
  s.stopPort p fun q =>
    { (q.stop .training s.row) with
      failed := []
      partnerFailed := []
      testNext := false
      change := if asks then q.ask .retrain fromCtl else none
      due := if asks then some ⟨.retrain, 0, 0⟩ else none }

/-- The port goes Down; it retrains every 4,096 rows (Table 11-4). -/
def State.portDown (s : State) (p : Nat) : State :=
  match s.ports[p]? with
  | none => s
  | some q =>
    if q.link = .down then s else s.stopPort p fun q => q.stop .down s.row

/-- With fewer than two healthy lanes the link goes Down and retrains. -/
def State.downRetrain (s : State) (p : Nat) : State := (s.portDown p).retrain p true false

/-! Swap and narrowing (R291, R292, R294). -/

/-- Lanes marked failed at either end. -/
def Port.bad (q : Port) : List Nat := (q.failed ++ q.partnerFailed).dedup

/-- Lanes healthy at both ends. -/
def Port.healthy (q : Port) : List Nat := (List.range 9).filter fun k => !q.bad.contains k

/-- The spare is idle: eight logical lanes, none on physical lane 8. -/
def Port.spareIdle (q : Port) : Bool := q.lanes = 8 && !(lanesOf q.txMap).contains 8

/-- What the failed lanes call for: a swap, a narrowing, or the link Down; none while the map's lanes and the spare are
healthy. -/
inductive Remedy where
  | none | swap (map : Nat) | narrow (map : Nat) | down
  deriving DecidableEq, Repr

/-- The remedy of R291 and R292. -/
def Port.remedy (q : Port) : Remedy :=
  let used := lanesOf q.txMap
  let narrow := if widthOf q.healthy.length = 0 then Remedy.down
    else .narrow (mapOf (q.healthy.take (min 4 (widthOf q.healthy.length))))
  if q.spareIdle then
    if q.bad.contains 8 then narrow
    else match (List.range 8).find? fun i => q.bad.contains (laneAt q.txMap i) with
      | some i => .swap (moveLane q.txMap i 8)
      | none => .none
  else if used.any q.bad.contains then narrow
  else .none

/-- Send a request for a new map: its ACT_SEQ lies four words ahead of its own SEQ. -/
def State.request (s : State) (p : Nat) (kind : LaneType) (map : Nat) (fromCtl : Bool) : State :=
  s.stopPort p fun q =>
    let act := (q.seq + 4) % 256
    { q with
      link := if kind = .narrowRequest then .narrowing else .swapping
      spraying := false
      change := some ⟨kind, map, act, none, fromCtl, false⟩
      due := some ⟨kind, map, act⟩ }

/-- The link carries lanes and no change is under way: Up, or Awaiting a secure association. -/
def Port.steady (q : Port) : Bool := (q.link = .up || q.link = .awaitSecure) && q.change.isNone

/-- The leader of a steady link acts on the failed lanes of both ends. -/
def State.mend (s : State) (p : Nat) : State :=
  match s.ports[p]? with
  | none => s
  | some q =>
    if !q.steady ∨ s.portMode p ≠ 2 ∨ !s.leads p q then s
    else match q.remedy with
      | .none => s
      | .swap m => s.request p .swapRequest m false
      | .narrow m => s.request p .narrowRequest m false
      | .down => s.downRetrain p

/-- Lanes of a port: in standard mode lane 8 is powered down (R283). -/
def State.laneCount (s : State) (p : Nat) : Nat := if s.portMode p = 2 then 9 else 8

/-- LANE_FAILED: the receiver marks a lane failed and counts it in the lane's gauge (R290, R393). In standard mode the link goes
Down (Table 11-4); in direct mode the loss of every lane starts a retrain (R293), and less is mended. -/
def State.laneFault (s : State) (p lane : Nat) : State :=
  s.onPort p fun q s =>
    if s.laneCount p ≤ lane ∨ q.failed.contains lane then s
    else
      let s := (s.setPort p fun q => { q with failed := addNum q.failed lane }).gauge 4 (p * 9 + lane) 1024
      if q.link = .down ∨ q.link = .training then s
      else if s.portMode p ≠ 2 then if q.link = .test then s else s.portDown p
      else if 8 ≤ q.failed.length then s.downRetrain p
      else s.mend p

/-- The request is for a new map: a swap or a narrowing. -/
def LaneChange.remaps (c : LaneChange) : Bool := c.kind ≠ .retrain && c.kind ≠ .test

/-- The maps of a change have moved at both ends. -/
def Port.moved (q : Port) : Bool :=
  match q.change with
  | some c => c.remaps && q.txMap = c.map && q.rxMap = c.map
  | none => false

/-- The port waits for a secure association: out of rack, and none is live (R296). -/
def State.awaits (s : State) (p : Nat) (q : Port) : Bool := s.fld (rPortCfgOutOfRack p) = 1 && !q.saLive

/-- The port comes Up, or awaits its association; it sprays if it has one and a packet number left (R296, R297). -/
def State.upAgain (s : State) (p : Nat) (q : Port) : Port :=
  { q with link := if s.awaits p q then .awaitSecure else .up, change := none, spraying := !s.awaits p q && !q.spent }

/-- SWAP_DESKEW_DONE: a swap or narrowing ends; the leader then acts on what has failed since (R291, R294). -/
def State.deskewDone (s : State) (p : Nat) : State :=
  match s.ports[p]? with
  | none => s
  | some q =>
    if !q.moved then s
    else
      let s := s.endCtl p 2 q.change
      let s := s.startPort p fun q => s.upAgain p { q with lanes := widthOf (lanesOf q.txMap).length }
      s.mend p

/-- The transmit map changes after the word whose SEQ is ACT_SEQ has been sent. -/
def Port.afterSend (q : Port) : Port :=
  let q := match q.change with
    | some c => if c.remaps && q.seq = c.actSeq then { q with txMap := c.map } else q
    | none => q
  { q with seq := (q.seq + 1) % 256, due := none }

/-- The receive map changes after the partner's word whose SEQ is its ACT_SEQ. -/
def Port.afterWord (q : Port) (seq : Nat) : Port :=
  match q.change with
  | some c => if c.partnerSeq = some seq then { q with rxMap := c.map } else q
  | none => q

/-- LANE_CONTROL_WORD_SEND (R289). -/
def State.sendWord (s : State) (p : Nat) : State :=
  s.onPort p fun q s =>
    if s.portMode p ≠ 2 ∨ q.link = .down then s
    else
      let (kind, map, act) := match q.due with
        | some d => (d.kind, if d.map = 0 then q.txMap else d.map, d.actSeq)
        | none => (LaneType.status, q.txMap, 0)
      let w : LaneWord := { seq := q.seq, node := s.nodeId, port := p, actSeq := act, failed := laneMask q.failed,
                            map := map, domain := s.domain, reserved := [], crc := 0 }
      (s.send (.laneWord p kind { w with crc := crc16 (laneBytes kind w) })).setPort p Port.afterSend

/-- Record the partner; one in another domain posts an event when it is first met (R287). -/
def State.meetPartner (s : State) (p node port domain : Nat) : State :=
  match s.ports[p]? with
  | none => s
  | some q =>
    let known := q.met && q.partnerNode = node && q.partnerPort = port && q.partnerDomain = domain
    let s := s.setPort p fun q => { q with partnerNode := node, partnerPort := port, partnerDomain := domain }
    if domain ≠ s.domain ∧ !known then s.postFm (s.event 0x000D (0x030 + p) p) else s

/-- What every good word does: it names its sender, reports its failed lanes, and may be the one a receive map waits for. -/
def State.takeWord (s : State) (p : Nat) (k : LaneType) (w : LaneWord) (f : Port → State → State) : State :=
  s.onPort p fun q s =>
    if s.portMode p ≠ 2 ∨ q.link = .down ∨ !laneGood k w then s
    else
      let s := s.meetPartner p w.node w.port w.domain
      let s := s.setPort p fun q => { q.afterWord w.seq with partnerFailed := lanesIn w.failed, met := true }
      match s.ports[p]? with
      | some q => f q s
      | none => s

/-- The partner's request stands (R294): this end has none outstanding, or only answers one, or is the follower and abandons its
own; the leader ignores one that crosses its own. -/
def State.yields (s : State) (p : Nat) (q : Port) : Bool :=
  match q.change with
  | some c => c.kind = .swapAck || c.kind = .narrowAck || !s.leads p q
  | none => true

/-- A port whose own retrain or Test request has not been followed yet goes back to the map it left. -/
def Port.takeBack (q : Port) : Port :=
  match q.change with
  | some c => if c.remaps then q
      else { q with txMap := c.map, rxMap := c.map, lanes := widthOf (lanesOf c.map).length, link := .up }
  | none => q

/-- The port has lanes that a request can move: steady, in a change, or with its own retrain or Test request outstanding. -/
def Port.canMove (q : Port) : Bool :=
  q.link = .up || q.link = .awaitSecure || q.link = .swapping || q.link = .narrowing || match q.change with
    | some c => !c.remaps && c.map ≠ noMap
    | none => false

/-- A request from the partner is acknowledged: the same MAP, an ACT_SEQ two words ahead. -/
def State.acknowledge (s : State) (p : Nat) (ack : LaneType) (l : Link) (w : LaneWord) : State :=
  match s.ports[p]? with
  | none => s
  | some q =>
    if !q.canMove ∨ !s.yields p q then s
    else
      let s := s.endCtl p 5 q.change
      s.stopPort p fun q =>
        let act := (q.seq + 2) % 256
        { q.takeBack with
          link := l
          spraying := false
          change := some ⟨ack, w.map, act, some w.actSeq, false, true⟩
          due := some ⟨ack, w.map, act⟩ }

/-- The requester takes the acknowledgement of its own request. -/
def State.acknowledged (s : State) (p : Nat) (kind : LaneType) (w : LaneWord) : State :=
  s.setPort p fun q => match q.change with
    | some c => if c.kind = kind ∧ c.map = w.map ∧ !c.acked
        then { q with change := some { c with partnerSeq := some w.actSeq, acked := true } } else q
    | none => q

/-- The partner asks for a retrain or for Test: this end follows, unless its own request leads, and an operation of PORT_CTL is
abandoned (R294). -/
def State.follow (s : State) (p : Nat) (f : State → State) : State :=
  match s.ports[p]? with
  | none => s
  | some q => if s.yields p q then f (s.abandonCtl p) else s

/-- The port is in Test (R301). -/
def State.enterTest (s : State) (p : Nat) (asks : Bool) : State :=
  s.stopPort p fun q => { (q.stop .test s.row) with
    testNext := false
    change := if asks then q.ask .test true else none
    due := if asks then some ⟨.test, 0, 0⟩ else none }

/-- RETRAIN_DONE: every lane that passed is mapped, logical lane i on the i-th lowest; with fewer than two the link is Down
(R292, R293). In direct mode the lanes have been tested for 4,096 rows. -/
def State.retrainDone (s : State) (p passed : Nat) : State :=
  s.onPort p fun q s =>
    if q.link ≠ .training ∨ (s.portMode p = 2 ∧ s.row < q.downSince + 4096) then s
    else
      let all := s.laneCount p
      let good := (lanesIn passed).filter (· < all)
      let width := if s.portMode p = 2 then widthOf good.length else if good.length = 8 then 8 else 0
      let bad := (List.range all).filter fun k => !good.contains k
      if width = 0 then s.setPort p fun q => { (q.stop .down s.row) with failed := bad }
      else
        let map := mapOf (good.take width)
        s.setPort p fun q => { q with failed := bad, lanes := width, txMap := map, rxMap := map }

/-- Training ends once its other work is done and every enabled port is Up or the time for ports has passed (R359). -/
def State.tryAttest (s : State) : State :=
  let up : Bool := (List.range 8).all fun p => s.portMode p = 0 || match s.ports[p]? with
    | some q => q.link = .up
    | none => false
  if s.node.state = .training ∧ s.node.restDone ∧ (up ∨ s.node.portTimeout) then s.toNode .attested else s

/-- A direct link may come Up: its lanes are mapped by a retrain, and a good word of a partner of this domain has come (R287). -/
def State.directReady (s : State) (q : Port) : Bool :=
  q.link = .training && q.lanes ≠ 0 && q.met && q.partnerDomain = s.domain

/-- LINK_UP: a port comes Up after training and joins spraying (R287, R295); out of rack it first awaits a secure
association (R296). The operands are what the partner of a direct link reports. A PORT_CTL operation that retrained it is done. -/
def State.linkUp (s : State) (p node port domain : Nat) : State :=
  s.onPort p fun q s =>
    if q.link ≠ .training ∧ q.link ≠ .down then s
    else
      let direct : Bool := s.portMode p = 2
      let s := if direct then s.meetPartner p node port domain else s
      if direct ∧ (domain ≠ s.domain ∨ !s.directReady q) then s
      else
        let s := s.startPort p fun q => s.upAgain p (if direct then q else { q with lanes := 8, txMap := plainMap, rxMap := plainMap })
        let op := s.fld (rPortCtlOp p)
        let s := if s.fld (rPortCtlResult p) = 1 ∧ (op = 1 ∨ op = 3) then s.portResult p 2 else s
        s.mend p

/-- LINK_RETRAIN_RETRY: a port that is Down tries a retrain every 4,096 rows. -/
def State.retryLink (s : State) (p : Nat) : State :=
  s.onPort p fun q s => if q.link = .down ∧ q.downSince + 4096 ≤ s.row then s.retrain p false false else s

/-! PORT_CTL (R293, R301, R302). -/

/-- OP 001: retrain. -/
def State.ctlRetrain (s : State) (p : Nat) : State :=
  if s.portMode p = 0 then s.portResult p 3
  else (s.portResult p 1).retrain p (s.portMode p = 2) true

/-- OP 010: leave spraying at the next row boundary and enter Test. -/
def State.ctlTest (s : State) (p : Nat) : State :=
  if s.portMode p = 0 then s.portResult p 3
  else (s.portResult p 1).setPort p fun q => { q with testNext := true }

/-- OP 011: leave Test through a retrain; refused out of Test. -/
def State.ctlLeave (s : State) (p : Nat) : State :=
  match s.ports[p]? with
  | none => s
  | some q => if q.link = .test then (s.portResult p 1).retrain p (s.portMode p = 2) true else s.portResult p 3

/-- OP 100: swap logical LANE to the spare. -/
def State.ctlSwap (s : State) (p lane : Nat) : State :=
  match s.ports[p]? with
  | none => s
  | some q =>
    if s.portMode p ≠ 2 then s.portResult p 3
    else if q.steady ∧ q.spareIdle ∧ !q.bad.contains 8
    then (s.portResult p 1).request p .swapRequest (moveLane q.txMap lane 8) true
    else s.portResult p 4

/-- The operations of PORT_CTL; other values have no effect. A held port refuses them. -/
def State.portCtl (s : State) (p op lane : Nat) : State :=
  if s.portHeld p ∧ 1 ≤ op ∧ op ≤ 4 then s.portResult p 3
  else if op = 1 then s.ctlRetrain p else if op = 2 then s.ctlTest p else if op = 3 then s.ctlLeave p
  else if op = 4 then s.ctlSwap p lane else s

/-- A request for a retrain or Test is no longer outstanding: the partner has followed it. DESIGN CHOICE (log entry 173): it stays
outstanding to the end of its row, the 2 µs of R294 having passed. An order into Test is then done. -/
def State.settleAsked (s : State) (p : Nat) : State :=
  match s.ports[p]? with
  | none => s
  | some q => match q.change with
    | none => s
    | some c =>
      if c.remaps then s
      else (if c.kind = .test then s.endCtl p 2 q.change else s).setPort p fun q => { q with change := none }

/-- At a row boundary ports ordered into Test enter it, and the Keeper has taken the time stamps (log entry 16). In standard mode no
partner follows, and the order is done at once. -/
def State.portsAtRow (s : State) : State :=
  (List.range 8).foldl (fun s p =>
    let s := s.settleAsked p
    match s.ports[p]? with
    | none => s
    | some q =>
      let direct : Bool := s.portMode p = 2
      let s := if q.testNext then (if direct then s.enterTest p true else (s.enterTest p false).portResult p 2) else s
      s.setPort p fun q => { q with stamps := [] }) s

/-! Checkers and corrected symbols (R290, R300, R302). -/

/-- The idle spare's generator and checker run PRBS31Q (R300). -/
def State.spareRuns (s : State) (p lane : Nat) : Bool :=
  lane = 8 && s.portMode p = 2 && match s.ports[p]? with
    | some q => q.spareIdle && q.link ≠ .test && q.link ≠ .down
    | none => false

/-- The checker of a lane counts: on the idle spare, and in Test where CHECK selects a pattern. -/
def State.checks (s : State) (p lane : Nat) : Bool :=
  s.spareRuns p lane || (s.fld (rPrbsCtlCheck p lane) ≠ 0 && match s.ports[p]? with
    | some q => q.link = .test
    | none => false)

/-- What a lane's checker has counted in a row; more than 16 bit errors on the idle spare mark it failed. -/
def State.takePrbs (s : State) (x : PrbsSample) : State :=
  if !s.checks x.port x.lane then s
  else
    let spare := s.spareRuns x.port x.lane
    let s := (s.count (rPrbsBitsBits x.port x.lane) x.bits).count (rPrbsErrorsErrors x.port x.lane) x.errors
    if spare ∧ 16 < x.errors then s.laneFault x.port x.lane else s

/-- FEC has corrected n symbols of a lane in this microsecond: LANE_SYMBOLS and the lane's gauge count them, and in direct mode more
than SWAP_LIMIT of them in one microsecond mark the lane failed (R290, R393). -/
def State.symbolsOf (s : State) (p : Nat) (x : Nat × Nat) : State :=
  let us := s.now / 1000
  let old := s.fld (rLaneSymbolsCorrected p x.1)
  let s := (s.count (rLaneSymbolsCorrected p x.1) x.2).gauge 4 (p * 9 + x.1) ((old + x.2) / 65536 - old / 65536)
  let s := s.setPort p fun q =>
    let t := if q.symbolsUs = us then q.symbols else []
    { q with symbols := Tbl.set t x.1 (Tbl.num t x.1 + x.2), symbolsUs := us }
  match s.ports[p]? with
  | some q => if s.portMode p = 2 ∧ s.fld (rSwapLimitSymbols p) < Tbl.num q.symbols x.1 then s.laneFault p x.1 else s
  | none => s

/-- FEC's corrections in a received frame. -/
def State.countFec (s : State) (p codewords : Nat) (corrected : List (Nat × Nat)) : State :=
  corrected.foldl (fun s x => s.symbolsOf p x) (s.count (rFecCountsCorrected p) codewords)

/-! MACsec (R296, R297). -/

/-- The last packet number of an association: 32 bits under GCM-AES-256, 64 under GCM-AES-XPN-256. -/
def State.lastPn (s : State) (p : Nat) : Nat := if s.fld (rPortCfgCipher p) = 0 then 2 ^ 32 - 1 else 2 ^ 64 - 1

/-- The packet number past which PN_WARN is set. -/
def State.warnPn (s : State) (p : Nat) : Nat := if s.fld (rPortCfgCipher p) = 0 then 0xC0000000 else 2 ^ 62

/-- SA_KEY_INSTALL: the vault installs the next key, and the port moves to its association; one that waited for it joins spraying
(log entry 170). -/
def State.installSa (s : State) (p association : Nat) : State :=
  s.onPort p fun q s =>
    if s.fld (rPortCfgOutOfRack p) = 0 then s
    else
      let up : Bool := q.link = .up || q.link = .awaitSecure
      (s.startPort p fun q => { q with
        saLive := true
        spent := false
        association := association % 4
        packetNumber := 1
        rxNext := 1
        sak := some (Config.sak s.vault.cak p q.installs)
        installs := q.installs + 1
        link := if q.link = .awaitSecure then .up else q.link
        spraying := up || q.spraying }).mend p

/-- PN_EXHAUSTED: with no packet number left the port leaves spraying until a new key is live. -/
def State.exhaustPn (s : State) (p : Nat) : State :=
  s.onPort p fun q s =>
    if s.fld (rPortCfgOutOfRack p) = 0 ∨ q.packetNumber < s.lastPn p then s
    else s.stopPort p fun q => { q with spraying := false, spent := true }

/-! Time stamps (R298, R299). -/

/-- A stamp at the medium-dependent interface, in eighths of a nanosecond: the port's fixed correction for its mode and width added,
and ASYMMETRY, in sixteenths, taken from it. DEDUCED (log entry 79): IEEE 1588's delay asymmetry enters the stamps of received and of
sent messages alike. -/
def State.correctStamp (s : State) (p : Nat) (q : Port) (stamp : Nat) : Nat :=
  let a := s.fld (rPtpAsymAsymmetry p)
  let asym : Int := if 2 ^ 31 ≤ a then (a : Int) - 2 ^ 32 else a
  ((stamp : Int) + Config.stampFix (s.portMode p) q.lanes - asym / 2).toNat

/-- PTP_EVENT_MESSAGE: a stamp enters the port's queue of 64 records, marked invalid where the message crossed a change. -/
def State.stampMessage (s : State) (p stamp : Nat) (crossed : Bool) : State :=
  s.onPort p fun q s =>
    if q.link = .down ∨ q.link = .training then s
    else if 64 ≤ q.stamps.length then s.mark (0x030 + p) 3
    else s.setPort p fun q => { q with
      stamps := q.stamps ++ [(s.correctStamp p q stamp, !(crossed || q.link = .swapping || q.link = .narrowing))] }

/-! The commands. -/

/-- LANE_CONTROL_WORD_SEND (R289). -/
def execLaneControlWordSend (p : Nat) (s : State) : Out := .next (s.sendWord p)

/-- STATUS_WORD (R289). -/
def execStatusWord (p : Nat) (w : LaneWord) (s : State) : Out := .next (s.takeWord p .status w fun _ s => s.mend p)

/-- SWAP_REQUEST (R291). -/
def execSwapRequest (p : Nat) (w : LaneWord) (s : State) : Out :=
  .next (s.takeWord p .swapRequest w fun _ s => s.acknowledge p .swapAck .swapping w)

/-- SWAP_ACKNOWLEDGE (R291). -/
def execSwapAcknowledge (p : Nat) (w : LaneWord) (s : State) : Out :=
  .next (s.takeWord p .swapAck w fun _ s => s.acknowledged p .swapRequest w)

/-- NARROW_REQUEST (R292). -/
def execNarrowRequest (p : Nat) (w : LaneWord) (s : State) : Out :=
  .next (s.takeWord p .narrowRequest w fun _ s => s.acknowledge p .narrowAck .narrowing w)

/-- NARROW_ACKNOWLEDGE (R292). -/
def execNarrowAcknowledge (p : Nat) (w : LaneWord) (s : State) : Out :=
  .next (s.takeWord p .narrowAck w fun _ s => s.acknowledged p .narrowRequest w)

/-- RETRAIN_WORD (R293). -/
def execRetrainWord (p : Nat) (w : LaneWord) (s : State) : Out :=
  .next (s.takeWord p .retrain w fun q s => if q.link = .training ∧ q.change.isNone then s else s.follow p fun s => s.retrain p false false)

/-- TEST_WORD (R301). -/
def execTestWord (p : Nat) (w : LaneWord) (s : State) : Out :=
  .next (s.takeWord p .test w fun q s => if q.link = .test ∧ q.change.isNone then s else s.follow p fun s => s.enterTest p false)

/-- LANE_FAILED (R290). -/
def execLaneFailed (p lane : Nat) (s : State) : Out := .next (s.laneFault p lane)

/-- SWAP_DESKEW_DONE (R291). -/
def execSwapDeskewDone (p : Nat) (s : State) : Out := .next (s.deskewDone p)

/-- RETRAIN_DONE (R293). -/
def execRetrainDone (p passed : Nat) (s : State) : Out := .next (s.retrainDone p passed)

/-- LINK_DOWN (R295). -/
def execLinkDown (p : Nat) (s : State) : Out := .next (s.onPort p fun _ s => s.portDown p)

/-- LINK_UP (R295). -/
def execLinkUp (p partnerNode partnerPort partnerDomain : Nat) (s : State) : Out :=
  .next (s.linkUp p partnerNode partnerPort partnerDomain).tryAttest

/-- LINK_RETRAIN_RETRY (R295). -/
def execLinkRetrainRetry (p : Nat) (s : State) : Out := .next (s.retryLink p)

/-- MKA_FRAME (R297): the Keeper runs IEEE 802.1X with the key of the vault; what the exchange leads to reaches the port as
SA_KEY_INSTALL, and the frame itself changes no state of the spec. -/
def execMkaFrame (_p : Nat) (_bytes : List Byte) (s : State) : Out := .next s

/-- SA_KEY_INSTALL (R297). -/
def execSaKeyInstall (p association : Nat) (s : State) : Out := .next (s.installSa p association).tryAttest

/-- PN_EXHAUSTED (R297). -/
def execPnExhausted (p : Nat) (s : State) : Out := .next (s.exhaustPn p)

/-- PTP_EVENT_MESSAGE (R298). -/
def execPtpEventMessage (p : Nat) (stamp : Nat) (crossed : Bool) (s : State) : Out := .next (s.stampMessage p stamp crossed)

end Sys2Proof.Machine
end

