-- ==== Sys2Proof/Machine/RowClock.lean ====
section
/-! DEFINITION. The row clock: row boundaries and windows, the governor and the caps of a row, synchronisation, and the
switch of patterns (R29 to R36, R39, R56 to R59, R152, R360, R396, R397, R425 to R428). -/

namespace Sys2Proof.Machine

/-! Temperatures (R428). -/

/-- One more row at or below a temperature, or none. -/
def stays (t limit n : Nat) : Nat := if t ≤ limit then n + 1 else 0

/-- A sensor's sample of the row. -/
def Temp.sampled (x : Temp) (t : Nat) : Temp :=
  { x with
    value := t
    r88 := stays t 88 x.r88
    r93 := stays t 93 x.r93
    r94 := stays t 94 x.r94
    r98 := stays t 98 x.r98
    r103 := stays t 103 x.r103 }

/-- THERMAL_CAP of a temperature (Table 6-2). -/
def thermalBand (t : Nat) : Nat := if t < 90 then 128 else if t < 95 then 96 else if t < 100 then 64 else if t < 105 then 32 else 0

/-- The hottest of some sensors with its place. -/
def hottest (l : List Temp) : Nat × Nat :=
  ((List.range l.length).zip l).foldl (fun m x => if m.2 < x.2.value then (x.1, x.2.value) else m) (0, 0)

/-- A stack's layer temperature in its registers; its cap falls with it at once and rises only by THERMAL_CAP_RISE. -/
def State.stackHeat (s : State) (t : Nat) : State :=
  match s.power.stackTemps[t]? with
  | none => s
  | some x =>
    let s := s.setStack t fun k => { k with thermalCap := min k.thermalCap (thermalBand x.value) }
    let cap := match s.stackUnits[t]? with | some k => k.thermalCap | none => 0
    ((s.setFld (rStackThermalHottestC t) (min 255 x.value)).setFld (rStackThermalDoubled t) (if cap ≤ 64 then 1 else 0)).sample
      0x08 [t] x.value

/-- The row's samples of every sensor. -/
def State.heat (s : State) (x : RowSample) : State :=
  let s := { s with power := { s.power with
    dieTemps := s.power.dieTemps.zipWith Temp.sampled (x.dieTemps ++ (s.power.dieTemps.drop x.dieTemps.length).map Temp.value)
    stackTemps := s.power.stackTemps.zipWith Temp.sampled
      (x.stackTemps ++ (s.power.stackTemps.drop x.stackTemps.length).map Temp.value) } }
  let die := hottest s.power.dieTemps
  let s := ((s.setFld rThermalStatusHottestLogicC (min 255 die.2)).setFld rThermalStatusHottestStackC
    (min 255 (hottest s.power.stackTemps).2)).setFld rThermalStatusHottestDie die.1
  let s := (List.range 12).foldl State.stackHeat s
  ((List.range 20).zip s.power.dieTemps).foldl (fun s y => s.sample 0x09 [y.1] y.2.value) s

/-! The governor (R425 to R427). -/

/-- GOVERNOR_CAP of a level (Table 18-1). -/
def levelCap (l : Nat) : Nat := 128 - 16 * l

/-- ACLK of a level in MHz. -/
def levelClock (l : Nat) : Nat := 1800 - 66 * l

/-- A thermal or electrical emergency holds. -/
def State.emergency (s : State) : Bool :=
  s.power.dieTemps.any (fun x => x.emergency) || s.power.stackTemps.any (fun x => x.emergency) || s.power.railCut ≠ []

/-- The level of the new row: the first case of R427 that applies. -/
def State.nextLevel (s : State) : Nat :=
  let l := s.fld rPowerStatusLevel
  let floor := s.fld rPowerCfgFloorLevel
  let budget := s.fld rPowerStatusBudget
  if s.power.peakOver ∨ s.emergency ∨ s.power.railOut ≠ [] then 4
  else if l < floor ∨ (budget ≤ 32 ∧ l < 4) then l + 1
  else if 61035 ≤ budget ∧ floor < l then l - 1
  else l

/-- GOVERNOR_LEVEL_SET: the level, and the ACLK of each attention die; a throttled die runs at no more than 1,536 MHz. -/
def State.govern (s : State) : State :=
  let l := s.nextLevel
  let s := { s with power := { s.power with peakOver := false } }.setFld rPowerStatusLevel l
  (List.range 4).foldl (fun s d =>
    let hot := match s.power.dieTemps[d]? with | some x => x.alert | none => false
    s.setFld (rAclkNowMhz d) (if hot then min 1536 (levelClock l) else levelClock l)) s

/-- The caps of a stack in the row (R152, R153). -/
def State.setCaps (s : State) (t : Nat) : State :=
  let p := match s.pat.exec with | some e => min 128 (e.nbuCap / 12) | none => 0
  let g := levelCap (s.fld rPowerStatusLevel)
  let h := match s.stackUnits[t]? with | some k => k.thermalCap | none => 0
  let e := min p (min g h)
  ((((s.setFld (rCapNowPatternCap t) p).setFld (rCapNowGovernorCap t) g).setFld (rCapNowThermalCap t) h).setFld
    (rCapNowEffectiveCap t) e).count (rOfferedCyclesCount t) (e * 3584)

/-! Synchronisation at a row start (R29, R34). -/

/-- An offset as OFFSET_NS shows it. -/
def offset16 (i : Int) : Nat := ((max (-32767) (min 32767 i)) % 65536).toNat

/-- An offset within the budget of R32. -/
def within (i : Int) : Bool := -40 ≤ i && i ≤ 40

/-- This node is the rack row master (R33). -/
def State.rackMaster (s : State) : Bool := s.fld rSyncCfgRackMaster = 1

/-- The measured offset, its source, and for how many rows in a row it has been within or beyond the budget. DESIGN CHOICE (log entry
166): with ROWSYNC_IN alone SOURCE shows 00, as Table 2-3 names no code for it, and OFFSET_NS its phase. -/
def State.measure (s : State) (x : RowSample) : State :=
  let rs := x.rowsync && !s.rackMaster
  let y := { s.sync with ptp := x.ptp, rowsync := rs, stepped := false }
  let source := if rs && x.ptp then 1 else if x.ptp then 2 else 0
  match x.offset with
  | none => { s with sync := { y with inRange := 0, outRange := 0 } }.setFld rSyncStatusSource 0
  | some o =>
    let y := { y with
      offset := o
      inRange := if within o then y.inRange + 1 else 0
      outRange := if within o then 0 else y.outRange + 1 }
    ((({ s with sync := y }).setFld rSyncStatusSource source).setFld rSyncStatusOffsetNs (offset16 o)).sample 0x06 [0, 0xFFFF] o

/-! What the past row leaves (R30, R138, R162, R188, R390). -/

/-- A stack at the row boundary: a round still running is cut, its queues are served, and its marks cleared; stopped NBUs
fall back. -/
def State.closeStack (s : State) (t : Nat) : State :=
  let s := match (s.stackUnits[t]?).bind Stack.round with
    | some r => if s.roundBusy t then s.cutRound t r else s.endRound t
    | none => s.serveConflicts t
  let out := match s.stackUnits[t]? with | some k => k.fallNext | none => []
  let s := out.foldl (fun s r => s.setFld (fallbackBit t r) 1) s
  s.setStack t fun k => { k with
    fallNext := []
    noSched := false
    noL8 := false
    held := []
    repairDue := [] }

/-- The arrays at the row boundary: a tile still running is abandoned, scheduled work still due is cut, and stopped arrays are out. -/
def State.closeArrays (s : State) : State :=
  let s := ((s.arrays.running.map fun t => t.array).foldl State.withdrawTiles s).cutDue fun x => x.scheduled
  let s := s.arrays.outNext.foldl (fun s a => s.setFld ⟨0x020 + a / 48, 0x030, a % 48, a % 48⟩ 1) s
  let s := (List.range 4).foldl (fun s d => match Tbl.get s.arrays.lastEnd d with
    | some e => s.sample 0x05 [d] e
    | none => s) s
  { s with arrays := { s.arrays with
    outNext := []
    noSched := false
    noL8 := false
    lastEnd := [] } }

/-- Failed walkers' sequences go to the walkers four further on (R390). -/
def State.moveWalkers (s : State) : State :=
  { s with cat := { s.cat with
    walkerMap := s.cat.walkerDown.foldl (fun (m : Tbl Nat) w => Tbl.set m w ((w + 4) % 16)) s.cat.walkerMap
    walkerDown := []
    posted := [] } }

/-- Charges, write budgets and items of rows that are over. L8 items stay, and go where their regions now are served. -/
def State.prune (s : State) : State :=
  let late := (s.work.items.filter fun p => p.2.scheduled && !p.2.issued).map fun p => p.2.cmd
  let s := late.foldl State.computeLate s
  let s := { s with work := { s.work with
    served := []
    gradBytes := 0
    charges := s.work.charges.filter fun c => s.row ≤ c.row
    appendBytes := s.work.appendBytes.filter fun p => s.row ≤ p.1 / 8 || p.1 < 8
    items := s.work.items.filter fun p => !p.2.scheduled } }
  s.setItems fun _ x =>
    if x.issued then x
    else
      let fb := s.inFallback x.stack x.region
      { x with fallback := fb && x.path ≠ 1, onArray := x.path = 1 || fb }

/-- Form the items and tiles of the scheduled attention commands that run in this row (R145, R174). -/
def State.formWork (s : State) : State :=
  s.work.cmds.foldl (fun s p =>
    if p.2.cls ≠ .l8 ∧ p.2.stage = .walked ∧ p.2.result.isNone ∧ p.2.row + 1 = s.row then
      if p.2.opcode = opAttend then s.formItems p.1
      else if p.2.opcode = opAttendMulti ∨ p.2.opcode = opGrad then s.formTiles p.1
      else s
    else s) s

/-- The protection of the pending bank and of the pending gate lists ends, and programs that no bank names are released (R57,
R137, R347). -/
def State.endProtection (s : State) : State :=
  let gate (g : Gate) : Gate := match g.protect with
    | some p => if p ≤ s.row then { g with protect := none } else g
    | none => g
  let s := { s with tm := { s.tm with gates := s.tm.gates.map gate } }
  match s.pat.protect with
  | some p => if p ≤ s.row then
      let s := { s with pat := { s.pat with protect := none } }
      { s with node := { s.node with resident := s.residentSet } }
    else s
  | none => s

/-! The row. -/

/-- ROW_EPOCH in nanoseconds of PTP time (R31). -/
def State.epoch (s : State) : Nat := s.fld rRowEpochSeconds * 10 ^ 9 + s.fld rRowEpochNanoseconds

/-- The pulses a row brings on the pins (R32, R437): ROWSYNC_OUT of a rack row master at its start, and PPS_OUT where a whole second
of PTP time falls in it, once the row clock follows PTP. -/
def State.pulses (s : State) : State :=
  let s := if s.rackMaster then s.sendAside (.rowsyncOut s.row) else s
  let t := s.epoch + s.row * 4096
  let second := ceilDiv t (10 ^ 9)
  if s.sync.state ≠ .unlocked ∧ second * 10 ^ 9 < t + 4096 then s.sendAside (.ppsOut second) else s

/-- The clock goes to the next row; the entry of the row before becomes the execution entry (R39). -/
def State.nextRow (s : State) : State :=
  let r := s.clock.row + 1
  let s := { s with clock := ⟨r, 0⟩ }
  { s with pat := { s.pat with exec := s.pat.entry, entry := patEntry s.pat.active r } }

/-- ROW_START: first what the past row leaves, its last completions among them (R21), then the new row. -/
def State.rowStart (s : State) (x : RowSample) : State :=
  if !s.runs then s
  else
    let s := (List.range 12).foldl State.closeStack (x.prbs.foldl State.takePrbs s)
    let s := s.closeArrays.prune.closeCommands.nextRow.pulses.applyConsents.moveWalkers.endTests.endProtection.portsAtRow
    let s := { s with health := { s.health with faults := [] } }
    let s := (s.heat x).govern
    let s := (List.range 12).foldl State.setCaps s
    let s := (s.measure x).formWork
    let s := (List.range 12).foldl State.spill s
    let s := (s.sample 0x0A [0, 0xFFFF] s.work.l8.length).sample 0x0B [0, 0xFFFF] (s.fld rShedLoadPct)
    s.settleRanges

/-- ROW_END (R426): the row's average power with 1.5% for sensor error moves BUDGET; a peak is kept for the governor. -/
def State.rowEnd (s : State) (watts peak : Nat) : State :=
  if !s.runs then s
  else
    let b := s.fld rPowerStatusBudget
    let s := s.setFld rPowerStatusBudget (if 1500 * 1000 < watts * 1015 then b - 8 else min 488280 (b + 1))
    let s := s.setFld rPowerStatusRowPowerW (min 4095 watts)
    { s with power := { s.power with peakOver := s.power.peakOver || 1900 < peak } }

/-! Housekeeping (R396 to R398, R163, R246). -/

/-- A place in an order of n slices, counted over eight passes. -/
def State.swatchAt (s : State) (i k n : Nat) : State :=
  { s with health := { s.health with swatch := setAt s.health.swatch i fun p => (p + k) % (8 * n) } }

/-- Slices that the routine swatches of a row run, target by target: place in `swatch`, slices, one pass, and whether the
target's die is fit for them (R397). -/
def State.swatchTargets (s : State) : List (Nat × Nat × Nat × Bool) :=
  let held (b : Nat) : Bool := (Tbl.get s.vault.blocks b).isSome
  let warm (t : Nat) : Bool := match s.stackUnits[t]? with | some k => k.thermalCap ≠ 0 | none => false
  ((List.range 4).map fun d => (d, 8, 3536 * 32, s.aclk d = 1800 && !held (0x020 + d))) ++
  ((List.range 12).map fun t => (4 + t, 4, 272 * 16, warm t && !held (0x010 + t))) ++
  ((List.range 12).map fun t => (16 + t, 1, 136 * 4, warm t && !held (0x010 + t))) ++
  [(28, 1, 64, !held 0x058)]

/-- Slices of the spares under test in a row: a quarter of each spare's. -/
def State.spareSlices (s : State) : Nat :=
  let on (f : Nat) : Bool := f < s.row && s.row ≤ f + 4
  s.stackUnits.foldl (fun n k => k.spares.foldl (fun n x => match x with
    | .testing _ f => if on f then n + 4 else n
    | _ => n) n) 0 +
  s.arrays.testing.foldl (fun n x => if on x.2 then n + (match x.1 with | .array _ _ => 68 * 8 | _ => 8) else n) 0

/-- Compaction has packed the tables and waits for its swap (R91). -/
def State.shadowBuilt (s : State) : State := if s.fld rCompactPhase = 1 then s.setFld rCompactPhase 2 else s

/-- HOUSEKEEPING_START: routine swatches where the row's execution entry asks for them or there was no pattern, none while a
rail is out of range (R433); the tests of spares; the Index scrub unless it is shed; the building of a CAM bank and of the packed
tables ends (R91, R247, log entry 159). -/
def State.housekeeping (s : State) : State :=
  if !s.runs then s
  else match s.node.state with
  | .off | .boot | .training | .fault => s
  | _ =>
    let s := s.tick 3840
    let wanted := match s.pat.exec with | some e => e.swatch | none => true
    let all := s.swatchTargets
    let fit := if s.power.railOut = [] then all.filter fun x => x.2.2.2 else []
    let s := if wanted then
        let s := fit.foldl (fun s x => s.swatchAt x.1 x.2.1 x.2.2.1) s
        let s := s.count rSwatchStatusSlices (fit.foldl (fun n x => n + x.2.1) 0)
        if fit.length < all.length then s.count rSwatchStatusSkipped 1 else s
      else s
    let s : State := s.count rSwatchStatusSlices s.spareSlices
    let s := s.bankBuilt.shadowBuilt
    if s.fld rShedLevel = 4 then s else s.scrubIndex

/-! Pattern switch (R56 to R59). -/

/-- PATTERN_SWITCH: the pending bank becomes active. A switch that a re-lock has stepped past waits for the next row. -/
def State.switchPattern (s : State) : State :=
  match s.pat.armed with
  | none => s
  | some r =>
    if s.row < r ∨ s.sync.stepped then s
    else
      let s := { s with pat := { s.pat with
        active := s.pat.pending
        pending := s.pat.active
        armed := none
        protect := some (r + 2)
        entry := patEntry s.pat.pending s.row } }
      s.setFld rPatSwitchResult 2

/-! Synchronisation states (Table 2-2). -/

/-- The event of a change of synchronisation (R33, R35). -/
def State.postSync (s : State) : State := s.postFm (s.event 0x0002 0x070 0)

/-- Leave Serving or Draining for Cast-on (R36): every scheduled command not yet completed is LATE, cause SYNC. -/
def State.loseService (s : State) : State :=
  match s.node.state with
  | .serving | .draining =>
    let drained : Bool := s.node.state = NodeState.draining
    let s : State := { s with node := { s.node with drainHeld := drained } }
    let s := s.work.cmds.foldl (fun s p =>
      if p.2.cls = .l8 then s else (s.abandonAppend p.1 fun h => Outcome.tooLate h .sync).complete p.1 (Outcome.tooLate p.2.head .sync)) s
    let gone := s.work.held ++ s.work.waiting.filter s.schedWaiting
    let s := { s with work := { s.work with
      held := []
      waiting := s.work.waiting.filter fun w => !s.schedWaiting w } }.dropWaiting (fun h => Outcome.tooLate h .sync) gone
    s.toNode .castOn
  | _ => s

/-- Enter Unlocked. -/
def State.unlock (s : State) : State :=
  { s with sync := { s.sync with state := .unlocked, inRange := 0, outRange := 0 } }.postSync.loseService

/-- The row number and phase are stepped to a PTP time (R31, R35): the entries of the row and of the row before are those of the new
number (R39). -/
def State.stepTo (s : State) (ptp : Nat) : State :=
  let r := (ptp - s.epoch) / 4096 % 2 ^ 48
  { s with
    clock := ⟨r, (ptp - s.epoch) % 4096⟩
    sync := { s.sync with stepped := true }
    pat := { s.pat with
      entry := patEntry s.pat.active r
      exec := if r = 0 then none else patEntry s.pat.active (r - 1) } }

/-- SYNC_LOCK: 64 consecutive rows within the budget. Row number and phase may be stepped once before, to the time PTP gives. -/
def State.lock (s : State) (ptp : Option Nat) : State :=
  if s.sync.state = .unlocked ∧ 64 ≤ s.sync.inRange then
    let s := { s with sync := { s.sync with state := .locked, outRange := 0, stepped := false } }
    match ptp with
    | some t => s.stepTo t
    | none => s
  else s

/-- HOLDOVER_ENTRY: every timing source is lost. -/
def State.holdover (s : State) : State :=
  if s.sync.state = .locked ∧ s.sync.ptp = false ∧ s.sync.rowsync = false then
    { s with sync := { s.sync with state := .holdover, holdSince := s.row } }.postSync
  else s

/-- HOLDOVER_RELOCK: a source returns, within the budget or beyond it. -/
def State.relock (s : State) (offset : Int) : State :=
  if s.sync.state = .holdover then
    let s := { s with sync := { s.sync with offset := offset } }.setFld rSyncStatusOffsetNs (offset16 offset)
    if within offset then { s with sync := { s.sync with state := .locked, outRange := 0 } } else s.unlock
  else s

/-- A ROWSYNC_IN pulse (R32, R33): its phase, corrected by BOARD_DELAY in eighths of a ns, against PTP's. DESIGN CHOICE (log entry
166): with PTP lost SOURCE and OFFSET_NS stay until the next row's measurement. -/
def State.pulse (s : State) (offset ptpOffset : Int) : State :=
  if s.rackMaster then s
  else
    let o := offset - (s.fld rSyncCfgBoardDelay / 8 : Nat)
    if s.sync.ptp = false then { s with sync := { s.sync with rowsync := true } }
    else if within (o - ptpOffset) then
      ({ s with sync := { s.sync with rowsync := true, offset := o } }.setFld rSyncStatusSource 1).setFld rSyncStatusOffsetNs
        (offset16 o)
    else
      ((({ s with sync := { s.sync with rowsync := false, offset := ptpOffset } }.setFld rSyncStatusRowsyncFault 1).setFld
        rSyncStatusSource 2).setFld rSyncStatusOffsetNs (offset16 ptpOffset)).postSync

/-! Entry into Serving (R279, R351, R360). -/

/-- The first Serving on an image raises ROLLBACK to its version (R351). -/
def State.rollFuses (s : State) : State :=
  { s with node := { s.node with fuseRollback := max s.node.fuseRollback s.node.bootVersion, served := true } }

/-- CAST_ON_TO_SERVING: at a row boundary, Locked, with a pattern and committed; Draining where a drain order is held. -/
def State.enterService (s : State) : State :=
  if s.node.state = .castOn ∧ s.clock.ns = 0 ∧ s.sync.state = .locked ∧ patId s.pat.active ≠ 0 ∧ s.node.committed then
    if s.node.drainHeld then s.toNode .draining
    else
      let s := (s.toNode .serving).rollFuses
      if s.node.parityKept then s else s.setFld rMoverCtlParity 0
  else s

/-- ROW_START (R29). -/
def execRowStart (x : RowSample) (s : State) : Out := .next (s.rowStart x)

/-- HOUSEKEEPING_START (R29). -/
def execHousekeepingStart (s : State) : Out := .next s.housekeeping

/-- ROW_END (R426). -/
def execRowEnd (watts peakWatts : Nat) (s : State) : Out := .next (s.rowEnd watts peakWatts)

/-- PATTERN_SWITCH (R56). -/
def execPatternSwitch (s : State) : Out := .next s.switchPattern

/-- SYNC_LOCK (R35). -/
def execSyncLock (ptp : Option Nat) (s : State) : Out := .next (s.lock ptp)

/-- SYNC_UNLOCK (R35): 8 rows beyond the budget. -/
def execSyncUnlock (s : State) : Out := .next (if s.sync.state = .locked ∧ 8 ≤ s.sync.outRange then s.unlock else s)

/-- HOLDOVER_ENTRY (R35). -/
def execHoldoverEntry (s : State) : Out := .next s.holdover

/-- HOLDOVER_RELOCK (R35). -/
def execHoldoverRelock (offset : Int) (s : State) : Out := .next (s.relock offset)

/-- HOLDOVER_EXPIRY (R35): 4,096 rows of Holdover. -/
def execHoldoverExpiry (s : State) : Out :=
  .next (if s.sync.state = .holdover ∧ s.sync.holdSince + 4096 ≤ s.row then s.unlock else s)

/-- ROWSYNC_IN_PULSE (R32, R33). -/
def execRowsyncInPulse (offset ptpOffset : Int) (s : State) : Out := .next (s.pulse offset ptpOffset)

/-- PPS_IN_EDGE (R437): the edge's stamp is kept for the Keeper; it is no source of row timing. -/
def execPpsInEdge (stamp : Nat) (s : State) : Out := .next { s with sync := { s.sync with ppsStamp := stamp } }

/-- CAST_ON_TO_SERVING (R360). -/
def execCastOnToServing (s : State) : Out := .next s.enterService

end Sys2Proof.Machine
end

