-- ==== Sys2Proof/Machine/Moves.lean ====
section
/-! DEFINITION. The Mover (R248 to R257, R264 to R272, R279): the stored forms of a leaf, starting, landing and failing a
move, and fall-back demotion. -/

namespace Sys2Proof.Machine

/-! Stored forms (R268, R271, R272). -/

/-- Bytes a leaf's CRC covers: the element area, then the scales of an MX format (R68). -/
def Card.bytes (c : Card) : Nat := elemBytes c.format c.d + if fmtIsMx c.format then 16 * c.d else 0

/-- k_raw of R268. -/
def Card.kRaw (c : Card) : Nat := ceilDiv c.bytes 16384

/-- Data granules of a condensed leaf (R272). -/
def condensedGranules (d : Nat) : Nat := ceilDiv (272 * d + 16) 16384

/-- Granules of a run: in parity layout each set of up to four data granules is followed by a parity granule (R268). -/
def runLength (parity : Bool) (k : Nat) : Nat := if parity then k + ceilDiv k 4 else k

/-- MXFP4's code (Table 4-1). -/
def mxfp4 : Nat := 6

/-- One stored vector through MXFP4 and back to its format (R95, R97, R98, R272). -/
def condenseVec (f d : Nat) (bs scales : List Byte) : List Byte × List Byte :=
  let q := encodeVec mxfp4 (decodeVec f d bs scales)
  encodeVec f (decodeVec mxfp4 d q.1 q.2)

/-- The bytes a condensed leaf reads back as: its 256 keys and 256 values, each through MXFP4 (R65, R272). -/
def condense (f d : Nat) (bs : List Byte) : List Byte :=
  let w := vecBytes f d
  let k := scaleBytes f d
  let vs := (List.range 512).map fun i => condenseVec f d (slice bs (i * w) w) (slice bs (512 * w + i * k) k)
  vs.flatMap Prod.fst ++ vs.flatMap Prod.snd

/-- Data granules of a leaf stored without loss: fewer than k_raw exactly when it is encoded (R271). -/
def Card.granulesFor (c : Card) (bs : List Byte) : Nat :=
  let k := max 1 (Config.encodedGranules bs)
  if k < c.kRaw then k else c.kRaw

/-- The key in a tenant's slot (R269). -/
def State.slotKey (s : State) (tenant : Nat) : Option (BitVec 512) := (Tbl.get s.vault.tenants tenant).bind Tenant.key

/-! Reading a leaf at its source (R270, R277). -/

/-- Places in a copy's run whose reads return poison. -/
def State.badPlaces (s : State) (a : AnnexCopy) : List Nat :=
  (List.range a.run).filter fun j => s.granulePoison (a.first + j)

/-- A place of a parity run holds data: it is neither its set's fifth granule nor the run's last. -/
def dataPlace (run j : Nat) : Bool := j % 5 ≠ 4 && j + 1 ≠ run

/-- The bytes of an annex copy, with the granules rebuilt from parity: none where its key slot no longer holds its key,
where raw writes have touched its run, or where poison cannot be rebuilt. -/
def State.annexBytes (s : State) (c : Card) (a : AnnexCopy) : Option (List Byte × Nat) :=
  let bad := s.badPlaces a
  let lone := bad.all fun j => (bad.filter fun i => i / 5 = j / 5).length ≤ 1
  if a.touched || s.slotKey c.origin ≠ some a.key then none
  else if bad = [] then some (a.bytes, 0)
  else if a.parity && lone then some (a.bytes, (bad.filter (dataPlace a.run)).length)
  else none

/-- Bytes that pass the card's CRC. -/
def Card.checked (c : Card) (bs : List Byte) : Option (List Byte) := if crc32c bs = c.crc then some bs else none

/-- The bytes of a move's leaf as the Mover reads them at their source, with the granules rebuilt. -/
def State.sourceBytes (s : State) (m : Move) (n : Nat) (c : Card) : Option (List Byte × Nat) :=
  match c.loc with
  | .stack g =>
    if s.leafPoisoned ⟨g, c.scale⟩ c.format c.d then none
    else (c.checked (s.leafData ⟨g, c.scale⟩ c.format c.d)).map fun bs => (bs, 0)
  | .annex _ _ => (Tbl.get s.mover.copies n).bind fun a => s.annexBytes c a
  | .loan _ _ => (Tbl.get m.recalled n).bind fun bs => (c.checked bs).map fun bs => (bs, 0)
  | .raw _ => none

/-- The leaf is on loan. -/
def Card.onLoan (c : Card) : Bool := match c.loc with | .loan _ _ => true | _ => false

/-- The cards of a move that stand, with their numbers; none where one is gone. -/
def State.moveCards (s : State) (m : Move) : Option (List (Nat × Card)) :=
  m.cards.mapM fun n => (s.card n).map fun c => (n, c)

/-- The Mover's accesses to a leaf in the stacks are host accesses (R154, R267). -/
def State.touchLeaf (s : State) (g : List Nat) : State :=
  g.foldl (fun s x => (s.hostAccess (granStack x) (granRegion x) .other).2) s

/-! Channels and queues (R265, R266, Table 10-3). -/

/-- Entries of a class's queue. -/
def MoveClass.limit : MoveClass → Nat
  | .demand => 16384 | .evict => 65536 | .prefetch => 65536 | .privileged => 4096

/-- The first of a class's four channels. -/
def MoveClass.channels : MoveClass → Nat
  | .demand => 0 | .evict => 4 | .prefetch => 8 | .privileged => 12

/-- The first channel of a class with fewer than 16 moves. -/
def State.freeChannel (s : State) (cls : MoveClass) : Option Nat :=
  ((List.range 4).map fun i => cls.channels + i).find? fun ch =>
    (s.mover.moves.filter fun p => p.2.started.isSome && p.2.channel = ch).length < 16

/-- A move waits in its class's queue; later ones wait for an entry. -/
def State.inQueue (s : State) (n : Nat) (cls : MoveClass) : Bool :=
  (s.mover.moves.filter fun p => p.2.cls = cls && p.2.started.isNone && p.1 < n).length < cls.limit

/-- Another move of one of these cards runs (R253). -/
def State.isMoving (s : State) (cards : List Nat) : Bool :=
  s.mover.moves.any fun p => p.2.started.isSome && p.2.cards.any cards.contains

/-! Reserving the destination (R252). -/

/-- The data granules a move is to store for one card. -/
def State.dataGranules (s : State) (m : Move) (n : Nat) (c : Card) : Nat :=
  if m.condense then condensedGranules c.d
  else match m.dest, Tbl.get s.mover.copies n with
    | .annexRewrite, some a => a.k
    | _, _ => match s.sourceBytes m n c with
      | some (bs, _) => c.granulesFor bs
      | none => c.kRaw

/-- New annex copies are in parity layout (R277, R279). -/
def State.parityFor (s : State) (d : Dest) : Bool :=
  (s.fld rMoverCtlParity = 1 || d = .annexRewrite) && 8 ≤ s.mover.devices

/-- Take a run of n annex granules on devices neither fenced nor evacuating, the choice being free (R268). -/
def State.takeRun (s : State) (n : Nat) : Option (List Nat) × State :=
  match s.choose s.mover.size fun a => a + n ≤ s.mover.size && (List.range n).all fun i =>
      !s.mover.granules.contains (a + i) && !s.deviceOut ((a + i) % s.mover.devices) with
  | (some a, s) =>
    let run := (List.range n).map fun i => a + i
    (some run, { s with mover := { s.mover with granules := run ++ s.mover.granules } })
  | (none, s) => (none, s)

/-- Take a run for each card of a move. -/
def State.takeRuns (s : State) (m : Move) : List (Nat × Card) → Option (List (List Nat) × State)
  | [] => some ([], s)
  | (n, c) :: t =>
    match s.takeRun (runLength (s.parityFor m.dest) (s.dataGranules m n c)) with
    | (none, _) => none
    | (some run, s) => (s.takeRuns m t).map fun r => (run :: r.1, r.2)

/-! Loan messages (R263). -/

/-- A card as the bytes read for it leave the annex: reading back a condensed leaf sets its CRC over the restored bytes (R272). DEDUCED
(log entry 165): so it is on the way to a lender too. -/
def State.readBack (s : State) (n : Nat) (c : Card) (bs : List Byte) : Card :=
  match Tbl.get s.mover.copies n with
  | some a => if a.form = .condensed then { c with crc := crc32c bs } else c
  | none => c

/-- Send LEND for the halves of a move with the leaf's data, and note the row (R254, R263). -/
def State.sendLends (s : State) (n lender : Nat) (xs : List (Nat × Card × List Byte)) : State :=
  let s := xs.foldl (fun s x =>
    s.send (.loan .lend lender { s.loanMsg lender 0 (s.readBack x.1 x.2.1 x.2.2) with data := x.2.2 })) s
  { s with mover := { s.mover with moves := Tbl.modify s.mover.moves n fun m => { m with lentAt := some s.row } } }

/-- Send RECALL to the lender of a card on loan (R263). -/
def State.sendRecall (s : State) (c : Card) : State :=
  match c.loc with
  | .loan l slot => s.send (.loan .recall l (s.loanMsg l slot c))
  | _ => s

/-! The end of a move. -/

/-- A request ends, and the range commands that waited for it complete. -/
def State.closeMove (s : State) (n : Nat) (how : MoveEnd) : State := (s.endMove n how).settleRanges

/-- The cards of a move are no longer Moving. -/
def State.settleCards (s : State) (m : Move) : State := m.cards.foldl (fun s k => s.changeCard k Card.settle) s

/-- Change a move. -/
def State.setMove (s : State) (n : Nat) (f : Move → Move) : State :=
  { s with mover := { s.mover with moves := Tbl.modify s.mover.moves n f } }

/-- The next lender that a leaf may go to: not one that it already lies at (R251, R263, R379). -/
def State.nextLender (s : State) (cs : List (Nat × Card)) : Option Nat :=
  if cs.any fun c => s.tenantSealed c.2.origin then none
  else s.lenders.find? fun l => cs.all fun c => !c.2.liesAt (.loan l)

/-! Fall-back demotion (R249 to R251, R272). -/

/-- A stack leaf that fall-back may take (R250): never a loaned one (R259), nor one with a move. -/
def State.canFall (s : State) (n : Nat) (c : Card) : Bool :=
  c.inStacks && (c.state = .sealed || c.state = .shared) && !c.pinned && s.keySet c.origin && !s.hasMove n
    && !(s.seqAt (handleSlot c.handle)).loanSeq

/-- The place of a victim in the order of R250: its age bucket, then its card number. -/
def fallOrder (p : Nat × Card) : Nat := p.2.lastUse / 4096 * 2 ^ 26 + p.1

/-- Fall-back victims in the order of R250. -/
def State.victims (s : State) : List (Nat × Card) :=
  (s.cat.cards.filter fun p => s.canFall p.1 p.2 && (s.partner p.1).all fun k => match s.card k with
    | some c => s.canFall k c
    | none => false).mergeSort fun a b => fallOrder a ≤ fallOrder b

/-- A tenant has given a consent bit (R383): bit 0 DEBUG, bit 1 PROFILE, bit 2 CONDENSE. -/
def State.consents (s : State) (tenant bit : Nat) : Bool :=
  match Tbl.get s.vault.tenants tenant with
  | some t => t.consent.testBit bit
  | none => false

/-- A victim is condensed (R272). -/
def State.condenses (s : State) (c : Card) : Bool :=
  s.fld rMoverCtlCondense = 1 && s.fld rCondenseAgeRows ≤ s.row - c.lastUse && s.consents c.origin 2
    && !c.isShared && !c.mirrored && c.format ≠ mxfp4 && condensedGranules c.d < c.kRaw

/-- A run of n granules exists. -/
def State.runExists (s : State) (n : Nat) : Bool := (s.takeRun n).1.isSome

/-- Where a victim goes: the annex where a run exists for it, else the first lender (R251). -/
def State.fallDest (s : State) (cs : List (Nat × Card)) (cond : Bool) : Option Dest :=
  let m := { Move.request (cs.map Prod.fst) .evict .annex s.row with condense := cond }
  if (s.takeRuns m cs).isSome then some .annex
  else (s.nextLender cs).map Dest.loan

/-- Stack granules of leaves on their way out of the stacks (R249). -/
def State.outgoing (s : State) : Nat :=
  s.cat.cards.foldl (fun n p =>
    if p.2.inStacks && s.mover.moves.any (fun m => m.2.cards.contains p.1 &&
        (m.2.started.isSome || m.2.fallback) && match m.2.dest with | .annex => true | .loan _ => true | _ => false)
    then n + p.2.size else n) 0

/-- Queue one victim, if some destination takes it and its queue has room; whether it was queued. -/
def State.demoteOne (s : State) (p : Nat × Card) : Bool × State :=
  let ns := p.1 :: (s.partner p.1).toList
  let ns := ns.mergeSort fun a b => ((s.card a).map Card.half).getD 0 ≤ ((s.card b).map Card.half).getD 0
  let cs := ns.filterMap fun n => (s.card n).map fun c => (n, c)
  let cond := cs.all fun c => s.condenses c.2
  if cs.any fun c => s.hasMove c.1 then (false, s)
  else match s.fallDest cs cond with
  | none => (false, s)
  | some dest =>
    let cond := cond && dest = .annex
    let cls : MoveClass := if cond then .privileged else .evict
    if cls.limit ≤ s.queuedOf cls then (false, s)
    else (true, s.queueMove { Move.request ns cls dest s.row with
      fallback := true
      condense := cond })

/-- Take victims while FREE_GRANULES and what is on its way out stay below HIGH_WATER. -/
def State.demoteUpTo (s : State) : List (Nat × Card) → State
  | [] => s
  | p :: t =>
    if s.fld rWaterHighWater ≤ s.freeGranules + s.outgoing then s
    else (s.demoteOne p).2.demoteUpTo t

/-- Fall-back demotion starts below LOW_WATER, and goes on until HIGH_WATER is reached (R249). -/
def State.fallBack (s : State) : State :=
  if s.fld rWaterLowWater ≤ s.freeGranules ∧ !s.mover.demoting then s
  else
    let s := s.demoteUpTo s.victims
    { s with mover := { s.mover with demoting := if s.freeGranules + s.outgoing < s.fld rWaterHighWater then true else false } }

/-- Queue the first victim that some destination takes, passing some cards over. -/
def State.demoteNext (s : State) (skip : List Nat) : List (Nat × Card) → State
  | [] => s
  | p :: t =>
    if skip.contains p.1 then s.demoteNext skip t
    else match s.demoteOne p with
      | (true, s) => s
      | (false, s) => s.demoteNext skip t

/-! Failure (R254, Table 10-1). -/

/-- A move fails at its destination: it ends at its source, and a fall-back victim is replaced by the next. -/
def State.failDestination (s : State) (n : Nat) (m : Move) : State :=
  let s := (((s.settleCards m).unreserve m).releaseAcks m).count rMovesFailed 1
  let s := s.closeMove n .passed
  if m.fallback then s.demoteNext m.cards s.victims else s

/-- A lender refuses or does not answer: it is passed over for 256 rows, and a fall-back victim, or a leaf that RETURN asks to move,
goes to the next destination (R251). Slots other halves have been given are released. A refusal for want of room is the end that a
MIGRATE reports with NO_SPACE (R225). -/
def State.failLender (s : State) (n l : Nat) (m : Move) (full : Bool) : State :=
  let s := ((s.settleCards m).count rMovesFailed 1).releaseAcks m
  let s := { s with mover := { s.mover with passed := Tbl.set s.mover.passed l (s.row + 256) } }
  let how : MoveEnd := if full then .noSpace else .passed
  match s.moveCards m with
  | none => s.closeMove n how
  | some cs =>
    match (if m.fallback || m.returns then s.nextLender cs else none) with
    | some l' => s.setMove n fun m => { m with dest := .loan l', started := none, recalled := [], acks := [], lentAt := none }
    | none => s.closeMove n how

/-- The devices whose poison a read of an annex copy meets are charged (R276). -/
def State.chargePlaces (s : State) (a : AnnexCopy) : State :=
  (s.badPlaces a).foldl (fun s j => s.poisonRead ((a.first + j) % s.mover.devices)) s

/-- The source cannot be read, or its CRC fails: the leaf becomes Lost (R68, R277), and loan slots a lender has given for it are
released. Where a read of the annex returned poison and no granule is known to, which it was is a free value (log entry 2). -/
def State.failSource (s : State) (n : Nat) (m : Move) (poison : Bool) : State :=
  let s := (((s.settleCards m).unreserve m).releaseAcks m).closeMove n .passed
  m.cards.foldl (fun s k =>
    match Tbl.get s.mover.copies k with
    | some a =>
      let (v, s) := s.free
      let s := if !poison then s
        else if s.badPlaces a = [] then s.poisonRead ((a.first + v % max 1 a.run) % max 1 s.mover.devices)
        else s.chargePlaces a
      s.loseLeaf k
    | none => s.loseLeaf k) s

/-! Landing (R252, R270). -/

/-- Write a leaf's bytes into granules taken for it: whole lines, which lose their poison (R442). -/
def State.fillLeaf (s : State) (h : HalfLoc) (fmt d : Nat) (bs : List Byte) : State :=
  let s := s.putLeaf h fmt d bs
  let gs := runOf h.granule (leafGranules fmt d)
  { s with poison := s.poison.filter fun l =>
      !(gs.contains (l / 256)) && !(match h.scale with
        | some sc => meets (l * 64) 64 (scaleAddr sc d 0) (16 * d)
        | none => false) }

/-- Release the place a leaf is leaving (R78, R263). -/
def State.leaveSource (s : State) (n : Nat) (c : Card) : State :=
  match c.loc with
  | .stack _ => s.release (c.stackRelease s.row none (s.tenantSealed c.owner || s.tenantSealed c.origin))
  | .annex _ _ => s.dropAnnexCopy n
  | .loan l slot => s.sendRelease l slot n c
  | .raw _ => s

/-- One half lands in the stacks. A prefetched leaf takes the row of landing as LAST_USE_ROW (R257); a condensed one takes
the CRC of its restored bytes (R272). -/
def State.landStack (s : State) (m : Move) (n : Nat) (c : Card) (bs : List Byte) (gs : List Nat)
    (sc : Option (Nat × Nat)) : State :=
  let g := gs.headD 0
  let condensed : Bool := match Tbl.get s.mover.copies n with | some a => a.form = .condensed | none => false
  let s := (s.touchLeaf gs).leaveSource n c
  let s := s.fillLeaf ⟨g, sc⟩ c.format c.d bs
  s.setCard n fun c =>
    { c.settle with
      loc := .stack g
      scale := sc
      annexGranules := 0
      crc := if condensed then crc32c bs else c.crc
      lastUse := if m.cls = .prefetch then row48 s.row else c.lastUse }

/-- The form a card's bytes are stored in, and its data granules. -/
def State.storedForm (s : State) (m : Move) (n : Nat) (c : Card) (bs : List Byte) : Stored × Nat :=
  if m.condense then (.condensed, condensedGranules c.d)
  else match m.dest, Tbl.get s.mover.copies n with
    | .annexRewrite, some a => (a.form, a.k)
    | _, _ => (if c.granulesFor bs < c.kRaw then .encoded else .raw, c.granulesFor bs)

/-- One half lands in the annex, in the run taken for it; what a recalled leaf does not need of its run is returned. -/
def State.landAnnex (s : State) (m : Move) (n : Nat) (c : Card) (bs : List Byte) (gs : List Nat) (key : BitVec 512) : State :=
  let taken := if c.onLoan then c.kRaw else s.dataGranules m n c
  let parity : Bool := taken < gs.length
  let (form, k) := s.storedForm m n c bs
  let run := runLength parity k
  let first := gs.headD 0
  let s := match c.loc with | .stack g => s.touchLeaf (runOf g c.size) | _ => s
  let s := s.leaveSource n c
  let copy : AnnexCopy :=
    { form := form, k := k, parity := parity, first := first, run := run,
      bytes := if m.condense then condense c.format c.d bs else bs, touched := false, key := key }
  let s := { s with mover := { s.mover with
    copies := Tbl.set s.mover.copies n copy
    poisoned := s.mover.poisoned.filter fun g => !gs.contains g
    granules := s.mover.granules.filter fun g => !(gs.drop run).contains g } }
  s.setCard n fun c => { c.settle with loc := .annex parity first, scale := none, annexGranules := run }

/-- The requests of these cards that are already satisfied are dropped (R253). -/
def State.dropDone (s : State) (cards : List Nat) : State :=
  (s.mover.moves.filter fun p => p.2.started.isNone && p.2.cards.all cards.contains).foldl (fun s p =>
    if p.2.cards.all fun n => match s.card n with | some c => c.liesAt p.2.dest | none => true
    then s.endMove p.1 .passed else s) s

/-- A move has landed. -/
def State.landed (s : State) (n : Nat) (m : Move) : State :=
  let s := m.cards.foldl (fun s k => match s.card k with
    | some c => if c.isShared then s.clbDrop k else s
    | none => s) s
  (((s.count rMovesLanded 1).endMove n .acted).dropDone m.cards).settleRanges

/-- Annex runs that touch an evacuating device are rewritten (R280). -/
def State.rewriteIf (s : State) (cards : List Nat) : State :=
  let hit := cards.any fun n => match Tbl.get s.mover.copies n with
    | some a => (List.range a.run).any fun j =>
        (s.fld rPoolStatusEvacuating).testBit ((a.first + j) % s.mover.devices)
    | none => false
  if hit then s.queueMove (Move.request cards .privileged .annexRewrite s.row) else s

/-- The data of a move, read at its source with every granule it rebuilt counted. -/
def State.readSource (s : State) (m : Move) (cs : List (Nat × Card)) : Option (List (Nat × Card × List Byte)) × State :=
  match cs.mapM fun p => (s.sourceBytes m p.1 p.2).map fun r => (p.1, p.2, r) with
  | none => (none, s)
  | some xs =>
    let s := s.count rPoolEventsRebuilt (xs.foldl (fun k x => k + x.2.2.2) 0)
    let s := cs.foldl (fun s p => match Tbl.get s.mover.copies p.1 with
      | some a => s.chargePlaces a
      | none => s) s
    (some (xs.map fun x => (x.1, x.2.1, x.2.2.1)), s)

/-- The halves of a loan whose slots the lender has given land there (R263). -/
def State.landLoan (s : State) (n l : Nat) (m : Move) (cs : List (Nat × Card)) : State :=
  if cs.all fun p => (Tbl.get m.acks p.1).isSome then
    (cs.foldl (fun s p =>
      let s := match p.2.loc with | .stack g => s.touchLeaf (runOf g p.2.size) | _ => s
      let crc := match Tbl.get s.mover.copies p.1 with
        | some a => (s.readBack p.1 p.2 a.bytes).crc
        | none => p.2.crc
      (s.leaveSource p.1 p.2).setCard p.1 fun c =>
        { c.settle with loc := .loan l (Tbl.num m.acks p.1), scale := none, annexGranules := 0, crc := crc }) s).landed n m
  else s

/-- A rewrite ends: the new copy takes the pointer only if the leaf still lies at the old one (R280). -/
def State.landRewrite (s : State) (n : Nat) (m : Move) (xs : List (Nat × Card × List Byte)) : State :=
  if xs.all fun x => x.2.1.state = .sealed ∨ x.2.1.state = .shared then
    ((xs.zip m.granules).foldl (fun s x => match s.slotKey x.1.2.1.origin with
      | some key => s.landAnnex m x.1.1 x.1.2.1 x.1.2.2 x.2 key
      | none => s) s).landed n m
  else (s.unreserve m).closeMove n .passed

/-- MOVE_LAND: the copy lands when its CRC passes (R252, R268 to R270). A loan lands when the lender has answered; a
recalled leaf when its data has come. -/
def State.landMove (s : State) (n : Nat) : State :=
  match Tbl.get s.mover.moves n with
  | none => s
  | some m =>
    match s.moveCards m with
    | none => s
    | some cs =>
      if m.started.isNone ∨ (cs.any fun p => p.2.onLoan && (Tbl.get m.recalled p.1).isNone) then s
      else match m.dest with
      | .loan l => s.landLoan n l m cs
      | _ =>
        match s.readSource m cs with
        | (none, s) => s.failSource n m (cs.any fun p => match Tbl.get s.mover.copies p.1 with
            | some a => s.badPlaces a ≠ []
            | none => false)
        | (some xs, s) =>
          match m.dest with
          | .stack =>
            ((xs.zip (m.granules.zip m.scales)).foldl (fun s x =>
              s.landStack m x.1.1 x.1.2.1 x.1.2.2 x.2.1 x.2.2) s).landed n m
          | dest =>
            let fenced := m.granules.any fun l => l.any fun g => (s.fld rPoolStatusFenced).testBit (g % s.mover.devices)
            if fenced ∨ (xs.any fun x => (s.slotKey x.2.1.origin).isNone) then
              (if dest = .annexRewrite then (s.unreserve m).closeMove n .passed else s.failDestination n m)
            else if dest = .annexRewrite then s.landRewrite n m xs
            else
              (((xs.zip m.granules).foldl (fun s x => match s.slotKey x.1.2.1.origin with
                | some key => s.landAnnex m x.1.1 x.1.2.1 x.1.2.2 x.2 key
                | none => s) s).landed n m).rewriteIf m.cards

/-- MOVE_FAIL (R254). -/
def State.failMove (s : State) (n : Nat) (why : MoveFailure) : State :=
  match Tbl.get s.mover.moves n with
  | none => s
  | some m =>
    if m.started.isNone then s
    else match why, m.dest with
    | .sourceRead, _ => s.failSource n m true
    | .crc, _ => s.failSource n m false
    | .destination, .annexRewrite => (s.unreserve m).closeMove n .passed
    | .destination, _ => s.failDestination n m
    | .lenderRefused, .loan l => s.failLender n l m true
    | .lenderRefused, _ => s

/-! Starting (R252, R255, R257). -/

/-- Why a request ends without a move: its leaf cannot move, or already lies where it would go (R253, R269, R379). -/
def State.moveDone (s : State) (m : Move) (cs : List (Nat × Card)) : Bool :=
  let away := match m.dest with | .annex => true | .loan _ => true | _ => false
  (cs.any fun p => p.2.state ≠ .sealed && p.2.state ≠ .shared) || (cs.all fun p => p.2.liesAt m.dest) ||
  (m.returns && cs.all fun p => !p.2.onLoan) ||
  (away && cs.any fun p => p.2.pinned) ||
  ((m.dest = .annex || m.dest = .annexRewrite) && cs.any fun p => !s.keySet p.2.origin) ||
  (m.dest = .annexRewrite && cs.any fun p => (Tbl.get s.mover.copies p.1).isNone) ||
  match m.dest with
  | .loan _ => cs.any fun p => s.tenantSealed p.2.origin
  | _ => false

/-- The move takes a channel, and its leaf enters Moving; a rewrite leaves it as it is (R280). -/
def State.launch (s : State) (n : Nat) (m : Move) (cs : List (Nat × Card)) : State :=
  let s := s.setMove n fun _ => { m with waits := false }
  if m.dest = .annexRewrite then s
  else
    let s := cs.foldl (fun s p =>
      s.changeCard p.1 fun c => { c with state := .moving p.2.isShared }) s
    if cs.any fun p => p.2.onLoan then cs.foldl (fun s p => s.sendRecall p.2) s
    else match m.dest with
      | .loan l =>
        match s.readSource m cs with
        | (none, s) => s.failSource n m false
        | (some xs, s) => s.sendLends n l xs
      | _ => s

/-- A move has found no place and waits for the next row. -/
def State.holdMove (s : State) (n : Nat) : State := s.setMove n fun m => { m with waits := true }

/-- No stack granule can be reserved: a promotion waits (R255), a leaf that RETURN asks to move goes by R251, and a MIGRATE ends for
want of space (R225). -/
def State.noStack (s : State) (n : Nat) (m : Move) (cs : List (Nat × Card)) : State :=
  if m.returns then match s.fallDest cs false with
    | some d => s.setMove n fun m => { m with dest := d }
    | none => s.holdMove n
  else if m.cls = .demand then s.holdMove n
  else s.closeMove n .noSpace

/-- Reserve the destination and start; where none can be reserved a rewrite waits, a fall-back victim or a leaf that RETURN asks to
move goes to the next destination (R251), in the EVICT class as it is not condensed there (Table 10-3), and another move ends for
want of space (R225). -/
def State.reserve (s : State) (n : Nat) (m : Move) (cs : List (Nat × Card)) : State :=
  match m.dest with
  | .stack =>
    match cs.head? with
    | none => s
    | some (_, c) =>
      match s.takeLeaf (placement (handleSlot c.handle) c.layer c.head c.block) c.format c.d cs.length with
      | (none, s) => s.noStack n m cs
      | (some hs, s) => s.launch n { m with
          granules := hs.map fun h => runOf h.granule (leafGranules c.format c.d)
          scales := hs.map HalfLoc.scale } cs
  | .loan _ => s.launch n m cs
  | .annexRewrite =>
    match s.takeRuns m cs with
    | none => s.holdMove n
    | some (gs, s) => s.launch n { m with granules := gs } cs
  | .annex =>
    match s.takeRuns m cs with
    | some (gs, s) => s.launch n { m with granules := gs } cs
    | none =>
      if !m.fallback ∧ !m.returns then s.closeMove n .noSpace
      else match s.nextLender cs with
        | some l => s.setMove n fun m => { m with dest := .loan l, condense := false, cls := .evict }
        | none => if m.returns then s.holdMove n else s.closeMove n .passed

/-! Service (R265, R266). -/

/-- A queued move could start now: a channel of its class is free, its leaf has no other move, and no place is lacking. -/
def State.canStart (s : State) (p : Nat × Move) : Bool :=
  p.2.started.isNone && !p.2.waits && (s.freeChannel p.2.cls).isSome && !s.isMoving p.2.cards && s.inQueue p.1 p.2.cls &&
    (p.2.cls ≠ .prefetch || s.fld rWaterLowWater ≤ s.freeGranules)

/-- The first move of a class that could start. -/
def State.firstReady (s : State) (cls : MoveClass) : Option (Nat × Move) :=
  s.mover.moves.find? fun p => p.2.cls = cls && s.canStart p

/-- Bytes of a move as they are stored: those of its annex run, or those it takes in the stacks. -/
def State.storedBytes (s : State) (m : Move) (cs : List (Nat × Card)) : Nat :=
  cs.foldl (fun k p => k + match p.2.loc, m.dest with
    | .annex _ _, _ => p.2.annexGranules * 16384
    | _, .annex => 16384 * runLength (s.parityFor .annex) (s.dataGranules m p.1 p.2)
    | _, _ => p.2.bytes) 0

/-- The weighted classes in the order of their deficits. -/
def weightedClasses : List MoveClass := [.evict, .prefetch, .privileged]

/-- EVICT is served strictly while FREE_GRANULES is below LOW_WATER (Table 10-3). -/
def State.evictStrict (s : State) : Bool := s.freeGranules < s.fld rWaterLowWater

/-- Quantum of a weighted class in stored bytes: a weight of 0 is taken as 1. -/
def State.quantumOf (s : State) : MoveClass → Nat
  | .evict => 16384 * max 1 (s.fld rClassWeightsEvict)
  | .prefetch => 16384 * max 1 (s.fld rClassWeightsPrefetch)
  | _ => 16384 * max 1 (s.fld rClassWeightsPrivileged)

/-- Stored bytes of the move that each weighted class would start, that of the asked move being its own. -/
def State.heads (s : State) (m : Move) (size : Nat) : List (Option Nat) :=
  weightedClasses.map fun k =>
    if k = m.cls then some size
    else if k = .evict ∧ s.evictStrict then none
    else (s.firstReady k).bind fun p => (s.moveCards p.2).map fun cs => s.storedBytes p.2 cs

/-- Deficit round robin from class `i`, whose quantum of this visit has been given when `given`: the class it serves, and the deficits
it leaves. A class with nothing to start loses its deficit. -/
def State.nextClass (s : State) (sizes : List (Option Nat)) : Nat → Nat → Bool → List Nat → Option (Nat × List Nat)
  | 0, _, _, _ => none
  | n + 1, i, given, d =>
    match (sizes[i]?).join with
    | none => s.nextClass sizes n ((i + 1) % 3) false (setAt d i fun _ => 0)
    | some k =>
      let has := d.getD i 0 + if given then 0 else s.quantumOf (weightedClasses.getD i .privileged)
      if k ≤ has then some (i, setAt d i fun _ => has - k)
      else s.nextClass sizes n ((i + 1) % 3) false (setAt d i fun _ => has)

/-- The classes let a move start: DEMAND first, then EVICT while it is strict; the weighted classes in turn, the bytes being charged.
None where another class goes first. -/
def State.turnOf (s : State) (m : Move) (cs : List (Nat × Card)) : Option State :=
  if m.cls = .demand then some s
  else if (s.firstReady .demand).isSome then none
  else if s.evictStrict ∧ m.cls = .evict then some s
  else if s.evictStrict ∧ (s.firstReady .evict).isSome then none
  else match s.nextClass (s.heads m (s.storedBytes m cs)) 256 s.mover.turn s.mover.given s.mover.deficits with
    | some (i, d) =>
      if weightedClasses.getD i .privileged = m.cls then
        some { s with mover := { s.mover with deficits := d, turn := i, given := true } }
      else none
    | none => none

/-- MOVE_START: a queued move starts on the first free channel of its class, when the classes let it (R252, R265, R266). A prefetch
waits while FREE_GRANULES is below LOW_WATER, and ends unstarted after 64 rows (R257); none starts while the Mover is held
(R382). -/
def State.startMove (s : State) (n : Nat) : State :=
  match Tbl.get s.mover.moves n with
  | none => s
  | some m =>
    match s.moveCards m, s.freeChannel m.cls with
    | none, _ => s.closeMove n .passed
    | _, none => s
    | some cs, some ch =>
      if m.started.isSome ∨ s.isMoving m.cards ∨ s.inQueue n m.cls = false ∨ (Tbl.get s.vault.blocks 0x060).isSome
        ∨ (m.cls = .prefetch ∧ s.freeGranules < s.fld rWaterLowWater) then s
      else if s.moveDone m cs ∨ (m.cls = .prefetch ∧ m.queued + 64 ≤ s.row) then s.closeMove n .passed
      else match s.turnOf m cs with
        | some s => s.reserve n { m with started := some s.row, channel := ch } cs
        | none => s

/-- A promotion that waits for stack granules tries again (R255). -/
def State.retryPromotion (s : State) (n : Nat) : State :=
  match Tbl.get s.mover.moves n with
  | some m => if m.cls = .demand ∧ m.dest = .stack then s.startMove n else s
  | none => s

/-- A prefetch not started within 64 rows of being queued is dropped (R257). -/
def State.dropPrefetch (s : State) (n : Nat) : State :=
  match Tbl.get s.mover.moves n with
  | some m => if m.cls = .prefetch ∧ m.started.isNone ∧ m.queued + 64 ≤ s.row then s.closeMove n .passed else s
  | none => s

/-- The lender has not acknowledged a LEND within 64 rows (R254). -/
def State.ackTimeout (s : State) (n : Nat) : State :=
  match Tbl.get s.mover.moves n with
  | some m =>
    match m.lentAt, m.dest with
    | some r, .loan l => if r + 64 ≤ s.row then s.failLender n l m false else s
    | _, _ => s
  | none => s

/-- A lender passed over becomes eligible again after 256 rows (R251). -/
def State.endPassOver (s : State) (lender : Nat) : State :=
  match Tbl.get s.mover.passed lender with
  | some r => if r ≤ s.row then { s with mover := { s.mover with passed := Tbl.erase s.mover.passed lender } } else s
  | none => s

/-- FALLBACK_DEMOTION_START (R249). -/
def execFallbackDemotionStart (s : State) : Out := .next s.fallBack

/-- MOVE_START (R252). -/
def execMoveStart (mv : Nat) (s : State) : Out := .next (s.startMove mv)

/-- MOVE_LAND (R252). -/
def execMoveLand (mv : Nat) (s : State) : Out := .next (s.landMove mv)

/-- MOVE_FAIL (R254). -/
def execMoveFail (mv : Nat) (why : MoveFailure) (s : State) : Out := .next (s.failMove mv why)

/-- PROMOTION_RETRY (R255). -/
def execPromotionRetry (mv : Nat) (s : State) : Out := .next (s.retryPromotion mv)

/-- PREFETCH_DROP (R257). -/
def execPrefetchDrop (mv : Nat) (s : State) : Out := .next (s.dropPrefetch mv)

/-- LENDER_ACK_TIMEOUT (R254). -/
def execLenderAckTimeout (mv : Nat) (s : State) : Out := .next (s.ackTimeout mv)

/-- LENDER_PASS_OVER_EXPIRY (R251). -/
def execLenderPassOverExpiry (lender : Nat) (s : State) : Out := .next (s.endPassOver lender)

end Sys2Proof.Machine
end

