-- ==== Sys2Proof/Machine/Loans.lean ====
section
/-! DEFINITION. Loans between nodes (R258 to R264): the lender's loan sequences and loan table, and the six messages of
Table 10-2. -/

namespace Sys2Proof.Machine

/-- The codes of RESULT (Table 10-2). -/
def loanOk : Nat := 0
def loanNoSlot : Nat := 1
def loanQuota : Nat := 2
def loanDisabled : Nat := 3
def loanLost : Nat := 4

/-- A loan message has effect on a Ready LOAN queue pair of its sender (R258, R308); on a connection of another class it
breaks the protocol. -/
def State.onLoanQp (s : State) (m : LoanMsg) (f : State → State) : State :=
  match s.conn m.qp m.src s.domain m.srcQp with
  | none => s
  | some (k, c) => if c.state ≠ .ready then s else if c.cls = 2 then f s else s.qpError k 1

/-! The lender. -/

/-- Loan slots of a lender (R258). -/
def loanSlots : Nat := 65536

/-- Stack granules lent. -/
def State.lentGranules (s : State) : Nat :=
  s.cat.lent.foldl (fun n p => match s.card p.2.card with | some c => n + c.size | none => n) 0

/-- The loan sequence that holds a borrower's leaves of one handle (R259). -/
def State.loanSeqOf (s : State) (borrower handle : Nat) : Option Nat :=
  (s.cat.lent.find? fun p => p.2.borrower = borrower && p.2.borrowerHandle = handle).map fun p => p.2.slot

/-- What a loan sequence takes beside the fields of the LEND: nothing. -/
def loanOpen : OpenBody :=
  { format := 0, mirrored := false, pinned := false, library := false, d := 0, layers := 0, kvHeads := 0, buddy := 0,
    forkPosition := 0 }

/-- The loan sequence for a LEND, opened with TENANT 0 where there is none yet (R259). -/
def State.openLoanSeq (s : State) (m : LoanMsg) : Option (Nat × State) :=
  match s.loanSeqOf m.src m.borrowerHandle with
  | some slot => some (slot, s)
  | none => match s.takeSlot (m.layers + 1) m.kvHeads with
    | .error _ => none
    | .ok (slot, s) =>
      let q := (s.seqAt slot).opened m.model 0 m.format m.d (m.layers + 1) m.kvHeads loanOpen (s.dirPage slot) s.row
      some (slot, s.setSeq slot { q with loanSeq := true })

/-- Room for a loaned leaf: with its other half where that lies, else by R143 under the loan sequence's slot. -/
def State.takeLoanPlace (s : State) (slot : Nat) (m : LoanMsg) (d : Nat) : Option (HalfLoc × State) :=
  match ((s.leafAt slot m.layer m.head (1 - m.half) m.block).bind s.card).bind Card.place with
  | some h =>
    let start := Config.freeNat s.fresh
    match s.cat.placeHalves (granStack h.granule) (granRegion h.granule) m.format d start 1 with
    | some (l :: _, c) => some (l, { s with cat := c, fresh := s.fresh + 1 })
    | _ => none
  | none => match s.takeLeaf (placement slot m.layer m.head m.block) m.format d 1 with
    | (some (l :: _), s) => some (l, s)
    | _ => none

/-- The leaf of a LEND lands in the loan sequence (Table 3-5): the loan slot, the loan handle and the new state, or the
RESULT that refuses it. -/
def State.takeLoan (s : State) (m : LoanMsg) : Except Nat (Nat × Nat × State) :=
  let d := if 256 < m.d then m.d / 2 else m.d
  let g := leafGranules m.format d
  let bytes := slice m.data 0 (elemBytes m.format d + if fmtIsMx m.format then 16 * d else 0)
  if s.fld rLoanCtlLendEnable = 0 then .error loanDisabled
  else if loanSlots ≤ s.cat.lent.length then .error loanNoSlot
  else if s.fld rLoanCtlQuota < s.lentGranules + g ∨ s.freeGranules < s.fld rWaterHighWater + g then .error loanQuota
  else if crc32c bytes ≠ m.crc then .error loanLost
  else match s.openLoanSeq m with
  | none => .error loanNoSlot
  | some (slot, s) =>
    if (s.leafAt slot m.layer m.head m.half m.block).isSome then .error loanNoSlot
    else match s.takeLoanPlace slot m d with
    | none => .error loanQuota
    | some (l, s) =>
      if s.freeGranules < s.fld rWaterHighWater then .error loanQuota
      else
        let q := s.seqAt slot
        let c := Card.allocate q (handleOf slot q) m.layer m.head m.half m.block s.row l
        match s.takeCard { c with state := .sealed, valid := 256, origin := m.origin, crc := m.crc } with
        | (none, _) => .error loanNoSlot
        | (some n, s) =>
          if s.freePages < s.pagesLacking slot m.layer m.head m.half [m.block] then .error loanNoSlot
          else match s.choose loanSlots fun k => (Tbl.get s.cat.lent k).isNone with
          | (none, _) => .error loanNoSlot
          | (some k, s) =>
            let s := (s.touchLeaf (runOf l.granule g)).fillLeaf l m.format d bytes
            let s := s.putLeafAt slot m.layer m.head m.half m.block n
            let loan : Loan := { borrower := m.src, borrowerHandle := m.borrowerHandle, slot := slot, card := n,
                                 key := leafKey slot m.layer m.head m.half m.block }
            .ok (k, handleOf slot q, { s with cat := { s.cat with lent := Tbl.set s.cat.lent k loan } })

/-- A message's answer names what the message named and carries no data of it. -/
def loanAnswer (m : LoanMsg) (result slot handle : Nat) : LoanMsg :=
  { m with result := result, loanSlot := slot, lenderHandle := handle, data := [] }

/-- LEND (R258, R259, R263). -/
def State.lend (s : State) (m : LoanMsg) : State :=
  match s.takeLoan m with
  | .error e => s.send (.loan .lendAck m.src (loanAnswer m e 0 m.lenderHandle))
  | .ok (k, h, s) => s.send (.loan .lendAck m.src (loanAnswer m loanOk k h))

/-- The loan a message of its borrower names. -/
def State.loanNamed (s : State) (m : LoanMsg) : Option Loan :=
  (Tbl.get s.cat.lent m.loanSlot).filter fun x => x.borrower = m.src

/-- RECALL: the lender answers with the leaf's data, which it keeps until RELEASE; a leaf it has lost is said so (R263). -/
def State.recall (s : State) (m : LoanMsg) : State :=
  let lost (s : State) : State := s.send (.loan .recallData m.src (loanAnswer m loanLost m.loanSlot m.lenderHandle))
  match s.loanNamed m with
  | none => lost s
  | some x => match s.card x.card with
    | none => lost s
    | some c =>
      match (if c.state = .lost then none else c.place) with
      | none => lost s
      | some l =>
        let s := s.touchLeaf (runOf l.granule c.size)
        if s.leafPoisoned l c.format c.d then lost (s.loseLeaf x.card)
        else s.send (.loan .recallData m.src { loanAnswer m loanOk m.loanSlot m.lenderHandle with
          crc := c.crc
          data := s.leafData l c.format c.d })

/-- RELEASE: the lender frees the leaf, and closes the loan sequence when its last loan is released (R259, R263). -/
def State.releaseLoan (s : State) (m : LoanMsg) : State :=
  match s.loanNamed m with
  | none => s
  | some x =>
    let s := { s with cat := { s.cat with lent := Tbl.erase s.cat.lent m.loanSlot } }
    let s := if Tbl.get s.cat.leaves x.key = some x.card
      then { s with cat := { s.cat with leaves := Tbl.erase s.cat.leaves x.key } }.dropRef x.card else s
    if s.cat.lent.any fun p => p.2.slot = x.slot then s
    else s.setSeq x.slot { s.seqAt x.slot with state := .closing }

/-- The lender's loans in the order of R250. -/
def State.loansInOrder (s : State) : List (Nat × Loan) :=
  s.cat.lent.mergeSort fun a b =>
    ((s.card a.2.card).map fun c => fallOrder (a.2.card, c)).getD 0
      ≤ ((s.card b.2.card).map fun c => fallOrder (b.2.card, c)).getD 0

/-- The message that returns a leaf to its borrower. -/
def State.returnMsg (s : State) (k : Nat) (x : Loan) (c : Card) : LoanMsg :=
  let q := s.seqAt x.slot
  c.loanMsg q x.borrower k x.borrowerHandle (handleOf x.slot q)

/-- Send RETURN for leaves, in the order of R250, until what is left stays within a number of granules (R263). -/
def State.returnAbove (s : State) (keep : Nat) : Nat → List (Nat × Loan) → State
  | _, [] => s
  | lent, (k, x) :: t =>
    if lent ≤ keep then s
    else match s.card x.card with
      | none => s.returnAbove keep lent t
      | some c => (s.send (.loan .returnLeaf x.borrower (s.returnMsg k x c))).returnAbove keep (lent - c.size) t

/-- QUOTA lies below the lent granules: leaves are returned until it does not (R263). -/
def State.returnOverQuota (s : State) : State :=
  s.returnAbove (s.fld rLoanCtlQuota) s.lentGranules s.loansInOrder

/-- The node is ordered to drain: every leaf is returned (R263). -/
def State.returnAll (s : State) : State := s.returnAbove 0 s.lentGranules s.loansInOrder

/-! The borrower. -/

/-- The card a message about this node's own leaf names. -/
def State.cardNamed (s : State) (m : LoanMsg) (p : Nat → Card → Bool) : Option (Nat × Card) :=
  s.cat.cards.find? fun x => x.2.handle = m.borrowerHandle && x.2.layer = m.layer && x.2.head = m.head
    && x.2.half = m.half && x.2.block = m.block && p x.1 x.2

/-- A running move that takes a card to a lender and has no answer for it yet. -/
def State.lendMove (s : State) (lender card : Nat) : Option (Nat × Move) :=
  s.mover.moves.find? fun p => p.2.started.isSome && p.2.cards.contains card && p.2.dest = .loan lender
    && (Tbl.get p.2.acks card).isNone

/-- LEND_ACK: the borrower keeps the loan handle, and the leaf lands when every half is answered; a refusal ends the move
(Table 10-1). An acceptance that no move waits for is released. -/
def State.takeLendAck (s : State) (m : LoanMsg) : State :=
  match s.cardNamed m fun n _ => (s.lendMove m.src n).isSome with
  | none =>
    if m.result = loanOk then
      s.send (.loan .release m.src (loanAnswer m 0 m.loanSlot m.lenderHandle))
    else s
  | some (n, _) => match s.lendMove m.src n with
    | none => s
    | some (k, mv) =>
      if m.result = loanOk then
        let s := s.setMove k fun x => { x with acks := Tbl.set x.acks n m.loanSlot }
        let map := (m.src, m.borrowerHandle, m.lenderHandle) ::
          s.cat.loanMap.filter fun x => !(x.1 = m.src && x.2.1 = m.borrowerHandle)
        let s := { s with cat := { s.cat with loanMap := map } }
        match Tbl.get s.mover.moves k, s.moveCards mv with
        | some mv, some cs => s.landLoan k m.src mv cs
        | _, _ => s
      else if m.result = loanLost then s.failSource k mv false
      else s.failLender k m.src mv true

/-- RECALL_DATA: the data wait for the leaf's landing; a leaf the lender lost is Lost here. A leaf on its way to another
lender is sent there once every half has come. -/
def State.takeRecallData (s : State) (m : LoanMsg) : State :=
  match s.cardNamed m fun n c => c.loc = .loan m.src m.loanSlot && s.mover.moves.any fun p =>
      p.2.started.isSome && p.2.cards.contains n with
  | none => s
  | some (n, c) => match s.mover.moves.find? fun p => p.2.started.isSome && p.2.cards.contains n with
    | none => s
    | some (k, mv) =>
      if m.result ≠ loanOk then s.failSource k mv false
      else
        let mv := { mv with recalled := Tbl.set mv.recalled n (slice m.data 0 c.bytes) }
        let s := s.setMove k fun _ => mv
        match mv.dest, s.moveCards mv with
        | .loan l, some cs =>
          if cs.any fun p => (Tbl.get mv.recalled p.1).isNone then s
          else match s.readSource mv cs with
            | (none, s) => s.failSource k mv false
            | (some xs, s) => s.sendLends k l xs
        | _, _ => s

/-- A RETURN of the leaf is queued or running. -/
def State.isReturned (s : State) (n : Nat) : Bool := s.mover.moves.any fun p => p.2.returns && p.2.cards.contains n

/-- RETURN: the leaf is queued for a move out of loan, to the stacks where they stand at LOW_WATER or above, otherwise by
R251 (R263). The request of a leaf with another move is recorded beside it (R253), and one that finds no place waits. -/
def State.takeReturn (s : State) (m : LoanMsg) : State :=
  match s.cardNamed m fun _ c => c.loc = .loan m.src m.loanSlot with
  | none => s
  | some (n, _) =>
    let ns := (n :: (s.partner n).toList).mergeSort fun a b =>
      ((s.card a).map Card.half).getD 0 ≤ ((s.card b).map Card.half).getD 0
    let cs := ns.filterMap fun k => (s.card k).map fun c => (k, c)
    if s.isReturned n then s
    else
      let dest := if s.fld rWaterLowWater ≤ s.freeGranules then .stack else (s.fallDest cs false).getD .annex
      s.queueMove { Move.request ns .evict dest s.row with returns := true }

/-- Every leaf on loan to a lender becomes Lost, and its loan handles are forgotten (R264). -/
def State.loseLoans (s : State) (lender : Nat) : State :=
  let s := (s.cat.cards.filter fun p => p.2.liesAt (.loan lender)).foldl (fun s p => s.loseLeaf p.1) s
  { s with cat := { s.cat with loanMap := s.cat.loanMap.filter fun x => x.1 ≠ lender } }.settleRanges

/-- LEND (R258). -/
def execLend (m : LoanMsg) (s : State) : Out := .next (s.onLoanQp m fun s => s.lend m)

/-- LEND_ACK (R263). -/
def execLendAck (m : LoanMsg) (s : State) : Out := .next (s.onLoanQp m fun s => s.takeLendAck m)

/-- RECALL (R263). -/
def execRecall (m : LoanMsg) (s : State) : Out := .next (s.onLoanQp m fun s => s.recall m)

/-- RECALL_DATA (R263). -/
def execRecallData (m : LoanMsg) (s : State) : Out := .next (s.onLoanQp m fun s => s.takeRecallData m)

/-- RELEASE (R263). -/
def execRelease (m : LoanMsg) (s : State) : Out := .next (s.onLoanQp m fun s => s.releaseLoan m)

/-- RETURN (R263). -/
def execReturnLeaf (m : LoanMsg) (s : State) : Out := .next (s.onLoanQp m fun s => s.takeReturn m)

end Sys2Proof.Machine
end

