-- ==== Sys2Proof/Machine/Annex.lean ====
section
/-! DEFINITION. The annex's pool devices, ports and engines (R273 to R280, R390, R439). -/

namespace Sys2Proof.Machine

/-! Fencing (R276, R278). -/

/-- Fence a pool device: its bit in POOL_STATUS is set, and the fabric managers receive event 0x000B. -/
def State.fence (s : State) (dev : Nat) : State :=
  if s.mover.devices ≤ dev ∨ (s.fld rPoolStatusFenced).testBit dev then s
  else
    let s := s.setFld ⟨0x060, 0x060, 48 + dev, 48 + dev⟩ 1
    s.postFm (s.event 0x000B 0x060 dev)

/-- An annex port has been Down for 4,096 rows. -/
def State.linkLost (s : State) : Bool := s.mover.linkDown.any fun p => p.2 + 4096 ≤ s.row

/-- POOL_LINK_RETRAIN_TIMEOUT (R276). Which port is a device's path the switch decides. -/
def State.linkTimeout (s : State) (dev : Nat) : State := if s.linkLost then s.fence dev else s

/-- Reads of a device that returned poison in the last 4,096 rows. -/
def State.recentPoison (s : State) (dev : Nat) : Nat :=
  (((Tbl.get s.mover.poisonRows dev).getD []).filter fun r => s.row < r + 4096).length

/-- POOL_POISON_LIMIT (R276). -/
def State.poisonLimit (s : State) (dev : Nat) : State := if 16 ≤ s.recentPoison dev then s.fence dev else s

/-- A leaf's run touches a device. -/
def State.copyTouches (s : State) (a : AnnexCopy) (dev : Nat) : Bool :=
  (List.range a.run).any fun j => (a.first + j) % s.mover.devices = dev

/-- One event for each owner of some cards. -/
def State.postLostOwners (s : State) : List Nat → List Nat → State
  | _, [] => s
  | told, n :: t =>
    match s.card n with
    | none => s.postLostOwners told t
    | some c =>
      if told.contains c.owner then s.postLostOwners told t
      else (s.postLost n).postLostOwners (c.owner :: told) t

/-- FENCE_SWEEP: every leaf not in parity layout whose run touches the fenced device becomes Lost, with one event for each
owner (R278). -/
def State.sweep (s : State) (dev : Nat) : State :=
  if (s.fld rPoolStatusFenced).testBit dev = false then s
  else
    let hit := (s.mover.copies.filter fun p => !p.2.parity && s.copyTouches p.2 dev).map Prod.fst
    let ns := (hit.flatMap s.halvesLeft).dedup
    ((ns.foldl State.loseQuiet s).postLostOwners [] ns).settleRanges

/-- CXL_DEVICE_EVENT: a fatal event fences the device, another counts in its gauge (R273, R276, R393). -/
def State.deviceEvent (s : State) (dev : Nat) (fatal : Bool) : State :=
  if s.mover.devices ≤ dev then s
  else if fatal then s.fence dev else s.gauge 5 dev 4

/-! Ports (R275, R390, R439). -/

/-- A0 is an endpoint (R275). -/
def State.isEndpoint (s : State) (a : Nat) : Bool := a = 0 && s.fld (rAnnexCfgEndpoint 0) = 1

/-- An annex link goes down. Its moves go on over the other ports (R390). -/
def State.annexDown (s : State) (a : Nat) : State :=
  if 4 ≤ a ∨ s.fld (rAnnexLinkLink a) = 0 then s
  else
    let s := s.setFld (rAnnexLinkLink a) 0
    { s with mover := { s.mover with
      linkDown := if s.isEndpoint a then s.mover.linkDown else Tbl.set s.mover.linkDown a s.row
      endpointUp := s.mover.endpointUp && a ≠ 0 } }

/-- An annex link comes up: as endpoint on A0 where the skein sets it, unless ANNEX_PERST_N0 is low, else as root port. A
link that was lost counts a retrain. A port cut with its rail stays Down (Table 18-4). The width and speed that training gives are
the link's own (log entry 2). -/
def State.annexUp (s : State) (a : Nat) : State :=
  if 4 ≤ a ∨ s.fld (rAnnexLinkLink a) ≥ 2 ∨ (Tbl.get s.vault.blocks (0x068 + a)).isSome
    ∨ (s.isEndpoint a ∧ s.mover.perstHigh = false) then s
  else
    let s := if (Tbl.get s.mover.linkDown a).isSome then s.count (rAnnexLinkRetrains a) 1 else s
    let s := s.setFld (rAnnexLinkLink a) (if s.isEndpoint a then 3 else 2)
    let (width, s) := s.free
    let (speed, s) := s.free
    let s := (s.setFld (rAnnexLinkWidth a) (width % 3)).setFld (rAnnexLinkSpeed a) (speed % 3)
    { s with mover := { s.mover with
      linkDown := Tbl.erase s.mover.linkDown a
      endpointUp := s.mover.endpointUp || s.isEndpoint a } }

/-- ANNEX_PERST_N0 as an input: while it is low A0's link stays Down (R439). -/
def State.perst (s : State) (high : Bool) : State :=
  let s := { s with mover := { s.mover with perstHigh := high } }
  if s.isEndpoint 0 ∧ !high then s.annexDown 0 else s

/-! Engines (R390). -/

/-- MOVER_ENGINE_FAULT: the engine is fenced, and its move ends at its source and is queued again. -/
def State.engineFault (s : State) (n : Nat) : State :=
  match Tbl.get s.mover.moves n with
  | none => s
  | some m =>
    if m.started.isNone then s
    else
      let s := (((s.settleCards m).unreserve m).releaseAcks m).queueFault
      let (v, s) := s.free
      let engines := s.mover.enginesFenced
      let engine := (firstFrom (fun e => !engines.contains e) v 16 16).getD 0
      let s := { s with mover := { s.mover with enginesFenced := addNum s.mover.enginesFenced engine } }
      s.setMove n fun m =>
        { m with started := none, granules := [], scales := [], recalled := [], acks := [], lentAt := none }

/-! Evacuation and rebuild (R280). -/

/-- Queue the rewrite of annex leaves, both halves of a block together. -/
def State.queueRewrites (s : State) : List Nat → State
  | [] => s
  | n :: t =>
    if s.mover.moves.any fun p => p.2.dest = .annexRewrite && p.2.cards.contains n then s.queueRewrites t
    else
      let ns := (n :: (s.partner n).toList).mergeSort fun a b =>
        ((s.card a).map Card.half).getD 0 ≤ ((s.card b).map Card.half).getD 0
      (s.queueMove (Move.request ns .privileged .annexRewrite s.row)).queueRewrites t

/-- The copy's leaf is not Lost. -/
def State.liveCopy (s : State) (n : Nat) : Bool :=
  match s.card n with
  | some c => c.state ≠ .lost
  | none => false

/-- A copy's run touches a fenced device. -/
def State.copyFenced (s : State) (a : AnnexCopy) : Bool :=
  (List.range a.run).any fun j => (s.fld rPoolStatusFenced).testBit ((a.first + j) % s.mover.devices)

/-- The annex leaves a rewrite operation takes: those that touch the evacuating device, or those in parity layout that touch
a fenced one. -/
def State.toRewrite (s : State) : AnnexOp → List Nat
  | .evacuate dev => (s.mover.copies.filter fun p => s.copyTouches p.2 dev && s.liveCopy p.1).map Prod.fst
  | .rebuild => (s.mover.copies.filter fun p => p.2.parity && s.liveCopy p.1 && s.copyFenced p.2).map Prod.fst

/-- MOVER_CTL operation (R280, Table 10-6): RESULT shows running, or why it is refused. -/
def State.annexOp (s : State) (op : AnnexOp) : State :=
  if s.mover.op.isSome then s.setFld rMoverCtlResult 3
  else if s.mover.devices < 8 then s.setFld rMoverCtlResult 4
  else
    let s := { s with mover := { s.mover with op := some op } }.setFld rMoverCtlResult 1
    let s := match op with
      | .evacuate dev => if dev < s.mover.devices then s.setFld ⟨0x060, 0x060, 32 + dev, 32 + dev⟩ 1 else s
      | .rebuild => s
    s.queueRewrites (s.toRewrite op)

/-- A move that has reserved a run on a device may yet land there. -/
def State.headsFor (s : State) (dev : Nat) : Bool :=
  s.mover.moves.any fun p => p.2.dest = .annex && p.2.started.isSome &&
    p.2.granules.any fun l => l.any fun g => g % s.mover.devices = dev

/-- EVACUATION_COMPLETE: the operation is done when its last rewrite has ended and, of an evacuation, no move is about to land on the
device (R280). -/
def State.annexOpDone (s : State) : State :=
  match s.mover.op with
  | none => s
  | some op =>
    let onWay : Bool := match op with
      | .evacuate dev => s.headsFor dev
      | .rebuild => false
    if (s.mover.moves.any fun p => p.2.dest = .annexRewrite) ∨ onWay then s
    else { s with mover := { s.mover with op := none } }.setFld rMoverCtlResult 2

/-- POOL_DEVICE_FENCE (R276). -/
def execPoolDeviceFence (dev : Nat) (s : State) : Out := .next (s.fence dev)

/-- POOL_LINK_RETRAIN_TIMEOUT (R276). -/
def execPoolLinkRetrainTimeout (dev : Nat) (s : State) : Out := .next (s.linkTimeout dev)

/-- POOL_POISON_LIMIT (R276). -/
def execPoolPoisonLimit (dev : Nat) (s : State) : Out := .next (s.poisonLimit dev)

/-- FENCE_SWEEP (R278). -/
def execFenceSweep (dev : Nat) (s : State) : Out := .next (s.sweep dev)

/-- CXL_DEVICE_EVENT (R273). -/
def execCxlDeviceEvent (dev : Nat) (fatal : Bool) (s : State) : Out := .next (s.deviceEvent dev fatal)

/-- ANNEX_LINK_DOWN (R390). -/
def execAnnexLinkDown (a : Nat) (s : State) : Out := .next (s.annexDown a)

/-- ANNEX_LINK_UP (R276). -/
def execAnnexLinkUp (a : Nat) (s : State) : Out := .next (s.annexUp a)

/-- ANNEX_PERST_INPUT (R439). -/
def execAnnexPerstInput (high : Bool) (s : State) : Out := .next (s.perst high)

/-- MOVER_ENGINE_FAULT (R390). -/
def execMoverEngineFault (mv : Nat) (s : State) : Out := .next (s.engineFault mv)

/-- EVACUATION_COMPLETE (R280). -/
def execEvacuationComplete (s : State) : Out := .next s.annexOpDone

end Sys2Proof.Machine
end

