-- ==== Sys2Proof/Machine/Transport.lean ====
section
/-! DEFINITION. The Transport Engine: selective repeat, paths, queue pairs, and memory keys (R303 to R327). -/

namespace Sys2Proof.Machine

/-! Receiving (R315 to R317, R320, R336). -/

/-- How far a PSN lies ahead of another, modulo 2^24; 2^23 and above lie behind it. -/
def psnAhead (base psn : Nat) : Nat := (psn + 2 ^ 24 - base) % 2 ^ 24

/-- Bytes of a message at most (R192). -/
def messageMax : Nat := 2097152

/-- Bytes of the transport reserve that TC5 and TC6 have for themselves, and bytes of the rest (R320, Table 1-3). -/
def ownLimit : Nat := 2 * 2 ^ 30
def poolLimit : Nat := 10 * 2 ^ 30

/-- Bytes of a partner record (R312). -/
def partnerBytes : Nat := 64

/-- Bytes a connection has buffered on receipt. -/
def Conn.held (c : Conn) : Nat := c.buffered.foldl (fun n k => n + k.payload.length) c.assembling.length

/-- Bytes of payload held, on receipt or until acknowledged, for classes that pass a test. -/
def State.heldBytes (s : State) (p : Nat → Bool) : Nat :=
  s.xport.conns.foldl (fun n x => if p (s.tcOf x.2) then n + x.2.held else n) 0 +
    s.xport.unacked.foldl (fun n u => if p u.tc then n + u.length else n) 0

/-- What is taken of the rest of the transport reserve: partner records, the payload of TC0 to TC4, and what TC5 and TC6 hold beyond
their own part. DEDUCED (log entry 175). -/
def State.poolUsed (s : State) : Nat :=
  partnerBytes * (s.xport.conns.filter fun p => p.2.shared).length + s.heldBytes (· ≤ 4) +
    (s.heldBytes (fun tc => tc = 5 || tc = 6) - ownLimit)

/-- Key of a path a peer sends on: its domain, node, and the ports at both ends. -/
def recvKey (k : Packet) : Nat := (k.srcDomain * 16384 + k.srcNode) * 64 + k.srcPort % 8 * 8 + k.dstPort % 8

/-- A packet's PATH_SEQ: one ahead of the next expected on its path draws a NAK for those missing. -/
def State.followPath (s : State) (k : Packet) : State :=
  let key := recvKey k
  let next := (Tbl.get s.xport.recvSeq key).getD k.pathSeq
  let gap := (k.pathSeq + 65536 - next) % 65536
  if 32768 ≤ gap then s
  else
    let s := { s with xport := { s.xport with recvSeq := Tbl.set s.xport.recvSeq key ((k.pathSeq + 1) % 65536) } }
    if gap = 0 then s else s.send (.nak k.srcNode k.srcDomain (ackTc k.tc) k.pathIndex next gap)

/-- A packet's class agrees with its queue pair (R336). -/
def State.classOk (s : State) (c : Conn) (k : Packet) : Bool :=
  if k.kind = 3 then true
  else if k.kind = 4 then c.peerDomain ≠ s.domain && k.tc = 2
  else k.kind = 0 && (k.tc = s.tcOf c || (k.tc = 5 && c.cls ≠ 2))

/-- A whole message is handed over, oldest first. -/
def State.deliver (s : State) (key : Nat) (m : List Byte) : State :=
  { s with xport := { s.xport with inbox := s.xport.inbox ++ [(key, m)] } }

/-- A connection enters Quarantine. What is not acknowledged of its completions is discarded and counted (Table 12-5). -/
def State.quarantine (s : State) (k : Nat) : State :=
  let s := s.setConn k fun c => { c with state := .quarantine, since := s.row, buffered := [], assembling := [] }
  let lost := (s.xport.unacked.filter fun u => u.conn = k && u.kind = 0 && u.tc = 5 && u.last).length
  { s with xport := { s.xport with
    unacked := s.xport.unacked.filter fun u => u.conn ≠ k
    lostCompletions := s.xport.lostCompletions + lost } }

/-! Trunks (R329). -/

/-- Bytes of a BULK message at most (R329). -/
def bulkMax : Nat := 1048576

/-- GATEWAY of a domain's routing entry (Table 12-2); none where the entry has not been written. -/
def State.gatewayOf (s : State) (domain : Nat) : Option Nat :=
  let w0 := s.stored 0x038 (routeOffset (16384 + domain))
  let w1 := s.stored 0x038 (routeOffset (16384 + domain) + 8)
  if w0 = 0 ∧ w1 = 0 then none else some (bits w1 29 16)

/-- Queue-pair numbers in use. -/
def State.qpsUsed (s : State) : List Nat := (s.xport.conns.map fun p => connQp p.1).dedup

/-- Free queue pairs of the 65,532 that CONNECT allocates. -/
def State.freeQps (s : State) : Nat := 65532 - s.qpsUsed.length

/-- The lowest free queue pair. -/
def State.lowestQp (s : State) : Option Nat :=
  let used := s.qpsUsed
  firstFrom (fun n => 4 ≤ n && !used.contains n) 4 65536 65532

/-- A queue pair that this gateway opens itself, its PSNs and its peer's queue pair being free values (log entry 90). -/
def State.openConn (s : State) (node domain cls : Nat) (relay : Bool) : Option Nat × State :=
  match s.lowestQp with
  | none => (none, s)
  | some q =>
    let (a, s) := s.free
    let (b, s) := s.free
    let (p, s) := s.free
    let c : Conn :=
      { state := .ready, cls := cls, tenant := 0, peerNode := node, peerDomain := domain, peerQp := p % 65536, shared := false,
        compat := false, relay := relay, cause := 0, since := s.row, peerGone := false, nextPsn := a % 2 ^ 24, buffered := [],
        assembling := [], sendPsn := b % 2 ^ 24, ackDue := [] }
    (some (q * 4096), { s with xport := { s.xport with conns := Tbl.set s.xport.conns (q * 4096) c } })

/-- A connection is the trunk of a domain: with the gateway that the domain's entry names. -/
def State.isTrunk (s : State) (domain : Nat) (c : Conn) : Bool :=
  c.peerDomain = domain && domain ≠ s.domain && some c.peerNode = s.gatewayOf domain

/-- The trunk of a domain where it is Ready; the gateway opens one where there is none. One in another state is not replaced before
it is Free again. -/
def State.trunk (s : State) (domain : Nat) : Option Nat × State :=
  match s.xport.conns.find? fun p => s.isTrunk domain p.2, s.gatewayOf domain with
  | some (k, c), _ => (if c.state = .ready then some k else none, s)
  | none, some node => if domain = s.domain then (none, s) else s.openConn node domain 1 false
  | none, none => (none, s)

/-- Close the BULK message of a domain and send it on its trunk (R329). With no trunk it waits for one. -/
def State.closeBulk (s : State) (domain : Nat) : State :=
  match Tbl.get s.xport.bulk domain with
  | none => s
  | some b => match s.trunk domain with
    | (none, s) => s
    | (some k, s) =>
      { s with xport := { s.xport with bulk := Tbl.erase s.xport.bulk domain } }.send (.bulk k domain b.records)

/-- Bytes of the BULK message that a domain's records gather in. -/
def State.bulkBytes (s : State) (domain : Nat) : Nat :=
  match Tbl.get s.xport.bulk domain with | some b => b.bytes | none => 0

/-- Put a record in the BULK message of a domain, which closes when it reaches its greatest size; none where it has no room and
no trunk takes it. -/
def State.addRecord (s : State) (domain : Nat) (r : BulkRecord) : Option State :=
  let s := if bulkMax < s.bulkBytes domain + bulkSize r then s.closeBulk domain else s
  if bulkMax < s.bulkBytes domain + bulkSize r then none
  else
    let b := (Tbl.get s.xport.bulk domain).getD { records := [], bytes := 0, opened := s.now }
    let b : Bulk := { b with records := b.records ++ [r], bytes := b.bytes + bulkSize r }
    let s := { s with xport := { s.xport with bulk := Tbl.set s.xport.bulk domain b } }
    some (if bulkMax ≤ b.bytes then s.closeBulk domain else s)

/-- Put an answer in the BULK message of the requester's domain. One that finds no room is lost: the near gateway answers for it
when the trunk is in Error (R333). -/
def State.addAnswer (s : State) (domain : Nat) (r : BulkRecord) : State := (s.addRecord domain r).getD s

/-- The message of a BULK record given back by a destination node: the requester's TAG restored, an event for whoever the
relay queue pair serves (R329, R332). -/
def State.packAnswer (s : State) (key : Nat) (m : List Byte) : State :=
  let op := num m 0 1
  let mine := s.xport.issued.filter fun i => i.conn = key
  let found := if op = 0 then mine[Config.freeNat s.fresh % mine.length]? else mine.find? fun i => i.tag = num m 2 2 % 4096
  match found with
  | none => s
  | some i =>
    let s := { s with fresh := s.fresh + 1 }
    let r := { i.record with
      kind := if op = 0 then 3 else 2
      message := if op = 0 then m else slice m 0 2 ++ leBytes 2 i.original ++ m.drop 4 }
    let s := if op = 0 then s
      else { s with xport := { s.xport with issued := s.xport.issued.filter fun x => x ≠ i } }
    s.addAnswer i.record.srcDomain r

/-! Messages (R192, R196, R309, R314). -/

/-- The header of a command as its bytes give it (Table 8-2), behind the relay prefix on a relay queue pair (R332). -/
def headerOf (key : Nat) (c : Conn) (m : List Byte) (ns : Nat) : Head :=
  let b := if c.relay then m.drop 8 else m
  { qp := connQp key, srcQp := c.peerQp, srcNode := c.peerNode, srcDomain := c.peerDomain
    relayTenant := if c.relay then some (num m 0 2 % 4096) else none
    tag := num b 2 2 % 4096, rowTag := num b 4 2, model := num b 6 1 % 64, handle := num b 8 4
    oBf16 := (num b 1 1).testBit 0, fence := (num b 1 1).testBit 1, bodyLen := num b 12 4, ns := ns }

/-- Why a command's message is refused as a message: its opcode is not assigned (check 2 of R196), or it is longer than R192 allows
(check 5, after the checks at arrival and of the slot). -/
def State.messageFail (s : State) (op : Nat) (h : Head) (c : Conn) (long : Bool) : Option Outcome :=
  let sched := s.scheduled op h c
  if s.refusesState op then some (Outcome.noRes h 0x1)
  else if !assignedOps.contains op then some (Outcome.noRes h 0x2)
  else if !long then none
  else match s.arrivalFail op h sched, s.grant op h c (handledRow sched h s.row) with
    | some o, _ => some o
    | none, .error o => some o
    | none, .ok _ => some (Outcome.shape h 0x5)

/-- A message is malformed (Table 12-6): too short for the header of its kind, of the wrong kind for the class, or, unless it is a
command, longer than its kind may be. -/
def Conn.malformed (c : Conn) (k : Packet) (m : List Byte) : Bool :=
  if k.kind = 3 then m.length ≠ 64
  else if k.kind = 4 then bulkMax < m.length
  else if c.cls = 2 then m.length < 32 || messageMax < m.length || num m 0 1 = 0 || 6 < num m 0 1
  else m.length < if c.relay then 24 else 16

/-- This node is a gateway (R328). -/
def State.isGatewayNode (s : State) : Bool := s.fld rGatewayDomainsDomains ≠ 0

/-- A queue pair may carry enveloped messages: BEST and DATA ones of a gateway (R328), whose ENVELOPE is read by ENVELOPE_MESSAGE. -/
def State.enveloped (s : State) (c : Conn) : Bool := s.isGatewayNode && (c.cls = 1 || c.cls = 3) && !c.relay

/-- A message has come whole: a Closing queue pair drops it, a relay queue pair this gateway issues on answers with it, a malformed
one is a protocol error, and any other is handed on. A command is refused here only as R196 refuses a message whose opcode is not
assigned or that is too long. -/
def State.wholeMessage (s : State) (key : Nat) (c : Conn) (k : Packet) (m : List Byte) : State :=
  if c.state = .closing then s
  else if k.tc = 5 ∧ s.xport.issued.any fun i => i.conn = key then s.packAnswer key m
  else if c.malformed k m then s.qpError key 1
  else if k.kind ≠ 0 ∨ k.tc = 5 ∨ c.cls = 2 ∨ s.enveloped c then s.deliver key (m.take messageMax)
  else
    let op := num (if c.relay then m.drop 8 else m) 0 1
    let h := headerOf key c m s.clock.ns
    match s.messageFail op h c (messageMax < m.length : Bool) with
    | some o => s.reply op h (if c.state = .error then Outcome.bare h .flushed 0 else o)
    | none => s.deliver key m

/-- Take the next packet in order: FIRST begins a message and LAST ends it; anything else is malformed. Of a message longer than R192
allows no more than one byte beyond is kept. -/
def State.takeNext (s : State) (key : Nat) (k : Packet) : State :=
  match Tbl.get s.xport.conns key with
  | none => s
  | some c =>
    let s := s.setConn key fun c => { c with nextPsn := (c.nextPsn + 1) % 2 ^ 24 }
    let m := (c.assembling ++ k.payload).take (messageMax + 1)
    if (k.first ≠ c.assembling.isEmpty) ∨ (m = [] ∧ !k.last) then
      (s.setConn key fun c => { c with assembling := [] }).qpError key 1
    else if k.last then (s.setConn key fun c => { c with assembling := [] }).wholeMessage key c k m
    else s.setConn key fun c => { c with assembling := m }

/-- Deliver the packets that are next in order, of at most n buffered. -/
def State.inOrder (s : State) (key : Nat) : Nat → State
  | 0 => s
  | n + 1 => match Tbl.get s.xport.conns key with
    | none => s
    | some c => match c.buffered.find? fun k => k.psn = c.nextPsn with
      | none => s
      | some k => ((s.setConn key fun c => { c with buffered := c.buffered.filter fun x => x.psn ≠ k.psn }).takeNext key k).inOrder
          key n

/-- The SACK bits of a connection: bit i is PSN next + 1 + i (R316). -/
def Conn.sack (c : Conn) : Word :=
  BitVec.ofNat 64 ((List.range 64).foldl (fun m i =>
    if c.buffered.any fun k => k.psn = (c.nextPsn + 1 + i) % 2 ^ 24 then m + 2 ^ i else m) 0)

/-- Acknowledge what a connection has accepted, in the class of each packet (R316). -/
def State.sendAck (s : State) (key : Nat) : State :=
  match Tbl.get s.xport.conns key with
  | none => s
  | some c =>
    c.ackDue.foldl (fun s tc => s.send (.ack key tc c.nextPsn c.sack)) (s.setConn key fun c => { c with ackDue := [] })

/-- A packet of a class is to be acknowledged. -/
def State.oweAck (s : State) (key tc : Nat) : State := s.setConn key fun c => { c with ackDue := addNum c.ackDue tc }

/-- A packet for a live connection: one already delivered or buffered is acknowledged again, one more than 512 PSNs beyond the next
expected is discarded and counted (R315). -/
def State.takePacket (s : State) (key : Nat) (c : Conn) (k : Packet) : State :=
  if !s.classOk c k then s.qpError key 1
  else
    let ahead := psnAhead c.nextPsn k.psn
    if 2 ^ 23 ≤ ahead ∨ (c.buffered.any fun x => x.psn = k.psn) then s.oweAck key k.tc
    else if 512 < ahead then (s.count rDiscardsWindow 1).qpError key 1
    else if k.kind = 0 ∧ k.tc ≤ 4 ∧ poolLimit < s.poolUsed + k.payload.length then s.count rDiscardsPool 1
    else
      let s := (s.setConn key fun c => { c with buffered := c.buffered ++ [k] }).oweAck key k.tc
      let s := s.inOrder key (c.buffered.length + 1)
      if k.last then s.sendAck key else s

/-- DATA_PACKET_RECEIVE. Every packet of a path counts in its sequence (R317); what ACKs and NAKs say, ACK_RECEIVE and NAK_RECEIVE
take. The fixed queue pairs take single packets outside selective repeat: 0x0001 only from fabric managers, 0x0003 none (R308,
R373). -/
def State.receivePacket (s : State) (k : Packet) : State :=
  let s := s.followPath k
  if k.kind = 1 ∨ k.kind = 2 then s
  else if k.dstQp < 4 then
    let ok : Bool := k.dstQp ≠ 3 && (k.dstQp ≠ 1 || (k.srcDomain = s.domain && s.managers.contains k.srcNode))
    if ok then s.deliver (k.dstQp * 4096) k.payload else s
  else match s.conn k.dstQp k.srcNode k.srcDomain k.srcQp with
  | none => s
  | some (key, c) => s.takePacket key c k

/-! Sending (R315 to R318). -/

/-- A connection in Error whose peer has disconnected, or one that is Closing, leaves once nothing is unacknowledged. -/
def State.drained (s : State) (key : Nat) : Bool := !s.xport.unacked.any fun u => u.conn = key

/-- Commands of a connection received and not completed. -/
def State.commandsOn (s : State) (k : Nat) : Nat :=
  (s.inFlight.filter fun h => match s.sender h with | some (k', _) => k' = k | none => false).length

/-- Error ends where the peer has sent DISCONNECT and every completion, those of commands still running among them, is acknowledged
(R314, Table 12-5). -/
def State.leaveError (s : State) (key : Nat) : State :=
  match Tbl.get s.xport.conns key with
  | some c => if c.state = .error ∧ c.peerGone ∧ s.commandsOn key = 0 ∧ s.drained key then s.quarantine key else s
  | none => s

/-- A PSN is acknowledged by CUM_PSN and SACK. -/
def acknowledges (cum : Nat) (sack : Word) (psn : Nat) : Bool :=
  2 ^ 23 ≤ psnAhead cum psn || (let i := psnAhead cum psn; 1 ≤ i && i ≤ 64 && sack.getLsbD (i - 1))

/-- The connection of a queue pair with a peer. -/
def State.connTo (s : State) (qp node srcQp : Nat) : Option Nat := s.findConn fun k c => c.isOf k qp node srcQp

/-- ACK_RECEIVE: acknowledged packets are released, with the row noted for their routing entry, and the window sends on. -/
def State.takeAck (s : State) (qp node srcQp cum : Nat) (sack : Word) : State :=
  match s.connTo qp node srcQp with
  | none => s
  | some key =>
    let (done, kept) := s.xport.unacked.partition fun (u : Unacked) => u.conn = key && 0 < u.tries && acknowledges cum sack u.psn
    let s := { s with xport := { s.xport with
      unacked := kept
      ackRows := done.foldl (fun t (u : Unacked) => Tbl.set t u.entry s.row) s.xport.ackRows } }
    (s.pump key).leaveError key

/-- NAK_RECEIVE: the packets sent on the path under those numbers go out again. -/
def State.takeNak (s : State) (node index first count : Nat) : State :=
  (s.xport.unacked.filter fun u => u.entry = node && u.index = index && 0 < u.tries && !u.resend
    && (u.pathSeq + 65536 - first) % 65536 < count).foldl State.retransmit s

/-- A path has timed out: the third time in a row it is held down for 4,096 rows, and the node posts an event. -/
def State.pathTimeout (s : State) (entry path : Nat) : State :=
  let key := pathKey entry path
  let rows := s.row :: ((Tbl.get s.xport.timeouts key).getD []).filter (· = s.row)
  let s := { s with xport := { s.xport with timeouts := Tbl.set s.xport.timeouts key rows } }
  if rows.length < 3 ∨ (Tbl.get s.xport.held key).isSome then s
  else
    let s := { s with xport := { s.xport with
      held := Tbl.set s.xport.held key (s.row + 4096)
      timeouts := Tbl.erase s.xport.timeouts key } }
    (s.count rRetransPathsDown 1).postFm { s.event 0x000C 0x038 (path / 8) with arg0 := entry }

/-- ACK_TIMEOUT: a packet not acknowledged that long after its last sending goes out again (R317). -/
def State.expireAck (s : State) (qp node srcQp psn ns : Nat) : State :=
  let s := s.tick ns
  match s.connTo qp node srcQp with
  | none => s
  | some key => match s.xport.unacked.find? fun u => u.conn = key && u.psn = psn && 0 < u.tries && !u.resend
        && u.sent + s.fld rTimersAckTimeout ≤ s.now with
    | none => s
    | some u => (((s.count rRetransTimeouts 1).pathTimeout u.entry u.path).retransmit u)

/-- PATH_HOLD_DOWN_EXPIRY. -/
def State.endHold (s : State) (node path : Nat) : State :=
  match Tbl.get s.xport.held (pathKey node path) with
  | none => s
  | some r =>
    if r ≤ s.row then
      { s with xport := { s.xport with held := Tbl.erase s.xport.held (pathKey node path) } }.resendWaiting
    else s

/-- A peer is unreachable: no path is usable, or no packet to it has been acknowledged for PEER_TIMEOUT rows although each was sent on
three distinct paths (R318). -/
def State.lostPeer (s : State) (node domain : Nat) : Bool :=
  let entry := s.entryOf node domain
  let owed := s.xport.unacked.filter fun u => u.entry = entry
  (s.usablePaths entry).isEmpty ||
    (Tbl.num s.xport.ackRows entry + s.fld rTimersPeerTimeout ≤ s.row && !owed.isEmpty &&
      owed.all fun u => 3 ≤ u.used.length)

/-- PEER_UNREACHABLE: its queue pairs and partner records enter Error, one event names it, and its loans are Lost. -/
def State.losePeer (s : State) (node domain : Nat) : State :=
  if !s.lostPeer node domain then s
  else
    let ks := (s.xport.conns.filter fun p => p.2.peerNode = node && p.2.peerDomain = domain).map Prod.fst
    let s := ks.foldl (fun s k => s.qpError k 3) s
    let s := s.postFm { s.event 0x000C 0x038 0 with arg0 := node }
    if domain = s.domain then s.loseLoans node else s

/-! Queue pairs (R308 to R313, R376). -/

/-- Partner records in use (R312). -/
def State.partners (s : State) : Nat := (s.xport.conns.filter fun p => p.2.shared).length

/-- GATEWAY of the routing entries of the other domains that have been written (Table 12-2). -/
def State.gateways (s : State) : List Nat := (List.range 64).filterMap s.gatewayOf

/-- This node is a gateway for a domain (R328). -/
def State.isGateway (s : State) (domain : Nat) : Bool := (s.fld rGatewayDomainsDomains).testBit domain

/-- The bytes a ticket signs (R376). -/
def ticketBytes (tenant domain node own : Nat) : List Byte :=
  leBytes 2 tenant ++ leBytes 1 domain ++ [0] ++ leBytes 2 node ++ leBytes 2 own

/-- TICKET admits the sender for a tenant other than 0 (R376). -/
def State.ticketOk (s : State) (m : CmMsg) : Bool :=
  m.tenant ≠ 0xFFF && match Tbl.get s.vault.tenants m.tenant with
  | none => false
  | some t => (t.state = .admitted || t.state = .keyed) && match t.ticket with
    | none => false
    | some secret =>
      (Config.hmacSha384 secret (ticketBytes m.tenant m.srcDomain m.srcNode s.nodeId)).extractLsb' 0 128 = m.ticket

/-- The sender is admitted for TENANT (R311, R332). A gateway admits the trunk of a domain it serves from the gateway that the domain's
entry names: DEDUCED (log entry 89). -/
def State.admits (s : State) (m : CmMsg) : Bool :=
  if m.relay then m.tenant = 0 && m.srcDomain = s.domain && s.gateways.contains m.srcNode
  else if m.tenant = 0 then
    (m.srcDomain = s.domain && s.managers.contains m.srcNode) ||
      (m.srcDomain ≠ s.domain && s.isGateway m.srcDomain && s.gatewayOf m.srcDomain = some m.srcNode)
  else s.ticketOk m

/-- The node state takes a connection. -/
def State.takesConnect (s : State) (m : CmMsg) : Bool :=
  match s.node.state with
  | .serving | .draining => true
  | .castOn => m.tenant = 0
  | _ => false

/-- The shared-peer queue pairs a partner can join, lowest first, each with its number of partners. -/
def State.sharedRoom (s : State) (m : CmMsg) : Option Nat :=
  let qs := ((s.xport.conns.filter fun p => p.2.shared && p.2.tenant = m.tenant && p.2.cls = m.cls).map fun p => connQp p.1).dedup
  (qs.filter fun q => (s.xport.conns.filter fun p => connQp p.1 = q).length < 4096).min?

/-- The key a new connection takes: a partner record of a shared-peer queue pair, or a queue pair of its own. -/
def State.newKey (s : State) (m : CmMsg) : Option Nat :=
  if m.shared then
    if 1048576 ≤ s.partners then none
    else match s.sharedRoom m with
      | some q => (firstFrom (fun i => (Tbl.get s.xport.conns (q * 4096 + i)).isNone) 0 4096 4096).map fun i => q * 4096 + i
      | none => s.lowestQp.map (· * 4096)
  else if s.freeQps ≤ s.fld rSharedReserveCount then none
  else s.lowestQp.map (· * 4096)

/-- Answer a CONNECT. -/
def State.accept (s : State) (m : CmMsg) (st : Status) (qp psn : Nat) : State :=
  s.send (.cmReply .accept qp m.srcNode m.srcDomain m.senderQp m.tag st.code psn 0 0)

/-- CONNECT. The node's INITIAL_PSN is its own choice. -/
def State.connect (s : State) (m : CmMsg) : State :=
  if !s.runs then s
  else if !s.admits m then
    let s := if m.tenant ≠ 0 then s.count rSecureEventsTicketFails 1 else s
    s.accept m .deniedSecure 0 0
  else if !s.takesConnect m then s.accept m .noResource 0 0
  else match s.newKey m with
  | none => s.accept m .noResource 0 0
  | some k =>
    let (psn, s) := s.free
    let c : Conn :=
      { state := .ready, cls := m.cls, tenant := m.tenant, peerNode := m.srcNode, peerDomain := m.srcDomain,
        peerQp := m.senderQp, shared := m.shared, compat := m.compat, relay := m.relay, cause := 0, since := s.row,
        peerGone := false, nextPsn := m.psn, buffered := [], assembling := [], sendPsn := psn % 2 ^ 24, ackDue := [] }
    let s := { s with xport := { s.xport with conns := Tbl.set s.xport.conns k c } }
    s.accept m .ok (connQp k) (psn % 2 ^ 24)

/-- Answer a message on a queue pair (R310). -/
def State.answerCm (s : State) (kind : CmKind) (m : CmMsg) (result key base : Nat) : State :=
  s.send (.cmReply kind m.qp m.srcNode m.srcDomain m.senderQp m.tag result 0 key base)

/-- DISCONNECT: the peer has gone. A Ready connection closes, and one in Error leaves it once its completions are
acknowledged. -/
def State.disconnect (s : State) (m : CmMsg) : State :=
  match s.conn m.qp m.srcNode m.srcDomain m.senderQp with
  | none => s
  | some (k, c) =>
    let s := s.setConn k fun c => { c with peerGone := true }
    let s := match c.state with
      | .ready => s.setConn k fun c => { c with state := .closing, since := s.row }
      | .error => s.leaveError k
      | _ => s
    s.answerCm .disconnected m 0 0 0

/-- QP_CLOSING_DONE. -/
def State.endClosing (s : State) (qp : Nat) : State :=
  ((s.xport.conns.filter fun p => connQp p.1 = qp && p.2.state = .closing && s.commandsOn p.1 = 0
    && s.drained p.1).map Prod.fst).foldl State.quarantine s

/-- QP_ERROR_EXPIRY: 4,096 rows in Error. -/
def State.endError (s : State) (qp : Nat) : State :=
  ((s.xport.conns.filter fun p => connQp p.1 = qp && p.2.state = .error && p.2.since + 4096 ≤ s.row).map Prod.fst).foldl
    State.quarantine s

/-- QUARANTINE_EXPIRY: 64 rows in Quarantine. -/
def State.endQuarantine (s : State) (qp : Nat) : State :=
  { s with xport := { s.xport with
    conns := s.xport.conns.filter fun p => !(connQp p.1 = qp && p.2.state = .quarantine && p.2.since + 64 ≤ s.row) } }

/-! Memory keys (R321, R322, R324 to R327). -/

/-- Key indices of the node. -/
def keyCount : Nat := 1048576

/-- An index can take a new region. -/
def State.keyFree (s : State) (i : Nat) : Bool :=
  match Tbl.get s.xport.keys i with
  | none => true
  | some k => k.state = .free

/-- The region of a key is in use. -/
def Key.live (k : Key) : Bool := k.state = .valid || k.state = .revoking

/-- The regions mapped in a process key of a tenant (R324). -/
def State.processMap (s : State) (tenant number : Nat) : List (Nat × Nat) :=
  s.xport.keys.filterMap fun p => match p.2.process with
    | some (n, base) => if n = number ∧ p.2.tenant = tenant ∧ p.2.live then some (base, p.2.length) else none
    | none => none

/-- Why a REGISTER is refused before memory is taken. -/
def State.registerFail (s : State) (c : Conn) (m : CmMsg) : Option Status :=
  let span := m.rights.testBit 4
  if m.rights.testBit 3 ∧ c.tenant ≠ 0 then some .deniedSecure
  else if m.length = 0 ∨ m.length % 16384 ≠ 0 then some .shapeLimit
  else if span ∧ !(m.offset + m.length ≤ stackBytes || (annexBase ≤ m.offset && m.offset + m.length ≤ annexEnd)) then
    some .shapeLimit
  else match m.process with
  | none => none
  | some n =>
    let map := s.processMap c.tenant n
    if 2 ^ 44 < m.processOffset + m.length ∨ (map.any fun r => meets m.processOffset m.length r.1 r.2) then some .shapeLimit
    else if 256 ≤ map.length then some .noResource
    else match Tbl.get s.xport.processFreed (c.tenant * 4096 + n) with
      | some r => if map = [] ∧ s.row < r + 4096 then some .noResource else none
      | none => none

/-- Consecutive free stack leaf granules. -/
def State.allocRun (s : State) (n : Nat) : Option Nat × State :=
  s.choose (12 * 256 * 16384) fun g => (List.range n).all fun i => granIsLeaf (g + i) && !s.cat.granules.contains (g + i)

/-- Take and zero the granules of an ALLOC region: its base. -/
def State.takeAlloc (s : State) (length : Nat) : Except Status (Nat × State) :=
  let n := length / 16384
  if pinnedLimit < s.pinnedGranules + n then .error .noSpace
  else match s.allocRun n with
  | (none, _) => .error .noSpace
  | (some g, s) =>
    let s := { s with cat := { s.cat with granules := (List.range n).map (g + ·) ++ s.cat.granules } }
    .ok (g * 16384, s.zero (g * 16384) ((g + n) * 16384))

/-- Answer a REGISTER. -/
def State.registered (s : State) (m : CmMsg) (st : Status) (key base : Nat) : State := s.answerCm .registered m st.code key base

/-- Create the region at a key index. -/
def State.makeRegion (s : State) (c : Conn) (m : CmMsg) (i base : Nat) : State :=
  let gen := match Tbl.get s.xport.keys i with | some k => k.generation | none => 0
  let k : Key :=
    { state := .valid, generation := gen, tenant := c.tenant, rights := m.rights % 16, span := m.rights.testBit 4, base := base,
      length := m.length, process := m.process.map fun n => (n, m.processOffset), revokeDue := none, revoker := none,
      inFlight := 0 }
  ({ s with xport := { s.xport with keys := Tbl.set s.xport.keys i k } }).registered m .ok (i * 4096 + gen) base

/-- Serve a request about a region on its queue pair: in Error it is flushed, and Closing discards it. -/
def State.onCm (s : State) (m : CmMsg) (flushed : State → State) (f : Conn → State → State) : State :=
  if !s.runs then s
  else match s.conn m.qp m.srcNode m.srcDomain m.senderQp with
  | none => s
  | some (_, c) => match c.state with
    | .ready => f c s
    | .error => flushed s
    | _ => s

/-- REGISTER. -/
def State.register (s : State) (m : CmMsg) : State :=
  s.onCm m (fun s => s.registered m .flushed 0 0) fun c s =>
    match s.registerFail c m with
    | some st => s.registered m st 0 0
    | none => match firstFrom s.keyFree 0 keyCount keyCount with
      | none => s.registered m .noResource 0 0
      | some i =>
        if m.rights.testBit 4 then s.makeRegion c m i m.offset
        else match s.takeAlloc m.length with
          | .error st => s.registered m st 0 0
          | .ok (base, s) => s.makeRegion c m i base

/-- Answer a DEREGISTER. -/
def State.deregistered (s : State) (m : CmMsg) (st : Status) : State := s.answerCm .deregistered m st.code m.key 0

/-- The keys that a DEREGISTER names: one, or on a COMPAT queue pair those of the regions mapped in its process key (R324, R325); or
the status that refuses it. DEDUCED (log entry 94): the generation of a key that is no more gives ALREADY_FREE. -/
def State.namedKeys (s : State) (c : Conn) (m : CmMsg) : Except Status (List Nat) :=
  let open' (k : Key) : Bool := k.state = .valid && k.revokeDue.isNone
  if c.compat then
    if 4096 ≤ m.key then .error .keyInvalid
    else
      let ks := (s.xport.keys.filter fun p => open' p.2 && p.2.tenant = c.tenant
        && (p.2.process.map Prod.fst) = some m.key).map Prod.fst
      if ks = [] then .error .alreadyFree else .ok ks
  else match Tbl.get s.xport.keys (m.key / 4096) with
    | none => .error .alreadyFree
    | some k =>
      if !open' k ∨ k.generation ≠ m.key % 4096 then .error .alreadyFree
      else if c.tenant ≠ 0 ∧ k.tenant ≠ c.tenant then .error .keyInvalid
      else .ok [m.key / 4096]

/-- Revocation of keys begins with the next row. -/
def State.revokeKeys (s : State) (ks : List Nat) (who : Option CmMsg) : State :=
  ks.foldl (fun s i => { s with xport := { s.xport with keys := Tbl.modify s.xport.keys i fun k =>
    { k with revokeDue := some s.row, revoker := who } } }) s

/-- DEREGISTER: revocation begins with the next row; the reply comes when it completes. -/
def State.deregister (s : State) (m : CmMsg) : State :=
  s.onCm m (fun s => s.deregistered m .flushed) fun c s =>
    match s.namedKeys c m with
    | .error st => s.deregistered m st
    | .ok ks => s.revokeKeys ks (some m)

/-- KEY_REVOKING: the first nanosecond of the row after that in which the revocation was admitted (R325). -/
def State.keyRevokes (s : State) (i : Nat) : State :=
  let due (k : Key) : Key := if k.isRevoking s.row then { k with state := .revoking, revokeDue := none } else k
  { s with xport := { s.xport with keys := Tbl.modify s.xport.keys i due } }

/-- REVOCATION_COMPLETE: the in-flight count has reached zero. The revoker is told, the generation goes on or the index is
retired, and an ALLOC region's granules are released, zeroed where the tenant is sealed (R379). -/
def State.endRevocation (s : State) (i : Nat) : State :=
  match Tbl.get s.xport.keys i with
  | none => s
  | some k =>
    if k.state ≠ .revoking ∨ k.inFlight ≠ 0 then s
    else
      let s := match k.revoker with
        | some m => if (s.xport.keys.any fun p => p.1 ≠ i && p.2.live && p.2.revoker = some m) then s else s.deregistered m .ok
        | none => s
      let k' : Key := { k with
        state := if k.generation = 0xFFF then .retired else .free
        generation := if k.generation = 0xFFF then 0xFFF else k.generation + 1
        revoker := none
        process := none }
      let s := { s with xport := { s.xport with keys := Tbl.set s.xport.keys i k' } }
      let s := if k.span then s
        else s.release { row := s.row, granules := (List.range (k.length / 16384)).map (k.base / 16384 + ·), annex := [],
                         scale := none, card := none, pages := [], zero := s.tenantSealed k.tenant }
      match k.process with
      | none => s
      | some (n, _) =>
        if s.processMap k.tenant n = [] then
          { s with xport := { s.xport with processFreed := Tbl.set s.xport.processFreed (k.tenant * 4096 + n) s.row } }
        else s

/-! The rows. -/

/-- DATA_PACKET_RECEIVE (R315). -/
def execDataPacketReceive (k : Packet) (s : State) : Out := .next (s.receivePacket k)

/-- ACK_SEND (R316). -/
def execAckSend (qp : Nat) (s : State) : Out :=
  .next (((s.xport.conns.filter fun p => connQp p.1 = qp).map Prod.fst).foldl State.sendAck s)

/-- ACK_RECEIVE (R316). -/
def execAckReceive (qp : Nat) (node : PartnerQp) (cum : Nat) (sack : Word) (s : State) : Out :=
  .next (s.takeAck qp node.node node.qp cum sack)

/-- NAK_RECEIVE (R317). -/
def execNakReceive (node index first count : Nat) (s : State) : Out := .next (s.takeNak node index first count)

/-- ACK_TIMEOUT (R317). -/
def execAckTimeout (qp : Nat) (node : PartnerQp) (psn : Timed) (s : State) : Out :=
  .next (s.expireAck qp node.node node.qp psn.id psn.ns)

/-- PATH_HOLD_DOWN_EXPIRY (R317). -/
def execPathHoldDownExpiry (node path : Nat) (s : State) : Out := .next (s.endHold node path)

/-- PEER_UNREACHABLE (R318). -/
def execPeerUnreachable (node domain : Nat) (s : State) : Out := .next (s.losePeer node domain)

/-- CONNECT (R311). -/
def execConnect (m : CmMsg) (s : State) : Out := .next (s.connect m)

/-- DISCONNECT (R313). -/
def execDisconnect (m : CmMsg) (s : State) : Out := .next (s.disconnect m)

/-- REGISTER (R321). -/
def execRegister (m : CmMsg) (s : State) : Out := .next (s.register m)

/-- DEREGISTER (R325). -/
def execDeregister (m : CmMsg) (s : State) : Out := .next (s.deregister m)

/-- KEY_REVOKING (R325). -/
def execKeyRevoking (i : Nat) (s : State) : Out := .next (s.keyRevokes i)

/-- REVOCATION_COMPLETE (R327). -/
def execRevocationComplete (i : Nat) (s : State) : Out := .next (s.endRevocation i)

/-- QP_CLOSING_DONE (R313). -/
def execQpClosingDone (qp : Nat) (s : State) : Out := .next (s.endClosing qp)

/-- QP_ERROR_EXPIRY (R313). -/
def execQpErrorExpiry (qp : Nat) (s : State) : Out := .next (s.endError qp)

/-- QUARANTINE_EXPIRY (R313). -/
def execQuarantineExpiry (qp : Nat) (s : State) : Out := .next (s.endQuarantine qp)

end Sys2Proof.Machine
end

