-- ==== Sys2Proof/Machine/Gateway.lean ====
section
/-! DEFINITION. Gateways: enveloped messages, BULK records, relay queue pairs, trunks (R328 to R333). -/

namespace Sys2Proof.Machine

/-! Loads and stores (R331). -/

/-- A READ or WRITE as its message holds it: opcode, FLAGS, KEY, LENGTH, OFFSET, DATA. -/
structure LoadStore where
  op : Nat
  flags : Nat
  key : Nat
  length : Nat
  offset : Nat
  data : List Byte
  deriving DecidableEq, Repr

/-- Read a READ or WRITE of a message. -/
def loadStore (m : List Byte) : Option LoadStore :=
  let op := num m 0 1
  let n := num m 20 4
  if (op = opRead ∧ m.length = 32) ∨ (op = opWrite ∧ m.length = 32 + n) then
    some { op := op, flags := num m 1 1, key := num m 16 4, length := n, offset := num m 24 8 % 2 ^ 44, data := m.drop 32 }
  else none

/-- TAG of a message. -/
def messageTag (m : List Byte) : Nat := num m 2 2 % 4096

/-- A message with another TAG. -/
def setTag (m : List Byte) (tag : Nat) : List Byte := slice m 0 2 ++ leBytes 2 tag ++ m.drop 4

/-- A merged message: the header of the first, over the bytes of both. -/
def mergedMessage (m : List Byte) (x : LoadStore) (offset length : Nat) (data : List Byte) : List Byte :=
  slice m 0 12 ++ leBytes 4 (16 + data.length) ++ leBytes 4 x.key ++ leBytes 4 length ++ leBytes 8 offset ++ data

/-- A message is one that FENCE holds apart (Table 8-2, R201). -/
def LoadStore.fences (x : LoadStore) : Bool := x.flags.testBit 1

/-- Merge a load or store with the record before it: adjacent bytes of one key, meeting at the edge of a 64-byte line, at most
1 MiB. Reserved bits of FLAGS, and O_BF16, which these commands ignore, do not count (R6). The merged message, and whether the new command's bytes come first. -/
def mergeMessages (old new : List Byte) : Option (List Byte × Bool) :=
  match loadStore old, loadStore new with
  | some a, some b =>
    if a.op ≠ b.op ∨ a.key ≠ b.key ∨ a.fences ∨ b.fences ∨ b.length = 0 ∨ 64 < b.length ∨ bulkMax < a.length + b.length
    then none
    else if a.offset + a.length = b.offset ∧ b.offset % 64 = 0 then
      some (mergedMessage old a a.offset (a.length + b.length) (a.data ++ b.data), false)
    else if b.offset + b.length = a.offset ∧ a.offset % 64 = 0 then
      some (mergedMessage new a b.offset (a.length + b.length) (b.data ++ a.data), true)
    else none
  | _, _ => none

/-! The near gateway (R328 to R331, R333). -/

/-- A record and a relayed command are the same. -/
def Relayed.isFor (x : Relayed) (domain : Nat) (r : BulkRecord) : Bool :=
  x.domain = domain && x.qp = r.srcQp && x.node = r.srcNode && (x.tags.headD (0, 0)).1 = messageTag r.message

/-- The last of the BULK message's records, where a load or store of its queue pair can join it: nothing else of that connection has
been relayed since, and the BULK message has room for what it adds. -/
def State.joins (s : State) (domain key : Nat) (r : BulkRecord) : Option (BulkRecord × List Byte × Bool) :=
  match Tbl.get s.xport.bulk domain with
  | none => none
  | some b =>
    match (s.xport.relayed.filter fun x => x.conn = key).getLast? with
    | none => none
    | some y =>
      match b.records.reverse.find? fun x => x.kind = 1 && x.srcQp = r.srcQp && x.srcNode = r.srcNode && y.isFor domain x with
      | none => none
      | some x =>
        if x.dstNode = r.dstNode ∧ (y.tags.all fun t => t.2 ≤ 64 && 0 < t.2) then
          match mergeMessages x.message r.message with
          | some z => if bulkMax < b.bytes + bulkSize { x with message := z.1 } - bulkSize x then none else some (x, z.1, z.2)
          | none => none
        else none

/-- A record of its own has been packed: what is to be answered is noted. -/
def State.noteRelayed (s : State) (domain key : Nat) (r : BulkRecord) (entry : Nat × Nat) : State :=
  let z : Relayed :=
    { domain := domain, conn := key, qp := r.srcQp, node := r.srcNode, opcode := num r.message 0 1, tags := [entry] }
  { s with xport := { s.xport with relayed := s.xport.relayed ++ [z] } }

/-- A completion the gateway makes: opcode, FLUSHED, TAG. -/
def flushedMessage (op tag row : Nat) : List Byte :=
  leBytes 1 op ++ leBytes 1 Status.flushed.code ++ leBytes 2 tag ++ leBytes 2 0 ++ leBytes 2 (row % 65536) ++ leBytes 4 0 ++
    leBytes 4 0

/-- Complete a relayed command with FLUSHED. -/
def State.flushCommand (s : State) (key qp node : Nat) (op tag : Nat) : State :=
  s.send (.relayed key qp node (flushedMessage op tag s.row))

/-- Pack a command for another domain: into the record before it, or a record of its own. One that no trunk will carry and no BULK
message holds completes with FLUSHED (log entry 93). -/
def State.pack (s : State) (domain key : Nat) (r : BulkRecord) : State :=
  let entry : Nat × Nat := (messageTag r.message, match loadStore r.message with | some x => x.length | none => 0)
  match s.joins domain key r with
  | some (x, m, front) =>
    let b := (Tbl.get s.xport.bulk domain).getD { records := [], bytes := 0, opened := s.now }
    let y : BulkRecord := { x with message := m }
    let b : Bulk := { b with
      records := b.records.map fun z => if z = x then y else z
      bytes := b.bytes + bulkSize y - bulkSize x }
    let s := { s with xport := { s.xport with
      bulk := Tbl.set s.xport.bulk domain b
      relayed := s.xport.relayed.map fun z =>
        if z.conn = key ∧ z.isFor domain x then { z with tags := if front then entry :: z.tags else z.tags ++ [entry] } else z } }
    if bulkMax ≤ b.bytes then s.closeBulk domain else s
  | none =>
    match s.addRecord domain r with
    | some s => s.noteRelayed domain key r entry
    | none => s.flushCommand key r.srcQp r.srcNode (num r.message 0 1) entry.1

/-- ENVELOPE_MESSAGE: from a BEST or DATA queue pair of this domain, for a domain this node serves. The record's fields come
from the queue pair. -/
def State.envelope (s : State) (qp node srcQp dstDomain dstNode : Nat) (m : List Byte) : State :=
  match s.conn qp node s.domain srcQp with
  | none => s
  | some (k, c) => match c.state with
    | .error => s.flushCommand k qp node (num m 0 1) (messageTag m)
    | .ready =>
      if (c.cls ≠ 1 ∧ c.cls ≠ 3) ∨ !s.isGateway dstDomain ∨ dstDomain = s.domain ∨ m.length < 16 then s.qpError k 1
      else s.pack dstDomain k { kind := 1, srcDomain := s.domain, srcNode := node, dstDomain := dstDomain, cls := c.cls,
                                dstNode := dstNode, tenant := c.tenant, srcQp := qp, message := m }
    | _ => s

/-- The completions of the commands merged into one: each with its TAG, the merged status, and its part of the data. -/
def splitAnswer (m : List Byte) : Nat → List (Nat × Nat) → List (List Byte)
  | _, [] => []
  | x, (tag, n) :: t =>
    let data := if num m 0 1 = opRead ∧ 16 + x + n ≤ m.length then slice m (16 + x) n else []
    (slice m 0 2 ++ leBytes 2 tag ++ slice m 4 8 ++ leBytes 4 data.length ++ data) :: splitAnswer m (x + n) t

/-- Deliver a completion or an event message to the requester the record names. -/
def State.deliverAnswer (s : State) (r : BulkRecord) : State :=
  if r.kind = 3 then match s.findConn fun k c => connQp k = r.srcQp && c.peerNode = r.srcNode && c.peerDomain = s.domain with
    | some k => s.send (.relayed k r.srcQp r.srcNode r.message)
    | none => s
  else match s.xport.relayed.find? fun x => x.isFor r.dstDomain r with
    | none => s
    | some x =>
      let s := { s with xport := { s.xport with relayed := s.xport.relayed.filter fun y => y ≠ x } }
      let ms := if x.tags.length ≤ 1 then [r.message] else splitAnswer r.message 0 x.tags
      ms.foldl (fun s m => s.send (.relayed x.conn x.qp x.node m)) s

/-! The far gateway (R329, R332). -/

/-- The relay queue pair to a destination node in a class; the gateway opens one where there is none. -/
def State.relayConn (s : State) (node cls : Nat) : Option Nat × State :=
  match s.findConn fun _ c => c.relay && c.peerNode = node && c.peerDomain = s.domain && c.cls = cls && c.state = .ready with
  | some k => (some k, s)
  | none => s.openConn node s.domain cls true

/-- The relay prefix (R332). -/
def relayPrefix (r : BulkRecord) : List Byte := leBytes 2 r.tenant ++ leBytes 1 r.srcDomain ++ [0] ++ leBytes 2 r.srcNode ++ leBytes 2 0

/-- A command that cannot be issued is answered with FLUSHED. -/
def State.refuseRecord (s : State) (r : BulkRecord) : State :=
  s.addAnswer r.srcDomain { r with kind := 2, message := flushedMessage (num r.message 0 1) (messageTag r.message) s.row }

/-- Issue a record's command on a relay queue pair, under a TAG of that queue pair. -/
def State.issue (s : State) (r : BulkRecord) : State :=
  match s.relayConn r.dstNode r.cls with
  | (none, s) => s.refuseRecord r
  | (some k, s) =>
    let used := (s.xport.issued.filter fun i => i.conn = k).map Issued.tag
    match firstFrom (fun t => !used.contains t) 0 4096 4096 with
    | none => s.refuseRecord r
    | some tag =>
      let i : Issued := { conn := k, tag := tag, original := messageTag r.message, record := { r with message := [] } }
      { s with xport := { s.xport with issued := s.xport.issued ++ [i] } }.send
        (.relayed k (connQp k) r.dstNode (relayPrefix r ++ setTag r.message tag))

/-- One record of a BULK message that came on a trunk. Reserved kinds have no effect. -/
def State.takeRecord (s : State) (r : BulkRecord) : State :=
  if r.kind = 1 then s.issue r
  else if r.kind = 2 ∨ r.kind = 3 then s.deliverAnswer r
  else s

/-- BULK_MESSAGE: on a Ready trunk; on any other queue pair it is a protocol error. -/
def State.takeBulk (s : State) (qp : Nat) (rs : List BulkRecord) : State :=
  match s.findConn fun k c => connQp k = qp && c.state = .ready with
  | none => s
  | some k => match Tbl.get s.xport.conns k with
    | none => s
    | some c => if c.peerDomain = s.domain then s.qpError k 1 else rs.foldl State.takeRecord s

/-- TRUNK_ERROR_FLUSH: every command relayed to the domain whose completion has not come completes with FLUSHED. -/
def State.flushTrunk (s : State) (domain : Nat) : State :=
  let gone := s.xport.relayed.filter fun x => x.domain = domain
  let s := { s with xport := { s.xport with
    relayed := s.xport.relayed.filter fun x => x.domain ≠ domain
    bulk := Tbl.erase s.xport.bulk domain } }
  gone.foldl (fun s x => x.tags.foldl (fun s t => s.flushCommand x.conn x.qp x.node x.opcode t.1) s) s

/-- The trunk to a domain is in Error. -/
def State.trunkDown (s : State) (domain : Nat) : Bool := s.xport.conns.any fun p => s.isTrunk domain p.2 && p.2.state = .error

/-- BULK_WAIT_EXPIRY: BULK_WAIT after the first record of a domain's BULK message (R329). -/
def State.bulkExpiry (s : State) (domain ns : Nat) : State :=
  let s := s.tick ns
  match Tbl.get s.xport.bulk domain with
  | some b => if b.opened + s.fld rTimersBulkWait ≤ s.now then s.closeBulk domain else s
  | none => s

/-- ENVELOPE_MESSAGE (R328). -/
def execEnvelopeMessage (qp : Nat) (node : PartnerQp) (dstDomain dstNode : Nat) (message : List Byte) (s : State) : Out :=
  .next (s.envelope qp node.node node.qp dstDomain dstNode message)

/-- BULK_WAIT_EXPIRY (R329). -/
def execBulkWaitExpiry (domain : Timed) (s : State) : Out := .next (s.bulkExpiry domain.id domain.ns)

/-- BULK_MESSAGE (R330). -/
def execBulkMessage (qp : Nat) (records : List BulkRecord) (s : State) : Out := .next (s.takeBulk qp records)

/-- TRUNK_ERROR_FLUSH (R333). -/
def execTrunkErrorFlush (domain : Nat) (s : State) : Out := .next (if s.trunkDown domain then s.flushTrunk domain else s)

end Sys2Proof.Machine
end

