-- ==== Sys2Proof/Machine/Traffic.lean ====
section
/-! DEFINITION. The Traffic Manager (chapter 13): classification, policers, buffers, gate lists, and what a port sends. -/

namespace Sys2Proof.Machine

/-! Classification (R335, Table 13-1). -/

/-- IEEE 1588. -/
def etherPtp : Nat := 0x88F7

/-- MKA under IEEE 802.1X. -/
def etherMka : Nat := 0x888E

/-- A frame is the fabric's. -/
def State.isFabric (s : State) (f : Frame) : Bool := f.etherType = s.fld rFabricEthertypeEthertype

/-- The class of a received frame, and whether it was moved from TC7; none where it is unclassified. -/
def State.classify (s : State) (f : Frame) : Option (Nat × Bool) :=
  if 1 < f.tags then none
  else if f.etherType = etherPtp ∨ f.etherType = etherMka then some (7, false)
  else if s.isFabric f then
    if f.kind = 3 ∨ f.dstQp ≤ 1 then some (7, false)
    else if f.tc = 7 then some (0, true)
    else some (f.tc, false)
  else none

/-- Bytes 0 to 27 of the transport header (Table 12-1). -/
def headerBytes (f : Frame) : List Byte :=
  leBytes 1 (f.kind % 16 + f.version * 16) ++ leBytes 1 f.tc ++ leBytes 2 f.srcNode ++ leBytes 2 f.dstNode ++
    leBytes 1 f.srcDomain ++ leBytes 1 f.dstDomain ++ leBytes 2 f.dstQp ++ leBytes 2 f.srcQp ++
    leBytes 4 (f.psn % 2 ^ 24 + (if f.first then 2 ^ 24 else 0) + (if f.last then 2 ^ 25 else 0)) ++ leBytes 2 f.pathSeq ++
    leBytes 1 (f.srcPort % 8 + f.dstPort % 8 * 8) ++ leBytes 1 f.pathIndex ++ leBytes 2 f.payloadLen ++ leBytes 6 0

/-- The reserved bits of bytes 0 to 27 of the header. -/
def headerReserved : List Byte :=
  [0, 0xF8, 0, 0xC0, 0, 0xC0, 0xC0, 0xC0, 0, 0, 0, 0, 0, 0, 0, 0xFC, 0, 0, 0xC0, 0xF8, 0, 0, 0xFF, 0xFF, 0xFF, 0xFF, 0xFF, 0xFF]

/-- The header is one the node accepts (R304): its CRC over the bytes as they came passes, with its version, and it is addressed
here. -/
def State.headerOk (s : State) (f : Frame) : Bool :=
  crc32c (withReserved headerReserved f.reserved (headerBytes f)) = f.hdrCrc && f.version = 1 && f.dstDomain = s.domain
    && f.dstNode = s.nodeId

/-- The MAC address of a port of a node: 02-51-kk-hh-ll-0p (R303). -/
def portMac (domain node p : Nat) : Nat :=
  0x0251 * 2 ^ 32 + domain * 2 ^ 24 + node / 256 % 64 * 2 ^ 16 + node % 256 * 2 ^ 8 + p

/-! Buffers (R337, R342). -/

/-- Nanoseconds a frame stays in a buffer before it is handed on: the most R285 allows. -/
def holdNs : Nat := 160

/-- The frames of a buffer that are still there. -/
def present (now : Nat) (l : List Held) : List Held := l.filter fun h => now < h.at_ns + holdNs

/-- Bytes of a buffer in use. -/
def inUse (now : Nat) (l : List Held) : Nat := (present now l).foldl (fun n h => n + h.length) 0

/-- Bytes of half the TC7 buffer of a port. -/
def halfBuffer : Nat := 128 * 1024

/-- Bytes of a die's shared buffer. -/
def sharedBuffer : Nat := 64 * 2 ^ 20

/-- A frame of the MGMT half: PTP, MKA, and queue pair 0x0001 from a fabric manager. -/
def State.isMgmt (s : State) (f : Frame) : Bool :=
  f.etherType = etherPtp || f.etherType = etherMka ||
    (s.isFabric f && f.dstQp = 1 && f.srcDomain = s.domain && s.managers.contains f.srcNode)

/-- A TC7 frame enters its half of the port's buffer, or is discarded. -/
def State.bufferTc7 (s : State) (p : Nat) (f : Frame) : State :=
  let mine := s.isMgmt f
  let half := (if mine then s.tm.mgmt else s.tm.general).getD p []
  let kept := present s.now half
  if halfBuffer < inUse s.now half + f.length then
    s.count (if mine then rTc7BufferMgmtDrops p else rTc7BufferGeneralDrops p) 1
  else
    let add (l : List (List Held)) : List (List Held) := setAt l p fun _ => kept ++ [⟨s.now, f.length⟩]
    if mine then { s with tm := { s.tm with mgmt := add s.tm.mgmt } }
    else { s with tm := { s.tm with general := add s.tm.general } }

/-- A frame of TC0 to TC6 enters its die's shared buffer, or is discarded. -/
def State.bufferShared (s : State) (p cls : Nat) (yellow : Bool) (f : Frame) : State :=
  let die := p / 4
  let l := s.tm.shared.getD die []
  let kept := present s.now l
  let used := inUse s.now l
  let full : Bool := (yellow && s.fld rBufferYellowLimit * 65536 ≤ used) || (cls ≤ 4 && sharedBuffer ≤ used + 8 * 2 ^ 20)
    || sharedBuffer < used + f.length
  if full then s.count rClassDropsBuffer 1
  else { s with tm := { s.tm with shared := setAt s.tm.shared die fun _ => kept ++ [⟨s.now, f.length⟩] } }

/-! Policers (R339 to R341). -/

/-- Offset of a policer entry. -/
def policerOffset (i : Nat) : Nat := 0xC0000 + 16 * i

/-- A policer entry (Table 13-2). -/
structure Policer where
  cir : Nat
  pir : Nat
  cbs : Nat
  pbs : Nat
  enable : Bool
  rfc4115 : Bool
  aware : Bool
  classes : Nat
  deriving DecidableEq, Repr

/-- Read a policer from the two words of its entry: rates in Mb/s, bursts in bytes with their floor; under RFC 2698 a PIR below
CIR is taken as CIR. -/
def policerOf (w0 w1 : Word) : Policer :=
  let alg := bits w1 33 33 = 1
  let cir := bits w0 20 0
  let pir := bits w0 52 32
  { cir := cir, pir := if alg then pir else max cir pir, cbs := max 33 (bits w1 15 0) * 256, pbs := max 33 (bits w1 31 16) * 256,
    enable := bits w1 32 32 = 1, rfc4115 := alg, aware := bits w1 34 34 = 1, classes := bits w1 47 40 }

/-- The policer of a requester. -/
def State.policer (s : State) (i : Nat) : Policer :=
  policerOf (s.stored 0x040 (policerOffset i)) (s.stored 0x040 (policerOffset i + 8))

/-- Parts of a byte the buckets count in: a rate of R Mb/s is R parts in a nanosecond. -/
def partsPerByte : Nat := 8000

/-- Buckets at an instant: tokens for each whole nanosecond since they were last filled, up to the bursts. -/
def State.bucketsAt (s : State) (i : Nat) (x : Policer) : Buckets :=
  match Tbl.get s.tm.buckets i with
  | none => { c := x.cbs * partsPerByte, p := x.pbs * partsPerByte, row := s.clock.row, ns := s.clock.ns }
  | some b =>
    let n := s.now - (b.row * 4096 + b.ns)
    { c := min (x.cbs * partsPerByte) (b.c + x.cir * n), p := min (x.pbs * partsPerByte) (b.p + x.pir * n),
      row := s.clock.row, ns := s.clock.ns }

/-- Colours of a frame. -/
inductive Colour where
  | green | yellow | red
  deriving DecidableEq, Repr

/-- Meter a frame of n bytes: RFC 2698, or RFC 4115. -/
def meter (x : Policer) (b : Buckets) (yellow : Bool) (n : Nat) : Colour × Buckets :=
  let t := n * partsPerByte
  if x.rfc4115 then
    if !yellow && t ≤ b.c then (.green, { b with c := b.c - t })
    else if t ≤ b.p then (.yellow, { b with p := b.p - t })
    else (.red, b)
  else if b.p < t then (.red, b)
  else if yellow || b.c < t then (.yellow, { b with p := b.p - t })
  else (.green, { b with c := b.c - t, p := b.p - t })

/-- A frame bypasses its policer (R340). -/
def Policer.bypass (x : Policer) (cls : Nat) (f : Frame) : Bool :=
  !x.enable || cls = 5 || cls = 7 || !x.classes.testBit cls || f.kind = 1 || f.kind = 2

/-- Police a frame: its colour, and the state with its bucket debited. -/
def State.police (s : State) (cls : Nat) (f : Frame) : Colour × State :=
  let x := s.policer f.srcNode
  if 16383 ≤ f.srcNode ∨ x.bypass cls f then (.green, s)
  else
    let (c, b) := meter x (s.bucketsAt f.srcNode x) (x.aware && f.tags = 1 && f.dei) f.length
    let s := { s with tm := { s.tm with buckets := Tbl.set s.tm.buckets f.srcNode b } }
    match c with
    | .green => (c, s)
    | .yellow => (c, s.count rPoliceCountsYellow 1)
    | .red => (c, ((s.count rPoliceCountsRed 1).setFld rLastRedNode f.srcNode).setFld rLastRedRow (row48 s.row))

/-! FRAME_RECEIVE (R284, R296, R304, R335 to R342). -/

/-- A classified frame goes to its buffer, and every discard of R304 is counted; Bound-off takes only TC7 (R405). -/
def State.takeFrame (s : State) (p : Nat) (f : Frame) : State :=
  match s.classify f with
  | none => s.count rClassDropsUnclassified 1
  | some (cls, moved) =>
    let s := if moved then s.count rClassDropsRetagged 1 else s
    if s.isFabric f ∧ !s.headerOk f then { s with xport := { s.xport with headerDrops := s.xport.headerDrops + 1 } }
    else if cls = 7 then if s.isFabric f ∧ 1024 < f.payloadLen then s else s.bufferTc7 p f
    else if s.node.state = .boundOff then s
    else match s.police cls f with
      | (.red, s) => s
      | (c, s) => s.bufferShared p cls (c = .yellow) f

/-- The longest frame of a standard-mode MAC (Table 11-1). -/
def frameMax : Nat := 9216

/-- A frame that its lanes have decoded reaches the MAC. In rack a secured one has an EtherType of no class; out of rack MACsec refuses
what is not secured, fails its integrity check, or is out of order. -/
def State.macFrame (s : State) (p : Nat) (q : Port) (f : Frame) : State :=
  if s.fld (rPortCfgOutOfRack p) = 0 then
    if f.secured then s.count rClassDropsUnclassified 1 else s.takeFrame p f
  else if !f.secured then if f.etherType = etherMka then s.takeFrame p f else s
  else if !q.saLive then s
  else if !f.icvOk then s.count (rMacsecStatusIcvFails p) 1
  else if f.pn < q.rxNext then s.count (rMacsecStatusReplayDrops p) 1
  else (s.setPort p fun q => { q with rxNext := f.pn + 1 }).takeFrame p f

/-- A link whose receiver aligns carries frames. -/
def Link.receives : Link → Bool
  | .up | .swapping | .narrowing | .awaitSecure => true
  | _ => false

/-- FRAME_RECEIVE on a port: FEC's corrections count; what it could not decode counts too and goes no further, nor does a frame whose
check sequence fails, or a longer one than the MAC of standard mode takes (R283, R284). -/
def State.receiveFrame (s : State) (p : Nat) (f : Frame) : State :=
  s.onPort p fun q s =>
    if !q.link.receives then s
    else
      let s := (s.tick f.ns).countFec p f.codewords f.corrected
      if !f.decoded then s.count (rFecCountsUncorrected p) 1
      else if !f.fcsOk ∨ (s.portMode p = 1 ∧ frameMax < f.length) then s
      else s.macFrame p q f

/-! Gate lists (R343, R344, R346, R347; Table 13-3). -/

/-- LIST_ID of a list. -/
def gateId (m : List Host.Cell) : Nat := imgNat m 0 4

/-- The entries of a list: START in nanoseconds, and GATES. -/
def gateEntries (m : List Host.Cell) : List (Nat × Nat) :=
  (List.range (imgNat m 4 1)).map fun k => (imgNat m (8 + 8 * k) 2 % 4096, imgNat m (10 + 8 * k) 1)

/-- The spans of a row in eighths of a nanosecond: begin, end, GATES. -/
def gateSpans : List (Nat × Nat) → List (Nat × Nat × Nat)
  | [] => []
  | [(a, g)] => [(8 * a, 32768, g)]
  | (a, g) :: (b, h) :: t => (8 * a, 8 * b, g) :: gateSpans ((b, h) :: t)

/-- The first eighth of a nanosecond of a row in which a class may begin: 128 ns are TC7's alone (R343), and no TC6 window opens in
the Guard window (Table 2-1). -/
def gateFirst (c : Nat) : Nat := if c = 7 then 0 else if c = 6 then 2048 else 1024

/-- Gate c is open throughout [t, e), in eighths of a nanosecond of the row. With no list active every bit is set. -/
def gateOpen (m : List Host.Cell) (c t e : Nat) : Bool :=
  let spans := if gateId m = 0 then [(0, 32768, 255)] else gateSpans (gateEntries m)
  let reserved := 1024
  e ≤ 32768 && gateFirst c ≤ t &&
    (spans.all fun x => let a := max reserved x.1; e ≤ a || x.2.1 ≤ max t reserved || x.2.2.testBit c)

/-- Entries rise from START 0 and stay below 4,096. -/
def startsRise : List (Nat × Nat) → Bool
  | [] => true
  | [_] => true
  | (a, _) :: (b, h) :: t => a < b && startsRise ((b, h) :: t)

/-- Nanoseconds between 128 and 4,095 in which TC5 is open. -/
def tc5Open (m : List Host.Cell) : Nat :=
  (gateSpans (gateEntries m)).foldl (fun n x =>
    if x.2.2.testBit 5 then n + (x.2.1 / 8 - max 128 (x.1 / 8)) else n) 0

/-- A list passes R346. -/
def gateListOk (m : List Host.Cell) : Bool :=
  let n := imgNat m 4 1
  gateId m ≠ 0 && 1 ≤ n && n ≤ 64 && imgNat m 8 2 = 0 && startsRise (gateEntries m) && imgNat m 5 3 = 0 &&
    ((List.range n).all fun k => imgNat m (8 + 8 * k) 2 < 4096 && imgNat m (11 + 8 * k) 5 = 0) && 512 ≤ tc5Open m

/-- Change a port's gate. -/
def State.setGate (s : State) (p : Nat) (f : Gate → Gate) : State := { s with tm := { s.tm with gates := setAt s.tm.gates p f } }

/-- GATE_LIST_SWITCH: the pending list becomes active. A switch that a re-lock has stepped past waits for the next row. -/
def State.switchGate (s : State) (p : Nat) : State :=
  match s.tm.gates[p]? with
  | none => s
  | some g => match g.armed with
    | none => s
    | some r =>
      if s.row < r ∨ s.sync.stepped then s
      else (s.setGate p fun g => { g with active := g.pending, armed := none, protect := some (r + 1) }).setFld (rGateSwitchResult p) 2

/-! FRAME_TRANSMIT (R344, R345). -/

/-- Gb/s of a port. -/
def portRate (lanes : Nat) : Nat := 200 * lanes

/-- Eighths of a nanosecond a frame occupies the link. -/
def frameTime (length lanes : Nat) : Nat := ceilDiv ((length + 20) * 64) (portRate lanes)

/-- The frame at the head of a class queue. -/
def State.headFrame (s : State) (p c : Nat) : Option Queued := (Tbl.get s.tm.queues (classKey p c)).bind List.head?

/-- The head of a class queue may begin at this eighth of a nanosecond; in Bound-off only TC7 is carried (R405). -/
def State.eligible (s : State) (p lanes c ns8 : Nat) : Bool :=
  match s.headFrame p c with
  | none => false
  | some f => (c = 7 || s.node.state ≠ .boundOff) && gateOpen (match s.tm.gates[p]? with | some g => g.active | none => []) c ns8 (ns8 + frameTime f.length lanes)

/-- Quantum of a class in bytes. -/
def State.quantum (s : State) (c : Nat) : Nat :=
  max 1 (bits (s.stored 0x040 0x020) (8 * c + 7) (8 * c)) * 1024

/-- The class deficit weighted round robin serves next, from class `c`, whose quantum of this visit has been given when `given`;
and the deficits it leaves. Classes go from TC4 down to TC0 and round again. -/
def State.drr (s : State) (p lanes ns8 : Nat) : Nat → Nat → Bool → Tbl Nat → Option (Nat × Tbl Nat)
  | 0, _, _, _ => none
  | n + 1, c, given, d =>
    let next := if c = 0 then 4 else c - 1
    match s.headFrame p c with
    | none => s.drr p lanes ns8 n next false d
    | some f =>
      if !s.eligible p lanes c ns8 then s.drr p lanes ns8 n next false d
      else
        let k := classKey p c
        let has := Tbl.num d k + if given then 0 else s.quantum c
        if f.length ≤ has then some (c, Tbl.set d k (has - f.length))
        else s.drr p lanes ns8 n next false (Tbl.set d k has)

/-- Where round robin stands on a port: the class and whether its quantum has been given. -/
def State.drrAt (s : State) (p : Nat) : Nat × Bool :=
  match Tbl.get s.tm.deficits (8 * p + 7) with
  | some n => (n / 2, n % 2 = 1)
  | none => (4, false)

/-- The class a port serves, and the deficits after it. -/
def State.pickClass (s : State) (p lanes ns8 : Nat) : Option (Nat × Tbl Nat) :=
  match [7, 6, 5].find? fun c => s.eligible p lanes c ns8 with
  | some c => some (c, s.tm.deficits)
  | none =>
    let (c, given) := s.drrAt p
    (s.drr p lanes ns8 64 c given s.tm.deficits).map fun x => (x.1, Tbl.set x.2 (8 * p + 7) (2 * x.1 + 1))

/-- Mark the heads of the class queues that cannot begin now. -/
def State.markWaits (s : State) (p lanes ns8 now8 : Nat) : State :=
  (List.range 8).foldl (fun s c =>
    if s.eligible p lanes c ns8 then s
    else match Tbl.get s.tm.queues (classKey p c) with
      | some (f :: t) => if f.waited.isSome then s
          else { s with tm := { s.tm with queues := Tbl.set s.tm.queues (classKey p c) ({ f with waited := some now8 } :: t) } }
      | _ => s) s

/-- Count a frame that waited for its gate. -/
def State.countWait (s : State) (p now8 : Nat) (f : Queued) : State :=
  match f.waited with
  | none => s
  | some w =>
    let n := (now8 - w) / 8
    ((s.count (rGateWaitsWaits p) 1).raise (rGateWaitsMaxWaitNs p) n).sample 0x07 [p, 0xFFFF] n

/-- A frame takes a packet number on an out-of-rack port (R297). -/
def State.takePn (s : State) (p : Nat) : State :=
  match s.ports[p]? with
  | none => s
  | some q =>
    if s.fld (rPortCfgOutOfRack p) = 0 then s
    else
      let s := s.setPort p fun q => { q with packetNumber := q.packetNumber + 1 }
      if q.packetNumber = s.warnPn p then (s.setFld (rMacsecStatusPnWarn p) 1).postFm (s.event 0x000D (0x030 + p) p) else s

/-- The first frame of a class leaves. A class whose queue empties loses its deficit. -/
def State.sendFrame (s : State) (p lanes c ns8 now8 : Nat) : State :=
  match Tbl.get s.tm.queues (classKey p c) with
  | some (f :: t) =>
    let s := { s with tm := { s.tm with
      queues := if t = [] then Tbl.erase s.tm.queues (classKey p c) else Tbl.set s.tm.queues (classKey p c) t
      deficits := if t = [] ∧ c ≤ 4 then Tbl.erase s.tm.deficits (classKey p c) else s.tm.deficits
      busyUntil := Tbl.set s.tm.busyUntil p (now8 + frameTime f.length lanes) } }
    ((s.countWait p now8 f).takePn p).send
      (.frame p c f.length ns8 (portMac f.header.dstDomain f.header.dstNode f.header.dstPort) (portMac s.domain s.nodeId p) f.header)
  | _ => s

/-- The node is silent on its network ports (R27). -/
def State.silent (s : State) : Bool := s.node.state = .off || s.node.state = .fault

/-- FRAME_TRANSMIT at an eighth of a nanosecond of the row: an idle port that is Up, with a packet number left, begins the first
eligible frame. -/
def State.transmit (s : State) (p ns8 : Nat) : State :=
  s.onPort p fun q s =>
    let now8 := s.clock.row * 32768 + ns8
    if q.link ≠ .up ∨ !q.spraying ∨ s.silent ∨ 32768 ≤ ns8 ∨ now8 < Tbl.num s.tm.busyUntil p then s
    else if s.fld (rPortCfgOutOfRack p) = 1 ∧ s.lastPn p < q.packetNumber then s
    else
      let s := s.markWaits p q.lanes ns8 now8
      match s.pickClass p q.lanes ns8 with
      | none => s
      | some (c, d) => { s with tm := { s.tm with deficits := d } }.sendFrame p q.lanes c ns8 now8

/-- FRAME_RECEIVE (R335). -/
def execFrameReceive (p : Nat) (f : Frame) (s : State) : Out := .next (s.receiveFrame p f)

/-- FRAME_TRANSMIT (R345). -/
def execFrameTransmit (p : Nat) (ns8 : Nat) (s : State) : Out := .next (s.transmit p ns8)

/-- GATE_LIST_SWITCH (R347). -/
def execGateListSwitch (p : Nat) (s : State) : Out := .next (s.switchGate p)

end Sys2Proof.Machine
end

