-- ==== Sys2Proof/Machine/Stores.lean ====
section
/-! DEFINITION. What a write leaves in a register, apart from the operations of its OP field: access types, reserved values,
the routing and policer windows, the gate-list and pattern windows (R8, R305, R341, R347, R349, R353, R409, R423, R425). -/

namespace Sys2Proof.Machine

/-- LOCKED of BOOT_STATUS (R357). -/
def State.locked (s : State) : Bool := s.fld rBootStatusLocked = 1

/-! Windows onto other state. -/

/-- The place a window offset of the Traffic Manager block names in a gate list: port, pending list or not, byte (R349). -/
def gateWindow (b o : Nat) : Option (Nat × Bool × Nat) :=
  if b ≠ 0x040 ∨ o < 0x10000 ∨ 0x90000 ≤ o then none
  else
    let x := o % 0x10000
    let p := o / 0x10000 - 1
    if 0x100 ≤ x ∧ x < 0x308 then some (p, true, x - 0x100)
    else if 0x400 ≤ x ∧ x < 0x608 then some (p, false, x - 0x400)
    else none

/-- A byte of a pattern bank image: header, row entries, slots (R423). -/
def inImage (a : Nat) : Bool := a < 16 || (0x10000 ≤ a && a < 0x120000)

/-- The offset lies in the pattern window. -/
def inPatWindow (b o : Nat) : Bool := b = 0x070 && 0x80000 ≤ o && o < 0x100000

/-- The image byte that an offset of the pattern window shows; none where the image has no such byte. -/
def State.patByte (s : State) (o : Nat) : Option Nat :=
  let a := s.fld rPatWindowPage * 0x80000 + (o - 0x80000)
  if s.fld rPatWindowPage < 3 && inImage a then some a else none

/-- The bank the pattern window shows. -/
def State.shownBank (s : State) : List Host.Cell := if s.fld rPatWindowBank = 1 then s.pat.active else s.pat.pending

/-- The event ring's offsets (R420). -/
def inRing (b o : Nat) : Bool := b = 0x0F0 && 0x10000 ≤ o && o < 0x30000

/-! Assigned values (R353). -/

/-- The least and the greatest value a field that can be written takes, by its place in the block or sub-block. -/
def limits (k : Kind) (o lo : Nat) : Nat × Nat :=
  match k, o, lo with
  | .seqr, 0x030, 62 => (0, 2)
  | .seqr, 0x048, 0 => (0, 2)
  | .cat, 0x048, 62 => (0, 1)
  | .nbu, 0x080, 62 => (0, 1)
  | .att, 0x060, 62 => (0, 2)
  | .att, 0x060, 0 => (0, 47)
  | .index, 0x028, 62 => (0, 2)
  | .mover, 0x020, 62 => (0, 2)
  | .mover, 0x020, 16 => (0, 15)
  | .port, 0x020, 26 => (0, 2)
  | .port, 0x020, 22 => (0, 2)
  | .port, 0x038, 61 => (0, 4)
  | .port, 0x1008, 5 => (0, 4)
  | .port, 0x1008, 2 => (0, 3)
  | .xport, 0x040, 16 => (4, 4095)
  | .xport, 0x060, 62 => (0, 2)
  | .tm, 0x10000, 62 => (0, 2)
  | .tm, 0xC0000, 0 => (0, 1600000)
  | .tm, 0xC0000, 32 => (0, 1600000)
  | .keeper, 0x028, 60 => (0, 5)
  | .keeper, 0x030, 62 => (0, 1)
  | .keeper, 0x038, 62 => (0, 2)
  | .keeper, 0x040, 0 => (0, 999999999)
  | .keeper, 0x048, 61 => (0, 3)
  | .keeper, 0x0B0, 61 => (0, 5)
  | .keeper, 0x0D0, 24 => (0, 7)
  | .keeper, 0x0F0, 62 => (0, 2)
  | .keeper, 0x100, 48 => (0, 0x0B)
  | .ident, 0x020, 0 => (0, 0x3FFE)
  | .ident, 0x088, 62 => (0, 2)
  | _, _, _ => (0, 2 ^ 64 - 1)

/-- The offset of a register as the tables give it: in its sub-block or window entry, with the first one's place. -/
def baseOffset (k : Kind) (o : Nat) : Nat :=
  match k with
  | .port => if 0x1000 ≤ o then 0x1000 + o % 0x1000 else o
  | .att => if 0x4000 ≤ o then 0x4000 + o % 0x4000 else o
  | .tm => if 0xC0000 ≤ o then 0xC0000 + o % 16 else if 0x10000 ≤ o then 0x10000 + o % 0x10000 else o
  | .keeper => if 0x100 ≤ o ∧ o < 0x300 then 0x100 + o % 0x20 else o
  | _ => o

/-- A value of a field is one its table assigns. -/
def valueOk (k : Kind) (o : Nat) (f : Fld) (v : Word) : Bool :=
  let n := bits v f.hi f.lo
  let r := limits k (baseOffset k o) f.lo
  let fm : Bool := k = .ident && (o = 0x048 || o = 0x050)
  f.acc = .ro ||
    (r.1 ≤ n && n ≤ r.2 &&
      (!(k = .ident && o = 0x040 && f.lo = 40) || n ≤ 6 || n = 0x0A) &&
      (!fm || ((List.range 4).all fun i => !n.testBit (16 * i + 14))) &&
      (!(fm && o = 0x050) || n < 2 ^ 48))

/-- The bits of a register's fields. -/
def fieldMask (fs : List Fld) : Word := fs.foldl (fun w f => setBits w f.hi f.lo (2 ^ (f.hi + 1 - f.lo) - 1)) 0

/-- A word of a pending gate list with its reserved bits 0 and its count, where it holds one, assigned (Table 13-3). -/
def gateWordOk (x : Nat) (v : Word) : Bool :=
  if x = 0 then bits v 63 40 = 0 && 1 ≤ bits v 39 32 && bits v 39 32 ≤ 64
  else bits v 63 24 = 0 && bits v 15 12 = 0

/-- A CONFIG write names an RW, RWS or ROL register, or a word of a pending gate list, and holds assigned values (R353). -/
def configOk (b o : Nat) (v : Word) : Bool :=
  match blockAt b, gateWindow b o with
  | none, _ => false
  | some _, some (_, mine, x) => o % 8 = 0 && mine && gateWordOk x v
  | some (k, _), none =>
    let fs := fieldsAt b o
    fs.any (fun f => f.acc = .rw || f.acc = .rws || f.acc = .rol) && v &&& ~~~ fieldMask fs = 0 && fs.all (valueOk k o · v)

/-! Stores. -/

/-- Write bytes into a port's pending gate list. -/
def State.putGate (s : State) (p x : Nat) (v : Word) : State :=
  s.setGate p fun g => { g with pending := Mem.write g.pending x (leBytes 8 v.toNat) }

/-- A routing entry has been written: GENERATION goes on, and packets that wait for a path are sent (R305). -/
def State.bumpRoute (s : State) (i : Nat) : State :=
  let f : Field := ⟨0x038, routeOffset i + 8, 15, 0⟩
  (s.setFld f ((s.fld f + 1) % 65536)).resendWaiting

/-- A policer entry has been written: GENERATION goes on, its buckets are cut to the new bursts, or start full where ENABLE has
gone to 1; a PIR below CIR under RFC 2698 is recorded (R340, R341). `old` is the policer before. -/
def State.afterPolicer (s : State) (i : Nat) (old : Policer) : State :=
  let f : Field := ⟨0x040, policerOffset i + 8, 63, 48⟩
  let b := s.bucketsAt i old
  let x := s.policer i
  let full : Bool := !old.enable && x.enable
  let b : Buckets := { b with
    c := if full then x.cbs * partsPerByte else min b.c (x.cbs * partsPerByte)
    p := if full then x.pbs * partsPerByte else min b.p (x.pbs * partsPerByte) }
  let s := { s with tm := { s.tm with buckets := Tbl.set s.tm.buckets i b } }
  let s := s.setFld f ((s.fld f + 1) % 65536)
  let w := s.stored 0x040 (policerOffset i)
  if !x.rfc4115 ∧ bits w 52 32 < bits w 20 0 then s.mark 0x040 4 else s

/-- Store the fields of a register under their access types. -/
def State.putFields (s : State) (b o : Nat) (v : Word) : State :=
  s.setStored b o (writeWord (fieldsAt b o) s.locked (s.stored b o) v)

/-- Write both words of a routing entry at once. -/
def State.putRoute (s : State) (i : Nat) (w0 w1 : Word) : State :=
  ((s.putFields 0x038 (routeOffset i) w0).putFields 0x038 (routeOffset i + 8) w1).bumpRoute i

/-- Write both words of a policer entry at once. -/
def State.putPolicer (s : State) (i : Nat) (w0 w1 : Word) : State :=
  ((s.putFields 0x040 (policerOffset i) w0).putFields 0x040 (policerOffset i + 8) w1).afterPolicer i (s.policer i)

/-- FLOOR_LEVEL 5 to 7 is taken as 4 and recorded (R425). -/
def State.putFloor (s : State) (v : Word) : State :=
  if 4 < bits v 2 0 then (s.setFld rPowerCfgFloorLevel 4).mark 0x0F0 4 else s.setFld rPowerCfgFloorLevel (bits v 2 0)

/-- Store a written value in a register. -/
def State.putWord (s : State) (b o : Nat) (v : Word) : State :=
  if b = 0x038 ∧ 0x80000 ≤ o then (s.putFields b o v).bumpRoute ((o - 0x80000) / 16)
  else if b = 0x040 ∧ 0xC0000 ≤ o then
    let i := (o - 0xC0000) / 16
    (s.putFields b o v).afterPolicer i (s.policer i)
  else if b = 0x0F0 ∧ o = 0x090 then s.putFloor v
  else s.putFields b o v

/-- A register with a ROL field. -/
def isRol (b o : Nat) : Bool := (fieldsAt b o).any fun f => f.acc = .rol

/-- PRBS_CTL of a lane whose port is not in Test: a write has no effect and is recorded (R300). -/
def State.prbsHeld (s : State) (b o : Nat) : Bool :=
  match blockAt b with
  | some (.port, p) => 0x1000 ≤ o && o % 0x1000 = 0x008 && match s.ports[p]? with
    | some q => q.link ≠ .test
    | none => true
  | _ => false

/-- One CONFIG write (R353, R362): a locked ROL register ignores it and records it, as PRBS_CTL does out of Test (R300); operations do
not act. -/
def State.configWrite (s : State) (b o : Nat) (v : Word) : State :=
  match gateWindow b o with
  | some (p, _, x) => s.putGate p x v
  | none =>
    if s.locked ∧ isRol b o then s.markAccess b 0 o
    else if s.prbsHeld b o then s.markAccess b 1 o
    else s.putWord b o v

end Sys2Proof.Machine
end

