-- ==== Sys2Proof/Machine/Upkeep.lean ====
section
/-! DEFINITION. The background work of the catalogue and the operations on the Index (R78, R91, R92, R243, R244). -/

namespace Sys2Proof.Machine

/-- RESOURCE_RELEASE (R78). -/
def execResourceRelease (s : State) : Out := .next s.giveBackDue

/-! Compaction (R91). -/

/-- COMPACTION_AUTO_START: free table pages have fallen below THRESHOLD (R92). -/
def State.compactAuto (s : State) : State := if s.freePages < s.fld rCompactThreshold then s.compactBegin else s

/-- COMPACTION_SWAP: once the shadow is complete its tables take effect at the first nanosecond of a row, and with them the pages of
the shadow's pool; the former copy, the pages waiting for release in it among them, stays to walks begun before (R91, R78). -/
def State.compactSwap (s : State) : State :=
  match s.cat.shadow with
  | none => s
  | some x =>
    if s.fld rCompactPhase ≠ 2 ∨ s.clock.ns ≠ 0 then s
    else
      let head (slot : Nat) : Nat := ((Tbl.get x.dirPages slot).getD []).headD 0
      { s with
        cat := { s.cat with
          seqs := Tbl.mapVals s.cat.seqs fun k q => { q with headDir := head k }
          pages := x.pages
          dirPages := x.dirPages
          heads := x.heads
          shadow := none
          swapRow := some s.row
          releasing := s.cat.releasing.map fun (r : Released) => { r with pages := [] } }
        index := { s.index with
          recordPages := x.records
          departing := s.index.departing.map fun (d : Departing) => { d with pages := [] } } }.setFld rCompactPhase 0

/-- COMPACTION_AUTO_START (R91). -/
def execCompactionAutoStart (s : State) : Out := .next s.compactAuto

/-- COMPACTION_SWAP (R91). -/
def execCompactionSwap (s : State) : Out := .next s.compactSwap

/-! INDEX_CTL (R243, R244). -/

/-- Remove one entry; RESULT says whether it was valid. -/
def State.removeEntry (s : State) (n : Nat) : State :=
  match Tbl.get s.index.entries n with
  | some e => if e.valid then (s.departEntry n).setFld rIndexCtlResult 2 else s.setFld rIndexCtlResult 3
  | none => s.setFld rIndexCtlResult 3

/-- Flush every entry of a bank set. -/
def State.flushSet (s : State) (k : Nat) : State :=
  let ns := (s.index.entries.filter fun p => p.1 / setSize = k).map Prod.fst
  (ns.foldl State.departEntry s).setFld rIndexCtlResult 2

end Sys2Proof.Machine
end

