-- ==== Sys2Proof/Machine/Boot.lean ====
section
/-! DEFINITION. Boot, the skein, reset, Training and cast-on (R350 to R364, R138, R434, R439), and flash operations (R417). -/

namespace Sys2Proof.Machine

/-! Flash (log entry 6). -/

/-- A byte of flash: erased bytes read 0xFF and are not listed. -/
def Flash.get (m : List Host.Cell) (a : Nat) : Byte := (Tbl.get m a).getD 0xFF

/-- Set a byte of flash. -/
def Flash.set (m : List Host.Cell) (a : Nat) (b : Byte) : List Host.Cell :=
  if b = 0xFF then Tbl.erase m a else Tbl.set m a b

/-- Bytes a, a+1, ... of flash. -/
def Flash.bytes (m : List Host.Cell) (a n : Nat) : List Byte := (List.range n).map fun i => Flash.get m (a + i)

/-- A little-endian number in flash. -/
def Flash.num (m : List Host.Cell) (a n : Nat) : Nat := leNat (Flash.bytes m a n)

/-- Program bytes: a programmed byte keeps only the bits that were set (NOR flash, log entry 6). -/
def Flash.program (m : List Host.Cell) (a : Nat) : List Byte → List Host.Cell
  | [] => m
  | b :: bs => Flash.program (Flash.set m a (Flash.get m a &&& b)) (a + 1) bs

/-! Images (R352, R353). -/

/-- The two images. -/
inductive Slot2 where
  | a | b
  deriving DecidableEq, Repr

/-- Where an image begins. -/
def Slot2.base : Slot2 → Nat
  | .a => 0
  | .b => 0x4000000

/-- The other image. -/
def Slot2.other : Slot2 → Slot2
  | .a => .b
  | .b => .a

/-- A field of an image's header (Table 14-2). -/
def State.header (s : State) (i : Slot2) (o n : Nat) : Nat := Flash.num s.node.flash (i.base + o) n

/-- Bytes of an image. -/
def State.imageBytes (s : State) (i : Slot2) (o n : Nat) : List Byte := Flash.bytes s.node.flash (i.base + o) n

/-- IMAGE_LENGTH. -/
def State.imageLength (s : State) (i : Slot2) : Nat := s.header i 16 4

/-- The signed bytes. -/
def State.signedBytes (s : State) (i : Slot2) : List Byte :=
  s.imageBytes i 0 2880 ++ s.imageBytes i 8192 (s.imageLength i - 8192)

/-- A section entry (Table 14-3). -/
structure Section where
  kind : Nat
  offset : Nat
  length : Nat
  deriving DecidableEq, Repr

/-- Section entry k. -/
def State.sectionAt (s : State) (i : Slot2) (k : Nat) : Section :=
  { kind := s.header i (32 + 16 * k) 1, offset := s.header i (36 + 16 * k) 4, length := s.header i (40 + 16 * k) 4 }

/-- The sections of an image. -/
def State.sections (s : State) (i : Slot2) : List Section := (List.range (s.header i 6 2)).map (s.sectionAt i)

/-- Sections do not meet. -/
def apart : List Section → Bool
  | [] => true
  | x :: xs => (xs.all fun y => x.offset + x.length ≤ y.offset || y.offset + y.length ≤ x.offset) && apart xs

/-- The section table meets R353. -/
def State.sectionsOk (s : State) (i : Slot2) : Bool :=
  let n := s.header i 6 2
  let xs := s.sections i
  let number (k : Nat) : Nat := (xs.filter fun x => x.kind = k).length
  3 ≤ n && n ≤ 16 && [1, 2, 3].all (fun k => number k = 1) && [4, 5].all (fun k => number k ≤ 1) &&
    (xs.all fun x => 1 ≤ x.kind && x.kind ≤ 5 && x.offset % 64 = 0 && 8192 ≤ x.offset &&
      x.offset + x.length ≤ s.imageLength i) && apart xs &&
    ((List.range 16).all fun k => k < n || (s.imageBytes i (32 + 16 * k) 16).all (· = 0))

/-- The bytes of a section, none where the image has no such section. -/
def State.sectionBytes (s : State) (i : Slot2) (kind : Nat) : List Byte :=
  match (s.sections i).find? fun x => x.kind = kind with
  | some x => s.imageBytes i x.offset x.length
  | none => []

/-- The writes of a CONFIG section: block, offset, value. -/
def configWrites (bs : List Byte) : List (Nat × Nat × Word) :=
  (List.range (bs.length / 16)).map fun k =>
    let a := num bs (16 * k) 4
    (a / 2 ^ 20, a % 2 ^ 20, BitVec.ofNat 64 (num bs (16 * k + 8) 8))

/-- SHA-384 of the signed bytes. -/
def State.signedDigest (s : State) (i : Slot2) : Digest := Config.sha384 (s.signedBytes i)

/-- Check an image (R354), in the order of the causes of Table 14-7. -/
def State.checkImage (s : State) (i : Slot2) : ImageCause :=
  let n := s.imageLength i
  let key := s.imageBytes i 288 2592
  if s.header i 0 4 ≠ 0x534B4E31 ∨ s.header i 4 2 ≠ 1 ∨ n < 8192 ∨ 67108864 < n ∨ 64 < s.header i 12 4 then .header
  else if s.header i 20 1 ≠ s.node.fuseAlg then .sigAlgorithm
  else if Config.sha384 key ≠ s.node.fuseKeyHash then .keyHash
  else if !Config.verifyImage s.node.fuseAlg key (s.signedBytes i) (s.imageBytes i 2880 4627) then .signature
  else if s.header i 12 4 < s.node.fuseRollback then .securityVersion
  else if !s.sectionsOk i then .sections
  else
    let bs := s.sectionBytes i 3
    if bs.length % 16 ≠ 0 ∨ !(configWrites bs).all (fun w => configOk w.1 w.2.1 w.2.2) then .config
    else .passed

/-! The library (R133, R138). -/

/-- A cost entry (Table 5-6). -/
def costAt (bs : List Byte) (x : Nat) : Cost :=
  { format := num bs x 1, d := num bs (x + 2) 2, aPair := num bs (x + 4) 2, bPair := num bs (x + 6) 2,
    aCell := num bs (x + 8) 2, bCell := num bs (x + 10) 2 }

/-- A program's bytes as its header gives them. -/
def programSize (bs : List Byte) : Nat := 64 + 16 * num bs 14 1 + 4 * num bs 8 2

/-- The program of a header. -/
def programOf (bs : List Byte) : Program :=
  let costs := num bs 14 1
  { qheadsMax := num bs 10 1, customer := num bs 11 1 % 2 = 1, split := num bs 11 1 / 2 % 2 = 1, modes := num bs 12 2,
    costs := (List.range costs).map fun k => costAt bs (64 + 16 * k)
    words := (List.range (num bs 8 2)).map fun k => BitVec.ofNat 32 (num bs (64 + 16 * costs + 4 * k) 4)
    digest := BitVec.ofNat 384 (num bs 16 48) }

/-- A program passes R138 and the ranges of Table 5-5. -/
def programFits (lib : Tbl Program) (bs : List Byte) : Bool :=
  let p := programOf bs
  let index := num bs 6 2
  index < 1024 && (Tbl.get lib index).isNone && 1 ≤ p.qheadsMax && p.qheadsMax ≤ 16 && 1 ≤ p.words.length &&
    p.words.length ≤ 1024 && 1 ≤ p.costs.length && p.costs.length ≤ 42 &&
    Config.sha384 (slice bs 0 16 ++ slice bs 64 (programSize bs - 64)) = p.digest &&
    programOk p.qheadsMax p.split p.costs p.words

/-- Read the library from byte x of its section, of at most n programs. -/
def readLibrary (x : Nat) (lib : Tbl Program) (log : List BootRecord) (bs : List Byte) : Nat → Tbl Program × List BootRecord
  | 0 => (lib, log)
  | n + 1 =>
    if bs.all (· = 0) then (lib, log)
    else if num bs 0 4 ≠ 0x53544348 ∨ num bs 4 2 ≠ 1 ∨ bs.length < 64 ∨ bs.length < programSize bs then
      (lib, log ++ [.programRefused x])
    else
      let size := (programSize bs + 15) / 16 * 16
      if programFits lib bs then
        readLibrary (x + size) (Tbl.set lib (num bs 6 2) (programOf bs)) log (bs.drop size) n
      else readLibrary (x + size) lib (log ++ [.programRefused x]) (bs.drop size) n

/-! Model parameter blocks (Table 14-4, R101). -/

/-- The model of a block. -/
def modelOf (bs : List Byte) : Model :=
  { maskMode := num bs 1 1 % 16, defaultProgram := num bs 2 2, scoreScale := BitVec.ofNat 32 (num bs 4 4),
    window := num bs 8 4 % 2 ^ 24, sinks := num bs 12 4 % 2 ^ 24,
    slopes := (List.range 1024).map fun k => BitVec.ofNat 32 (num bs (32 + 4 * k) 4)
    digest := Config.sha384 (slice bs 0 4128) }

/-- A positive FP32 value. -/
def fpositive (x : F32) : Bool := x.toNat ≠ 0 && x.toNat < 2 ^ 31

/-- Load the blocks of a section, of at most n; a refused one is recorded and its slot left as it was (R101, R354). -/
def readModels (lib : Tbl Program) (ms : Tbl Model) (log : List BootRecord) (bs : List Byte) :
    Nat → Tbl Model × List BootRecord
  | 0 => (ms, log)
  | n + 1 =>
    if bs.length < 4128 then (ms, log)
    else
      let slot := num bs 0 1 % 64
      let m := modelOf bs
      let ok : Bool := ffinite m.scoreScale && fpositive m.scoreScale && m.slopes.all ffinite && (Tbl.get ms slot).isNone &&
        (Tbl.get lib m.defaultProgram).isSome
      if ok then readModels lib (Tbl.set ms slot m) log (bs.drop 4128) n
      else readModels lib ms (log ++ [.modelRefused slot]) (bs.drop 4128) n

/-! Boot (R356, R357, R362). -/

/-- CAUSE_A and CAUSE_B codes (Table 14-7). -/
def ImageCause.code : ImageCause → Nat
  | .notTried => 0 | .passed => 1 | .header => 2 | .sigAlgorithm => 3 | .keyHash => 4 | .signature => 5
  | .securityVersion => 6 | .sections => 7 | .config => 8 | .firmware => 9 | .digest => 10

/-- CAUSE of an image. -/
def Slot2.cause : Slot2 → Field
  | .a => rBootStatusCauseA
  | .b => rBootStatusCauseB

/-- IMAGE of an image. -/
def Slot2.image : Slot2 → Nat
  | .a => 1
  | .b => 2

/-- The image tried first: the higher SEQUENCE, A on a tie. -/
def State.firstImage (s : State) : Slot2 := if s.header .a 8 4 < s.header .b 8 4 then .b else .a

/-- Check an image for this boot: after a power-on any image, after a full reset only the one that was booted. -/
def State.tryImage (s : State) (i : Slot2) : ImageCause :=
  match s.checkImage i, s.node.bootDigest with
  | .passed, some d => if s.signedDigest i = d then .passed else .digest
  | c, _ => c

/-- Record how an image fared. -/
def State.setCause (s : State) (i : Slot2) (c : ImageCause) : State := s.setFld i.cause c.code

/-- The image that is booted, with every cause recorded; none where none passes. -/
def State.pickImage (s : State) : Option Slot2 × State :=
  let i := s.firstImage
  match s.tryImage i with
  | .passed => (some i, s.setCause i .passed)
  | c =>
    let s := s.setCause i c
    match s.tryImage i.other with
    | .passed => (some i.other, s.setCause i.other .passed)
    | c => (none, s.setCause i.other c)

/-- CONFIG keeps PARITY in service: its last write to MOVER_CTL sets it (R279). -/
def keepsParity (ws : List (Nat × Nat × Word)) : Bool :=
  match (ws.filter fun w => w.1 = 0x060 && w.2.1 = 0x020).getLast? with
  | some w => bits w.2.2 1 0 % 2 = 1
  | none => false

/-- Boot an image that has passed: CONFIG is applied, ROL fields lock, the library and the models are loaded, and lane
training begins on every enabled port. -/
def State.bootFrom (s : State) (i : Slot2) : State :=
  let ws := configWrites (s.sectionBytes i 3)
  let lib := s.sectionBytes i 4
  let models := s.sectionBytes i 5
  let s := ws.foldl (fun s w => s.configWrite w.1 w.2.1 w.2.2) s
  let s := ((s.setFld rBootStatusLocked 1).setFld rBootStatusImage i.image).setFld rBootStatusSequence (s.header i 8 4)
  let (programs, log) := readLibrary 0 [] [] lib (lib.length / 64 + 1)
  let (ms, log) := readModels programs [] log models (models.length / 4128)
  let s := { s with node := { s.node with
    bootDigest := some (s.signedDigest i)
    bootVersion := s.header i 12 4
    bootLog := log
    parityKept := keepsParity ws
    models := ms
    library := programs } }
  let s := { s with node := { s.node with resident := s.residentSet } }
  let s := (List.range 8).foldl (fun s p =>
    if s.portMode p = 0 then s else s.setPort p fun q => { q with link := .training, downSince := s.row }) s
  s.toNode .training

/-- BOOT_COMPLETE: the ROM has read the images. A SIG_ALGORITHM fuse of another value never leaves Boot (Table 14-1). -/
def State.boot (s : State) : State :=
  if s.node.state ≠ .boot ∨ s.node.porstLow ∨ (s.node.fuseAlg ≠ 1 ∧ s.node.fuseAlg ≠ 2) then s
  else match s.pickImage with
  | (some i, s) => s.bootFrom i
  | (none, s) => s.toFault (if s.node.bootDigest.isSome then 0x0A else 0x02)

/-! Training (R358, R359, R374). -/

/-- Bytes the annex window holds (Table 1-7). -/
def annexMax : Nat := 8128 * 2 ^ 30

/-- The vault's own slots: tenants 0 and 0xFFF, Keyed with keys it generates (R374). -/
def State.vaultSlots (s : State) : State :=
  let t (k : Nat) : Tenant :=
    { state := .keyed, auth := 0, isSealed := false, key := some (Config.vaultKey k), keyDue := none, ticket := none,
      consent := 0, consentDue := none }
  { s with
    vault := { s.vault with
      tenants := Tbl.set (Tbl.set s.vault.tenants 0 (t s.fresh)) 0xFFF (t (s.fresh + 1)) }
    fresh := s.fresh + 2 }

/-- Spare rows and column groups of a stack, less those that post-package repair has made permanent (R358, R386). -/
def State.countSpares (s : State) (t : Nat) : State :=
  match s.stackUnits[t]? with
  | none => s
  | some k =>
    let used (x : Tbl Nat) : Nat := x.foldl (fun n p => n + p.2) 0
    (s.setFld (rRepairSpareRowsLeft t) (8192 - used k.rowSpares)).setFld (rRepairSpareColsLeft t) (256 - used k.colSpares)

/-- Every logical array stands on the physical array of its number. -/
def State.mapArrays (s : State) : State :=
  (List.range 192).foldl (fun s a => s.setFld (rArrayInfoPhysical (a / 48) (a % 48)) (a % 48)) s

/-- The pool that passed its test: N devices, each as large as the smallest (R274). -/
def State.setPool (s : State) (n gib : Nat) : State :=
  let n := min 16 n
  let s := { s with mover := { s.mover with devices := n, size := min (n * gib * 2 ^ 30) annexMax / 16384 } }
  (s.setFld rPoolStatusDevices n).setFld rPoolStatusPresent (2 ^ n - 1)

/-- TRAINING_COMPLETE: everything of step 6 but the ports is done. -/
def State.trained (s : State) (n gib : Nat) : State :=
  if s.node.state ≠ .training ∨ s.node.restDone then s
  else
    let s := { s with mem := [], poison := [] }
    let s := ((List.range 12).foldl State.countSpares s).mapArrays.vaultSlots.setPool n gib
    { s with node := { s.node with restDone := true } }.tryAttest

/-! Reset (R8, R361 to R363, R434). -/

/-- What stays across every reset: the environment's queue, what was sent, the free values used, flash and fuses, and the
post-package repairs. -/
def State.keepAlways (s : State) : State :=
  { State.reset with
    pending := s.pending
    out := s.out
    fresh := s.fresh
    node := { State.reset.node with
      flash := s.node.flash
      fuseAlg := s.node.fuseAlg
      fuseKeyHash := s.node.fuseKeyHash
      fuseRollback := s.node.fuseRollback
      debugLock := s.node.debugLock
      oobHigh := s.node.oobHigh }
    stackUnits := s.stackUnits.map fun k => { Stack.reset with rowSpares := k.rowSpares, colSpares := k.colSpares } }

/-- A register of temperatures, all of it RO: THERMAL_STATUS and each STACK_THERMAL. The sensors, which are always on, keep what it
shows (Table 0-3). -/
def showsHeat (b o : Nat) : Bool := (b = 0x0F0 && o = 0x0A0) || (b < 12 && o = 0x038)

/-- Registers across a full reset (Table 0-3, Table 14-6). -/
def keepRegs (t : Tbl Word) : Tbl Word :=
  t.filterMap fun p =>
    let b := p.1 / 0x100000
    let o := p.1 % 0x100000
    let w := if showsHeat b o then p.2 else resetKeep b o p.2
    if w = resetWord b o then none else some (p.1, w)

/-- A sensor keeps its reading and its conditions across a full reset; the cut of blocks is the vault's. -/
def State.keepPower (s : State) : Power := { s.power with peakOver := false }

/-- The state a full reset leaves: Boot, with what Table 14-6 keeps, the reset counted, and a fresh BINDOFF_NONCE. -/
def State.afterReset (s : State) (cause : Nat) : State :=
  let r := s.keepAlways
  let r := { r with
    regs := keepRegs s.regs
    power := s.keepPower
    mover := { r.mover with perstHigh := s.mover.perstHigh }
    vault := { r.vault with blocks := s.vault.blocks.filter fun p => p.2 = BlockHold.cut }
    node := { r.node with bootDigest := s.node.bootDigest } }
  let r := if s.locked then r.setFld rBootStatusLocked 1 else r
  let r := ((r.setFld rResetCauseCause cause).setFld rResetCauseBootCount ((s.fld rResetCauseBootCount + 1) % 4096)).setFld
    rResetCauseLastRow (row48 s.row)
  let (v, r) := r.free
  r.setFld rBindoffNonceNonce v

/-- A full reset is ordered (R361): any state but Fault and Bound-off first goes to Fault with the order as cause. -/
def State.fullReset (s : State) (cause fault : Nat) : State :=
  if !s.runs then s
  else
    let s := match s.node.state with
      | .boundOff => s
      | _ => s.toFault fault
    s.afterReset cause

/-- RESET_CAUSE of an order given by RESET_CTL: 1 by a fabric manager, 2 by the Keeper. -/
def resetCauseOf : Path → Nat
  | .keeper => 2
  | _ => 1

/-- PORST_N is low: the node is held at its power-on values. -/
def State.holdReset (s : State) : State :=
  if s.node.state = .off then s
  else
    let r := s.keepAlways
    { r with node := { r.node with porstLow := true } }

/-- PORST_N is released: a power-on, OOB_MODE being sampled (R434, R439). -/
def State.powerOn (s : State) (oobHigh : Bool) : State :=
  let r := s.keepAlways
  { r with node := { r.node with oobHigh := oobHigh } }

/-- Power is removed. -/
def State.powerOff (s : State) : State :=
  let r := s.keepAlways
  { r with node := { r.node with state := .off } }

/-! Cast-on (R360). -/

/-- CASTON_CTL admit. -/
def State.admitNode (s : State) : State :=
  if s.node.state = .attested then (s.setFld rCastonCtlResult 1).toNode .castOn else s.setFld rCastonCtlResult 3

/-- CASTON_CTL commit. -/
def State.commitNode (s : State) : State :=
  if s.node.state = .castOn then { s with node := { s.node with committed := true } }.setFld rCastonCtlResult 2
  else s.setFld rCastonCtlResult 3

/-! Flash operations (R355, R417, Table 17-6). -/

/-- The image the node booted from. -/
def State.bootedImage (s : State) : Option Slot2 :=
  match s.fld rBootStatusImage with
  | 1 => some .a
  | 2 => some .b
  | _ => none

/-- Flash bytes meet the booted image. -/
def State.inBooted (s : State) (a n : Nat) : Bool :=
  match s.bootedImage with
  | some i => meets a n i.base (s.imageLength i)
  | none => false

/-- FLASH_DATA. -/
def State.flashData (s : State) : List Byte :=
  (List.range 32).flatMap fun k => leBytes 8 (s.stored 0x0F0 (0x30000 + 8 * k)).toNat

/-- Begin an erase of a 64 KiB sector (OP 01) or a program of a 256-byte page (OP 10). -/
def State.flashBegin (s : State) (op a : Nat) : State :=
  let n := if op = 1 then 65536 else 256
  if a % n ≠ 0 then s.setFld rFlashCtlResult 4
  else if s.inBooted a n then s.setFld rFlashCtlResult 3
  else
    let s := s.setFld rFlashCtlResult 1
    { s with node := { s.node with
      flashErase := if op = 1 then some a else none
      flashProgram := if op = 1 then none else some (a, s.flashData) } }

/-- FLASH_OP_DONE. -/
def State.flashDone (s : State) : State :=
  if s.fld rFlashCtlResult ≠ 1 then s
  else
    let f := match s.node.flashErase with
      | some a => s.node.flash.filter fun c => c.1 < a || a + 65536 ≤ c.1
      | none => s.node.flash
    let f := match s.node.flashProgram with
      | some (a, bs) => Flash.program f a bs
      | none => f
    { s with node := { s.node with flash := f, flashErase := none, flashProgram := none } }.setFld rFlashCtlResult 2

/-- FLASH_OP_DONE (R417). -/
def execFlashOpDone (s : State) : Out := .next s.flashDone

/-- BOOT_COMPLETE (R356). -/
def execBootComplete (s : State) : Out := .next s.boot

/-- POWER_ON_RESET_RELEASE (R356, R434). -/
def execPowerOnResetRelease (oobHigh : Bool) (s : State) : Out := .next (s.powerOn oobHigh)

/-- PORST_N_ASSERT (R434). -/
def execPorstNAssert (s : State) : Out := .next s.holdReset

/-- POWER_REMOVED (R26). -/
def execPowerRemoved (s : State) : Out := .next s.powerOff

/-- RESET_N (R361). -/
def execResetN (s : State) : Out := .next (s.fullReset 5 0x01)

/-- VAULT_WATCHDOG_EXPIRY (R400). -/
def execVaultWatchdogExpiry (s : State) : Out := .next (s.fullReset 3 0x05)

/-- FAULT_HANDLER_WATCHDOG_EXPIRY (R400). -/
def execFaultHandlerWatchdogExpiry (s : State) : Out := .next (s.fullReset 4 0x05)

/-- TRAINING_COMPLETE (R358, R359). -/
def execTrainingComplete (devices smallestGib : Nat) (s : State) : Out := .next (s.trained devices smallestGib)

/-- TRAINING_FAIL (R358). -/
def execTrainingFail (s : State) : Out := .next (if s.node.state = .training then s.toFault 0x03 else s)

/-- PORT_TRAINING_TIMEOUT (R359): 2,000 ms have passed since Training began. -/
def execPortTrainingTimeout (s : State) : Out :=
  .next (if s.node.state = .training then { s with node := { s.node with portTimeout := true } }.tryAttest else s)

end Sys2Proof.Machine
end

