-- ==== Sys2Proof/Machine/Cuts.lean ====
section
/-! DEFINITION. Blocks that are stopped, gated or cut, and their return (R381, R382, Table 15-5). -/

namespace Sys2Proof.Machine

/-- Commands in flight complete LATE, cause COMPUTE, and those not yet admitted FLUSHED (Table 15-5). -/
def State.dropFlight (s : State) : State :=
  let s := s.work.cmds.foldl (fun s p => (s.abandonAppend p.1 fun h => Outcome.tooLate h .compute).complete p.1 (Outcome.tooLate p.2.head .compute)) s
  let gone := s.work.held ++ s.work.waiting
  { s with work := { s.work with held := [], waiting := [] } }.dropWaiting (fun h => Outcome.bare h .flushed 0) gone

/-- An NBU group is lost: its round is cut, and what it produced in the row is withdrawn. -/
def State.loseNbus (s : State) (t : Nat) : State :=
  let s := match (s.stackUnits[t]?).bind Stack.round with
    | some r => if s.roundBusy t then s.cutRound t r else s.endRound t
    | none => s
  s.withdrawUnits fun u => u / 256 = t

/-- An attention die is lost with what its arrays run. -/
def State.loseArrays (s : State) (d : Nat) : State :=
  (((s.arrays.running.map fun t => t.array).filter fun a => a / 48 = d).foldl (fun s a => s.leaveArray a s.clock.ns) s).dropFlight

/-- The Mover is lost: moves in flight fail at their destination (Table 10-1). -/
def State.loseMover (s : State) : State :=
  ((s.mover.moves.filter fun p => p.2.started.isSome).map Prod.fst).foldl (fun s n => s.failMove n .destination) s

/-- An entry of the Index whose verification copy is gone or fails its CRC. -/
def State.copyBad (s : State) (n : Nat) : Bool :=
  match Tbl.get s.index.copies n with
  | some e => crc32c e.bytes ≠ e.crc
  | none => true

/-- The Index is rebuilt from the verification copies (R247, Table 15-5); an entry without one departs. -/
def State.rebuildIndex (s : State) : State :=
  let s := ((s.index.entries.map Prod.fst).filter s.copyBad).foldl State.departEntry s
  { s with index := { s.index with
    entries := s.index.copies.foldl (fun (t : Tbl Entry) p => if crc32c p.2.bytes = p.2.crc then Tbl.set t p.1 p.2 else t)
      s.index.entries } }

/-- What the loss of a block does (Table 15-5). -/
def State.loseBlock (s : State) (b : Nat) : State :=
  match blockAt b with
  | some (.stackCtl, _) => s.toFault 0x06
  | some (.nbu, t) => s.loseNbus t
  | some (.att, d) => s.loseArrays d
  | some (.port, p) => s.portDown p
  | some (.xport, _) | some (.tm, _) | some (.seqr, _) => s.dropFlight
  | some (.index, _) => s
  | some (.mover, _) => s.loseMover
  | some (.annex, a) => s.annexDown a
  | some (.cat, _) | some (.keeper, _) | some (.ident, _) => s.fullReset 2 0x06
  | none => s

/-- Hold a block, and lose what it holds. -/
def State.holdBlock (s : State) (b : Nat) (how : BlockHold) : State :=
  { s with vault := { s.vault with blocks := Tbl.set s.vault.blocks b how } }.loseBlock b

/-- A block comes back, zeroed. -/
def State.freeBlock (s : State) (b : Nat) : State :=
  let s := { s with vault := { s.vault with blocks := Tbl.erase s.vault.blocks b } }
  if b = 0x058 then s.rebuildIndex else s

/-- An emergency cuts a block whatever claims it holds: OVERRIDES counts it, and measurement 12 takes the cut of a claimed
one (R382). -/
def State.cutBlock (s : State) (b : Nat) : State :=
  if Tbl.get s.vault.blocks b = some .cut then s
  else ((s.count rSecureEventsOverrides 1).measureBlock b 2).holdBlock b .cut

/-! What a cut takes, by die, stack or rail (Tables 1-1, 18-3, 18-4). The keeper die is not cut but resets the node. -/

/-- The blocks cut with a die, numbered as in Table 16-6. -/
def dieBlocks (d : Nat) : List Nat :=
  if d < 4 then [0x020 + d]
  else if d < 16 then [d - 4]
  else if d = 16 then [0x030, 0x031, 0x032, 0x033, 0x038, 0x040]
  else if d = 17 then [0x034, 0x035, 0x036, 0x037, 0x038, 0x040, 0x058]
  else if d = 18 then [0x060, 0x068, 0x069, 0x06A, 0x06B]
  else []

/-- The block cut with a stack's layers. -/
def stackBlocks (t : Nat) : List Nat := if t < 12 then [0x010 + t] else []

/-- The blocks cut with a rail. -/
def railBlocks (k : Nat) : List Nat :=
  if k = 5 then [0x020, 0x021, 0x022, 0x023] else if k = 8 ∨ k = 12 then [0x060, 0x068, 0x069, 0x06A, 0x06B] else []

/-- A rail's excursion cuts blocks. -/
def cutsBlocks (k : Nat) : Bool := k = 5 || k = 8 || k = 12

/-- Some sensor or rail still holds a block cut. -/
def State.stillCut (s : State) (b : Nat) : Bool :=
  (((List.range 20).zip s.power.dieTemps).any fun x => x.2.isCut && (dieBlocks x.1).contains b) ||
  (((List.range 12).zip s.power.stackTemps).any fun x => x.2.isCut && (stackBlocks x.1).contains b) ||
  s.power.railCut.any fun k => (railBlocks k).contains b

/-- Return the cut blocks of a list that nothing holds any longer. -/
def State.returnBlocks (s : State) (bs : List Nat) : State :=
  bs.foldl (fun s b => if Tbl.get s.vault.blocks b = some .cut ∧ !s.stillCut b then s.freeBlock b else s) s

end Sys2Proof.Machine
end

