-- ==== Sys2Proof/Machine/Power.lean ====
section
/-! DEFINITION. Temperatures, rails and what they order (R382, R428, R429, R431, R433, Tables 18-3 and 18-4). -/

namespace Sys2Proof.Machine

/-! Temperatures. -/

/-- A sensor. -/
def State.tempAt (s : State) : Sensor → Option Temp
  | .die d => s.power.dieTemps[d]?
  | .stack t => s.power.stackTemps[t]?

/-- Change a sensor's conditions. -/
def State.setTemp (s : State) (x : Sensor) (f : Temp → Temp) : State :=
  match x with
  | .die d => { s with power := { s.power with dieTemps := setAt s.power.dieTemps d f } }
  | .stack t => { s with power := { s.power with stackTemps := setAt s.power.stackTemps t f } }

/-- The blocks cut with a sensor. -/
def sensorBlocks : Sensor → List Nat
  | .die d => dieBlocks d
  | .stack t => stackBlocks t

/-- The keeper die, in the order of Table 16-6. -/
def keeperDie : Nat := 19

/-- THERMAL_ALERT: at 100 degrees THERM_ALERT_N goes low, and an attention die is throttled from the next row. -/
def State.alertAt (s : State) (x : Sensor) (temp : Nat) : State :=
  if temp < 100 then s else s.setTemp x fun t => { t with alert := true }

/-- THERMAL_EMERGENCY: at 105 degrees the blocks of the die, or the NBU group of the stack, are cut; the keeper die orders a
full reset. -/
def State.emergencyAt (s : State) (x : Sensor) (temp : Nat) : State :=
  if temp < 105 ∨ (s.tempAt x).isNone then s
  else
    let s := s.setTemp x fun t => { t with alert := true, emergency := true, isCut := true }
    if x = .die keeperDie then s.fullReset 2 0x06 else (sensorBlocks x).foldl State.cutBlock s

/-- THERMAL_TRIP: at 115 degrees THERM_TRIP_N goes low and every clock but AOCLK stops; only a power-on brings the node back
(R429). -/
def State.tripAt (s : State) (x : Sensor) (temp : Nat) : State :=
  if temp < 115 ∨ (s.tempAt x).isNone then s else { s with node := { s.node with tripped := true } }

/-- THERMAL_CLEAR: a condition clears once the temperature has stayed 2 degrees below its threshold for 256 rows. -/
def State.clearAt (s : State) (x : Sensor) : State :=
  s.setTemp x fun t => { t with
    alert := t.alert && t.r98 < 256
    emergency := t.emergency && t.r103 < 256 }

/-- THERMAL_CAP_RISE: the cap of a stack rises one band of Table 6-2. -/
def State.riseCap (s : State) (t : Nat) : State :=
  match s.power.stackTemps[t]? with
  | none => s
  | some x => s.setStack t fun k =>
    if k.thermalCap = 96 ∧ 256 ≤ x.r88 then { k with thermalCap := 128 }
    else if k.thermalCap = 64 ∧ 256 ≤ x.r93 then { k with thermalCap := 96 }
    else if k.thermalCap = 32 ∧ 256 ≤ x.r98 then { k with thermalCap := 64 }
    else if k.thermalCap = 0 ∧ 256 ≤ x.r103 then { k with thermalCap := 32 }
    else k

/-- CUT_BLOCK_RETURN: a block cut for temperature comes back once its die or stack has stayed below 95 degrees for 4,096
rows, unless something else still holds it. -/
def State.returnAt (s : State) (x : Sensor) : State :=
  match s.tempAt x with
  | none => s
  | some t =>
    if t.isCut ∧ 4096 ≤ t.r94 then (s.setTemp x fun t => { t with isCut := false }).returnBlocks (sensorBlocks x) else s

/-! Rails. -/

/-- What an excursion beyond the absolute rating does (Table 18-4). -/
inductive RailAct where
  | powerOn | fault | cut
  deriving DecidableEq, Repr

/-- The action of a rail. -/
def railAct (k : Nat) : RailAct :=
  if k = 0 then .powerOn else if cutsBlocks k then .cut else .fault

/-- A rail leaves its operating range: OUT_OF_RANGE and EXCURSION of RAIL_STATUS. -/
def State.railOut (s : State) (k : Nat) : State :=
  if 13 ≤ k then s
  else
    { s with power := { s.power with
      railOut := addNum s.power.railOut k
      railBack := Tbl.erase s.power.railBack k } }.setFld ⟨0x0F0, 0x0A8, 16 + k, 16 + k⟩ 1

/-- RAIL_ABSOLUTE_EXCURSION: 2 microseconds beyond the absolute rating, an electrical emergency (R382). -/
def State.railFail (s : State) (k : Nat) : State :=
  if 13 ≤ k ∨ s.node.state = .off then s
  else
    let s := s.railOut k
    match railAct k with
    | .powerOn =>
      let r := s.powerOn s.node.oobHigh
      { r with power := { r.power with railOut := s.power.railOut } }
    | .fault => s.toFault 0x04
    | .cut =>
      let s := { s with power := { s.power with railCut := addNum s.power.railCut k } }
      (railBlocks k).foldl State.cutBlock s

/-- RAIL_RECOVERY: the rail is in its range; once it has stayed there for 64 rows its blocks come back. -/
def State.railRecover (s : State) (k : Nat) : State :=
  if s.power.railOut.contains k then
    { s with power := { s.power with
      railOut := s.power.railOut.filter (· ≠ k)
      railBack := Tbl.set s.power.railBack k s.row } }
  else if s.power.railCut.contains k ∧ Tbl.num s.power.railBack k + 64 ≤ s.row then
    { s with power := { s.power with
      railCut := s.power.railCut.filter (· ≠ k)
      railBack := Tbl.erase s.power.railBack k } }.returnBlocks (railBlocks k)
  else s

/-- THERMAL_ALERT (R428). -/
def execThermalAlert (sensor : Sensor) (temp : Nat) (s : State) : Out := .next (s.alertAt sensor temp)

/-- THERMAL_EMERGENCY (R428). -/
def execThermalEmergency (sensor : Sensor) (temp : Nat) (s : State) : Out := .next (s.emergencyAt sensor temp)

/-- THERMAL_TRIP (R429). -/
def execThermalTrip (sensor : Sensor) (temp : Nat) (s : State) : Out := .next (s.tripAt sensor temp)

/-- THERMAL_CLEAR (R428). -/
def execThermalClear (sensor : Sensor) (s : State) : Out := .next (s.clearAt sensor)

/-- THERMAL_CAP_RISE (R152, Table 6-2). -/
def execThermalCapRise (t : Nat) (s : State) : Out := .next (s.riseCap t)

/-- CUT_BLOCK_RETURN (R428). -/
def execCutBlockReturn (sensor : Sensor) (s : State) : Out := .next (s.returnAt sensor)

/-- RAIL_OUT_OF_RANGE (R433). -/
def execRailOutOfRange (rail : Nat) (s : State) : Out := .next (s.railOut rail)

/-- RAIL_ABSOLUTE_EXCURSION (R433). -/
def execRailAbsoluteExcursion (rail : Nat) (s : State) : Out := .next (s.railFail rail)

/-- RAIL_RECOVERY (R433). -/
def execRailRecovery (rail : Nat) (s : State) : Out := .next (s.railRecover rail)

end Sys2Proof.Machine
end

