-- ==== Sys2Proof/Machine/Vault.lean ====
section
/-! DEFINITION. The vault: tenants, keys, sessions, measurements and claims (R366 to R384). -/

namespace Sys2Proof.Machine

/-! Tenant admission (R374, R378, Table 15-3). -/

/-- Tenants 0 and 0xFFF, always Keyed. -/
def ownTenant (t : Nat) : Bool := t = 0 || t = 0xFFF

/-- TENANT_AUTH0 to TENANT_AUTH5. -/
def State.authHash (s : State) : Digest :=
  BitVec.ofNat 384 ((List.range 6).foldl (fun n j => n + s.fld (rTenantAuthHash j) * 2 ^ (64 * j)) 0)

/-- RESULT of TENANT_CTL. -/
def State.tenantResult (s : State) (r : Nat) : State := s.setFld rTenantCtlResult r

/-- A sealed tenant is not Free. -/
def State.anySealed (s : State) : Bool := s.vault.tenants.any fun p => p.2.isSealed

/-- A sealed tenant has been admitted: the claims are due in the next row, and a release that is due is not made (R380). -/
def State.claimsSoon (s : State) : State :=
  let due := if s.vault.claimed then none else match s.vault.claimsDue with
    | some (r, true) => some (r, true)
    | _ => some (s.row, true)
  { s with vault := { s.vault with claimsDue := due } }

/-- The last sealed tenant is Free: the claims go in the next row (R380). -/
def State.claimsEnd (s : State) : State :=
  if s.anySealed then s
  else { s with vault := { s.vault with claimsDue := if s.vault.claimed then some (s.row, false) else none } }

/-- TENANT_CTL admit (R374). -/
def State.admitTenant (s : State) (t : Nat) (isSealed : Bool) : State :=
  if ownTenant t then s.tenantResult 4
  else if (s.tenantAt t).state ≠ .free then s.tenantResult 3
  else
    let s := (s.setTenant t { Tenant.free with state := .admitted, auth := s.authHash, isSealed := isSealed }).measureTenant t
    (if isSealed then s.claimsSoon else s).tenantResult 2

/-- The sessions of a tenant end. -/
def State.endSessionsOf (s : State) (t : Nat) : State :=
  { s with vault := { s.vault with sessions := s.vault.sessions.filter fun p => match p.2.leaf with
    | some d => !s.leafServes d t
    | none => true } }

/-- Every queue pair and partner record of a tenant enters Error (R378). -/
def State.dropTenantConns (s : State) (t : Nat) : State :=
  ((s.xport.conns.filter fun p => p.2.tenant = t && !p.2.relay).map Prod.fst).foldl (fun s k => s.qpError k 4) s

/-- Every key of a tenant is to be revoked (R325, R378). -/
def State.revokeTenant (s : State) (t : Nat) : State :=
  s.revokeKeys ((s.xport.keys.filter fun p => p.2.tenant = t && p.2.state = .valid && p.2.revokeDue.isNone).map Prod.fst) none

/-- Every Open sequence of a tenant is closed as if by CLOSE (R378). -/
def State.closeTenant (s : State) (t : Nat) : State :=
  { s with cat := { s.cat with seqs := s.cat.seqs.mapVals fun _ q =>
    if q.tenant = t ∧ q.state = .opened then { q with state := .closing } else q } }

/-- Moves of a tenant's leaves when its key slot changes: one into the annex fails at its destination, and one that reads the
annex makes its leaf Lost (R377). -/
def State.keyMoves (s : State) (t : Nat) : State :=
  let mine (m : Move) : Bool := m.started.isSome && m.cards.any fun n => match s.card n with
    | some c => c.origin = t
    | none => false
  (s.mover.moves.filter fun p => mine p.2).foldl (fun s p =>
    if p.2.cards.any fun n => (Tbl.get s.mover.copies n).isSome then s.failMove p.1 .crc
    else if p.2.dest = .annex then s.failMove p.1 .destination
    else s) s

/-- TENANT_CTL withdraw, in the order of R378. -/
def State.withdrawTenant (s : State) (t : Nat) : State :=
  let x := s.tenantAt t
  if ownTenant t then s.tenantResult 4
  else if x.state ≠ .admitted ∧ x.state ≠ .keyed then s.tenantResult 3
  else
    let s := s.endSessionsOf t
    let s := s.setTenant t { x with
      state := .withdrawing
      key := none
      keyDue := none
      ticket := none }
    (((((s.keyMoves t).dropTenantConns t).revokeTenant t).closeTenant t)).tenantResult 1

/-- Something of a withdrawing tenant is left: a sequence not Closed, or a key not yet revoked. -/
def State.tenantLeft (s : State) (t : Nat) : Bool :=
  (s.cat.seqs.any fun p => p.2.tenant = t && (p.2.state = .opened || p.2.state = .closing)) ||
  s.xport.keys.any fun p => p.2.tenant = t && p.2.live

/-- WITHDRAWAL_COMPLETE (R378). -/
def State.endWithdrawal (s : State) (t : Nat) : State :=
  let x := s.tenantAt t
  if x.state ≠ .withdrawing ∨ s.tenantLeft t then s
  else
    let s := { s with vault := { s.vault with tenants := Tbl.erase s.vault.tenants t } }.measureTenant t
    let s := if x.isSealed then s.claimsEnd else s
    if s.fld rTenantCtlResult = 1 then s.tenantResult 2 else s

/-- TENANT_CTL read (R384). -/
def State.readTenant (s : State) (t : Nat) : State := (s.setStored 0x080 0x080 (s.tenantInfo t)).tenantResult 2

/-! SPDM (R371 to R373). -/

/-- The vault runs: an image has been booted and the node is past Training. -/
def State.vaultUp (s : State) : Bool :=
  s.runs && s.fld rBootStatusImage ≠ 0 && match s.node.state with
    | .off | .boot | .training => false
    | _ => true

/-- The vault answers on its queue pair: the network ports carry TC4 (R27, R371, R405). -/
def State.vaultOnline (s : State) : Bool := s.vaultUp && s.node.state ≠ .fault && s.node.state ≠ .boundOff

/-- TENANT_COUNT (Table 15-6). -/
def State.tenantCount (s : State) : Word :=
  let ts := s.vault.tenants.filter fun p => !ownTenant p.1
  setBits (setBits 0 11 0 ts.length) 27 16 (ts.filter fun p => p.2.isSealed).length

/-- Bytes of a section of the booted image (Table 15-1). -/
def State.bootedSection (s : State) (kind : Nat) : List Byte :=
  match s.bootedImage with
  | some i => s.sectionBytes i kind
  | none => []

/-- A record of the manifest (R369). -/
def manifestRecord (kind flags index : Nat) (d : Digest) : List Byte :=
  leBytes 1 kind ++ leBytes 1 flags ++ leBytes 2 index ++ leBytes 4 0 ++ digestBytes d

/-- The manifest: programs, then model blocks. -/
def State.manifest (s : State) : List Byte :=
  s.node.library.flatMap (fun p => manifestRecord 1 (if p.2.customer then 1 else 0) p.1 p.2.digest) ++
    s.node.models.flatMap fun p => manifestRecord 2 0 p.1 p.2.digest

/-- A measurement of Table 15-1. The layouts of 2, 8 and 9 are the model's. -/
def State.measurement (s : State) (index : Nat) : Digest :=
  let n := s.node
  let image (o : Nat) : List Byte := match s.bootedImage with
    | some i => s.imageBytes i o 4
    | none => []
  match index with
  | 1 => Config.bootRomDigest
  | 2 => Config.sha384 (leBytes 1 n.fuseAlg ++ digestBytes n.fuseKeyHash ++ leBytes 1 n.fuseRollback ++
      leBytes 1 (if n.debugLock then 1 else 0))
  | 8 => Config.sha384 (image 12 ++ image 8)
  | 9 => Config.sha384 (leBytes 1 n.state.code ++ leBytes 2 (s.fld rResetCauseBootCount) ++ leBytes 8 s.tenantCount.toNat ++
      leBytes 1 (if logMax ≤ s.vault.log.length then 1 else 0))
  | 10 => s.vault.meas10
  | 11 => s.vault.meas11
  | 12 => s.vault.meas12
  | 20 => Config.sha384 s.manifest
  | k => Config.sha384 (s.bootedSection (k - 2))

/-- The indices of Table 15-1. -/
def measurementIndices : List Nat := (List.range 12).map (· + 1) ++ [20]

/-- The vault answers with a message: its code, a RESULT, measurements, log records. -/
def State.vaultReply (s : State) (session : Option Nat) (op result : Nat) (ds : List Digest) (log : List LogRecord) : State :=
  s.sendAside (.vault session op result ds log)

/-- SPDM ERROR. -/
def State.spdmError (s : State) (session : Option Nat) : State := s.vaultReply session 0x7F 1 [] []

/-- Rows of the heartbeat period, 8 s (Table 15-2). -/
def heartbeatRows : Nat := 1953125

/-- Change the sessions. -/
def State.setSessions (s : State) (t : Tbl Session) : State := { s with vault := { s.vault with sessions := t } }

/-- KEY_EXCHANGE opens one of 64 sessions. -/
def State.openSession (s : State) : State :=
  if 64 ≤ s.vault.sessions.length then s.spdmError none
  else
    let n := s.vault.nextSession
    let s := s.setSessions (Tbl.set s.vault.sessions n ⟨none, s.row⟩)
    { s with vault := { s.vault with nextSession := n + 1 } }.vaultReply (some n) 0x64 0 [] []

/-- A requester may open one more session: at most 2 for one certificate, and 2 for each tenant it authenticates for. -/
def State.sessionRoom (s : State) (d : Digest) : Bool :=
  (s.vault.sessions.filter fun p => p.2.leaf = some d).length < 2 &&
    (!s.leafServes d 0 || s.sessionsOf 0 < 2) &&
    s.vault.tenants.all fun p => !s.leafServes d p.1 || s.sessionsOf p.1 < 2

/-- FINISH with mutual authentication ends the handshake, or the session. -/
def State.finishSession (s : State) (n : Nat) (leaf : Digest) (verified : Bool) : State :=
  match Tbl.get s.vault.sessions n with
  | none => s
  | some x =>
    if x.leaf.isNone ∧ verified ∧ s.sessionRoom leaf then
      (s.setSessions (Tbl.set s.vault.sessions n ⟨some leaf, s.row⟩)).vaultReply (some n) 0x65 0 [] []
    else (s.setSessions (Tbl.erase s.vault.sessions n)).spdmError (some n)

/-- A message inside a session that stands. -/
def State.inSession (s : State) (session : Option Nat) (f : Nat → Session → State) : State :=
  match session with
  | none => s.spdmError none
  | some n => match Tbl.get s.vault.sessions n with
    | some x => f n x
    | none => s

/-- A standard SPDM request (R372, codes of SPDM 1.3). A message of a session that does not stand draws no answer. -/
def State.spdm (s : State) (session : Option Nat) (r : SpdmReq) : State :=
  let plain (code : Nat) (ds : List Digest) : State := match session with
    | none => s.vaultReply none code 0 ds []
    | some n => if (Tbl.get s.vault.sessions n).isSome then s.vaultReply session code 0 ds [] else s
  match r with
  | .version => plain 0x04 []
  | .capabilities => plain 0x61 []
  | .algorithms => plain 0x63 []
  | .digests => plain 0x01 []
  | .certificate => plain 0x02 []
  | .challenge _ => plain 0x03 []
  | .measurements _ => plain 0x60 (measurementIndices.map s.measurement)
  | .chunk _ => plain 0x05 []
  | .keyExchange => match session with
    | none => s.openSession
    | some _ => plain 0x7F []
  | .finish leaf verified => s.inSession session fun n _ => s.finishSession n leaf verified
  | .heartbeat => s.inSession session fun n x =>
      (s.setSessions (Tbl.set s.vault.sessions n { x with beat := s.row })).vaultReply (some n) 0x68 0 [] []
  | .keyUpdate => s.inSession session fun n _ => s.vaultReply (some n) 0x69 0 [] []
  | .endSession => s.inSession session fun n _ =>
      (s.setSessions (Tbl.erase s.vault.sessions n)).vaultReply (some n) 0x6C 0 [] []

/-- A session whose heartbeat has not come within its period ends. -/
def State.endHeartbeat (s : State) (n : Nat) : State :=
  match Tbl.get s.vault.sessions n with
  | some x => if x.beat + heartbeatRows ≤ s.row then s.setSessions (Tbl.erase s.vault.sessions n) else s
  | none => s

/-! Vendor messages (R375, Table 15-4). -/

/-- The session authenticates for a tenant. -/
def State.speaksFor (s : State) (x : Session) (t : Nat) : Bool :=
  match x.leaf with
  | some d => s.leafServes d t
  | none => false

/-- A vendor message for a tenant: its RESULT and effect, where the session authenticates for it. -/
def State.vendor (s : State) (session t op : Nat) (f : Tenant → Nat × State) : State :=
  match Tbl.get s.vault.sessions session with
  | none => s
  | some x =>
    if !s.vaultUp then s
    else if !s.speaksFor x t then s.vaultReply (some session) op 4 [] []
    else match f (s.tenantAt t) with
      | (r, s) => s.vaultReply (some session) op r [] []

/-- Admitted or Keyed. -/
def Tenant.isIn (x : Tenant) : Bool := x.state = .admitted || x.state = .keyed

/-- SET_KEY. -/
def State.setKey (s : State) (session t : Nat) (k1 k2 : BitVec 256) : State :=
  s.vendor session t 1 fun x =>
    if !x.isIn then (2, s)
    else if x.key.isSome ∨ x.keyDue.isSome then (1, s)
    else if k1 = k2 then (3, s)
    else (0, s.setTenant t { x with keyDue := some (s.row, some (k1 ++ k2)) })

/-- SET_TICKET. -/
def State.setTicket (s : State) (session t : Nat) (secret : BitVec 256) : State :=
  s.vendor session t 2 fun x => if x.isIn then (0, s.setTenant t { x with ticket := some secret }) else (2, s)

/-- SET_CONSENT takes effect at the next row (R383). -/
def State.setConsent (s : State) (session t c : Nat) : State :=
  s.vendor session t 3 fun x => if x.isIn then (0, s.setTenant t { x with consentDue := some (c % 8) }) else (2, s)

/-- CLEAR_KEY: only a tenant that is Keyed by a key of its own can empty its slot. -/
def State.clearKey (s : State) (session t : Nat) : State :=
  s.vendor session t 4 fun x =>
    if x.state = .keyed ∧ !ownTenant t then (0, s.setTenant t { x with keyDue := some (s.row, none) }) else (2, s)

/-- CLEAR_TICKET. -/
def State.clearTicket (s : State) (session t : Nat) : State :=
  s.vendor session t 5 fun x => if x.isIn then (0, s.setTenant t { x with ticket := none }) else (2, s)

/-- READ_LOG, in a session or outside (R373). -/
def State.readLog (s : State) (session : Option Nat) (first : Nat) : State :=
  let there : Bool := match session with
    | some n => (Tbl.get s.vault.sessions n).isSome
    | none => true
  if s.vaultUp ∧ there then s.vaultReply session 6 0 [] ((s.vault.log.drop first).take 63) else s

/-- KEY_SLOT_EFFECT: keys set or cleared in an earlier row are in or out of their slots (R377). -/
def State.keySlots (s : State) : State :=
  s.vault.tenants.foldl (fun s p => match p.2.keyDue with
    | some (r, k) =>
      if r < s.row ∧ p.2.isIn then
        (s.setTenant p.1 { p.2 with
          key := k
          keyDue := none
          state := if k.isSome then .keyed else .admitted }).keyMoves p.1
      else s
    | none => s) s

/-! Claims and BLOCK_REQ (R380, R381). -/

/-- CLAIMS_EFFECT. -/
def State.takeClaims (s : State) : State :=
  match s.vault.claimsDue with
  | some (r, true) =>
    if r < s.row then { s with vault := { s.vault with claimed := true, claimsDue := none } } else s
  | _ => s

/-- RESULT of BLOCK_REQ. -/
def State.blockResult (s : State) (r : Nat) : State := s.setFld rBlockReqResult r

/-- Stop or gate a block. -/
def State.applyReq (s : State) (gate : Bool) (b : Nat) : State :=
  if Tbl.get s.vault.blocks b = some .cut then s.blockResult 1
  else (s.blockResult 1).holdBlock b (if gate then .gated else .stopped)

/-- CLAIMS_RELEASE: a deferred request is applied in the row of release. -/
def State.dropClaims (s : State) : State :=
  match s.vault.claimsDue with
  | some (r, false) =>
    if r < s.row then
      let d := s.vault.deferred
      let s := { s with vault := { s.vault with claimed := false, claimsDue := none, deferred := none } }
      match d with
      | some (gate, b) => s.applyReq gate b
      | none => s
    else s
  | _ => s

/-- The Keeper has no such block to stop: the index is unassigned, or its own. -/
def noSuchBlock (b : Nat) : Bool :=
  match blockAt b with
  | none | some (.keeper, _) | some (.ident, _) => true
  | _ => false

/-- A request counted in DENIED. -/
def State.denied (s : State) (r : Nat) : State := (s.count rSecureEventsDenied 1).blockResult r

/-- A new request replaces a deferred one. -/
def State.undefer (s : State) : State := { s with vault := { s.vault with deferred := none } }

/-- BLOCK_REQ stop clock or gate power. -/
def State.holdReq (s : State) (gate : Bool) (b : Nat) : State :=
  let s := s.undefer
  if noSuchBlock b then s.blockResult 4
  else if s.isClaimed b then { s with vault := { s.vault with deferred := some (gate, b) } }.denied 2
  else s.applyReq gate b

/-- BLOCK_REQ restore. -/
def State.restoreReq (s : State) (b : Nat) : State :=
  let s := s.undefer
  if noSuchBlock b ∨ Tbl.get s.vault.blocks b = some .cut then s.blockResult 4
  else ((if (Tbl.get s.vault.blocks b).isSome then s.freeBlock b else s)).blockResult 1

/-- Every sealed tenant has given DEBUG consent. -/
def State.debugConsent (s : State) : Bool := s.vault.tenants.all fun p => !p.2.isSealed || p.2.consent.testBit 0

/-- BLOCK_REQ capture. -/
def State.captureReq (s : State) (b : Nat) : State :=
  let s := s.undefer
  if noSuchBlock b then s.blockResult 4
  else if s.isClaimed b ∧ !s.debugConsent then s.denied 3
  else ((s.count rSecureEventsCaptures 1).measureBlock b 1).blockResult 1

/-- BLOCK_REQ cancel. -/
def State.cancelReq (s : State) : State :=
  if s.vault.deferred.isSome then s.undefer.blockResult 5 else s.blockResult 0

/-! The commands. -/

/-- WITHDRAWAL_COMPLETE (R378). -/
def execWithdrawalComplete (tenant : Nat) (s : State) : Out := .next (s.endWithdrawal tenant)

/-- SPDM_REQUEST (R372), on queue pair 0x0002. -/
def execSpdmRequest (session : Option Nat) (r : SpdmReq) (s : State) : Out :=
  .next (if s.vaultOnline then s.spdm session r else s)

/-- SET_KEY (R375). -/
def execSetKey (session tenant : Nat) (key1 key2 : BitVec 256) (s : State) : Out := .next (s.setKey session tenant key1 key2)

/-- SET_TICKET (R375). -/
def execSetTicket (session tenant : Nat) (secret : BitVec 256) (s : State) : Out := .next (s.setTicket session tenant secret)

/-- SET_CONSENT (R383). -/
def execSetConsent (session tenant bits : Nat) (s : State) : Out := .next (s.setConsent session tenant bits)

/-- CLEAR_KEY (R375). -/
def execClearKey (session tenant : Nat) (s : State) : Out := .next (s.clearKey session tenant)

/-- CLEAR_TICKET (R375). -/
def execClearTicket (session tenant : Nat) (s : State) : Out := .next (s.clearTicket session tenant)

/-- READ_LOG (R375). -/
def execReadLog (session : Option Nat) (first : Nat) (s : State) : Out := .next (s.readLog session first)

/-- KEY_SLOT_EFFECT (R377). -/
def execKeySlotEffect (s : State) : Out := .next s.keySlots

/-- CLAIMS_EFFECT (R380). -/
def execClaimsEffect (s : State) : Out := .next s.takeClaims

/-- CLAIMS_RELEASE (R380). -/
def execClaimsRelease (s : State) : Out := .next s.dropClaims

/-- SPDM_HEARTBEAT_TIMEOUT (R372). -/
def execSpdmHeartbeatTimeout (session : Nat) (s : State) : Out := .next (s.endHeartbeat session)

end Sys2Proof.Machine
end

