-- ==== Sys2Proof/Machine/Health.lean ====
section
/-! DEFINITION. Gauges, Keeper load and cores, drain and bind-off (R390, R393, R394, R399, R402 to R405). -/

namespace Sys2Proof.Machine

/-! Lanes as their receivers see them (Table 11-5). -/

/-- The receiver of a physical lane is locked: its link is neither Down nor Training, and the lane has not failed. -/
def State.laneLocked (s : State) (p lane : Nat) : Bool :=
  match s.ports[p]? with
  | some q => q.link ≠ .down && q.link ≠ .training && !q.failed.contains lane && lane < s.laneCount p
  | none => false

/-- SNR of a lane in units of 0.25 dB. -/
def State.snr (s : State) (p lane : Nat) : Nat := if s.laneLocked p lane then Config.snr (p * 9 + lane) s.row % 256 else 0

/-! Gauges (R393). -/

/-- The gauge of a part. -/
def State.gaugeAt (s : State) (kind unit : Nat) : Gauge := (Tbl.get s.health.gauges (gaugeKey kind unit)).getD ⟨0, 0⟩

/-- A gauge after an epoch with x weighted units. -/
def Gauge.scored (g : Gauge) (x : Nat) : Gauge :=
  let v := min 65535 (g.value - g.value / 8 + x)
  ⟨v, max g.peak v⟩

/-- The node's gauge: the largest value of every other. -/
def nodeGauge (t : Tbl Gauge) : Nat := t.foldl (fun n p => if p.1 / 2 ^ 20 = 7 then n else max n p.2.value) 0

/-- Every gauge after the epoch. -/
def State.scoredGauges (s : State) : Tbl Gauge :=
  let keys := (s.health.gauges.map Prod.fst ++ s.health.counts.map Prod.fst).dedup
  let t := keys.foldl (fun (t : Tbl Gauge) k =>
    if k / 2 ^ 20 = 7 then t
    else Tbl.set t k (((Tbl.get s.health.gauges k).getD ⟨0, 0⟩).scored (Tbl.num s.health.counts k))) s.health.gauges
  let v := nodeGauge t
  let old := (Tbl.get s.health.gauges (gaugeKey 7 0)).getD ⟨0, 0⟩
  if v = 0 ∧ old.peak = 0 then t else Tbl.set t (gaugeKey 7 0) ⟨v, max old.peak v⟩

/-- Lanes below 16 dB at the end of the epoch count 256. -/
def State.countSnr (s : State) : State :=
  (List.range 72).foldl (fun s i =>
    if s.laneLocked (i / 9) (i % 9) ∧ s.snr (i / 9) (i % 9) < 64 then s.gauge 4 i 256 else s) s

/-! What the Keeper does about a gauge (R394). -/

/-- An event about a gauge. -/
def State.postGauge (s : State) (kind unit value event : Nat) : State :=
  s.postFm { s.event event 0x080 kind with arg0 := unit, arg1 := value }

/-- Map the spare of a region's NBU; none where its group's spare is not free. -/
def State.actNbu (s : State) (t unit : Nat) : Option State :=
  match (s.stackUnits[t]?).bind fun k => k.spares[unit / 16]? with
  | some .free => if 256 ≤ unit then none
      else some (((s.setFld (rSpareCtlOp t) 1).setFld (rSpareCtlRegion t) unit).mapNbu t unit)
  | _ => none

/-- Map a spare into the logical array of a physical one: a cell where one is free, else an array. -/
def State.actCell (s : State) (d k : Nat) : Option State :=
  match (List.range 48).find? fun a => s.fld (rArrayInfoPhysical d a) = k with
  | none => none
  | some a =>
    if 4 ≤ d then none
    else
      let go (cell : Bool) : State :=
        ((s.setFld (rAttSpareCtlOp d) (if cell then 1 else 2)).setFld (rAttSpareCtlArray d) a).mapArray d a cell
      if s.freeCells d a ≠ 0 then some (go true)
      else if s.freeSpareArrays d ≠ 0 then some (go false)
      else none

/-- PORT_CTL operation 100 on the logical lane that a physical lane carries; none where there is no spare to take it. -/
def State.actLane (s : State) (p lane : Nat) : Option State :=
  match s.ports[p]? with
  | none => none
  | some q =>
    match (List.range 8).find? fun i => laneAt q.txMap i = lane with
    | none => none
    | some i =>
      let x := ((s.setFld (rPortCtlOp p) 4).setFld (rPortCtlLane p) i).portCtl p 4 i
      if lane < 8 ∧ x.fld (rPortCtlResult p) = 1 then some x else none

/-- Start the rebuild of a CAM bank into the spare bank; none where the spare is used. -/
def State.actBank (s : State) (k : Nat) : Option State :=
  if 16 ≤ k ∨ s.index.spareUsed ∨ s.index.rebuild.isSome then none else some (s.rebuildBank k)

/-- Start the evacuation of a pool device. -/
def State.actDevice (s : State) (dev : Nat) : State :=
  ((s.setFld rMoverCtlOp 1).setFld rMoverCtlDevice dev).annexOp (.evacuate dev)

/-- The Keeper's action on a part whose gauge has risen through ACT; none for a DRAM bank, the node, or a part with no spare
left. -/
def State.gaugeAct (s : State) (kind unit : Nat) : Option State :=
  match kind with
  | 2 => s.actNbu (unit / 272) (unit % 272)
  | 3 => s.actCell (unit / 3536) (unit % 3536 / 68)
  | 4 => s.actLane (unit / 9) (unit % 9)
  | 5 => some (s.actDevice unit)
  | 6 => s.actBank unit
  | _ => none

/-- A gauge that has gone from `old` to `new` in the epoch. -/
def State.weigh (s : State) (kind unit old new : Nat) : State :=
  let warn := s.fld rGaugeLimitsWarn
  let act := s.fld rGaugeLimitsAct
  let s := if old < warn ∧ warn ≤ new then s.postGauge kind unit new 0x000E else s
  if old < act ∧ act ≤ new then
    match s.gaugeAct kind unit with
    | some s => s
    | none => s.postGauge kind unit new 0x000F
  else s

/-- The corrected lines and rows of an epoch are counted anew (R386). -/
def State.newEpoch (s : State) : State :=
  { s with stackUnits := s.stackUnits.map fun k => { k with corrected := [], columnRows := [] } }

/-- GAUGE_EPOCH_END. With gauge scoring shed the counts are kept for the first epoch scored afterwards. -/
def State.endEpoch (s : State) : State :=
  let s := s.newEpoch
  if 3 ≤ s.fld rShedLevel then s
  else
    let s := s.countSnr
    let old := s.health.gauges
    let new := s.scoredGauges
    let s := { s with health := { s.health with gauges := new, counts := [] } }
    new.foldl (fun s p =>
      s.weigh (p.1 / 2 ^ 20) (p.1 % 2 ^ 20) ((Tbl.get old p.1).getD ⟨0, 0⟩).value p.2.value) s

/-! Keeper load and cores (R390, R399). -/

/-- Load as LOAD_PCT shows it. -/
def State.setLoad (s : State) (load : Nat) : State := s.setFld rShedLoadPct (min 100 load)

/-- KEEPER_SHED_RAISE. -/
def State.shedMore (s : State) (load : Nat) : State :=
  let s := s.setLoad load
  if 90 < load then s.setFld rShedLevel (min 4 (s.fld rShedLevel + 1)) else s

/-- KEEPER_SHED_LOWER. -/
def State.shedLess (s : State) (load : Nat) : State :=
  let s := s.setLoad load
  if load < 70 then s.setFld rShedLevel (s.fld rShedLevel - 1) else s

/-- KEEPER_CORE_FAULT: the tasks of a normal-world core move to the cores that remain. -/
def State.loseCore (s : State) (core : Nat) : State :=
  { s.queueFault with health := { s.health with
    faults := s.queueFault.health.faults
    cores := s.health.cores.filter (· ≠ core) } }

/-! Drain and bind-off (R402 to R405). -/

/-- RESULT of BINDOFF_CTL. -/
def State.bindResult (s : State) (r : Nat) : State := s.setFld rBindoffCtlResult r

/-- BINDOFF_CTL drain, by a fabric manager on queue pair 0x0001 or out of band: a Serving node drains, and returns every leaf
lent to it (R263). -/
def State.drainNode (s : State) (path : Path) : State :=
  match path with
  | .keeper | .i3c => s
  | .fm | .oob =>
    if s.node.state = .serving then (s.bindResult 2).returnAll.toNode .draining else s.bindResult 4

/-- The order in the BINDOFF window. -/
def State.orderBytes (s : State) : List Byte :=
  (List.range 256).flatMap fun k => leBytes 8 (s.stored 0x080 (0x800 + 8 * k)).toNat

/-- MANAGER of signer j. -/
def signer (bs : List Byte) (j : Nat) : Nat := num bs (16 + 200 * j) 1

/-- Signer j's key is the one its entry of MANAGER_KEYS names, and its signature verifies. -/
def State.signerOk (s : State) (bs : List Byte) (j : Nat) : Bool :=
  let key := slice bs (24 + 200 * j) 96
  signer bs j < 7 && Config.sha384 key = s.managerKey (signer bs j) &&
    Config.verifyOrder key (slice bs 0 16) (slice bs (120 + 200 * j) 96)

/-- TARGET_ROW of an order. -/
def orderRow (bs : List Byte) : Nat := num bs 8 8 % 2 ^ 48

/-- The node state takes a bind-off order. -/
def State.bindable (s : State) : Bool :=
  s.node.state = .serving || s.node.state = .draining || (s.node.state = .castOn && s.node.drainHeld)

/-- The order passes every other check of R404, with the quorum of R402. -/
def State.orderOk (s : State) (bs : List Byte) : Bool :=
  let m := s.managerKeys.length
  let count := num bs 3 1
  num bs 0 2 % 2 ^ 14 = s.nodeId && num bs 2 1 % 64 = s.domain && num bs 4 4 = s.fld rBindoffNonceNonce &&
    s.row + 16 ≤ orderRow bs && ((List.range count).map (signer bs)).dedup.length = count &&
    (List.range count).all (s.signerOk bs) && 3 ≤ m && m ≤ 7 && m / 2 + 1 ≤ count

/-- BINDOFF_CTL submit: the vault checks the order, and BINDOFF_NONCE takes a fresh value either way. -/
def State.submitOrder (s : State) : State :=
  let bs := s.orderBytes
  let able := s.bindable
  let ok := s.orderOk bs
  let (v, s) := s.free
  let s : State := s.setFld rBindoffNonceNonce v
  if !able then s.bindResult 4
  else if !ok then s.bindResult 3
  else
    let s := (s.bindResult 2).setFld rBindoffCtlTargetRow (orderRow bs)
    let s := { s with node := { s.node with bindoff := some (orderRow bs) } }
    if s.node.state = .serving then s.returnAll.toNode .draining else s

/-- BINDOFF_TARGET_ROW: from TARGET_ROW every cache command not yet admitted completes with NO_RESOURCE, DETAIL 0x1. -/
def State.reachTarget (s : State) : State :=
  match s.node.bindoff with
  | none => s
  | some r =>
    if s.row < r then s
    else
      let gone := s.work.held ++ s.work.waiting
      { s with work := { s.work with held := [], waiting := [] } }.dropWaiting (fun h => Outcome.noRes h 0x1) gone

/-- Keys, ticket secrets and sessions are erased. -/
def State.eraseSecrets (s : State) : State :=
  { s with vault := { s.vault with
    sessions := []
    tenants := s.vault.tenants.mapVals fun _ t => { t with key := none, keyDue := none, ticket := none } } }

/-- The stacks are zeroed, and with them every table they hold (R358). -/
def State.scrubStacks (s : State) : State :=
  { s with
    mem := []
    poison := []
    cat := State.reset.cat
    index := State.reset.index
    mover := { s.mover with moves := [], copies := [], granules := [], bytes := [], op := none }
    xport := { s.xport with keys := [], processFreed := [] } }

/-- BOUND_OFF: at TARGET_ROW + 4 the node leaves Draining, or Cast-on with a drain order held, for good. -/
def State.bindOff (s : State) : State :=
  match s.node.bindoff with
  | none => s
  | some r =>
    let able : Bool := s.node.state = .draining || (s.node.state = .castOn && s.node.drainHeld)
    if s.row < r + 4 ∨ !able then s
    else
      let s := s.work.cmds.foldl (fun s p => (s.abandonAppend p.1 fun h => Outcome.tooLate h .sync).complete p.1 (Outcome.tooLate p.2.head .sync)) s
      let s := (s.xport.conns.map Prod.fst).foldl (fun s k => s.qpError k 5) s
      (s.dropWork.eraseSecrets.scrubStacks).toNode .boundOff

/-- GAUGE_EPOCH_END (R393). -/
def execGaugeEpochEnd (s : State) : Out := .next s.endEpoch

/-- KEEPER_SHED_RAISE (R399). -/
def execKeeperShedRaise (load : Nat) (s : State) : Out := .next (s.shedMore load)

/-- KEEPER_SHED_LOWER (R399). -/
def execKeeperShedLower (load : Nat) (s : State) : Out := .next (s.shedLess load)

/-- KEEPER_CORE_FAULT (R390). -/
def execKeeperCoreFault (core : Nat) (s : State) : Out := .next (s.loseCore core)

/-- BINDOFF_TARGET_ROW (R405). -/
def execBindoffTargetRow (s : State) : Out := .next s.reachTarget

/-- BOUND_OFF (R405). -/
def execBoundOff (s : State) : Out := .next s.bindOff

end Sys2Proof.Machine
end

