-- ==== Sys2Proof/Machine/Registers.lean ====
section
/-! DEFINITION. What a read of a register returns: stored bits with those the hardware derives (R409, R411, R420, R422 to R424
and the register tables of every chapter). -/

namespace Sys2Proof.Machine

/-- A word with a field set. -/
def putBits (w : Word) (f : Field) (v : Nat) : Word := setBits w f.hi f.lo v

/-- 1 for true. -/
def bit (p : Bool) : Nat := if p then 1 else 0

/-- The stored bits of a register with the writes that take effect at the next row (R412). -/
def State.written (s : State) (b o : Nat) : Word :=
  s.mgmt.due.foldl (fun w d => if d.block = b ∧ d.offset = o then writeWord (fieldsAt b o) s.locked w d.value else w) (s.stored b o)

/-! The header (Table 17-2). -/

/-- Lanes of an annex port's link. -/
def State.annexLanes (s : State) (a : Nat) : Nat :=
  if s.fld (rAnnexLinkLink a) < 2 then 0 else 4 * 2 ^ s.fld (rAnnexLinkWidth a)

/-- Logical lanes of a port's link. -/
def State.portLanes (s : State) (p : Nat) : Nat :=
  match s.ports[p]? with
  | some q => match q.link with
    | .down | .training | .test => 0
    | _ => q.lanes
  | none => 0

/-- Regions of a stack in fallback. -/
def State.fallbackCount (s : State) (t : Nat) : Nat := ((List.range 256).filter (s.inFallback t)).length

/-- Logical arrays of a die out of service. -/
def State.arraysOut (s : State) (d : Nat) : Nat :=
  ((List.range 48).filter fun a => (s.fld (rOutMapArrays d)).testBit a).length

/-- IN_SERVICE of a block (R12). -/
def State.inService (s : State) (k : Kind) (n b : Nat) : Nat :=
  if !s.node.restDone ∨ (Tbl.get s.vault.blocks b).isSome then 0
  else match k with
  | .stackCtl => 64
  | .nbu => 256 - s.fallbackCount n
  | .att => 48 - s.arraysOut n
  | .port => s.portLanes n
  | .index => 16
  | .mover => 16 - s.mover.enginesFenced.length
  | .annex => s.annexLanes n
  | _ => 0

/-- A port's armed gate-list row differs from the armed pattern row (R58). -/
def State.skewed (s : State) : Bool := s.tm.gates.any fun g => g.armed ≠ s.pat.armed

/-- STATE of a block. -/
def State.blockState (s : State) (k : Kind) (n b : Nat) : Nat :=
  match s.node.state, Tbl.get s.vault.blocks b with
  | .off, _ | .boot, _ => 0
  | .training, _ => 1
  | _, some .cut | _, some .gated => 4
  | .fault, _ => if k = .keeper ∨ k = .ident then 2 else 5
  | _, _ => if s.inService k n b < k.nominal then 3 else 2

/-- STATUS. -/
def State.statusWord (s : State) (k : Kind) (n b : Nat) (w : Word) : Word :=
  setBits (setBits (setBits (setBits w 31 16 (s.inService k n b)) 5 5 (bit (k = .seqr && s.skewed))) 4 4 (bit (s.isClaimed b)))
    3 0 (s.blockState k n b)

/-! The data path's blocks. -/

/-- Row Sequencer (Table 2-3). -/
def State.readSeqr (s : State) (o : Nat) (w : Word) : Word :=
  match o with
  | 0x020 => putBits w rRowNowRowNumber (row48 s.row)
  | 0x028 => putBits w rSyncStatusSyncState (match s.sync.state with
      | .unlocked => 0
      | .holdover => 1
      | .locked => 2)
  | 0x038 => putBits (putBits w rPatIdsPendingPatternId (patId s.pat.pending)) rPatIdsActivePatternId (patId s.pat.active)
  | _ => w

/-- Catalogue (Table 3-8). The lists are filled at Training. -/
def State.readCat (s : State) (o : Nat) (w : Word) : Word :=
  let up (n : Nat) : Nat := if s.node.restDone then n else 0
  let slots (p : SeqState → Bool) : Nat := (s.cat.seqs.filter fun x => p x.2.state).length
  match o with
  | 0x020 => putBits w rFreeGranulesCount (up s.freeGranules)
  | 0x028 => putBits w rFreeCardsCount (up s.freeCards)
  | 0x030 => putBits w rFreeTablePagesCount (up s.freePages)
  | 0x038 =>
    putBits (putBits w rSeqSlotsRetired (slots (· = .retired))) rSeqSlotsFree (up (seqSlots - slots (· ≠ .closed)))
  | 0x050 => putBits w rOldestWalkRowRow (row48 s.oldestWalk)
  | _ => w

/-- Spares of an NBU group neither in use nor failed. -/
def State.nbuSpares (s : State) (t : Nat) : Nat :=
  match s.stackUnits[t]? with
  | some k => (k.spares.filter fun x => match x with
    | .free | .testing _ _ => true
    | _ => false).length
  | none => 0

/-- NBU group (Table 6-4). -/
def State.readNbu (s : State) (t o : Nat) (w : Word) : Word :=
  if o = 0x020 then
    if !s.node.restDone then w
    else
      let fb := s.fallbackCount t
      putBits (putBits (putBits w (rNbuStatusSparesLeft t) (s.nbuSpares t)) (rNbuStatusInService t) (256 - fb))
        (rNbuStatusFallbackCount t) fb
  else if 0x030 ≤ o ∧ o ≤ 0x048 then
    (List.range 64).foldl (fun w i => setBits w i i (bit (s.inFallback t ((o - 0x030) / 8 * 64 + i)))) w
  else w

/-- Spare cells of a physical array left. -/
def State.cellsLeft (s : State) (k : Nat) : Nat := 4 - Tbl.num s.arrays.spareCells k

/-- Attention die (Tables 7-5, 17-8). -/
def State.readAtt (s : State) (d o : Nat) (w : Word) : Word :=
  if !s.node.restDone then w
  else if o = 0x020 then
    putBits (putBits (putBits w (rArrayStatusSpareCellsLeft d)
      ((List.range 52).foldl (fun n k => n + s.cellsLeft (d * 52 + k)) 0))
      (rArrayStatusSpareArraysLeft d) (4 - Tbl.num s.arrays.spareArrays d))
      (rArrayStatusInService d) (48 - s.arraysOut d)
  else if 0x4000 ≤ o ∧ o % 0x4000 = 0 then
    let a := o / 0x4000 - 1
    setBits (setBits w 16 16 (bit (!(s.fld (rOutMapArrays d)).testBit a))) 10 8 (s.cellsLeft (s.physicalArray d a))
  else w

/-- Valid entries of the Index. -/
def State.validEntries (s : State) (p : Nat → Bool) : Nat := (s.index.entries.filter fun x => x.2.valid && p x.1).length

/-- Index (Table 9-2). -/
def State.readIndex (s : State) (o : Nat) (w : Word) : Word :=
  if o = 0x020 then putBits w rIndexUsedCount (s.validEntries fun _ => true)
  else if 0x040 ≤ o ∧ o ≤ 0x0B8 then setBits w 48 32 (s.validEntries fun n => n / setSize = (o - 0x040) / 8)
  else w

/-- A pool device takes new leaves: it is neither fenced nor evacuating. -/
def State.takesLeaves (s : State) (dev : Nat) : Bool :=
  !(s.fld rPoolStatusFenced).testBit dev && !(s.fld rPoolStatusEvacuating).testBit dev

/-- Free annex granules on devices that take leaves. -/
def State.annexFreeCount (s : State) : Nat :=
  let n := s.mover.devices
  ((List.range n).filter s.takesLeaves).foldl (fun k d =>
    k + ((s.mover.size + n - 1 - d) / n - (s.mover.granules.filter fun g => g % n = d).length)) 0

/-- Mover (Table 10-6). -/
def State.readMover (s : State) (o : Nat) (w : Word) : Word :=
  match o with
  | 0x068 => putBits w rAnnexFreeCount s.annexFreeCount
  | 0x078 => putBits (putBits w rLoansSlotsUsed s.cat.lent.length) rLoansGranulesUsed s.lentGranules
  | _ => w

/-- Annex port (Table 17-8): only A0 has an ENDPOINT. -/
def readAnnex (a o : Nat) (w : Word) : Word := if o = 0x020 ∧ a ≠ 0 then setBits w 32 32 0 else w

/-! Ports and transport. -/

/-- LINK codes (Table 11-5). -/
def Link.code : Link → Nat
  | .down => 0 | .training => 1 | .up => 2 | .swapping => 3 | .narrowing => 4 | .test => 5 | .awaitSecure => 6

/-- WIDTH of a number of lanes. -/
def widthCode (n : Nat) : Nat := if n = 8 then 0 else if n = 4 then 1 else if n = 2 then 2 else 3

/-- A lane's registers. -/
def State.readLane (s : State) (p lane o : Nat) (w : Word) : Word :=
  match s.ports[p]? with
  | none => w
  | some q =>
    if o = 0x000 then
      setBits (setBits (setBits (setBits w 39 32 (s.snr p lane)) 2 2 (bit (q.failed.contains lane)))
        1 1 (bit (s.laneLocked p lane))) 0 0 (bit (s.laneLocked p lane))
    else if o = 0x008 ∧ s.spareRuns p lane then setBits (setBits w 7 5 2) 4 2 2
    else w

/-- Network port (Table 11-5). -/
def State.readPort (s : State) (p o : Nat) (w : Word) : Word :=
  match s.ports[p]? with
  | none => w
  | some q =>
    if 0x1000 ≤ o then s.readLane p (o / 0x1000 - 1) (o % 0x1000) w
    else if o = 0x028 then
      let w := putBits (putBits w (rPortStatusPartnerNode p) q.partnerNode) (rPortStatusPartnerPort p) q.partnerPort
      let w := putBits (putBits w (rPortStatusLink p) q.link.code) (rPortStatusWidth p)
        (if q.link = .down ∧ q.lanes = 0 ∧ s.portMode p = 0 then 0 else widthCode q.lanes)
      putBits (putBits (putBits w (rPortStatusLeader p) (bit (s.portMode p = 2 && q.link ≠ .down && s.leads p q)))
        (rPortStatusSpareInUse p) (bit ((lanesOf q.txMap).contains 8))) (rPortStatusFailedLanes p) (laneMask q.failed)
    else if o = 0x030 then putBits w (rLaneMapMap p) q.txMap
    else if o = 0x048 then putBits w (rMacsecStatusSaLive p) (bit q.saLive)
    else w

/-- Transport Engine (Table 12-8). -/
def State.readXport (s : State) (o : Nat) (w : Word) : Word :=
  let up (n : Nat) : Nat := if s.node.restDone then n else 0
  match o with
  | 0x020 =>
    putBits (putBits w rQpUsageShared (((s.xport.conns.filter fun p => p.2.shared).map fun p => connQp p.1).dedup.length))
      rQpUsageFree (up s.freeQps)
  | 0x028 => putBits w rQpLimitsPartnersFree (up (1048576 - s.partners))
  | 0x038 =>
    let busy := (s.xport.keys.filter fun p => p.2.state ≠ .free).length
    putBits (putBits w rKeyUsageRetired (s.xport.keys.filter fun p => p.2.state = .retired).length)
      rKeyUsageFree (up (keyCount - busy))
  | _ => w

/-- Traffic Manager (Table 13-4). -/
def State.readTm (s : State) (o : Nat) (w : Word) : Word :=
  let used (l : List (List Held)) (i unit : Nat) : Nat := inUse s.now (l.getD i []) / unit
  if o = 0x028 then
    putBits (putBits w rBufferNd1Used (used s.tm.shared 1 65536)) rBufferNd0Used (used s.tm.shared 0 65536)
  else if 0x10000 ≤ o ∧ o < 0x90000 then
    let p := o / 0x10000 - 1
    match o % 0x10000, s.tm.gates[p]? with
    | 0x008, some g => setBits (setBits w 63 32 (gateId g.pending)) 31 0 (gateId g.active)
    | 0x018, _ => setBits (setBits w 26 16 (used s.tm.mgmt p 128)) 10 0 (used s.tm.general p 128)
    | _, _ => w
  else w

/-! Keeper and identity. -/

/-- Bit k of word j: block 64j + k passes. -/
def blockBits (j : Nat) (p : Nat → Bool) : Word :=
  (List.range 64).foldl (fun w k => setBits w k k (bit (p (64 * j + k)))) 0

/-- A part of Table 16-4. -/
def isPart (kind unit : Nat) : Bool :=
  match kind with
  | 1 => unit < 12 * 1024
  | 2 => unit < 12 * 272
  | 3 => unit < 4 * 3536
  | 4 => unit < 72
  | 5 => unit < 16
  | 6 => unit < 17
  | 7 => unit = 0
  | _ => false

/-- GAUGE_VALUE of the part that GAUGE_SEL names. The Reset value of GAUGE_SEL names none yet, and GAUGE_VALUE reads as its Reset column
says (R9; DEDUCED, log entry 176). -/
def State.readGauge (s : State) (w : Word) : Word :=
  let kind := s.fld rGaugeSelKind
  let unit := s.fld rGaugeSelInstance
  if isPart kind unit then
    let g := s.gaugeAt kind unit
    putBits (putBits w rGaugeValuePeak g.peak) rGaugeValueValue g.value
  else if kind = 0 ∧ unit = 0 then w
  else putBits w rGaugeValueAbsent 1

/-- Keeper (Tables 15-6, 16-9). -/
def State.readKeeper (s : State) (o : Nat) (w : Word) : Word :=
  if o = 0x088 then s.tenantCount
  else if 0x090 ≤ o ∧ o ≤ 0x0A8 then blockBits ((o - 0x090) / 8) s.isClaimed
  else if o = 0x0C8 then
    putBits (putBits w rFaultQueueWaiting s.health.faults.length) rFaultQueueOldestRows
      (match s.health.faults with
        | r :: _ => min 65535 (s.row - r)
        | [] => 0)
  else if o = 0x0D8 then s.readGauge w
  else w

/-- The bytes of an event record (Table 17-5). -/
def eventBytes (e : Event) : List Byte :=
  leBytes 2 e.kind ++ leBytes 1 e.block ++ [0] ++ leBytes 2 e.unit ++ leBytes 2 (e.tenant % 4096) ++ leBytes 8 e.row ++
    leBytes 4 e.handle ++ leBytes 4 e.arg0 ++ leBytes 8 e.arg1

/-- Eight bytes of the event ring. -/
def State.readRing (s : State) (o : Nat) : Word :=
  let x := o - 0x10000
  match Tbl.get s.mgmt.ring (x / 32) with
  | some e => BitVec.ofNat 64 (num (eventBytes e) (x % 32) 8)
  | none => 0

/-- THERM_ALERT_N is low (R429). -/
def State.alertLow (s : State) : Bool :=
  s.power.dieTemps.any (fun t => t.alert || t.emergency) || s.power.stackTemps.any (fun t => t.alert || t.emergency) ||
    s.node.tripped || s.power.railOut ≠ []

/-- THERMAL_STATUS. -/
def State.readThermal (s : State) (w : Word) : Word :=
  let w := ((List.range 20).zip s.power.dieTemps).foldl (fun w x => setBits w (20 + x.1) (20 + x.1) (bit x.2.isCut)) w
  putBits (putBits (putBits (putBits w rThermalStatusTrip (bit s.node.tripped)) rThermalStatusEmergency (bit s.emergency))
    rThermalStatusThrottle (bit ((s.power.dieTemps.take 4).any fun t => t.alert))) rThermalStatusAlert (bit s.alertLow)

/-- ERROR_SUMMARY [15:0] of a block is not zero. -/
def State.hasError (s : State) (b : Nat) : Bool := (blockAt b).isSome && bits (s.stored b 0x010) 15 0 ≠ 0

/-- Identity and global status (Tables 17-6, 18-9). -/
def State.readIdent (s : State) (o : Nat) (w : Word) : Word :=
  if o = 0x030 then setBits (setBits 0 63 48 Config.stepping.toNat) 47 0 Config.serial.toNat
  else if o = 0x038 then setBits 0 31 0 Config.enterprise.toNat
  else if o = 0x040 then
    putBits (putBits w rGlobalStatusShortfall (bit (s.node.restDone && s.shortfall))) rGlobalStatusNodeState s.node.state.code
  else if 0x060 ≤ o ∧ o ≤ 0x078 then blockBits ((o - 0x060) / 8) s.hasError
  else if o = 0x0A0 then s.readThermal w
  else if o = 0x0A8 then
    s.power.railOut.foldl (fun w k => setBits w k k 1) w
  else w

/-- What a register reads as. -/
def State.readReg (s : State) (b o : Nat) : Word :=
  match blockAt b with
  | none => 0
  | some (k, n) =>
    let w := s.written b o
    if o = 0x008 then s.statusWord k n b w
    else if o < 0x20 then w
    else match k with
    | .seqr => s.readSeqr o w
    | .cat => s.readCat o w
    | .nbu => s.readNbu n o w
    | .att => s.readAtt n o w
    | .index => s.readIndex o w
    | .mover => s.readMover o w
    | .annex => readAnnex n o w
    | .port => s.readPort n o w
    | .xport => s.readXport o w
    | .tm => s.readTm o w
    | .keeper => s.readKeeper o w
    | .ident => s.readIdent o w
    | .stackCtl => w

/-- An offset has a register or a window byte of its own (R409): its eight bytes lie in one. -/
def State.present (s : State) (b o : Nat) : Bool :=
  o % 8 = 0 && o < 0x100000 &&
    (!(fieldsAt b o).isEmpty || (gateWindow b o).isSome || (inPatWindow b o && (s.patByte o).isSome) || inRing b o)

/-- What eight bytes at an offset read as; zero where there is nothing. -/
def State.readWord (s : State) (b o : Nat) : Word :=
  if !s.present b o then 0
  else match gateWindow b o with
  | some (p, mine, x) => match s.tm.gates[p]? with
    | some g => Mem.word (if mine then g.pending else g.active) x
    | none => 0
  | none =>
    if inRing b o then s.readRing o
    else if inPatWindow b o then match s.patByte o with
      | some a => Mem.word s.shownBank a
      | none => 0
    else s.readReg b o

/-- A read or a write that names no register: BAD_ACCESS, except where the block is unassigned. -/
def State.badAccess (s : State) (b o : Nat) : State := if (blockAt b).isSome then s.markAccess b 2 o else s

end Sys2Proof.Machine
end

