-- ==== Sys2Proof/Machine/RegWrite.lean ====
section
/-! DEFINITION. Writes of registers: who may write, what has no effect, and the operations of OP fields (R9, R54, R57, R92,
R164, R191, R237, R244, R280, R293, R300, R334, R347, R360, R361, R374, R381, R384, R402, R409, R412 to R417, R423, R425). -/

namespace Sys2Proof.Machine

/-! Who reaches what (R413, R416). -/

/-- Power is on and PORST_N is released: the always-on part answers. -/
def State.powered (s : State) : Bool := s.node.state ≠ .off && !s.node.porstLow

/-- What the out-of-band port reaches of the always-on part: block 0x0F0, BOOT_STATUS, RESET_CAUSE and RESET_CTL. -/
def alwaysOn (b o : Nat) : Bool := b = 0x0F0 || (b = 0x080 && (o = 0x020 || o = 0x028 || o = 0x030))

/-- FLASH_CTL and FLASH_DATA. -/
def flashPart (b o : Nat) : Bool := b = 0x0F0 && (o = 0x088 || (0x30000 ≤ o && o < 0x30100))

/-- The registers that I3C reads. -/
def i3cPart (b o : Nat) : Bool := b = 0x0F0 || (b = 0x080 && (o = 0x020 || o = 0x028)) || (b < 0x00C && o = 0x038)

/-- The node is at Attested or beyond, and not lost. -/
def State.attested (s : State) : Bool :=
  match s.node.state with
  | .off | .boot | .training | .fault => false
  | _ => true

/-- Fault was entered from Boot: no image passed. -/
def State.faultFromBoot (s : State) : Bool :=
  s.fld rGlobalStatusFaultCause = 0x02 || s.fld rGlobalStatusFaultCause = 0x0A

/-- A path reaches a register (Table 17-3). -/
def State.reaches (s : State) (path : Path) (write : Bool) (b o : Nat) : Bool :=
  match path with
  | .keeper => s.runs && s.fld rBootStatusImage ≠ 0
  | .fm => s.runs && s.attested
  | .oob => s.powered && (alwaysOn b o || (s.runs && (s.attested || (s.node.state = .fault && !s.faultFromBoot))))
  | .i3c => s.powered && (if write then flashPart b o else i3cPart b o)

/-- Registers that only the Keeper writes (R416). -/
def keeperOnly (b o : Nat) : Bool :=
  match blockAt b with
  | some (.mover, _) => o = 0x020 || o = 0x050 || o = 0x058
  | some (.xport, _) => o = 0x060
  | some (.nbu, _) => o = 0x080
  | some (.att, _) => o = 0x060 || 0x4000 ≤ o
  | some (.keeper, _) => o = 0x0B0 || o = 0x0E0
  | some (.annex, _) => o = 0x028 || o = 0x030
  | _ => false

/-! What has no effect. -/

/-- A register's writes are protected now (R57, R300, R384, R417, R425). -/
def State.protectedNow (s : State) (b o : Nat) : Bool :=
  match blockAt b with
  | some (.keeper, _) => o = 0x048 && s.fld rTenantCtlResult = 1
  | some (.ident, _) => (o = 0x088 && s.fld rFlashCtlResult = 1) || (o = 0x090 && s.emergency)
  | some (.port, _) => s.prbsHeld b o
  | _ => false

/-- A write without effect that records PROTECTED. -/
def State.refuseProtected (s : State) (b o : Nat) : Nat × State := (3, s.markAccess b 1 o)

/-- A pending gate list is protected: a switch is armed, or one has just been made (R347). -/
def Gate.locked (g : Gate) : Bool := g.armed.isSome || g.protect.isSome

/-- The pending bank is protected (R57). -/
def Pat.locked (p : Pat) : Bool := p.armed.isSome || p.protect.isSome

/-- A write into a gate list's window (R347, R349). -/
def State.writeGate (s : State) (b o p : Nat) (mine : Bool) (x : Nat) (v : Word) : Nat × State :=
  match s.tm.gates[p]? with
  | none => (1, s)
  | some g => if !mine then (0, s) else if g.locked then s.refuseProtected b o else (0, s.putGate p x v)

/-- A write into the pattern window (R423). -/
def State.writePattern (s : State) (b o : Nat) (v : Word) : Nat × State :=
  match s.patByte o with
  | none => (1, s.badAccess b o)
  | some a =>
    if s.fld rPatWindowBank = 1 ∨ s.pat.locked then s.refuseProtected b o
    else (0, { s with pat := { s.pat with pending := Mem.write s.pat.pending a (leBytes 8 v.toNat) } })

/-- Registers whose writes take effect at the next row (R237, R281, R334, R349). -/
def nextRowWrite (b o : Nat) : Bool :=
  match blockAt b with
  | some (.index, _) => 0x040 ≤ o && o ≤ 0x0B8
  | some (.mover, _) => o = 0x020 || o = 0x028 || (0x030 ≤ o && o ≤ 0x058) || o = 0x070 || (0x080 ≤ o && o ≤ 0x0B8)
  | some (.xport, _) => o = 0x030 || o = 0x040
  | some (.tm, _) => o = 0x020 || o = 0x028
  | _ => false

/-! Switches (R54, R347). -/

/-- RESULT of an arm: the row, the armed row, the new one, and whether what is pending passes its checks. -/
def armResult (row : Nat) (armed : Option Nat) (target : Nat) (ok : Bool) : Nat :=
  let fresh := if target < row + 16 then 3 else if ok then 1 else 4
  match armed with
  | none => fresh
  | some a => if a < row + 16 then 5 else fresh

/-- RESULT of a cancel. -/
def cancelResult (row : Nat) (armed : Option Nat) : Nat :=
  match armed with
  | some a => if a < row + 16 then 5 else 0
  | none => 0

/-- PAT_SWITCH arm: on arming, the bank's digest extends measurement 10, and its programs are loaded beside those that are resident,
none of which is released before SWITCH_ROW + 2 (R55, R137, R369). -/
def State.armPattern (s : State) (target : Nat) : State :=
  let r := armResult s.row s.pat.armed target (s.bankOk target)
  let s := s.setFld rPatSwitchResult r
  if r = 1 then
    let s := { s with pat := { s.pat with armed := some target } }
    { s with node := { s.node with resident := (s.node.resident ++ s.residentSet).dedup } }.measureBank target
  else s.mark 0x070 7

/-- PAT_SWITCH cancel. -/
def State.cancelPattern (s : State) : State :=
  let r := cancelResult s.row s.pat.armed
  let s := s.setFld rPatSwitchResult r
  if r = 5 then s.mark 0x070 7
  else { s with pat := { s.pat with armed := none } }

/-- GATE_SWITCH arm of a port. -/
def State.armGate (s : State) (p target : Nat) : State :=
  match s.tm.gates[p]? with
  | none => s
  | some g =>
    let r := armResult s.row g.armed target (gateListOk g.pending)
    let s := s.setFld (rGateSwitchResult p) r
    if r = 1 then s.setGate p fun g => { g with armed := some target } else s.mark 0x040 7

/-- GATE_SWITCH cancel of a port. -/
def State.cancelGate (s : State) (p : Nat) : State :=
  match s.tm.gates[p]? with
  | none => s
  | some g =>
    let r := cancelResult s.row g.armed
    let s := s.setFld (rGateSwitchResult p) r
    if r = 5 then s.mark 0x040 7 else s.setGate p fun g => { g with armed := none }

/-! QP_INSPECT (R334). -/

/-- STATE codes of QP_STATE. -/
def QpState.code : QpState → Nat
  | .ready => 1 | .closing => 2 | .error => 3 | .quarantine => 4

/-- QP_STATE of a queue pair; of a shared-peer one, its first partner record. -/
def State.qpWord (s : State) (qp : Nat) : Word :=
  match s.xport.conns.filter fun p => connQp p.1 = qp with
  | [] => 0
  | (k, c) :: t =>
    let n := ((k, c) :: t).foldl (fun n p => n + s.commandsOn p.1) 0
    let w := putBits (putBits (putBits 0 rQpStateState c.state.code) rQpStateClass c.cls) rQpStateShared (bit c.shared)
    let w := putBits (putBits (putBits w rQpStateCompat (bit c.compat)) rQpStateRelay (bit c.relay)) rQpStateTenant c.tenant
    let w := putBits (putBits w rQpStatePeerNode (if c.shared then 0 else c.peerNode)) rQpStatePeerDomain c.peerDomain
    putBits (putBits w rQpStateErrorCause c.cause) rQpStateInFlight n

/-- QP_INSPECT read. -/
def State.inspectQp (s : State) (qp : Nat) : State :=
  if qp < 4 then s.setFld rQpInspectResult 3
  else (s.setStored 0x038 0x068 (s.qpWord qp)).setFld rQpInspectResult 2

/-- QP_INSPECT close: Error, cause 0x5. -/
def State.closeQp (s : State) (qp : Nat) : State :=
  if qp < 4 then s.setFld rQpInspectResult 3
  else
    let ks := (s.xport.conns.filter fun p => connQp p.1 = qp).map Prod.fst
    (ks.foldl (fun s k => s.qpError k 5) s).setFld rQpInspectResult 2

/-! Operations. -/

/-- What the OP of a written register does. Reserved values, and 0, do nothing. -/
def State.operate (s : State) (path : Path) (b o : Nat) (v : Word) : State :=
  let op2 := bits v 63 62
  let op3 := bits v 63 61
  match blockAt b with
  | some (.seqr, _) =>
    if o ≠ 0x030 then s
    else if op2 = 1 then s.armPattern (bits v 47 0) else if op2 = 2 then s.cancelPattern else s
  | some (.cat, _) => if o = 0x048 ∧ op2 = 1 then s.compactBegin else s
  | some (.nbu, t) => if o = 0x080 ∧ op2 = 1 then s.mapNbu t (bits v 7 0) else s
  | some (.att, d) =>
    if o ≠ 0x060 then s
    else if op2 = 1 then s.mapArray d (bits v 5 0) true else if op2 = 2 then s.mapArray d (bits v 5 0) false else s
  | some (.index, _) =>
    if o ≠ 0x028 then s
    else if op2 = 1 then s.removeEntry (bits v 19 0) else if op2 = 2 then s.flushSet (bits v 23 20) else s
  | some (.mover, _) =>
    if o ≠ 0x020 then s
    else if op2 = 1 then s.annexOp (.evacuate (bits v 20 16)) else if op2 = 2 then s.annexOp .rebuild else s
  | some (.port, p) => if o = 0x038 then s.portCtl p op3 (bits v 2 0) else s
  | some (.xport, _) =>
    if o ≠ 0x060 then s
    else if op2 = 1 then s.inspectQp (bits v 15 0) else if op2 = 2 then s.closeQp (bits v 15 0) else s
  | some (.tm, _) =>
    if o < 0x10000 ∨ 0x90000 ≤ o ∨ o % 0x10000 ≠ 0 then s
    else if op2 = 1 then s.armGate (o / 0x10000 - 1) (bits v 47 0)
    else if op2 = 2 then s.cancelGate (o / 0x10000 - 1) else s
  | some (.keeper, _) =>
    match o with
    | 0x030 => if op2 = 1 then s.fullReset (resetCauseOf path) 0x01 else s
    | 0x038 => if op2 = 1 then s.admitNode else if op2 = 2 then s.commitNode else s
    | 0x048 =>
      let t := bits v 11 0
      if op3 = 1 then s.admitTenant t (bits v 12 12 = 1)
      else if op3 = 2 then s.withdrawTenant t
      else if op3 = 3 then s.readTenant t else s
    | 0x0B0 =>
      let k := bits v 7 0
      if op3 = 1 then s.holdReq false k
      else if op3 = 2 then s.holdReq true k
      else if op3 = 3 then s.restoreReq k
      else if op3 = 4 then s.captureReq k
      else if op3 = 5 then s.cancelReq else s
    | 0x0F0 => if op2 = 1 then s.drainNode path else if op2 = 2 then s.submitOrder else s
    | _ => s
  | some (.ident, _) => if o = 0x088 ∧ (op2 = 1 ∨ op2 = 2) then s.flashBegin op2 (bits v 26 0) else s
  | _ => s

/-- A write that nothing turns away: at once, or, where it takes effect at the next row, kept until then; and its operation. -/
def State.acceptWrite (s : State) (path : Path) (b o : Nat) (v : Word) : State :=
  if nextRowWrite b o then
    let d : DueWrite := ⟨s.row, b, o, v⟩
    { s with mgmt := { s.mgmt with due := s.mgmt.due ++ [d] } }.operate path b o v
  else (s.putWord b o v).operate path b o v

/-- A write: its RESULT (R414), and what it leaves. -/
def State.writeReg (s : State) (path : Path) (b o : Nat) (v : Word) : Nat × State :=
  if !s.reaches path true b o then (1, s)
  else if o % 8 ≠ 0 ∨ 0x100000 ≤ o ∨ inRing b o then (1, s.badAccess b o)
  else match gateWindow b o with
  | some (p, mine, x) => s.writeGate b o p mine x v
  | none =>
    if inPatWindow b o then s.writePattern b o v
    else if (fieldsAt b o).isEmpty then (1, s.badAccess b o)
    else if keeperOnly b o ∧ path ≠ .keeper then (4, s)
    else if isRol b o ∧ s.locked then (2, s.markAccess b 0 o)
    else if s.protectedNow b o then s.refuseProtected b o
    else if b = 0x080 ∧ o = 0x040 ∧ s.node.state ≠ .castOn then (0, s)
    else (0, s.acceptWrite path b o v)

/-- A write's effect. -/
def State.regWrite (s : State) (path : Path) (b o : Nat) (v : Word) : State := (s.writeReg path b o v).2

/-- Writes accepted in an earlier row take effect (R412); a lower QUOTA returns leaves (R263). -/
def State.applyWrite (s : State) (d : DueWrite) : State :=
  let quota := s.fld rLoanCtlQuota
  let s := s.putWord d.block d.offset d.value
  if s.fld rLoanCtlQuota < quota then s.returnOverQuota else s

/-- NEXT_ROW_WRITE_EFFECT. -/
def State.applyDue (s : State) : State :=
  let ready := s.mgmt.due.filter fun d => d.row < s.row
  ready.foldl State.applyWrite { s with mgmt := { s.mgmt with due := s.mgmt.due.filter fun d => s.row ≤ d.row } }

/-! Accesses by local offset (R408, R413). -/

/-- The least local offset of the register space, and the first past it. -/
def regBase : Nat := 0x0FF000000000
def regTop : Nat := 0x0FF010000000

/-- The value an access returns, its RESULT, and what it leaves: a write where `write` holds a value, else a read. -/
def State.access (s : State) (path : Path) (addr : Nat) (write : Option Word) : Nat × Word × State :=
  if addr < regBase ∨ regTop ≤ addr then (1, 0, s)
  else
    let b := (addr - regBase) / 0x100000
    let o := (addr - regBase) % 0x100000
    match write with
    | none =>
      if !s.reaches path false b o then (1, 0, s)
      else if s.present b o then (0, s.readWord b o, s)
      else (1, 0, s.badAccess b o)
    | some v =>
      let (r, s) := s.writeReg path b o v
      (r, if r = 1 then 0 else s.readWord b o, s)

/-! Management messages (R414, R415). -/

/-- A message is a REQUEST in its proper form. -/
def wellFormedRequest (m : MgmtMsg) : Bool :=
  m.kind = 1 && 1 ≤ m.count && m.count ≤ 63 && m.length = 8 + 16 * m.count && m.length ≤ 1024 && m.entries.length = m.count

/-- The node has been reset: BOOT_COUNT has moved on. -/
def State.resetSince (s t : State) : Bool := s.fld rResetCauseBootCount ≠ t.fld rResetCauseBootCount

/-- Act on entries in list order: the answers, none where an entry has reset the node, and what they leave. -/
def State.entries (s : State) (path : Path) (done : List ReplyEntry) : List MgmtEntry → Option (List ReplyEntry) × State
  | [] => (some done, s)
  | e :: t =>
    if 2 ≤ e.op then s.entries path (done ++ [⟨e.op, e.addr, 5, 0⟩]) t
    else
      let (r, w, s') := s.access path e.addr (if e.op = 1 then some e.value else none)
      if s.resetSince s' then (none, s') else s'.entries path (done ++ [⟨e.op, e.addr, r, w⟩]) t

/-- A message that is discarded as a whole. -/
def State.discardMgmt (s : State) : State := s.markAccess 0x080 2 0

/-- ROW of a REPLY: the low 32 bits of the row. -/
def State.replyRow (s : State) : Nat := s.row % 2 ^ 32

/-- MANAGEMENT_REQUEST on queue pair 0x0001, from a node of FM_NODES. -/
def State.manage (s : State) (src : Nat) (m : MgmtMsg) : State :=
  if !(s.runs && s.attested) ∨ !s.managers.contains src then s
  else if !wellFormedRequest m then s.discardMgmt
  else match s.entries .fm [] m.entries with
  | (some es, s) => s.send (.mgmtReply .fm src m.tag s.replyRow es)
  | (none, s) => s

/-- The Ethernet broadcast address. -/
def broadcastMac : Nat := 0xFFFFFFFFFFFF

/-- The MAC addresses of the out-of-band port: that of SERIAL, and once CONFIG has been applied that of the node. -/
def State.oobMacs (s : State) : List Nat :=
  let own := 0x0A * 2 ^ 40 + Config.serial.toNat % 2 ^ 40
  let node := 0x0251 * 2 ^ 32 + s.domain * 2 ^ 24 + s.nodeId * 2 ^ 8 + 0x08
  if s.locked then [node, own] else [own]

/-- Replies kept for each SRC_ID: the last 64 TAGs. -/
def keepReply (l : List Kept) (k : Kept) : List Kept :=
  let l := l.filter fun x => !(x.srcId = k.srcId && x.tag = k.tag)
  let mine := l.filter fun x => x.srcId = k.srcId
  let l := if 64 ≤ mine.length then match mine with
    | x :: _ => l.erase x
    | [] => l
    else l
  l ++ [k]

/-- A management message of the out-of-band port; a broadcast one is applied only where it holds no read, and draws no reply. -/
def State.oobManage (s : State) (srcId : Nat) (broadcast : Bool) (m : MgmtMsg) : State :=
  if !wellFormedRequest m then s.discardMgmt
  else if broadcast then
    if m.entries.any fun e => e.op = 0 then s else (s.entries .oob [] m.entries).2
  else match s.mgmt.kept.find? fun k => k.srcId = srcId && k.tag = m.tag && k.request = m with
  | some k => s.sendAside (.mgmtReply .oob srcId m.tag k.row k.reply)
  | none => match s.entries .oob [] m.entries with
    | (some es, s) =>
      { s with mgmt := { s.mgmt with kept := keepReply s.mgmt.kept ⟨srcId, m.tag, m, es, s.replyRow⟩ } }.sendAside
        (.mgmtReply .oob srcId m.tag s.replyRow es)
    | (none, s) => s

/-- OOB_FRAME (R415). -/
def State.oob (s : State) (f : OobFrame) : State :=
  let broadcast : Bool := f.mac = broadcastMac && f.dstNode = 0x3FFF
  if !s.powered ∨ f.etherType ≠ 0x88B5 ∨ !(broadcast || s.oobMacs.contains f.mac) then s
  else match f.body with
  | .mgmt m => s.oobManage f.srcId broadcast m
  | .spdm session r => if s.vaultUp ∧ !broadcast then s.spdm session r else s
  | .event => s.discardMgmt

/-- I3C_ACCESS (R417): a read is answered with the register's value. -/
def State.i3c (s : State) (addr : Nat) (write : Option Word) : State :=
  if !s.powered then s
  else
    let (_, w, s) := s.access .i3c addr write
    match write with
    | none => s.sendAside (.i3cReply w)
    | some _ => s

end Sys2Proof.Machine
end

