-- ==== Sys2Proof/Machine/RegOps.lean ====
section
/-! DEFINITION. The commands that are accesses to registers: each writes the register that holds its operation, or is a whole
message (chapters 02, 03, 06, 07, 09 to 18). -/

namespace Sys2Proof.Machine

/-- The value that writes OP and an operand into a register, its other fields as they were last written. -/
def State.opWord (s : State) (b o hi lo op : Nat) : Word := setBits (s.written b o) hi lo op

/-- Write an OP of two bits with an operand in bits [h:l]. -/
def State.opWrite (s : State) (path : Path) (b o op h l v : Nat) : State :=
  s.regWrite path b o (setBits (s.opWord b o 63 62 op) h l v)

/-- Write an OP of three bits with an operand in bits [h:l]. -/
def State.opWrite3 (s : State) (path : Path) (b o op h l v : Nat) : State :=
  s.regWrite path b o (setBits (s.opWord b o 63 61 op) h l v)

/-- Write an OP alone. -/
def State.opOnly (s : State) (path : Path) (b o op : Nat) : State := s.regWrite path b o (s.opWord b o 63 62 op)

/-- Write both words of a window entry, where the path reaches it and it exists. -/
def State.writeEntry (s : State) (path : Path) (b o : Nat) (f : State → State) : State :=
  if !s.reaches path true b o then s
  else if (fieldsAt b o).isEmpty then s.badAccess b o
  else f s

/-- PAT_SWITCH_ARM (R54). -/
def execPatSwitchArm (path : Path) (row : Nat) (s : State) : Out := .next (s.opWrite path 0x070 0x030 1 47 0 row)

/-- PAT_SWITCH_CANCEL (R54). -/
def execPatSwitchCancel (path : Path) (s : State) : Out := .next (s.opOnly path 0x070 0x030 2)

/-- GATE_SWITCH_ARM (R347). -/
def execGateSwitchArm (path : Path) (p row : Nat) (s : State) : Out :=
  .next (if p < 8 then s.opWrite path 0x040 (0x10000 * (p + 1)) 1 47 0 row else s)

/-- GATE_SWITCH_CANCEL (R347). -/
def execGateSwitchCancel (path : Path) (p : Nat) (s : State) : Out :=
  .next (if p < 8 then s.opOnly path 0x040 (0x10000 * (p + 1)) 2 else s)

/-- PATTERN_WINDOW_WRITE (R423), at an offset of the window. -/
def execPatternWindowWrite (path : Path) (offset : Nat) (value : Word) (s : State) : Out :=
  .next (s.regWrite path 0x070 (0x80000 + offset) value)

/-- COMPACT_START (R92). -/
def execCompactStart (path : Path) (s : State) : Out := .next (s.opOnly path 0x050 0x048 1)

/-- NBU_SPARE_MAP (R164). -/
def execNbuSpareMap (path : Path) (t region : Nat) (s : State) : Out :=
  .next (if t < 12 then s.opWrite path (0x010 + t) 0x080 1 7 0 region else s)

/-- CELL_SPARE_MAP (R191). -/
def execCellSpareMap (path : Path) (die array : Nat) (s : State) : Out :=
  .next (if die < 4 then s.opWrite path (0x020 + die) 0x060 1 5 0 array else s)

/-- ARRAY_SPARE_MAP (R191). -/
def execArraySpareMap (path : Path) (die array : Nat) (s : State) : Out :=
  .next (if die < 4 then s.opWrite path (0x020 + die) 0x060 2 5 0 array else s)

/-- INDEX_REMOVE (R244). -/
def execIndexRemove (path : Path) (entry : Nat) (s : State) : Out := .next (s.opWrite path 0x058 0x028 1 19 0 entry)

/-- INDEX_FLUSH (R244). -/
def execIndexFlush (path : Path) (bankSet : Nat) (s : State) : Out := .next (s.opWrite path 0x058 0x028 2 23 20 bankSet)

/-- BANK_SCOPE_WRITE (R237). -/
def execBankScopeWrite (path : Path) (bankSet : Nat) (enable : Bool) (tenant : Nat) (s : State) : Out :=
  .next (s.regWrite path 0x058 (0x040 + 8 * bankSet) (setBits (setBits 0 31 31 (bit enable)) 11 0 tenant))

/-- QP_INSPECT_READ (R334). -/
def execQpInspectRead (path : Path) (qp : Nat) (s : State) : Out := .next (s.opWrite path 0x038 0x060 1 15 0 qp)

/-- QP_INSPECT_CLOSE (R334). -/
def execQpInspectClose (path : Path) (qp : Nat) (s : State) : Out := .next (s.opWrite path 0x038 0x060 2 15 0 qp)

/-- EVENT_TAIL_WRITE (R420): LOST is written as it stands. -/
def execEventTailWrite (path : Path) (tail : Nat) (s : State) : Out :=
  .next (s.regWrite path 0x0F0 0x080 (setBits (s.written 0x0F0 0x080) 43 32 tail))

/-- POWER_CFG_WRITE (R425). -/
def execPowerCfgWrite (path : Path) (value : Nat) (s : State) : Out :=
  .next (s.regWrite path 0x0F0 0x090 (setBits 0 2 0 value))

/-- REGISTER_WRITE (R8, R409, R412). -/
def execRegisterWrite (path : Path) (block offset : Nat) (value : Word) (s : State) : Out :=
  .next (s.regWrite path block offset value)

/-- NEXT_ROW_WRITE_EFFECT (R412). -/
def execNextRowWriteEffect (s : State) : Out := .next s.applyDue

/-- MANAGEMENT_REQUEST (R414). -/
def execManagementRequest (srcNode : Nat) (m : MgmtMsg) (s : State) : Out := .next (s.manage srcNode m)

/-- OOB_FRAME (R415). -/
def execOobFrame (f : OobFrame) (s : State) : Out := .next (s.oob f)

/-- I3C_ACCESS (R417). -/
def execI3cAccess (addr : Nat) (write : Option Word) (s : State) : Out := .next (s.i3c addr write)

/-- FLASH_ERASE (R417). -/
def execFlashErase (path : Path) (addr : Nat) (s : State) : Out := .next (s.opWrite path 0x0F0 0x088 1 26 0 addr)

/-- FLASH_PROGRAM (R417). -/
def execFlashProgram (path : Path) (addr : Nat) (s : State) : Out := .next (s.opWrite path 0x0F0 0x088 2 26 0 addr)

/-- FULL_RESET (R361). -/
def execFullReset (path : Path) (s : State) : Out := .next (s.opOnly path 0x080 0x030 1)

/-- CASTON_ADMIT (R360). -/
def execCastonAdmit (path : Path) (s : State) : Out := .next (s.opOnly path 0x080 0x038 1)

/-- CASTON_COMMIT (R360). -/
def execCastonCommit (path : Path) (s : State) : Out := .next (s.opOnly path 0x080 0x038 2)

/-- TENANT_ADMIT (R374). -/
def execTenantAdmit (path : Path) (tenant : Nat) (isSealed : Bool) (s : State) : Out :=
  .next (s.opWrite3 path 0x080 0x048 1 12 0 (tenant % 4096 + 4096 * bit isSealed))

/-- TENANT_WITHDRAW (R378). -/
def execTenantWithdraw (path : Path) (tenant : Nat) (s : State) : Out := .next (s.opWrite3 path 0x080 0x048 2 11 0 tenant)

/-- TENANT_READ (R384). -/
def execTenantRead (path : Path) (tenant : Nat) (s : State) : Out := .next (s.opWrite3 path 0x080 0x048 3 11 0 tenant)

/-- STOP_CLOCK (R381). -/
def execStopClock (path : Path) (block : Nat) (s : State) : Out := .next (s.opWrite3 path 0x080 0x0B0 1 7 0 block)

/-- GATE_POWER (R381). -/
def execGatePower (path : Path) (block : Nat) (s : State) : Out := .next (s.opWrite3 path 0x080 0x0B0 2 7 0 block)

/-- RESTORE (R381). -/
def execRestore (path : Path) (block : Nat) (s : State) : Out := .next (s.opWrite3 path 0x080 0x0B0 3 7 0 block)

/-- CAPTURE (R381). -/
def execCapture (path : Path) (block : Nat) (s : State) : Out := .next (s.opWrite3 path 0x080 0x0B0 4 7 0 block)

/-- CANCEL (R381). -/
def execCancel (path : Path) (s : State) : Out := .next (s.regWrite path 0x080 0x0B0 (s.opWord 0x080 0x0B0 63 61 5))

/-- DRAIN (R402). -/
def execDrain (path : Path) (s : State) : Out := .next (s.opOnly path 0x080 0x0F0 1)

/-- SUBMIT (R404). -/
def execSubmit (path : Path) (s : State) : Out := .next (s.opOnly path 0x080 0x0F0 2)

/-- MOVER_EVACUATE (R280), by the Keeper (R416). -/
def execMoverEvacuate (dev : Nat) (s : State) : Out := .next (s.opWrite .keeper 0x060 0x020 1 20 16 dev)

/-- MOVER_REBUILD (R280), by the Keeper (R416). -/
def execMoverRebuild (s : State) : Out := .next (s.opOnly .keeper 0x060 0x020 2)

/-- POLICER_WRITE (R341). -/
def execPolicerWrite (path : Path) (i : Nat) (w0 w1 : Word) (s : State) : Out :=
  .next (s.writeEntry path 0x040 (policerOffset i) fun s => s.putPolicer i w0 w1)

/-- ROUTE_ENTRY_WRITE (R305). -/
def execRouteEntryWrite (path : Path) (i : Nat) (w0 w1 : Word) (s : State) : Out :=
  .next (s.writeEntry path 0x038 (routeOffset i) fun s => s.putRoute i w0 w1)

/-- PORT_RETRAIN (R293). -/
def execPortRetrain (path : Path) (p : Nat) (s : State) : Out :=
  .next (if p < 8 then s.regWrite path (0x030 + p) 0x038 (s.opWord (0x030 + p) 0x038 63 61 1) else s)

/-- PORT_ENTER_TEST (R301). -/
def execPortEnterTest (path : Path) (p : Nat) (s : State) : Out :=
  .next (if p < 8 then s.regWrite path (0x030 + p) 0x038 (s.opWord (0x030 + p) 0x038 63 61 2) else s)

/-- PORT_LEAVE_TEST (R301). -/
def execPortLeaveTest (path : Path) (p : Nat) (s : State) : Out :=
  .next (if p < 8 then s.regWrite path (0x030 + p) 0x038 (s.opWord (0x030 + p) 0x038 63 61 3) else s)

/-- PORT_SWAP_LANE (R291). -/
def execPortSwapLane (path : Path) (p lane : Nat) (s : State) : Out :=
  .next (if p < 8 then s.opWrite3 path (0x030 + p) 0x038 4 2 0 lane else s)

/-- PRBS_CTL_WRITE (R300). -/
def execPrbsCtlWrite (path : Path) (p lane : Nat) (value : Word) (s : State) : Out :=
  .next (if p < 8 then s.regWrite path (0x030 + p) (0x1000 * (lane + 1) + 0x008) value else s)

end Sys2Proof.Machine
end

