-- ==== Sys2Proof/Machine/Dispatch.lean ====
section
/-! DEFINITION. One arm per command of the opcode table: each calls its meaning. -/

namespace Sys2Proof.Machine

/-- The effect of a command on everything but the queue of commands. -/
def exec (i : Instr) (s : State) : Host.Outcome State Fault Refusal :=
  match i with
  | .openSeq h b => Sys2Proof.Machine.execOpenSeq h b s
  | .closeSeq h => Sys2Proof.Machine.execCloseSeq h s
  | .fork h b => Sys2Proof.Machine.execFork h b s
  | .append h b => Sys2Proof.Machine.execAppend h b s
  | .attend h b => Sys2Proof.Machine.execAttend h b s
  | .attendMulti h b => Sys2Proof.Machine.execAttendMulti h b s
  | .merge h b => Sys2Proof.Machine.execMerge h b s
  | .grad h b => Sys2Proof.Machine.execGrad h b s
  | .prefixFind h b => Sys2Proof.Machine.execPrefixFind h b s
  | .prefixPublish h b => Sys2Proof.Machine.execPrefixPublish h b s
  | .pin h b => Sys2Proof.Machine.execPin h b s
  | .unpin h b => Sys2Proof.Machine.execUnpin h b s
  | .promote h b => Sys2Proof.Machine.execPromote h b s
  | .demote h b => Sys2Proof.Machine.execDemote h b s
  | .migrate h b => Sys2Proof.Machine.execMigrate h b s
  | .freeRange h b => Sys2Proof.Machine.execFreeRange h b s
  | .readMem h b => Sys2Proof.Machine.execReadMem h b s
  | .writeMem h b => Sys2Proof.Machine.execWriteMem h b s
  | .fetchAdd h b => Sys2Proof.Machine.execFetchAdd h b s
  | .cmpSwap h b => Sys2Proof.Machine.execCmpSwap h b s
  | .vecAdd h b => Sys2Proof.Machine.execVecAdd h b s
  | .earlyCommandRelease => Sys2Proof.Machine.execEarlyCommandRelease s
  | .l3Forward c => Sys2Proof.Machine.execL3Forward c s
  | .lenderPartialsReceive c lender level group status detail report parts => Sys2Proof.Machine.execLenderPartialsReceive c lender level group status detail report parts s
  | .partialsMerge c => Sys2Proof.Machine.execPartialsMerge c s
  | .completionSend c ns => Sys2Proof.Machine.execCompletionSend c ns s
  | .walkDeadline => Sys2Proof.Machine.execWalkDeadline s
  | .computeDeadline => Sys2Proof.Machine.execComputeDeadline s
  | .lenderDeadline => Sys2Proof.Machine.execLenderDeadline s
  | .l8CommandStart ns => Sys2Proof.Machine.execL8CommandStart ns s
  | .l8AgeExpiry c => Sys2Proof.Machine.execL8AgeExpiry c s
  | .nop x => Sys2Proof.Machine.execNop x s
  | .rep x count len => Sys2Proof.Machine.execRep x count len s
  | .endOp x => Sys2Proof.Machine.execEndOp x s
  | .gmark x => Sys2Proof.Machine.execGmark x s
  | .sli x sd imm => Sys2Proof.Machine.execSli x sd imm s
  | .sadd x sd sa sb => Sys2Proof.Machine.execSadd x sd sa sb s
  | .ssub x sd sa sb => Sys2Proof.Machine.execSsub x sd sa sb s
  | .azero x q n => Sys2Proof.Machine.execAzero x q n s
  | .kdot x row n c ci hf add q => Sys2Proof.Machine.execKdot x row n c ci hf add q s
  | .accv x row n c ci hf q => Sys2Proof.Machine.execAccv x row n c ci hf q s
  | .sscl x row n c ci mk => Sys2Proof.Machine.execSscl x row n c ci mk s
  | .sbias x row n c ci mk => Sys2Proof.Machine.execSbias x row n c ci mk s
  | .smax x vr row n c ci mk => Sys2Proof.Machine.execSmax x vr row n c ci mk s
  | .rmax x vr n => Sys2Proof.Machine.execRmax x vr n s
  | .sexp x vr row n c ci mk => Sys2Proof.Machine.execSexp x vr row n c ci mk s
  | .vset x vr n k => Sys2Proof.Machine.execVset x vr n k s
  | .mset x mk cond sa c ci => Sys2Proof.Machine.execMset x mk cond sa c ci s
  | .mand x mk ma mb => Sys2Proof.Machine.execMand x mk ma mb s
  | .mor x mk ma mb => Sys2Proof.Machine.execMor x mk ma mb s
  | .emit x vr row n split q => Sys2Proof.Machine.execEmit x vr row n split q s
  | .stitchRoundStart t ns => Sys2Proof.Machine.execStitchRoundStart t ns s
  | .pauseResume t ns => Sys2Proof.Machine.execPauseResume t ns s
  | .tileIssue ns => Sys2Proof.Machine.execTileIssue ns s
  | .tileEnd array ns => Sys2Proof.Machine.execTileEnd array ns s
  | .tileAbandon array => Sys2Proof.Machine.execTileAbandon array s
  | .appendLineWrite die => Sys2Proof.Machine.execAppendLineWrite die s
  | .gradAddPhase c => Sys2Proof.Machine.execGradAddPhase c s
  | .rowStart sample => Sys2Proof.Machine.execRowStart sample s
  | .housekeepingStart => Sys2Proof.Machine.execHousekeepingStart s
  | .rowEnd watts peakWatts => Sys2Proof.Machine.execRowEnd watts peakWatts s
  | .patternSwitch => Sys2Proof.Machine.execPatternSwitch s
  | .gateListSwitch p => Sys2Proof.Machine.execGateListSwitch p s
  | .syncLock ptp => Sys2Proof.Machine.execSyncLock ptp s
  | .syncUnlock => Sys2Proof.Machine.execSyncUnlock s
  | .holdoverEntry => Sys2Proof.Machine.execHoldoverEntry s
  | .holdoverRelock offset => Sys2Proof.Machine.execHoldoverRelock offset s
  | .holdoverExpiry => Sys2Proof.Machine.execHoldoverExpiry s
  | .rowsyncInPulse offset ptpOffset => Sys2Proof.Machine.execRowsyncInPulse offset ptpOffset s
  | .ptpEventMessage p stamp crossed => Sys2Proof.Machine.execPtpEventMessage p stamp crossed s
  | .ppsInEdge stamp => Sys2Proof.Machine.execPpsInEdge stamp s
  | .castOnToServing => Sys2Proof.Machine.execCastOnToServing s
  | .nbuStop t region cause => Sys2Proof.Machine.execNbuStop t region cause s
  | .nbuPauseAckTimeout t region => Sys2Proof.Machine.execNbuPauseAckTimeout t region s
  | .cellStop die array cell cause => Sys2Proof.Machine.execCellStop die array cell cause s
  | .stitchSliceFault t slice => Sys2Proof.Machine.execStitchSliceFault t slice s
  | .walkerFault w => Sys2Proof.Machine.execWalkerFault w s
  | .spareTakeover target => Sys2Proof.Machine.execSpareTakeover target s
  | .dramCorrectedError t region bank dramRow column => Sys2Proof.Machine.execDramCorrectedError t region bank dramRow column s
  | .dramUncorrectableError addr reader => Sys2Proof.Machine.execDramUncorrectableError addr reader s
  | .dramRowRepair t region bank dramRow column => Sys2Proof.Machine.execDramRowRepair t region bank dramRow column s
  | .patrolRead t firstLine lines => Sys2Proof.Machine.execPatrolRead t firstLine lines s
  | .fallbackDemotionStart => Sys2Proof.Machine.execFallbackDemotionStart s
  | .moveStart mv => Sys2Proof.Machine.execMoveStart mv s
  | .moveLand mv => Sys2Proof.Machine.execMoveLand mv s
  | .moveFail mv why => Sys2Proof.Machine.execMoveFail mv why s
  | .promotionRetry mv => Sys2Proof.Machine.execPromotionRetry mv s
  | .prefetchDrop mv => Sys2Proof.Machine.execPrefetchDrop mv s
  | .lenderAckTimeout mv => Sys2Proof.Machine.execLenderAckTimeout mv s
  | .lenderPassOverExpiry lender => Sys2Proof.Machine.execLenderPassOverExpiry lender s
  | .resourceRelease => Sys2Proof.Machine.execResourceRelease s
  | .sequenceClosed slot => Sys2Proof.Machine.execSequenceClosed slot s
  | .compactionAutoStart => Sys2Proof.Machine.execCompactionAutoStart s
  | .compactionSwap => Sys2Proof.Machine.execCompactionSwap s
  | .indexEntryRelease entry => Sys2Proof.Machine.execIndexEntryRelease entry s
  | .camBankRebuild bankSet => Sys2Proof.Machine.execCamBankRebuild bankSet s
  | .camRebuildSwap => Sys2Proof.Machine.execCamRebuildSwap s
  | .lend m => Sys2Proof.Machine.execLend m s
  | .lendAck m => Sys2Proof.Machine.execLendAck m s
  | .recall m => Sys2Proof.Machine.execRecall m s
  | .recallData m => Sys2Proof.Machine.execRecallData m s
  | .release m => Sys2Proof.Machine.execRelease m s
  | .returnLeaf m => Sys2Proof.Machine.execReturnLeaf m s
  | .poolDeviceFence dev => Sys2Proof.Machine.execPoolDeviceFence dev s
  | .poolLinkRetrainTimeout dev => Sys2Proof.Machine.execPoolLinkRetrainTimeout dev s
  | .poolPoisonLimit dev => Sys2Proof.Machine.execPoolPoisonLimit dev s
  | .fenceSweep dev => Sys2Proof.Machine.execFenceSweep dev s
  | .cxlDeviceEvent dev fatal => Sys2Proof.Machine.execCxlDeviceEvent dev fatal s
  | .annexLinkDown a => Sys2Proof.Machine.execAnnexLinkDown a s
  | .moverEngineFault mv => Sys2Proof.Machine.execMoverEngineFault mv s
  | .moverEvacuate dev => Sys2Proof.Machine.execMoverEvacuate dev s
  | .moverRebuild => Sys2Proof.Machine.execMoverRebuild s
  | .evacuationComplete => Sys2Proof.Machine.execEvacuationComplete s
  | .annexPerstInput high => Sys2Proof.Machine.execAnnexPerstInput high s
  | .frameReceive p f => Sys2Proof.Machine.execFrameReceive p f s
  | .frameTransmit p ns8 => Sys2Proof.Machine.execFrameTransmit p ns8 s
  | .dataPacketReceive k => Sys2Proof.Machine.execDataPacketReceive k s
  | .ackSend qp => Sys2Proof.Machine.execAckSend qp s
  | .ackReceive qp node cum sack => Sys2Proof.Machine.execAckReceive qp node cum sack s
  | .nakReceive node index first count => Sys2Proof.Machine.execNakReceive node index first count s
  | .ackTimeout qp node psn => Sys2Proof.Machine.execAckTimeout qp node psn s
  | .pathHoldDownExpiry node path => Sys2Proof.Machine.execPathHoldDownExpiry node path s
  | .peerUnreachable node domain => Sys2Proof.Machine.execPeerUnreachable node domain s
  | .connect m => Sys2Proof.Machine.execConnect m s
  | .disconnect m => Sys2Proof.Machine.execDisconnect m s
  | .register m => Sys2Proof.Machine.execRegister m s
  | .deregister m => Sys2Proof.Machine.execDeregister m s
  | .keyRevoking index => Sys2Proof.Machine.execKeyRevoking index s
  | .revocationComplete index => Sys2Proof.Machine.execRevocationComplete index s
  | .qpClosingDone qp => Sys2Proof.Machine.execQpClosingDone qp s
  | .qpErrorExpiry qp => Sys2Proof.Machine.execQpErrorExpiry qp s
  | .quarantineExpiry qp => Sys2Proof.Machine.execQuarantineExpiry qp s
  | .envelopeMessage qp node dstDomain dstNode message => Sys2Proof.Machine.execEnvelopeMessage qp node dstDomain dstNode message s
  | .bulkWaitExpiry domain => Sys2Proof.Machine.execBulkWaitExpiry domain s
  | .bulkMessage qp records => Sys2Proof.Machine.execBulkMessage qp records s
  | .trunkErrorFlush domain => Sys2Proof.Machine.execTrunkErrorFlush domain s
  | .policerWrite path index w0 w1 => Sys2Proof.Machine.execPolicerWrite path index w0 w1 s
  | .routeEntryWrite path index w0 w1 => Sys2Proof.Machine.execRouteEntryWrite path index w0 w1 s
  | .laneControlWordSend p => Sys2Proof.Machine.execLaneControlWordSend p s
  | .statusWord p w => Sys2Proof.Machine.execStatusWord p w s
  | .swapRequest p w => Sys2Proof.Machine.execSwapRequest p w s
  | .swapAcknowledge p w => Sys2Proof.Machine.execSwapAcknowledge p w s
  | .narrowRequest p w => Sys2Proof.Machine.execNarrowRequest p w s
  | .narrowAcknowledge p w => Sys2Proof.Machine.execNarrowAcknowledge p w s
  | .retrainWord p w => Sys2Proof.Machine.execRetrainWord p w s
  | .testWord p w => Sys2Proof.Machine.execTestWord p w s
  | .laneFailed p lane => Sys2Proof.Machine.execLaneFailed p lane s
  | .swapDeskewDone p => Sys2Proof.Machine.execSwapDeskewDone p s
  | .retrainDone p passed => Sys2Proof.Machine.execRetrainDone p passed s
  | .linkDown p => Sys2Proof.Machine.execLinkDown p s
  | .linkUp p partnerNode partnerPort partnerDomain => Sys2Proof.Machine.execLinkUp p partnerNode partnerPort partnerDomain s
  | .mkaFrame p bytes => Sys2Proof.Machine.execMkaFrame p bytes s
  | .saKeyInstall p association => Sys2Proof.Machine.execSaKeyInstall p association s
  | .pnExhausted p => Sys2Proof.Machine.execPnExhausted p s
  | .portRetrain path p => Sys2Proof.Machine.execPortRetrain path p s
  | .portEnterTest path p => Sys2Proof.Machine.execPortEnterTest path p s
  | .portLeaveTest path p => Sys2Proof.Machine.execPortLeaveTest path p s
  | .portSwapLane path p lane => Sys2Proof.Machine.execPortSwapLane path p lane s
  | .prbsCtlWrite path p lane value => Sys2Proof.Machine.execPrbsCtlWrite path p lane value s
  | .patSwitchArm path row => Sys2Proof.Machine.execPatSwitchArm path row s
  | .patSwitchCancel path => Sys2Proof.Machine.execPatSwitchCancel path s
  | .gateSwitchArm path p row => Sys2Proof.Machine.execGateSwitchArm path p row s
  | .gateSwitchCancel path p => Sys2Proof.Machine.execGateSwitchCancel path p s
  | .patternWindowWrite path offset value => Sys2Proof.Machine.execPatternWindowWrite path offset value s
  | .compactStart path => Sys2Proof.Machine.execCompactStart path s
  | .nbuSpareMap path t region => Sys2Proof.Machine.execNbuSpareMap path t region s
  | .cellSpareMap path die array => Sys2Proof.Machine.execCellSpareMap path die array s
  | .arraySpareMap path die array => Sys2Proof.Machine.execArraySpareMap path die array s
  | .indexRemove path entry => Sys2Proof.Machine.execIndexRemove path entry s
  | .indexFlush path bankSet => Sys2Proof.Machine.execIndexFlush path bankSet s
  | .bankScopeWrite path bankSet enable tenant => Sys2Proof.Machine.execBankScopeWrite path bankSet enable tenant s
  | .qpInspectRead path qp => Sys2Proof.Machine.execQpInspectRead path qp s
  | .qpInspectClose path qp => Sys2Proof.Machine.execQpInspectClose path qp s
  | .eventTailWrite path tail => Sys2Proof.Machine.execEventTailWrite path tail s
  | .powerCfgWrite path value => Sys2Proof.Machine.execPowerCfgWrite path value s
  | .registerWrite path block offset value => Sys2Proof.Machine.execRegisterWrite path block offset value s
  | .nextRowWriteEffect => Sys2Proof.Machine.execNextRowWriteEffect s
  | .managementRequest srcNode m => Sys2Proof.Machine.execManagementRequest srcNode m s
  | .oobFrame f => Sys2Proof.Machine.execOobFrame f s
  | .i3cAccess addr write => Sys2Proof.Machine.execI3cAccess addr write s
  | .flashErase path addr => Sys2Proof.Machine.execFlashErase path addr s
  | .flashProgram path addr => Sys2Proof.Machine.execFlashProgram path addr s
  | .flashOpDone => Sys2Proof.Machine.execFlashOpDone s
  | .powerOnResetRelease oobHigh => Sys2Proof.Machine.execPowerOnResetRelease oobHigh s
  | .resetN => Sys2Proof.Machine.execResetN s
  | .fullReset path => Sys2Proof.Machine.execFullReset path s
  | .vaultWatchdogExpiry => Sys2Proof.Machine.execVaultWatchdogExpiry s
  | .faultHandlerWatchdogExpiry => Sys2Proof.Machine.execFaultHandlerWatchdogExpiry s
  | .trainingComplete devices smallestGib => Sys2Proof.Machine.execTrainingComplete devices smallestGib s
  | .trainingFail => Sys2Proof.Machine.execTrainingFail s
  | .portTrainingTimeout => Sys2Proof.Machine.execPortTrainingTimeout s
  | .castonAdmit path => Sys2Proof.Machine.execCastonAdmit path s
  | .castonCommit path => Sys2Proof.Machine.execCastonCommit path s
  | .powerRemoved => Sys2Proof.Machine.execPowerRemoved s
  | .tenantAdmit path tenant isSealed => Sys2Proof.Machine.execTenantAdmit path tenant isSealed s
  | .tenantWithdraw path tenant => Sys2Proof.Machine.execTenantWithdraw path tenant s
  | .tenantRead path tenant => Sys2Proof.Machine.execTenantRead path tenant s
  | .withdrawalComplete tenant => Sys2Proof.Machine.execWithdrawalComplete tenant s
  | .spdmRequest session r => Sys2Proof.Machine.execSpdmRequest session r s
  | .setKey session tenant key1 key2 => Sys2Proof.Machine.execSetKey session tenant key1 key2 s
  | .setTicket session tenant secret => Sys2Proof.Machine.execSetTicket session tenant secret s
  | .setConsent session tenant bits => Sys2Proof.Machine.execSetConsent session tenant bits s
  | .clearKey session tenant => Sys2Proof.Machine.execClearKey session tenant s
  | .clearTicket session tenant => Sys2Proof.Machine.execClearTicket session tenant s
  | .readLog session first => Sys2Proof.Machine.execReadLog session first s
  | .keySlotEffect => Sys2Proof.Machine.execKeySlotEffect s
  | .claimsEffect => Sys2Proof.Machine.execClaimsEffect s
  | .claimsRelease => Sys2Proof.Machine.execClaimsRelease s
  | .stopClock path block => Sys2Proof.Machine.execStopClock path block s
  | .gatePower path block => Sys2Proof.Machine.execGatePower path block s
  | .restore path block => Sys2Proof.Machine.execRestore path block s
  | .capture path block => Sys2Proof.Machine.execCapture path block s
  | .cancel path => Sys2Proof.Machine.execCancel path s
  | .gaugeEpochEnd => Sys2Proof.Machine.execGaugeEpochEnd s
  | .keeperShedRaise load => Sys2Proof.Machine.execKeeperShedRaise load s
  | .keeperShedLower load => Sys2Proof.Machine.execKeeperShedLower load s
  | .keeperCoreFault core => Sys2Proof.Machine.execKeeperCoreFault core s
  | .drain path => Sys2Proof.Machine.execDrain path s
  | .submit path => Sys2Proof.Machine.execSubmit path s
  | .bindoffTargetRow => Sys2Proof.Machine.execBindoffTargetRow s
  | .boundOff => Sys2Proof.Machine.execBoundOff s
  | .railOutOfRange rail => Sys2Proof.Machine.execRailOutOfRange rail s
  | .railAbsoluteExcursion rail => Sys2Proof.Machine.execRailAbsoluteExcursion rail s
  | .railRecovery rail => Sys2Proof.Machine.execRailRecovery rail s
  | .thermalAlert sensor temp => Sys2Proof.Machine.execThermalAlert sensor temp s
  | .thermalEmergency sensor temp => Sys2Proof.Machine.execThermalEmergency sensor temp s
  | .thermalTrip sensor temp => Sys2Proof.Machine.execThermalTrip sensor temp s
  | .thermalClear sensor => Sys2Proof.Machine.execThermalClear sensor s
  | .thermalCapRise t => Sys2Proof.Machine.execThermalCapRise t s
  | .cutBlockReturn sensor => Sys2Proof.Machine.execCutBlockReturn sensor s
  | .refclkNet0Fail => Sys2Proof.Machine.execRefclkNet0Fail s
  | .walkComplete c => Sys2Proof.Machine.execWalkComplete c s
  | .fatalError block => Sys2Proof.Machine.execFatalError block s
  | .bootComplete => Sys2Proof.Machine.execBootComplete s
  | .endpointAccess a => Sys2Proof.Machine.execEndpointAccess a s
  | .porstNAssert => Sys2Proof.Machine.execPorstNAssert s
  | .annexLinkUp a => Sys2Proof.Machine.execAnnexLinkUp a s
  | .linkRetrainRetry p => Sys2Proof.Machine.execLinkRetrainRetry p s
  | .spdmHeartbeatTimeout session => Sys2Proof.Machine.execSpdmHeartbeatTimeout session s

end Sys2Proof.Machine
end

