-- ==== Sys2Proof/WellFormed.lean ====
section
/-! DEFINITION. When a command is one that its message or its row can spell: every field within its width
(Tables 5-3, 8-2, 8-7 to 8-14, 10-2, 11-2, 12-1, 12-4, 12-9, 17-4), every part of the node one that it
has (Table 1-2). Values the node answers with a status stay well formed: the meanings answer them. -/

namespace Sys2Proof

/-- The cache command header (Table 8-2) and what its delivery adds. -/
def Head.wf (h : Head) : Bool :=
  h.qp < 2 ^ 16 && h.srcQp < 2 ^ 16 && h.srcNode < 2 ^ 14 && h.srcDomain < 64 && (h.relayTenant.all fun t => t < 4096)
    && h.tag < 4096 && h.rowTag < 2 ^ 16 && h.model < 64 && h.handle < 2 ^ 32 && h.bodyLen < 2 ^ 32 && h.ns < 4096

/-- OPEN and FORK (Table 8-7). -/
def OpenBody.wf (b : OpenBody) : Bool :=
  b.format < 16 && b.d < 2 ^ 16 && b.layers < 2 ^ 16 && b.kvHeads < 256 && b.buddy < 2 ^ 14 && b.forkPosition < 2 ^ 25

/-- APPEND (Table 8-8). -/
def AppendBody.wf (b : AppendBody) : Bool :=
  b.layer < 256 && b.head < 64 && b.inFormat < 16 && b.first < 2 ^ 24 && b.count < 2 ^ 17

/-- ATTEND, ATTEND_MULTI and GRAD (Tables 8-9 and 8-10). -/
def AttnBody.wf (b : AttnBody) : Bool :=
  b.layer < 256 && b.head < 64 && b.qheads < 256 && b.qFormat < 16 && b.firstBlock < 2 ^ 16 && b.qcount < 2 ^ 16
    && b.blockCount < 2 ^ 17 && b.doFormat < 16 && b.destKey < 2 ^ 32 && b.destOffset < 2 ^ 64 && b.destBase < 2 ^ 24

/-- MERGE (Table 8-11). -/
def MergeBody.wf (b : MergeBody) : Bool := b.inputs < 256 && b.qheads < 256 && b.d < 2 ^ 16 && b.mode < 256

/-- PREFIX_FIND and PREFIX_PUBLISH (Table 8-12). -/
def ChainBody.wf (b : ChainBody) : Bool :=
  b.banks < 2 ^ 16 && b.priority < 256 && b.count < 256 && b.firstBlock < 2 ^ 16 && b.words.all fun w => w < 2 ^ 64

/-- The range commands (Table 8-13). -/
def RangeBody.wf (b : RangeBody) : Bool :=
  b.firstLayer < 256 && b.lastLayer < 256 && b.firstHead < 64 && b.lastHead < 64 && b.firstPos < 2 ^ 25
    && b.endPos < 2 ^ 25 && b.tier < 4 && b.lender < 2 ^ 14

/-- The raw commands (Table 8-14). -/
def RawBody.wf (b : RawBody) : Bool :=
  b.key < 2 ^ 32 && b.length < 2 ^ 32 && b.offset < 2 ^ 44 && b.op0 < 2 ^ 64 && b.op1 < 2 ^ 64

/-- A CM message (Table 12-4). -/
def CmMsg.wf (m : CmMsg) : Bool :=
  m.qp < 2 ^ 16 && m.srcNode < 2 ^ 14 && m.srcDomain < 64 && m.tag < 2 ^ 16 && m.senderQp < 2 ^ 16 && m.cls < 4
    && m.rights < 32 && m.tenant < 4096 && (m.process.all fun p => p < 4096) && m.key < 2 ^ 32 && m.psn < 2 ^ 24
    && m.offset < 2 ^ 44 && m.length < 2 ^ 64 && m.processOffset < 2 ^ 44

/-- A loan message (Table 10-2). -/
def LoanMsg.wf (m : LoanMsg) : Bool :=
  m.qp < 2 ^ 16 && m.srcQp < 2 ^ 16 && m.src < 2 ^ 14 && m.result < 256 && m.loanSlot < 2 ^ 16 && m.borrowerHandle < 2 ^ 32
    && m.lenderHandle < 2 ^ 32 && m.layer < 256 && m.head < 64 && m.half < 2 && m.block < 2 ^ 16 && m.model < 64
    && m.format < 16 && m.d < 2 ^ 16 && m.layers < 256 && m.kvHeads < 256 && m.origin < 4096

/-- A frame a port receives (Table 12-1); it has nine lanes (R283). -/
def Frame.wf (f : Frame) : Bool :=
  (f.corrected.all fun x => x.1 < 9) && f.pn < 2 ^ 64 && f.reserved.length ≤ 28 && f.etherType < 2 ^ 16 && f.kind < 16 && f.version < 16 && f.tc < 8 && f.srcNode < 2 ^ 14 && f.dstNode < 2 ^ 14
    && f.srcDomain < 64 && f.dstDomain < 64 && f.dstQp < 2 ^ 16 && f.srcQp < 2 ^ 16 && f.psn < 2 ^ 24
    && f.pathSeq < 2 ^ 16 && f.srcPort < 8 && f.dstPort < 8 && f.pathIndex < 8 && f.payloadLen < 2 ^ 16 && f.ns < 4096

/-- A transport packet (Table 12-1); its payload is at most 8,192 bytes (R303). -/
def Packet.wf (k : Packet) : Bool :=
  k.kind < 16 && k.tc < 8 && k.srcNode < 2 ^ 14 && k.srcDomain < 64 && k.dstQp < 2 ^ 16 && k.srcQp < 2 ^ 16
    && k.psn < 2 ^ 24 && k.pathSeq < 2 ^ 16 && k.srcPort < 8 && k.dstPort < 8 && k.pathIndex < 8 && k.payload.length ≤ 8192

/-- A lane-control word (Table 11-2). -/
def LaneWord.wf (w : LaneWord) : Bool :=
  w.seq < 256 && w.node < 2 ^ 14 && w.port < 8 && w.actSeq < 256 && w.failed < 512 && w.map < 2 ^ 32 && w.domain < 64 &&
    w.reserved.length ≤ 14

/-- A management message (Table 17-4). -/
def MgmtMsg.wf (m : MgmtMsg) : Bool :=
  m.kind < 256 && m.count < 256 && m.tag < 2 ^ 16 && m.entries.all fun e => e.op < 4 && e.addr < 2 ^ 44

/-- An out-of-band frame (R415). -/
def OobFrame.wf (f : OobFrame) : Bool :=
  f.mac < 2 ^ 48 && f.etherType < 2 ^ 16 && f.dstNode < 2 ^ 14 && f.dstDomain < 256 && f.srcId < 2 ^ 16 &&
    match f.body with
    | .mgmt m => m.wf
    | .spdm _ _ => true
    | .event => true

/-- A BULK record (Table 12-9). -/
def BulkRecord.wf (r : BulkRecord) : Bool :=
  r.kind < 256 && r.srcDomain < 64 && r.srcNode < 2 ^ 14 && r.dstDomain < 64 && r.cls < 4 && r.dstNode < 2 ^ 14
    && r.tenant < 4096 && r.srcQp < 2 ^ 16

/-- A row's samples: 20 dies (Table 16-6) and 12 stacks, and the checkers of lanes. -/
def RowSample.wf (r : RowSample) : Bool :=
  r.dieTemps.length = 20 && r.stackTemps.length = 12 && r.prbs.all fun x => x.port < 8 && x.lane < 9

/-- A unit that has a spare: an NBU region of 256 in 16 groups, an array of 48 on one of four attention dies
(Table 1-2, R141, R166). -/
def SpareTarget.wf : SpareTarget → Bool
  | .nbu t g => t < 12 && g < 16
  | .cell d a => d < 4 && a < 48
  | .array d a => d < 4 && a < 48

/-- A sensor of Table 18-3. -/
def Sensor.wf : Sensor → Bool
  | .die d => d < 20
  | .stack t => t < 12

/-- An access in endpoint mode (R275): what it writes is what its length says. -/
def EndpointAccess.wf (a : EndpointAccess) : Bool :=
  a.offset < 2 ^ 44 && (a.write.all fun b => b.length = a.length)

/-- The count n of an instruction (Table 5-3, N + 1). -/
def countOk (n : Nat) : Bool := 1 ≤ n && n ≤ 8

/-- A chunk: with CI set, C is 0 (Table 5-3). -/
def chunkOk (c : Nat) (ci : Bool) : Bool := c < 8 && (!ci || c = 0)

/-- A command that its message or its row of the table can spell. -/
def Instr.wf : Instr → Bool
  | .openSeq h b | .fork h b => h.wf && b.wf
  | .closeSeq h => h.wf
  | .append h b => h.wf && b.wf
  | .attend h b | .attendMulti h b | .grad h b => h.wf && b.wf
  | .merge h b => h.wf && b.wf
  | .prefixFind h b | .prefixPublish h b => h.wf && b.wf
  | .pin h b | .unpin h b | .promote h b | .demote h b | .migrate h b | .freeRange h b => h.wf && b.wf
  | .readMem h b | .writeMem h b | .fetchAdd h b | .cmpSwap h b | .vecAdd h b => h.wf && b.wf
  | .earlyCommandRelease | .walkDeadline | .computeDeadline | .lenderDeadline | .resourceRelease => true
  | .l3Forward _ | .partialsMerge _ | .l8AgeExpiry _ | .gradAddPhase _ | .walkComplete _ => true
  | .lenderPartialsReceive _ l level _ _ d _ _ => l < 2 ^ 14 && level < 17 && d < 16
  | .completionSend _ ns => ns < 4096
  | .l8CommandStart ns => ns < 4096
  | .nop _ | .endOp _ | .gmark _ => true
  | .rep _ n len => 1 ≤ n && n ≤ 256 && 1 ≤ len && len ≤ 64
  | .sli _ sd imm => 8 ≤ sd && sd < 16 && -(2 ^ 17) ≤ imm && imm < 2 ^ 17
  | .sadd _ sd sa sb | .ssub _ sd sa sb => 8 ≤ sd && sd < 16 && sa < 16 && sb < 16
  | .azero _ q n => q < 8 && countOk n
  | .kdot _ row n c ci _ _ q => row < 16 && countOk n && chunkOk c ci && q < 16
  | .accv _ row n c ci _ q => row < 16 && countOk n && chunkOk c ci && q < 8
  | .sscl _ row n c ci mk | .sbias _ row n c ci mk => row < 16 && countOk n && chunkOk c ci && mk < 4
  | .smax _ vr row n c ci mk | .sexp _ vr row n c ci mk =>
    vr < 32 && row < 16 && countOk n && chunkOk c ci && mk < 4
  | .rmax _ vr n => vr < 32 && countOk n
  | .vset _ vr n k => vr < 32 && countOk n && k < 3
  | .mset _ mk cond sa c ci => mk < 4 && cond < 4 && sa < 16 && chunkOk c ci
  | .mand _ mk ma mb | .mor _ mk ma mb => mk < 4 && ma < 4 && mb < 4
  | .emit _ vr row n _ q => vr < 32 && row < 16 && countOk n && q < 8
  | .stitchRoundStart t ns | .pauseResume t ns => t < 12 && ns < 4096
  | .tileIssue ns => ns < 4096
  | .tileEnd a ns => a < 192 && ns < 4096
  | .tileAbandon a => a < 192
  | .appendLineWrite d => d.id < 4 && d.ns < 4096
  | .rowStart sample => sample.wf
  | .housekeepingStart | .patternSwitch | .syncUnlock | .holdoverEntry | .holdoverExpiry | .castOnToServing => true
  | .rowEnd _ _ => true
  | .gateListSwitch p => p < 8
  | .syncLock _ => true
  | .holdoverRelock _ | .rowsyncInPulse _ _ | .ppsInEdge _ => true
  | .ptpEventMessage p _ _ => p < 8
  | .nbuStop t r cause => t < 12 && r < 256 && 1 ≤ cause && cause ≤ 3
  | .nbuPauseAckTimeout t r => t < 12 && r < 256
  | .cellStop d a c cause => d < 4 && a < 48 && c < 68 && 1 ≤ cause && cause ≤ 3
  | .stitchSliceFault t sl => t < 12 && sl < 136
  | .walkerFault w => w < 16
  | .spareTakeover target => target.wf
  | .dramCorrectedError t r bank _ _ => t < 12 && r < 256 && bank < 4
  | .dramUncorrectableError a _ => a < 2 ^ 44
  | .dramRowRepair t r bank _ _ => t < 12 && r < 256 && bank < 4
  | .patrolRead t _ _ => t < 12
  | .fallbackDemotionStart | .compactionAutoStart | .compactionSwap | .camRebuildSwap => true
  | .moveStart _ | .moveLand _ | .moveFail _ _ | .promotionRetry _ | .prefetchDrop _ | .lenderAckTimeout _ => true
  | .lenderPassOverExpiry l => l < 2 ^ 14
  | .sequenceClosed slot => slot < 2 ^ 20
  | .indexEntryRelease e => e < 2 ^ 20
  | .camBankRebuild set => set < 16
  | .lend m | .lendAck m | .recall m | .recallData m | .release m | .returnLeaf m => m.wf
  | .poolDeviceFence d | .poolLinkRetrainTimeout d | .poolPoisonLimit d | .fenceSweep d | .moverEvacuate d => d < 16
  | .cxlDeviceEvent d _ => d < 16
  | .annexLinkDown a | .annexLinkUp a => a < 4
  | .moverEngineFault _ | .moverRebuild | .evacuationComplete | .annexPerstInput _ => true
  | .frameReceive p f => p < 8 && f.wf
  | .frameTransmit p ns8 => p < 8 && ns8 < 8 * 4096
  | .dataPacketReceive k => k.wf
  | .ackSend qp => qp < 2 ^ 16
  | .ackReceive qp p cum _ => qp < 2 ^ 16 && p.qp < 2 ^ 16 && p.node < 2 ^ 14 && cum < 2 ^ 24
  | .nakReceive entry index first n => entry < 16448 && index < 8 && first < 2 ^ 16 && n < 2 ^ 16
  | .ackTimeout qp p psn => psn.ns < 4096 && qp < 2 ^ 16 && p.qp < 2 ^ 16 && p.node < 2 ^ 14 && psn.id < 2 ^ 24
  | .pathHoldDownExpiry entry path => entry < 16448 && path < 64
  | .peerUnreachable node dom => node < 2 ^ 14 && dom < 64
  | .connect m | .disconnect m | .register m | .deregister m => m.wf
  | .keyRevoking i | .revocationComplete i => i < 2 ^ 20
  | .qpClosingDone qp | .qpErrorExpiry qp | .quarantineExpiry qp => qp < 2 ^ 16
  | .envelopeMessage qp p d n _ => qp < 2 ^ 16 && p.qp < 2 ^ 16 && p.node < 2 ^ 14 && d < 64 && n < 2 ^ 14
  | .bulkWaitExpiry d => d.id < 64 && d.ns < 4096
  | .trunkErrorFlush d => d < 64
  | .bulkMessage qp rs => qp < 2 ^ 16 && rs.all BulkRecord.wf
  | .policerWrite _ i _ _ => i < 16383
  | .routeEntryWrite _ i _ _ => i < 16448
  | .laneControlWordSend p | .swapDeskewDone p | .linkDown p | .pnExhausted p | .linkRetrainRetry p => p < 8
  | .statusWord p w | .swapRequest p w | .swapAcknowledge p w | .narrowRequest p w | .narrowAcknowledge p w
  | .retrainWord p w | .testWord p w => p < 8 && w.wf
  | .laneFailed p l => p < 8 && l < 9
  | .retrainDone p passed => p < 8 && passed < 512
  | .linkUp p node port d => p < 8 && node < 2 ^ 14 && port < 8 && d < 64
  | .mkaFrame p _ => p < 8
  | .saKeyInstall p a => p < 8 && a < 4
  | .portRetrain _ p | .portEnterTest _ p | .portLeaveTest _ p => p < 8
  | .portSwapLane _ p l => p < 8 && l < 8
  | .prbsCtlWrite _ p l _ => p < 8 && l < 9
  | .patSwitchArm _ row => row < 2 ^ 48
  | .gateSwitchArm _ p row => p < 8 && row < 2 ^ 48
  | .gateSwitchCancel _ p => p < 8
  | .patSwitchCancel _ | .compactStart _ => true
  | .patternWindowWrite _ off _ => off < 2 ^ 19
  | .nbuSpareMap _ t r => t < 12 && r < 256
  | .cellSpareMap _ d a | .arraySpareMap _ d a => d < 4 && a < 48
  | .indexRemove _ e => e < 2 ^ 20
  | .indexFlush _ set => set < 16
  | .bankScopeWrite _ set _ t => set < 16 && t < 4096
  | .qpInspectRead _ qp | .qpInspectClose _ qp => qp < 2 ^ 16
  | .eventTailWrite _ tail => tail < 4096
  | .powerCfgWrite _ v => v < 8
  | .registerWrite _ block off _ => block < 2 ^ 12 && off < 2 ^ 20
  | .nextRowWriteEffect => true
  | .managementRequest node m => node < 2 ^ 14 && m.wf
  | .oobFrame f => f.wf
  | .i3cAccess a _ => a < 2 ^ 44
  | .flashErase _ a | .flashProgram _ a => a < 2 ^ 27
  | .flashOpDone | .powerOnResetRelease _ | .resetN | .fullReset _ | .vaultWatchdogExpiry
  | .faultHandlerWatchdogExpiry | .trainingComplete _ _ | .trainingFail | .portTrainingTimeout | .castonAdmit _
  | .castonCommit _ | .powerRemoved => true
  | .tenantAdmit _ t _ | .tenantWithdraw _ t | .tenantRead _ t | .withdrawalComplete t => t < 4096
  | .spdmRequest _ _ => true
  | .setKey _ t _ _ | .setTicket _ t _ | .clearKey _ t | .clearTicket _ t => t < 4096
  | .setConsent _ t bits => t < 4096 && bits < 8
  | .readLog _ first => first < 2 ^ 32
  | .keySlotEffect | .claimsEffect | .claimsRelease => true
  | .stopClock _ b | .gatePower _ b | .restore _ b | .capture _ b | .fatalError b => b < 256
  | .cancel _ | .gaugeEpochEnd | .drain _ | .submit _ | .bindoffTargetRow | .boundOff | .refclkNet0Fail
  | .bootComplete | .porstNAssert => true
  | .keeperShedRaise load | .keeperShedLower load => load < 2 ^ 14
  | .keeperCoreFault core => core < 3
  | .railOutOfRange r | .railAbsoluteExcursion r | .railRecovery r => r < 13
  | .thermalAlert x _ | .thermalEmergency x _ | .thermalTrip x _ | .thermalClear x | .cutBlockReturn x => x.wf
  | .thermalCapRise t => t < 12
  | .endpointAccess a => a.wf
  | .spdmHeartbeatTimeout _ => true

end Sys2Proof
end

