-- ==== Sys2Proof/Certificates/Slice0/Obligations.lean ====
section
/-! DEFINITION. The statements for the provers. -/

open Sys2Proof Sys2Proof.Machine

/-! ## The step, reset and the invariant -/

/-- The command at the front of the queue is run by `exec` on the state with the queue's rest; with an empty queue the
node idles (the idling is the model's choice, log entry 1). -/
def Obligations.StepRunsTheFrontCommand : Prop :=
  (∀ (c : Instr) (rest : List Instr) (s : State), s.pending = c :: rest → step s = exec c { s with pending := rest }) ∧
  ∀ s : State, s.pending = [] → step s = .next s

/-- The stacks' bytes and the node's tables are in their canonical form, and every command in flight and every move has a
number that has been given out. -/
structure Canonical (s : State) : Prop where
  mem : Mem.wf s.mem = true
  regs : Tbl.wf s.regs = true
  seqs : Tbl.wf s.cat.seqs = true
  leaves : Tbl.wf s.cat.leaves = true
  cards : Tbl.wf s.cat.cards = true
  cmds : Tbl.wf s.work.cmds = true
  moves : Tbl.wf s.mover.moves = true
  cmdNumbers : ∀ p ∈ s.work.cmds, p.1 < s.work.next
  moveNumbers : ∀ p ∈ s.mover.moves, p.1 < s.mover.next

/-- Reset has the canonical form, an empty queue, an empty memory, and every register of the map at its Reset value (R8). -/
def Obligations.ResetHoldsResetValues : Prop :=
  Canonical State.reset ∧ State.reset.pending = [] ∧ State.reset.node.state = .boot ∧
    (∀ a, Mem.get State.reset.mem a = 0) ∧ ∀ block offset, State.reset.stored block offset = resetWord block offset

/-- Every step from a state in canonical form that answers a next state leaves it in canonical form. -/
def Obligations.StepKeepsCanonicalForm : Prop :=
  ∀ s t : State, Canonical s → step s = .next t → Canonical t

/-- No command changes the queue: commands come from outside and leave it only at its front. -/
def Obligations.CommandsLeaveTheQueueAlone : Prop :=
  ∀ (c : Instr) (s t : State), exec c s = .next t → t.pending = s.pending

/-! ## Cache commands (chapters 02 and 08) -/

/-- A cache command reaches its admission in this row: it came on a Ready connection that is no LOAN one, it passes the
checks made at arrival (R196 checks 1 to 4), no FENCE holds it (R201), and it is handled in the present row (R44). -/
def Reaches (i : Instr) (op : Nat) (h : Head) (k : Nat) (c : Conn) (s : State) : Prop :=
  cacheCommand i = some (op, h) ∧ s.sender h = some (k, c) ∧ c.state = .ready ∧ c.cls ≠ 2 ∧
    s.arrivalFail op h (s.scheduled op h c) = none ∧ s.fenced h = false ∧
    handledRow (s.scheduled op h c) h s.row = s.row

/-- The state a command is admitted in: the clock at its last byte. -/
abbrev arrived (s : State) (h : Head) : State := s.tick h.ns

/-- The one message sent since `s` is the completion of a command. -/
def Answers (s t : State) (op : Nat) (h : Head) (o : Outcome) : Prop :=
  t.out = s.out ++ [Sent.completion h.qp h.srcNode h.srcQp h.tag op (s.row % 65536) o]

/-- Nothing of what the node holds for sequences, leaves, keys and memory has changed. -/
def HoldsSame (s t : State) : Prop :=
  t.cat.seqs = s.cat.seqs ∧ t.cat.leaves = s.cat.leaves ∧ t.cat.cards = s.cat.cards ∧ t.mem = s.mem ∧
    t.poison = s.poison ∧ t.xport.keys = s.xport.keys

/-- R44: a scheduled command whose last byte is accepted at or before 3,328 ns is received in this row, and a later one in the next:
it waits there. Received in its intended row a command is handled in it; received one row before, it is held and handled in its
intended row; two or more rows before, it completes with NO_RESOURCE; after, with LATE, cause ARRIVAL, in the row it is received in. -/
def Obligations.ScheduledReceipt : Prop :=
  ∀ (i : Instr) (op : Nat) (h : Head) (k : Nat) (c : Conn) (s : State),
    cacheCommand i = some (op, h) → s.sender h = some (k, c) → s.scheduled op h c = true → s.refusesState op = false →
    (c.state = .ready → s.fenced h = false →
      (s.inFlight.any fun g => sameSender g h && g.tag = h.tag) = false → s.inFlight.length < 4096 →
      (h.ns ≤ 3328 →
        (intendedRow h.rowTag s.row < s.row →
          ∃ t, exec i s = .next t ∧ Answers s t op h (Outcome.tooLate h .arrival) ∧ HoldsSame s t) ∧
        (intendedRow h.rowTag s.row = s.row → exec i s = .next (admitCommand i s.row (arrived s h))) ∧
        (intendedRow h.rowTag s.row = s.row + 1 →
          exec i s = .next { arrived s h with
            work := { s.work with held := s.work.held ++ [⟨s.row + 1, i⟩] } }) ∧
        ((s.row : Int) + 2 ≤ intendedRow h.rowTag s.row →
          ∃ t, exec i s = .next t ∧ Answers s t op h (Outcome.noRes h 0x5) ∧ HoldsSame s t)) ∧
      (3328 < h.ns →
        exec i s = .next { arrived s h with
          work := { s.work with held := s.work.held ++
            [⟨if intendedRow h.rowTag (s.row + 1) = (s.row : Int) + 2 then s.row + 2 else s.row + 1, i⟩] } })) ∧
    (s.work.held.filter (fun w => w.row ≤ s.row) = [⟨s.row, i⟩] →
      exec .earlyCommandRelease s = .next (admitCommand i s.row
        { s with work := { s.work with held := s.work.held.filter fun w => s.row < w.row } }) ∧
      (intendedRow h.rowTag s.row < s.row →
        ∃ t, exec .earlyCommandRelease s = .next t ∧ Answers s t op h (Outcome.tooLate h .arrival) ∧ HoldsSame s t) ∧
      ((s.row : Int) + 2 ≤ intendedRow h.rowTag s.row →
        ∃ t, exec .earlyCommandRelease s = .next t ∧ Answers s t op h (Outcome.noRes h 0x5) ∧ HoldsSame s t))

/-- Nothing the node holds for leaves, keys and memory has changed: only sequences and table pages may have. -/
def LeavesSame (s t : State) : Prop :=
  t.cat.leaves = s.cat.leaves ∧ t.cat.cards = s.cat.cards ∧ t.mem = s.mem ∧ t.poison = s.poison ∧ t.xport.keys = s.xport.keys

/-- OPEN (R203) that passes its checks, that no L8 command waits before, and for which a slot is Closed and the pages of a head
directory are free: a Closed slot opens with the fields of Table 8-7, the command's MODEL, an empty length and a head directory of
its own, and the completion carries its handle. CLOSE (R205) that passes its checks: the sequence goes to Closing and the command
completes at once. No other sequence, no leaf, no card, no key and no byte of memory changes. -/
def Obligations.OpenAndCloseComplete : Prop :=
  (∀ (h : Head) (b : OpenBody) (k : Nat) (c : Conn) (s : State),
    Reaches (.openSeq h b) opOpen h k c s → openFail (arrived s h) c h b = none → s.work.l8 = [] →
    (∃ x < seqSlots, (s.seqAt x).state = .closed) →
    (∃ p, pagesFree s.cat.pages (dirPagesFor b.layers b.kvHeads) p = true) →
    ∃ t slot, exec (.openSeq h b) s = .next t ∧ slot < seqSlots ∧ (s.seqAt slot).state = .closed ∧
      (let q := t.seqAt slot
       q.state = .opened ∧ q.model = h.model ∧ q.tenant = (if b.library then 0xFFF else actingTenant c h) ∧
       q.format = b.format ∧ q.d = b.d ∧ q.layers = b.layers ∧ q.kvHeads = b.kvHeads ∧ q.mirrored = b.mirrored ∧
       q.pinned = b.pinned ∧ q.buddy = b.buddy ∧ q.split = decide (256 < b.d) ∧ q.length = 0 ∧ q.damaged = false ∧
       q.openRow = row48 s.row ∧ q.lastUse = row48 s.row ∧ q.generation = (s.seqAt slot).generation ∧
       (∃ p, pagesFree s.cat.pages (dirPagesFor b.layers b.kvHeads) p = true ∧ q.headDir = p ∧
         t.cat.pages = ((List.range (dirPagesFor b.layers b.kvHeads)).map fun i => p + i) ++ s.cat.pages) ∧
       Answers s t opOpen h { status := .ok, detail := 0, handle := slot * 4096 + q.generation, body := .none }) ∧
      (∀ x, x ≠ slot → t.seqAt x = s.seqAt x) ∧ LeavesSame s t) ∧
  ∀ (h : Head) (k : Nat) (c : Conn) (s : State),
    Reaches (.closeSeq h) opClose h k c s → closeFail (arrived s h) c h = none → s.work.l8 = [] →
    ∃ t, exec (.closeSeq h) s = .next t ∧ Answers s t opClose h (Outcome.good h .none) ∧
      t.seqAt (handleSlot h.handle) = { s.seqAt (handleSlot h.handle) with state := .closing } ∧
      (∀ x, x ≠ handleSlot h.handle → t.seqAt x = s.seqAt x) ∧ LeavesSame s t

/-- FORK (R206, R207): a FORK that no L8 command waits before, that waits for no write and that takes effect opens a new sequence with the source's MODEL, FORMAT,
D, LAYERS and KV_HEADS and the SEQ_FLAGS and BUDDY of its body, and its completion carries the new handle; the source's entry
is unchanged. -/
def Obligations.ForkCompletes : Prop :=
  ∀ (h : Head) (b : OpenBody) (k : Nat) (c : Conn) (s : State),
    Reaches (.fork h b) opFork h k c s → forkFail (arrived s h) c h b = none →
    s.work.l8 = [] → (arrived s h).forkWaits (handleSlot h.handle) b.forkPosition = false →
    ((arrived s h).doFork h (actingTenant c h) b).1.status = .ok →
    ∃ t o slot, exec (.fork h b) s = .next t ∧ Answers s t opFork h o ∧ o.status = .ok ∧
      (let q := s.seqAt (handleSlot h.handle)
       let n := t.seqAt slot
       n.state = .opened ∧ o.handle = handleOf slot n ∧ n.model = q.model ∧ n.format = q.format ∧ n.d = q.d ∧
       n.layers = q.layers ∧ n.kvHeads = q.kvHeads ∧ n.mirrored = b.mirrored ∧ n.pinned = b.pinned ∧ n.buddy = b.buddy ∧
       n.tenant = (if b.library then 0xFFF else actingTenant c h)) ∧
      (s.seqAt slot).state = .closed ∧ ∀ x, x ≠ slot → t.seqAt x = s.seqAt x

/-- APPEND (R176, R208) that passes its checks, with leaves for the blocks it newly enters: it is in flight, the end of its head is
the position after its last, and its job holds the writes of its blocks in order, each block's lines before the raise of its
VALID_COUNT. The bytes of the stacks, the sequences and the cards that stood before do not change yet, and nothing is sent. -/
def Obligations.AppendIsAdmitted : Prop :=
  ∀ (h : Head) (b : AppendBody) (k : Nat) (c : Conn) (g : Option (Nat × SlotRec)) (s u : State),
    Reaches (.append h b) opAppend h k c s → (arrived s h).grant opAppend h c s.row = .ok g →
    appendFail (arrived s h) c h b g s.row = none →
    (arrived s h).allocateBlocks (handleSlot h.handle) b.layer b.head h
      ((blockSpan b.first b.count).filter fun x => ((arrived s h).cardsAt (handleSlot h.handle) b.layer b.head x).isNone) = .ok u →
    appendLast (arrived s h) h b = none →
    ∃ t job m, exec (.append h b) s = .next t ∧ t.out = s.out ∧ t.mem = s.mem ∧ t.poison = s.poison ∧ t.cat.seqs = s.cat.seqs ∧
      t.cat.leaves = u.cat.leaves ∧ t.cat.cards = u.cat.cards ∧ (∀ n x, s.card n = some x → t.card n = some x) ∧
      t.work.appends = s.work.appends ++ [job] ∧ job.cmd = s.work.next ∧ job.seqSlot = handleSlot h.handle ∧
      job.layer = b.layer ∧ job.head = b.head ∧ job.first = b.first ∧ job.endPos = b.first + b.count ∧
      job.scheduled = g.isSome ∧ job.started = false ∧
      job.acts = ((blockSpan b.first b.count).flatMap fun x =>
        ((u.cardsAt (handleSlot h.handle) b.layer b.head x).map
          (u.blockActs (s.seqAt (handleSlot h.handle)) b x)).getD []) ∧
      t.cmd s.work.next = some m ∧ m.opcode = opAppend ∧ m.head = h ∧ m.tenant = actingTenant c h ∧
      m.cls = grantClass g ∧ m.result = none

/-- ATTEND, ATTEND_MULTI and GRAD (R211, R215): one whose walk finds every leaf served, and which, in class L8, no waiting command
that changes its sequence stands before, is in flight with its body and its visits, in the class of its slot; an L8 one joins the
L8 queue at its end. The leaves it reads were last used in this row (R67). Memory does not change and nothing is sent. -/
def Obligations.AttentionIsAdmitted : Prop :=
  ∀ (i : Instr) (op : Nat) (h : Head) (b : AttnBody) (k : Nat) (c : Conn) (g : Option (Nat × SlotRec)) (plan : AttnPlan)
    (s : State),
    ((i = .attend h b ∧ op = opAttend) ∨ (i = .attendMulti h b ∧ op = opAttendMulti) ∨ (i = .grad h b ∧ op = opGrad)) →
    Reaches i op h k c s → (arrived s h).grant op h c s.row = .ok g →
    attnCheck (arrived s h) c op h b g s.row = .ok plan →
    (s.seqAt (handleSlot h.handle)).damaged = false →
    (g = none → s.changeWaits (handleSlot h.handle) = false) →
    s.walkStatus h b.layer b.head (s.visits (handleSlot h.handle) b.layer b.head plan.blocks)
      (grantClass g = .l2 || op = opGrad) = none →
    ∃ t m, exec i s = .next t ∧ t.out = s.out ∧ t.mem = s.mem ∧ t.cat.leaves = s.cat.leaves ∧
      t.cat.cards =
        (s.useCards ((s.visits (handleSlot h.handle) b.layer b.head plan.blocks).flatMap Visit.cards)).cat.cards ∧
      t.cmd s.work.next = some m ∧ m.opcode = op ∧ m.head = h ∧ m.attn = some b ∧ m.cls = grantClass g ∧
      m.tenant = actingTenant c h ∧ m.result = none ∧
      m.visits = s.visits (handleSlot h.handle) b.layer b.head plan.blocks ∧
      t.work.l8 = (if g.isSome then s.work.l8 else s.work.l8 ++ [s.work.next])

/-- MERGE (R216): an admitted MERGE is in flight with its inputs; its result is formed afterwards. -/
def Obligations.MergeIsAdmitted : Prop :=
  ∀ (h : Head) (b : MergeBody) (k : Nat) (c : Conn) (g : Option (Nat × SlotRec)) (s : State),
    Reaches (.merge h b) opMerge h k c s → (arrived s h).grant opMerge h c s.row = .ok g →
    mergeFail (arrived s h) c h b g s.row = none →
    ∃ t m, exec (.merge h b) s = .next t ∧ t.out = s.out ∧ HoldsSame s t ∧ t.cmd s.work.next = some m ∧ m.opcode = opMerge ∧
      m.mergeIn = some b ∧ m.cls = grantClass g ∧ m.result = none ∧
      t.work.l8 = (if g.isSome then s.work.l8 else s.work.l8 ++ [s.work.next])

/-- The state in which a prefix command looks its blocks up: its walk has filled the CLB (R75). -/
abbrev chainWalked (s : State) (h : Head) (b : ChainBody) : State :=
  (arrived s h).walkHeads (handleSlot h.handle) (chainBlocks b)

/-- PREFIX_FIND (R220, R239) that passes its checks, that no L8 command waits before, and whose matches `ns` attach, leaving `u`:
it completes with OK and their number, keeps what attaching made, and the sequence was last used in this row if one matched.
PREFIX_PUBLISH (R221) that passes its checks, that no L8 command waits before, and whose blocks publish with results `rs`, leaving
`v`: it completes with those results under the status R221 gives them, keeps what publishing made, and the sequence was last used
in this row. -/
def Obligations.PrefixCommandsComplete : Prop :=
  (∀ (h : Head) (b : ChainBody) (k : Nat) (c : Conn) (s u : State) (ns : List Nat),
    Reaches (.prefixFind h b) opPrefixFind h k c s → findFail (arrived s h) c h b = none → s.work.l8 = [] →
    (chainWalked s h b).attachWords (fun x => (findSets b).contains x) (handleSlot h.handle) h.handle
      (s.seqAt (handleSlot h.handle)) b.firstBlock (b.words.take b.count) [] = (.done ns, u) →
    ∃ t, exec (.prefixFind h b) s = .next t ∧ Answers u t opPrefixFind h (Outcome.good h (.matched ns.length)) ∧
      t.cat.leaves = u.cat.leaves ∧ t.cat.cards = u.cat.cards ∧ t.index = u.index ∧ t.mem = u.mem ∧
      (ns = [] → t.cat.seqs = u.cat.seqs) ∧
      (ns ≠ [] → t.seqAt (handleSlot h.handle) = { u.seqAt (handleSlot h.handle) with lastUse := row48 s.row }) ∧
      ∀ x, x ≠ handleSlot h.handle → t.seqAt x = s.seqAt x) ∧
  ∀ (h : Head) (b : ChainBody) (k : Nat) (c : Conn) (s u v : State) (pss : List (List Nat)) (rs : List Nat),
    Reaches (.prefixPublish h b) opPrefixPublish h k c s → publishFail (arrived s h) c h b = none → s.work.l8 = [] →
    (s.seqAt (handleSlot h.handle)).damaged = false →
    (chainWalked s h b).reserveRecords (s.seqAt (handleSlot h.handle)) b.count = some (pss, u) →
    u.publishAll (s.seqAt (handleSlot h.handle)) (handleSlot h.handle) h.handle (actingTenant c h) (b.banks % 16) b.priority
      b.firstBlock (b.words.take b.count) pss = (rs, v) →
    ∃ t, exec (.prefixPublish h b) s = .next t ∧ Answers v t opPrefixPublish h (publishOutcome h rs) ∧
      t.index = v.index ∧ t.cat.leaves = v.cat.leaves ∧ t.cat.cards = v.cat.cards ∧ t.mem = v.mem ∧
      t.seqAt (handleSlot h.handle) = { v.seqAt (handleSlot h.handle) with lastUse := row48 s.row } ∧
      ∀ x, x ≠ handleSlot h.handle → t.seqAt x = s.seqAt x

/-- A range command is in flight and waits for moves. -/
def WaitsForMoves (s t : State) (op : Nat) (h : Head) : Prop :=
  t.out = s.out ∧ ∃ m, t.cmd s.work.next = some m ∧ m.opcode = op ∧ m.head = h ∧ m.moves ≠ []

/-- PIN and UNPIN (R223, R224) that no L8 command waits before act on every touched leaf that the tenant owns and that is not Shared:
after a PIN within the pinned limit it is PINNED, and after an UNPIN it is not, but for one that is moving, which an UNPIN keeps to
clear when its move ends. Such a command completes with OK, its two counts making up the leaves touched, or is in flight and waits
for moves: a PIN for the promotion of leaves out of the stacks, an UNPIN for the running moves of its leaves. No other card, no
shelfmark, no sequence, and no leaf's location, state or bytes change. A PIN past the limit completes with NO_SPACE and pins no
leaf. -/
def Obligations.PinAndUnpin : Prop :=
  ∀ (h : Head) (b : RangeBody) (k : Nat) (c : Conn) (s : State),
    let slot := handleSlot h.handle
    let owner := (s.seqAt slot).tenant
    let cards := s.rangeCards slot b
    let takes (n : Nat) : Prop := n ∈ cards.flatten ∧ ∃ x, s.card n = some x ∧ pinnable x owner = true
    let ends (op : Nat) (t : State) : Prop :=
      (∃ n m, n + m = cards.flatten.length ∧ Answers s t op h (rangeOutcome h n m false)) ∨ WaitsForMoves s t op h
    s.work.l8 = [] →
    (Reaches (.pin h b) opPin h k c s → rangeFail (arrived s h) opPin c h b = none →
      (s.pinnedGranules + s.pinAdds owner cards ≤ pinnedLimit →
        ∃ t, exec (.pin h b) s = .next t ∧ ends opPin t ∧ t.mem = s.mem ∧ t.cat.leaves = s.cat.leaves ∧ t.cat.seqs = s.cat.seqs ∧
          (∀ n x, takes n → s.card n = some x → t.card n = some { x with pinned := true }) ∧
          (∀ n, ¬ takes n → t.card n = s.card n) ∧
          ((∀ n x, takes n → s.card n = some x → x.state ≠ .lost → x.inStacks = true ∧ s.leavingStacks n = false) →
            ∃ n m, n + m = cards.flatten.length ∧ Answers s t opPin h (rangeOutcome h n m false))) ∧
      (pinnedLimit < s.pinnedGranules + s.pinAdds owner cards →
        ∃ t, exec (.pin h b) s = .next t ∧ Answers s t opPin h (rangeOutcome h 0 0 true) ∧ HoldsSame s t)) ∧
    (Reaches (.unpin h b) opUnpin h k c s → rangeFail (arrived s h) opUnpin c h b = none →
      ∃ t, exec (.unpin h b) s = .next t ∧ ends opUnpin t ∧ t.mem = s.mem ∧ t.cat.leaves = s.cat.leaves ∧ t.cat.seqs = s.cat.seqs ∧
        (∀ n x, takes n → s.card n = some x →
          t.card n = some { x with pinned := x.pinned && (s.runningMove n).isSome }) ∧
        (∀ n x m, takes n → s.card n = some x → x.pinned = true → s.runningMove n = some m →
          ∃ y, t.cmd s.work.next = some y ∧ (m, n) ∈ y.unpins) ∧
        (∀ n, ¬ takes n → t.card n = s.card n) ∧
        ((∀ n, takes n → s.runningMove n = none) →
          ∃ n m, n + m = cards.flatten.length ∧ Answers s t opUnpin h (rangeOutcome h n m false)))

/-- The leaf has a move to a destination. -/
def MoveTo (s : State) (n : Nat) (dest : Dest) : Prop := ∃ p ∈ s.mover.moves, n ∈ p.2.cards ∧ p.2.dest = dest

/-- PROMOTE, DEMOTE and MIGRATE (R223, R225) that no L8 command waits before, the last two on a sequence no FORK waits for: every
touched leaf that the command may take has a move to the place the command names; with no such leaf the command completes with OK at
once, and with one it is in flight and waits. Cards and bytes do not change. FREE_RANGE (R86, R87, R226) under the same conditions:
every block that lies inside the range is a hole afterwards, every other shelfmark stands, no byte of memory changes, and it
completes with OK and the counts of leaves dropped and passed over; a range whose blocks are all holes completes with ALREADY_FREE
and changes nothing held. -/
def Obligations.RangeCommandsComplete : Prop :=
  (∀ (i : Instr) (op : Nat) (owned : Bool) (dest : Dest) (h : Head) (b : RangeBody) (k : Nat) (c : Conn) (s : State),
    ((i = .promote h b ∧ op = opPromote ∧ owned = false ∧ dest = .stack) ∨
     (i = .demote h b ∧ op = opDemote ∧ owned = true ∧ dest = .annex) ∨
     (i = .migrate h b ∧ op = opMigrate ∧ owned = true ∧ dest = targetOf b)) →
    Canonical s → Reaches i op h k c s → rangeFail (arrived s h) op c h b = none →
    s.work.l8 = [] → (op ≠ opPromote → s.forkPending (handleSlot h.handle) = false) →
    let slot := handleSlot h.handle
    let owner := if owned then some (s.seqAt slot).tenant else none
    let takes (n : Nat) : Prop := ∃ x, s.card n = some x ∧ s.movable x owner dest = true
    ∃ t, exec i s = .next t ∧ t.cat.cards = s.cat.cards ∧ t.mem = s.mem ∧
      (∀ n ∈ (s.rangeCards slot b).flatten, takes n → MoveTo t n dest) ∧
      ((∀ n ∈ (s.rangeCards slot b).flatten, ¬ takes n) →
        Answers s t op h (rangeOutcome h 0 (s.rangeCards slot b).flatten.length false)) ∧
      ((∃ n ∈ (s.rangeCards slot b).flatten, takes n) → WaitsForMoves s t op h)) ∧
  (∀ (h : Head) (b : RangeBody) (k : Nat) (c : Conn) (s : State),
    Reaches (.freeRange h b) opFreeRange h k c s → rangeFail (arrived s h) opFreeRange c h b = none → Canonical s →
    s.work.l8 = [] → s.forkPending (handleSlot h.handle) = false →
    let slot := handleSlot h.handle
    (s.rangeBlocks slot b (isInside b) ≠ [] →
      ∃ t, exec (.freeRange h b) s = .next t ∧ t.mem = s.mem ∧
        Sent.completion h.qp h.srcNode h.srcQp h.tag opFreeRange (s.row % 65536)
          (rangeOutcome h ((s.rangeBlocks slot b (isInside b)).length * (s.seqAt slot).halves)
            ((s.rangeBlocks slot b fun x => touches b x && !isInside b x).length * (s.seqAt slot).halves) false) ∈ t.out ∧
        (∀ x ∈ s.rangeBlocks slot b (isInside b), ∀ f < (s.seqAt slot).halves, t.leafAt slot x.1 x.2.1 f x.2.2 = none) ∧
        ∀ key, (∀ x ∈ s.rangeBlocks slot b (isInside b), ∀ f < (s.seqAt slot).halves, key ≠ leafKey slot x.1 x.2.1 f x.2.2) →
          Tbl.get t.cat.leaves key = Tbl.get s.cat.leaves key) ∧
    (s.rangeBlocks slot b (isInside b) = [] →
      ∃ t, exec (.freeRange h b) s = .next t ∧ HoldsSame s t ∧
        Sent.completion h.qp h.srcNode h.srcQp h.tag opFreeRange (s.row % 65536) (Outcome.bare h .alreadyFree 0) ∈ t.out))

/-- A raw operation on bytes of the stacks is applied at once: no other command or raw operation waits before it, and no region of
its bytes is in a round. -/
def RawClear (s : State) (a n : Nat) : Prop :=
  s.work.l8 = [] ∧ s.work.raws = [] ∧ ∀ r ∈ regionsOf a n, s.inRound r.1 r.2 = false

/-- Nothing of what the node holds has changed but that leaves were last used in this row (R67). -/
def ReadOnly (s t : State) (leaves : List Nat) : Prop :=
  t.cat.cards = (s.useCards leaves).cat.cards ∧ t.cat.seqs = s.cat.seqs ∧ t.cat.leaves = s.cat.leaves ∧ t.mem = s.mem ∧
    t.poison = s.poison ∧ t.xport.keys = s.xport.keys

/-- READ (R227, R442) that nothing holds up: bytes of the stacks that lie in leaf granules below every VALID_COUNT, or in no leaf,
come back as they stand; a poisoned line gives POISONED, DETAIL 0x1. The leaves it meets were last used in this row (R67), and
nothing else held changes. -/
def Obligations.ReadReturnsBytes : Prop :=
  ∀ (h : Head) (b : RawBody) (k : Nat) (c : Conn) (s : State) (i a : Nat),
    Reaches (.readMem h b) opRead h k c s → rawCheck opRead (arrived s h) c h b = .ok (i, a) → a + b.length ≤ stackBytes →
    1 ≤ b.length → RawClear s a b.length →
    (s.poisoned a b.length = false →
      (∀ x, a ≤ x → x < a + b.length → granIsLeaf (x / 16384) = true ∧ ∀ p ∈ s.cat.cards, p.2.undefinedAt x = false) →
      ∃ t, exec (.readMem h b) s = .next t ∧ ReadOnly s t (s.leavesMet a b.length) ∧
        Answers s t opRead h (Outcome.good h (.data (Mem.bytes s.mem a b.length)))) ∧
    (s.poisoned a b.length = true →
      ∃ t, exec (.readMem h b) s = .next t ∧ ReadOnly s t (s.leavesMet a b.length) ∧
        Answers s t opRead h (Outcome.poison h 0x1))

/-- WRITE (R227, R442) that nothing holds up: in the stacks, where it meets no poisoned line in part, exactly the LENGTH bytes at
the region's offset take the payload, whole lines lose their poison, and every other byte of memory, every card, shelfmark, key and
sequence is unchanged. -/
def Obligations.WriteStoresItsBytes : Prop :=
  ∀ (h : Head) (b : RawBody) (k : Nat) (c : Conn) (s : State) (i a : Nat),
    Reaches (.writeMem h b) opWrite h k c s → rawCheck opWrite (arrived s h) c h b = .ok (i, a) → a + b.length ≤ stackBytes →
    RawClear s a b.length → Canonical s → 1 ≤ b.length → b.data.length = b.length → s.edgePoison a b.length = false →
    ∃ t, exec (.writeMem h b) s = .next t ∧ Answers s t opWrite h (Outcome.good h .none) ∧
      (∀ x, a ≤ x → x < a + b.length → Mem.get t.mem x = b.data.getD (x - a) 0) ∧
      (∀ x, x < a ∨ a + b.length ≤ x → Mem.get t.mem x = Mem.get s.mem x) ∧
      (∀ l, l ∈ t.poison ↔ l ∈ s.poison ∧ ¬ (a ≤ l * 64 ∧ l * 64 + 64 ≤ a + b.length)) ∧
      t.cat.cards = s.cat.cards ∧ t.cat.leaves = s.cat.leaves ∧ t.cat.seqs = s.cat.seqs ∧ t.xport.keys = s.xport.keys

/-- The 64-bit number at eight bytes of the stacks, as a raw command reads them. -/
def oldWord (s : State) (a : Nat) : Nat := leNat (s.readBytes a 8)

/-- FETCH_ADD and CMP_SWAP (R227, R230) that nothing holds up: each returns the 8 bytes held before; FETCH_ADD leaves their sum with OPERAND0 modulo
2^64, and CMP_SWAP writes OPERAND1 only if they equal OPERAND0; no byte outside the eight changes, and no card, shelfmark, key or
sequence. -/
def Obligations.AtomicsReadModifyWrite : Prop :=
  ∀ (i : Instr) (op : Nat) (h : Head) (b : RawBody) (k : Nat) (c : Conn) (s : State) (x0 a : Nat),
    ((i = .fetchAdd h b ∧ op = opFetchAdd) ∨ (i = .cmpSwap h b ∧ op = opCmpSwap)) →
    Reaches i op h k c s → rawCheck op (arrived s h) c h b = .ok (x0, a) → RawClear s a 8 → Canonical s →
    s.poisoned a 8 = false →
    b.op0 < 2 ^ 64 → b.op1 < 2 ^ 64 →
    ∃ t, exec i s = .next t ∧ Answers s t op h (Outcome.good h (.data (leBytes 8 (oldWord s a)))) ∧
      leNat (Mem.bytes t.mem a 8) = (if op = opFetchAdd then (oldWord s a + b.op0) % 2 ^ 64
        else if oldWord s a = b.op0 then b.op1 else oldWord s a) ∧
      (∀ x, x < a ∨ a + 8 ≤ x → Mem.get t.mem x = Mem.get s.mem x) ∧ t.cat.cards = s.cat.cards ∧
      t.cat.leaves = s.cat.leaves ∧ t.cat.seqs = s.cat.seqs ∧ t.xport.keys = s.xport.keys

/-- VEC_ADD (R231) that nothing holds up: each of the LENGTH elements becomes the rounded sum of what was read and its element of DATA, all of them or none:
where a sum is not finite no byte changes and the command completes with POISONED, DETAIL 0x4. -/
def Obligations.VecAddIsAllOrNothing : Prop :=
  ∀ (h : Head) (b : RawBody) (k : Nat) (c : Conn) (s : State) (i a : Nat),
    Reaches (.vecAdd h b) opVecAdd h k c s → rawCheck opVecAdd (arrived s h) c h b = .ok (i, a) → RawClear s a (4 * b.length) →
    Canonical s → s.poisoned a (4 * b.length) = false →
    let sums := List.zipWith fadd (floats (s.readBytes a (4 * b.length)) b.length) (floats b.data b.length)
    (sums.all ffinite = true →
      ∃ t, exec (.vecAdd h b) s = .next t ∧ Answers s t opVecAdd h (Outcome.good h .none) ∧
        (∀ j < b.length, leNat (Mem.bytes t.mem (a + 4 * j) 4) = (sums.getD j 0).toNat) ∧
        (∀ x, x < a ∨ a + 4 * b.length ≤ x → Mem.get t.mem x = Mem.get s.mem x) ∧ t.cat.cards = s.cat.cards ∧
        t.cat.leaves = s.cat.leaves ∧ t.cat.seqs = s.cat.seqs ∧ t.xport.keys = s.xport.keys) ∧
    (sums.all ffinite = false →
      ∃ t, exec (.vecAdd h b) s = .next t ∧ Answers s t opVecAdd h (Outcome.poison h 0x4) ∧ HoldsSame s t)

/-- R199 for the raw commands: one refused by its checks answers that refusal and changes nothing held. -/
def Obligations.RefusedRawCommandsChangeNothing : Prop :=
  ∀ (i : Instr) (op : Nat) (h : Head) (b : RawBody) (k : Nat) (c : Conn) (s : State) (o : Outcome),
    ((i = .readMem h b ∧ op = opRead) ∨ (i = .writeMem h b ∧ op = opWrite) ∨ (i = .fetchAdd h b ∧ op = opFetchAdd) ∨
     (i = .cmpSwap h b ∧ op = opCmpSwap) ∨ (i = .vecAdd h b ∧ op = opVecAdd)) →
    Reaches i op h k c s → rawCheck op (arrived s h) c h b = .error o →
    ∃ t, exec i s = .next t ∧ HoldsSame s t ∧
      Sent.completion h.qp h.srcNode h.srcQp h.tag op (s.row % 65536) o ∈ t.out

/-! ## The life of a command (chapter 02) -/

/-- A completion for this header can be sent: the node runs, is not in Fault, and the connection is still there. -/
def Reachable (s : State) (h : Head) : Prop := s.runs = true ∧ s.node.state ≠ .fault ∧ (s.sender h).isSome = true

/-- The command in flight has an outcome decided and not yet sent. -/
def Decided (s : State) (n : Nat) (o : Outcome) : Prop := ∃ m, s.cmd n = some m ∧ m.result = some o ∧ m.stage = .sent

/-- R42, R49, R195: the decided outcome of a scheduled command leaves as one completion with SENT_ROW, a result not before
row n+2 (n+4 in class L3); the command is no longer in flight and every other one is as before. -/
def Obligations.CompletionLeavesOnce : Prop :=
  ∀ (n ns : Nat) (c : Cmd) (o : Outcome) (s : State), Canonical s → s.cmd n = some c → c.result = some o → c.stage = .sent →
    Reachable s c.head →
    (o.status.good = false ∨ c.row + (if c.cls = .l3 then 4 else 2) ≤ s.row →
      ∃ t, exec (.completionSend n ns) s = .next t ∧ t.cmd n = none ∧ (∀ x, x ≠ n → t.cmd x = s.cmd x) ∧
        t.out = s.out ++ [.completion c.head.qp c.head.srcNode c.head.srcQp c.head.tag c.opcode (s.row % 65536) o] ∧ t.mem = s.mem) ∧
    (o.status.good = true → s.row < c.row + (if c.cls = .l3 then 4 else 2) → exec (.completionSend n ns) s = .next s)

/-- R49, R51, R53: at its deadline a scheduled command that has missed the checkpoint is LATE with that checkpoint's cause; an
L8 command still in the queue 4,096 rows after its receipt completes with LATE, cause AGE. -/
def Obligations.MissedCheckpointsAreLate : Prop :=
  ∀ (n : Nat) (c : Cmd) (s : State), Canonical s → s.cmd n = some c → c.result = none →
    (c.cls ≠ .l8 → c.stage = .walking → c.row ≤ s.row →
      ∃ t, exec .walkDeadline s = .next t ∧ Decided t n (Outcome.tooLate c.head .walk)) ∧
    (c.cls ≠ .l8 → c.row + 1 ≤ s.row → (c.cls = .l2 ∨ c.subs = [] ∨ c.work ≠ 0) →
      ∃ t, exec .computeDeadline s = .next t ∧ Decided t n (Outcome.tooLate c.head .compute)) ∧
    (c.cls = .l3 → c.row + 3 ≤ s.row → (∃ u ∈ c.subs, u.status = none) →
      ∃ t, exec .lenderDeadline s = .next t ∧ Decided t n (Outcome.tooLate c.head .lender)) ∧
    (n ∈ s.work.l8 → c.row + 4096 ≤ s.row → Reachable s c.head →
      ∃ t, exec (.l8AgeExpiry n) s = .next t ∧ t.cmd n = none ∧
        Sent.completion c.head.qp c.head.srcNode c.head.srcQp c.head.tag c.opcode (s.row % 65536) (Outcome.tooLate c.head .age) ∈ t.out)

/-- R46, R48, R52, R76: an L3 command's sub-commands go out in row n+1, each with that row's ROW_TAG, the command's model slot, its
lender's handle and the blocks of its group; a lender's answer puts its partials at its group of the tree; a walk that ends leaves
its command walked; the first L8 command, its walk done, starts in a row whose execution entry has L8_OPEN. -/
def Obligations.CommandsProgress : Prop :=
  ∀ (n : Nat) (c : Cmd) (s : State), Canonical s → s.cmd n = some c →
    (∀ b, c.attn = some b → c.cls = .l3 → c.stage = .walked → c.row + 1 = s.row →
      ∃ t m, exec (.l3Forward n) s = .next t ∧ t.cmd n = some m ∧ m.subs = c.subs.map (fun u => { u with isSent := true }) ∧
        t.mem = s.mem ∧ (s.runs = true → s.node.state ≠ .fault → ∀ u ∈ c.subs, u.isSent = false →
          ∃ x, Sent.subCommand x ∈ t.out ∧ x.cmd = n ∧ x.lender = u.lender ∧ x.level = u.level ∧ x.group = u.group ∧
            x.rowTag = s.row % 65536 ∧ x.scheduled = true ∧ x.opcode = c.opcode ∧ x.model = c.head.model ∧ x.handle = u.handle ∧
            x.body = { b with firstBlock := u.group * 2 ^ u.level, blockCount := 2 ^ u.level })) ∧
    (∀ (b : AttnBody) (u : SubCmd) (st : Status) (detail : Nat) (report : List Nat) (ps : List Partial),
      c.attn = some b → u ∈ c.subs → u.isSent = true → u.status = none → (c.cls = .l3 → s.row ≤ c.row + 3) →
      st.good = true → ps.length = b.pairs.length →
      ∃ t m, exec (.lenderPartialsReceive n u.lender u.level u.group st detail report ps) s = .next t ∧ t.cmd n = some m ∧
        m.parts = c.parts ++ lenderParts b u.level u.group ps ∧ m.visits = c.visits ∧ m.result = c.result ∧
        { u with status := some (st, detail), report := report } ∈ m.subs ∧ t.mem = s.mem ∧ t.out = s.out) ∧
    (c.stage = .walking → s.walkerStopped c.seqSlot = false →
      ∃ t m, exec (.walkComplete n) s = .next t ∧ t.cmd n = some m ∧ m.stage = .walked ∧ m.visits = c.visits ∧
        m.result = c.result ∧ HoldsSame s t) ∧
    (∀ (e : RowEntry) (rest : List Nat) (ns : Nat), s.pat.exec = some e → e.l8Open = true → s.work.l8 = n :: rest → n ∉ rest →
      s.work.waiting = [] → s.work.raws = [] → c.deferred = none → c.stage = .walked →
      ∃ t, exec (.l8CommandStart ns) s = .next t ∧ t.work.l8 = rest ∧ t.mem = s.mem ∧ t.cat.cards = s.cat.cards)

/-- R114, R214, R217: once every partial of a scheduled command is in, PARTIALS_MERGE decides it by the merge of its inputs
(MERGE) or of its partials over the range (ATTEND, ATTEND_MULTI). -/
def Obligations.PartialsAreMerged : Prop :=
  ∀ (n : Nat) (c : Cmd) (s : State), Canonical s → s.cmd n = some c → s.partsReady n c = true → c.cls ≠ .l8 →
    (∀ b, c.mergeIn = some b →
      ∃ t, exec (.partialsMerge n) s = .next t ∧ Decided t n (mergeOutcome c.head b) ∧ t.mem = s.mem ∧ t.cat = s.cat) ∧
    (∀ b, c.mergeIn = none → c.attn = some b → c.opcode ≠ opGrad →
      ∃ t, exec (.partialsMerge n) s = .next t ∧ Decided t n (attnOutcome c b (s.seqAt c.seqSlot).d) ∧ t.mem = s.mem ∧
        t.cat = s.cat)

/-! ## Stitch instructions (chapter 05) -/

/-- A context that runs: its record, and its leaf, parameters and block. -/
def Running (s : State) (x : Nat) (c : Ctx) (l : CtxLeaf) (par : Params) (block : Nat) : Prop :=
  Tbl.get s.work.ctxs x = some c ∧ c.ended = false ∧
    ((s.cmd c.cmd).bind fun k => (k.visits[c.visit]?).bind fun v => s.visitEnv k v) = some (l, par, block)

/-- The state with one context replaced. -/
def withCtx (s : State) (x : Nat) (c : Ctx) : State := { s with work := { s.work with ctxs := Tbl.set s.work.ctxs x c } }

/-- What an instruction leaves of a context's owner and inputs, and where it goes on (R123). -/
def Moved (c c' : Ctx) : Prop :=
  c'.cmd = c.cmd ∧ c'.item = c.item ∧ c'.visit = c.visit ∧ c'.pos = c.pos ∧ c'.query = c.query ∧ c'.turn = c.turn ∧
    c'.ended = false ∧ c'.steps = c.steps + 1 ∧ c'.word = c.advance.word ∧ c'.index = c.advance.index ∧ c'.rep = c.advance.rep

/-- Scalar registers after one is written. -/
def Wrote (c c' : Ctx) (sd : Nat) (v : BitVec 32) : Prop :=
  Moved c c' ∧ c'.s.length = c.s.length ∧ c'.s.getD sd 0 = v ∧ (∀ i, i ≠ sd → c'.s.getD i 0 = c.s.getD i 0) ∧
    c'.v = c.v ∧ c'.acc = c.acc ∧ c'.m = c.m ∧ c'.sb = c.sb ∧ c'.emitted = c.emitted ∧ c'.poison = c.poison

/-- Masks after one is written. -/
def Masked (c c' : Ctx) (mk : Nat) (v : BitVec 32) : Prop :=
  Moved c c' ∧ c'.m.length = c.m.length ∧ c'.m.getD mk 0 = v ∧ (∀ i, i ≠ mk → c'.m.getD i 0 = c.m.getD i 0) ∧
    c'.v = c.v ∧ c'.acc = c.acc ∧ c'.s = c.s ∧ c'.sb = c.sb ∧ c'.emitted = c.emitted ∧ c'.poison = c.poison

/-- Everything of a context but its program counter. -/
def SameData (c c' : Ctx) : Prop :=
  c'.s = c.s ∧ c'.v = c.v ∧ c'.acc = c.acc ∧ c'.m = c.m ∧ c'.sb = c.sb ∧ c'.emitted = c.emitted ∧ c'.poison = c.poison

/-- A host access waits at no region of a stack. -/
def NoAccess (s : State) (t : Nat) : Prop := ∃ k, s.stackUnits[t]? = some k ∧ k.conflicts = [] ∧ k.held = []

/-- Table 5-4, R123: SLI writes the sign-extended IMM18, SADD and SSUB wrap modulo 2^32; NOP changes no data; REP enters its
body with I = 0 and the given iterations. Each, where its context may execute it (it is the program's next word, and the round is not
paused and in step, R147 and R149), changes that context alone. R123: after the last word of a REP body the body starts again with
the next I while iterations are left, and the words after it follow when none is. GMARK (R131, R149) moves its context on; the round
goes on while another NBU of it has not executed that GMARK, and pauses with the last one that does. -/
def Obligations.ScalarAndControlInstructions : Prop :=
  (∀ (s : State) (x : Nat) (c : Ctx) (l : CtxLeaf) (par : Params) (block sd sa sb count len : Nat) (imm : Int),
    Running s x c l par block → 8 ≤ sd → sd < c.s.length →
    (s.mayRun c (.sli sd imm) = true →
      ∃ c', exec (.sli x sd imm) s = .next (withCtx s x c') ∧ Wrote c c' sd (BitVec.ofInt 32 imm)) ∧
    (s.mayRun c (.sadd sd sa sb) = true →
      ∃ c', exec (.sadd x sd sa sb) s = .next (withCtx s x c') ∧ Wrote c c' sd (c.s.getD sa 0 + c.s.getD sb 0)) ∧
    (s.mayRun c (.ssub sd sa sb) = true →
      ∃ c', exec (.ssub x sd sa sb) s = .next (withCtx s x c') ∧ Wrote c c' sd (c.s.getD sa 0 - c.s.getD sb 0)) ∧
    (s.mayRun c .nop = true → ∃ c', exec (.nop x) s = .next (withCtx s x c') ∧ SameData c c' ∧ Moved c c') ∧
    (s.mayRun c (.rep count len) = true →
      ∃ c', exec (.rep x count len) s = .next (withCtx s x c') ∧ SameData c c' ∧ c'.index = 0 ∧ c'.word = c.word + 1 ∧
        c'.rep = some ⟨c.word + 1, len, count - 1⟩ ∧ c'.steps = c.steps + 1)) ∧
  (∀ (s : State) (x : Nat) (c : Ctx) (l : CtxLeaf) (par : Params) (block : Nat), Running s x c l par block →
    s.mayRun c .nop = true →
    (c.rep = none → ∃ c', exec (.nop x) s = .next (withCtx s x c') ∧ c'.word = c.word + 1 ∧ c'.rep = none) ∧
    ∀ r, c.rep = some r →
      (c.word + 1 ≠ r.start + r.len → ∃ c', exec (.nop x) s = .next (withCtx s x c') ∧ c'.word = c.word + 1 ∧
        c'.index = c.index ∧ c'.rep = some r) ∧
      (c.word + 1 = r.start + r.len → 0 < r.count → ∃ c', exec (.nop x) s = .next (withCtx s x c') ∧ c'.word = r.start ∧
        c'.index = c.index + 1 ∧ c'.rep = some { r with count := r.count - 1 }) ∧
      (c.word + 1 = r.start + r.len → r.count = 0 → ∃ c', exec (.nop x) s = .next (withCtx s x c') ∧ c'.word = c.word + 1 ∧
        c'.rep = none)) ∧
  ∀ (s : State) (x : Nat) (c : Ctx) (l : CtxLeaf) (par : Params) (block t : Nat) (r : Round), Running s x c l par block →
    Tbl.wf s.work.ctxs = true → s.ctxRound c = some (t, r) → s.mayRun c .gmark = true →
    ((∃ y ∈ s.work.ctxs, y.1 ≠ x ∧ r.items.contains y.2.item = true ∧ y.2.turn ≤ c.turn ∧ y.2.steps ≤ c.steps) →
      ∃ c', exec (.gmark x) s = .next (withCtx s x c') ∧ SameData c c' ∧ Moved c c') ∧
    ((∀ y ∈ s.work.ctxs, y.1 ≠ x → r.items.contains y.2.item = true → c.turn < y.2.turn ∨ c.steps < y.2.steps) → NoAccess s t →
      ∃ v c', exec (.gmark x) s = .next v ∧ v.work.ctxs = Tbl.set s.work.ctxs x c' ∧ SameData c c' ∧ Moved c c' ∧
        (v.stackUnits[t]?).bind Stack.round = some { r with paused := true } ∧ v.mem = s.mem ∧ v.out = s.out)

/-- A slot of an accumulator. -/
def slotOf (c : Ctx) (a p : Nat) : Option Slot := Tbl.get c.acc (256 * a + p)

/-- Table 5-4: MSET sets lane i of its mask where κ COND SA holds, κ being S1 + 32c + i as signed integers; MAND and MOR combine
two masks. Table 5-4: VSET sets every lane of n registers to its constant, RMAX every lane of a register to the largest of
its lanes, and AZERO empties n accumulators; no other register, no other accumulator and nothing else of the context's data
changes. -/
def Obligations.MaskAndVectorInstructions : Prop :=
  (∀ (s : State) (x : Nat) (c : Ctx) (l : CtxLeaf) (par : Params) (block mk ma mb cond sa ch : Nat) (ci : Bool),
    Running s x c l par block → mk < c.m.length →
    (s.mayRun c (.mand mk ma mb) = true →
      ∃ c', exec (.mand x mk ma mb) s = .next (withCtx s x c') ∧ Masked c c' mk (c.m.getD ma 0 &&& c.m.getD mb 0)) ∧
    (s.mayRun c (.mor mk ma mb) = true →
      ∃ c', exec (.mor x mk ma mb) s = .next (withCtx s x c') ∧ Masked c c' mk (c.m.getD ma 0 ||| c.m.getD mb 0)) ∧
    (s.mayRun c (.mset mk cond sa ch ci) = true →
      ∃ c' v, exec (.mset x mk cond sa ch ci) s = .next (withCtx s x c') ∧ Masked c c' mk v ∧
        ∀ i, i < 32 → v.getLsbD i = condHolds cond (c.scalar 1 + 32 * c.chunk ch ci + i) (c.scalar sa))) ∧
  (∀ (s : State) (x : Nat) (c : Ctx) (l : CtxLeaf) (par : Params) (block vr n k q : Nat), Running s x c l par block →
    (s.mayRun c (.vset vr n k) = true →
      ∃ c', exec (.vset x vr n k) s = .next (withCtx s x c') ∧ Moved c c' ∧
        (∀ j i, j < n → i < 32 → c'.lane (vr + j) i = (if k = 0 then fzero else if k = 1 then fnegInf else fone)) ∧
        (∀ r i, i < 32 → (r < vr ∨ vr + n ≤ r) → c'.lane r i = c.lane r i) ∧
        c'.s = c.s ∧ c'.acc = c.acc ∧ c'.m = c.m ∧ c'.sb = c.sb ∧ c'.emitted = c.emitted ∧ c'.poison = c.poison) ∧
    (s.mayRun c (.rmax vr n) = true →
      ∃ c', exec (.rmax x vr n) s = .next (withCtx s x c') ∧ Moved c c' ∧
        (∀ j i, j < n → i < 32 → c'.lane (vr + j) i =
          (List.range 32).foldl (fun m i => fmax m (c.lane (vr + j) i)) (c.lane (vr + j) 0)) ∧
        (∀ r i, i < 32 → (r < vr ∨ vr + n ≤ r) → c'.lane r i = c.lane r i) ∧
        c'.s = c.s ∧ c'.acc = c.acc ∧ c'.m = c.m ∧ c'.sb = c.sb ∧ c'.emitted = c.emitted ∧ c'.poison = c.poison) ∧
    (s.mayRun c (.azero q n) = true →
      ∃ c', exec (.azero x q n) s = .next (withCtx s x c') ∧ Moved c c' ∧
        (∀ a p, p < 256 → slotOf c' a p = if q ≤ a ∧ a < q + n then none else slotOf c a p) ∧
        c'.s = c.s ∧ c'.v = c.v ∧ c'.m = c.m ∧ c'.sb = c.sb ∧ c'.emitted = c.emitted ∧ c'.poison = c.poison))

/-- A score-buffer entry of the rows and the chunk an instruction names. -/
def InRows (row n ch j i : Nat) : Prop := ch < 8 ∧ j < n ∧ i < 32 ∧ row + n ≤ 16

/-- R124, Table 5-4: SSCL and SBIAS compute the masked lanes of their rows and chunk and change no other entry; SEXP writes the
probability and VISIBLE in the masked lanes and clears the others of its chunk. Vectors, masks and accumulators stay. R125:
KDOT writes +0 at positions at or above S2, with no mark where ADD is clear, and below it the dot product of query and key by R102,
added to the entry with ADD set, with the lowest mark of Table 4-2 (an ADD keeping the entry's where that is lower). SMAX raises the
masked lanes of its registers to the scores. Entries, lanes, masks and accumulators that they do not name stay. -/
def Obligations.ScoreInstructions : Prop :=
  (∀ (s : State) (x : Nat) (c : Ctx) (l : CtxLeaf) (par : Params) (block vr row n cn mk : Nat) (ci : Bool),
    let ch := c.chunk cn ci
    Running s x c l par block → ch < 8 → row + n ≤ 16 →
    (s.mayRun c (.sscl row n cn ci mk) = true →
      ∃ c', exec (.sscl x row n cn ci mk) s = .next (withCtx s x c') ∧ Moved c c' ∧
        (∀ j i, InRows row n ch j i → c'.score (row + j) (32 * ch + i) =
          (let e := c.score (row + j) (32 * ch + i)
           if c.masked mk i then { e with value := fmul e.value par.scoreScale } else e)) ∧
        (∀ r p, p < 256 → (r < row ∨ row + n ≤ r ∨ p / 32 ≠ ch) → c'.score r p = c.score r p) ∧
        c'.s = c.s ∧ c'.v = c.v ∧ c'.acc = c.acc ∧ c'.m = c.m ∧ c'.emitted = c.emitted) ∧
    (s.mayRun c (.sbias row n cn ci mk) = true →
      ∃ c', exec (.sbias x row n cn ci mk) s = .next (withCtx s x c') ∧ Moved c c' ∧
        (∀ j i, InRows row n ch j i → c'.score (row + j) (32 * ch + i) =
          (let e := c.score (row + j) (32 * ch + i)
           if c.masked mk i then { e with value := fadd e.value (fmul (par.slopes.getD ((c.scalar 5).toNat + row + j) fzero)
             (fint (c.scalar 1 + (32 * ch + i : Nat) - c.scalar 0))) } else e)) ∧
        (∀ r p, p < 256 → (r < row ∨ row + n ≤ r ∨ p / 32 ≠ ch) → c'.score r p = c.score r p) ∧
        c'.s = c.s ∧ c'.v = c.v ∧ c'.acc = c.acc ∧ c'.m = c.m ∧ c'.emitted = c.emitted) ∧
    (s.mayRun c (.sexp vr row n cn ci mk) = true →
      ∃ c', exec (.sexp x vr row n cn ci mk) s = .next (withCtx s x c') ∧ Moved c c' ∧
        (∀ j i, InRows row n ch j i → c'.score (row + j) (32 * ch + i) =
          (let e := c.score (row + j) (32 * ch + i)
           if c.masked mk i then { e with value := fexp2 (fsub e.value (c.lane (vr + j) 0)), visible := true }
           else ⟨fzero, false, none⟩)) ∧
        (∀ r p, p < 256 → (r < row ∨ row + n ≤ r ∨ p / 32 ≠ ch) → c'.score r p = c.score r p) ∧
        c'.s = c.s ∧ c'.v = c.v ∧ c'.acc = c.acc ∧ c'.m = c.m ∧ c'.emitted = c.emitted)) ∧
  (∀ (s : State) (x : Nat) (c : Ctx) (l : CtxLeaf) (par : Params) (block vr row n cn mk q : Nat) (ci hf add : Bool),
    let ch := c.chunk cn ci
    Running s x c l par block → ch < 8 → row + n ≤ 16 →
    (s.mayRun c (.kdot row n cn ci hf add q) = true →
      ∃ c', exec (.kdot x row n cn ci hf add q) s = .next (withCtx s x c') ∧ Moved c c' ∧
        (∀ j i, InRows row n ch j i → c.scalar 2 ≤ (32 * ch + i : Nat) →
          c'.score (row + j) (32 * ch + i) =
            (let e := c.score (row + j) (32 * ch + i)
             { e with value := fzero, mark := if add then e.mark else none })) ∧
        (∀ j i, InRows row n ch j i → ((32 * ch + i : Nat) : Int) < c.scalar 2 →
          c'.score (row + j) (32 * ch + i) =
            (let e := c.score (row + j) (32 * ch + i)
             let key := s.keyAt (l.half hf) l.fmt l.d (32 * ch + i)
             let query := ((c.query.getD (q + j) []).drop (if hf then l.d else 0)).take l.d
             let y := if add then fadd e.value (dot query key.1 l.d) else dot query key.1 l.d
             let mark := lowCode (lowCode key.2 (if query.all ffinite then none else some 3)) (badResult y)
             { e with value := y, mark := if add then lowCode e.mark mark else mark })) ∧
        (∀ r p, p < 256 → (r < row ∨ row + n ≤ r ∨ p / 32 ≠ ch) → c'.score r p = c.score r p) ∧
        c'.s = c.s ∧ c'.v = c.v ∧ c'.acc = c.acc ∧ c'.m = c.m ∧ c'.emitted = c.emitted ∧ c'.poison = c.poison) ∧
    (s.mayRun c (.smax vr row n cn ci mk) = true →
      ∃ c', exec (.smax x vr row n cn ci mk) s = .next (withCtx s x c') ∧ Moved c c' ∧
        (∀ j i, j < n → i < 32 → c'.lane (vr + j) i =
          if c.masked mk i then fmax (c.lane (vr + j) i) (c.score (row + j) (32 * ch + i)).value else c.lane (vr + j) i) ∧
        (∀ r i, i < 32 → (r < vr ∨ vr + n ≤ r) → c'.lane r i = c.lane r i) ∧
        c'.s = c.s ∧ c'.sb = c.sb ∧ c'.acc = c.acc ∧ c'.m = c.m ∧ c'.emitted = c.emitted))

/-- R126, R127: ACCV writes, for each VISIBLE lane of its chunk, the probability and the weighted value (+0 weighted at or above S2)
into the lane's slot, and no other slot. EMIT writes the partial of each query head ROW + j below S6, and no other. END, where no
line of the stacks is poisoned and no host access waits at the stack, gives the context's partials to the command and ends the
context; with the last context of its round the round ends, and else the round stays. -/
def Obligations.AccumulateAndEmit : Prop :=
  ∀ (s : State) (x : Nat) (c : Ctx) (l : CtxLeaf) (par : Params) (block vr row n cn q : Nat) (ci hf split : Bool),
    let ch := c.chunk cn ci
    Running s x c l par block →
    (s.mayRun c (.accv row n cn ci hf q) = true → ch < 8 → row + n ≤ 16 →
      ∃ c', exec (.accv x row n cn ci hf q) s = .next (withCtx s x c') ∧ Moved c c' ∧
        (∀ j i, InRows row n ch j i →
          slotOf c' (q + j) (32 * ch + i) =
            (let e := c.score (row + j) (32 * ch + i)
             let v := if c.scalar 2 ≤ (32 * ch + i : Nat) then List.replicate l.d fzero
               else (s.valueAt (l.half hf) l.fmt l.d (32 * ch + i)).1
             if e.visible then some ⟨v.map (fmul e.value), e.value⟩ else slotOf c (q + j) (32 * ch + i))) ∧
        (∀ a p, p < 256 → (a < q ∨ q + n ≤ a ∨ p / 32 ≠ ch) → slotOf c' a p = slotOf c a p) ∧
        c'.s = c.s ∧ c'.v = c.v ∧ c'.sb = c.sb ∧ c'.m = c.m ∧ c'.emitted = c.emitted) ∧
    (s.mayRun c (.emit vr row n split q) = true →
      ∃ c', exec (.emit x vr row n split q) s = .next (withCtx s x c') ∧ Moved c c' ∧
        c'.emitted = c.emitted ++ ((List.range n).filter fun j => (((row + j : Nat) : Int) < c.scalar 6 : Bool)).map (fun j =>
          (row + j, c.partialOf l block (vr + j) split (q + j) (q + n + j))) ∧
        c'.s = c.s ∧ c'.v = c.v ∧ c'.sb = c.sb ∧ c'.m = c.m ∧ c'.acc = c.acc) ∧
    ∀ (k : Cmd) (t : Nat) (r : Round), s.mayRun c .endOp = true → s.poison = [] → s.cmd c.cmd = some k → Canonical s →
      Tbl.wf s.work.ctxs = true → s.ctxRound c = some (t, r) → NoAccess s t →
      ∃ v m, exec (.endOp x) s = .next v ∧ v.work.ctxs = Tbl.erase s.work.ctxs x ∧ v.cmd c.cmd = some m ∧
        m.parts = k.parts ++ ctxParts block 0 c ∧ m.poison = lowCode k.poison c.poison ∧ m.work = k.work - 1 ∧
        m.result = k.result ∧ (∀ n, n ≠ c.cmd → v.cmd n = s.cmd n) ∧ v.mem = s.mem ∧ v.out = s.out ∧
        ((∀ y ∈ s.work.ctxs, r.items.contains y.2.item = true → y.1 = x) → (v.stackUnits[t]?).bind Stack.round = none) ∧
        ((∃ y ∈ s.work.ctxs, y.1 ≠ x ∧ r.items.contains y.2.item = true) →
          ∃ p, (v.stackUnits[t]?).bind Stack.round = some { r with paused := p })

/-! ## Rounds, tiles and writes (chapters 06 and 07) -/

/-- The command has completed, or is decided, LATE with cause COMPUTE. -/
def LateCompute (s : State) (n : Nat) (c : Cmd) : Prop := Decided s n (Outcome.tooLate c.head .compute)

/-- R146 to R150: on a stack at which no host access waits, the stitch head issues the next round, scheduled ones first, with at most
EFFECTIVE_CAP items; once one scheduled round does not fit, with the wait for APPEND writes it counts (R178), every scheduled command
with an item not yet issued there is LATE, cause COMPUTE; an L8 round is issued where the row has L8_OPEN and no scheduled item is
left. PAUSE_RESUME lets a round that still fits go on and cuts one that does not. -/
def Obligations.RoundsStartAndResume : Prop :=
  ∀ (t ns : Nat) (k : Stack) (e : RowEntry) (s : State), s.stackUnits[t]? = some k → s.pat.exec = some e →
    k.conflicts = [] → k.held = [] →
    (256 ≤ ns → ns ≤ 3839 → s.roundBusy t = false →
      let u := (s.tick ns).endRound t
      let sched := u.openItems t true
      let r := nextRound (u.roundCap t) sched
      let q := nextRound (u.roundCap t) (u.openItems t false)
      (k.noSched = false → r ≠ [] → u.itemsWait r = false → ns + roundNs r ≤ 3839 →
        r.length ≤ s.fld (rCapNowEffectiveCap t) ∧
        ∃ v o, exec (.stitchRoundStart t ns) s = .next v ∧ v.mem = s.mem ∧ v.out = s.out ∧ v.work.cmds = s.work.cmds ∧
          (v.stackUnits[t]?).bind Stack.round = some o ∧ o.scheduled = true ∧ o.startNs = ns ∧ o.length = roundNs r ∧
          o.items = r.map Prod.fst) ∧
      (k.noSched = false → sched ≠ [] → r = [] ∨ 3839 < ns + u.itemsWaitNs r + roundNs r →
        ∃ v, exec (.stitchRoundStart t ns) s = .next v ∧ v.mem = s.mem ∧
          ∀ x ∈ sched, ∀ c, s.cmd x.2.cmd = some c → c.cls ≠ .l8 → c.result = none → LateCompute v x.2.cmd c) ∧
      (sched = [] → e.l8Open = true → k.noL8 = false → q ≠ [] → u.itemsWait q = false → ns + roundNs q ≤ 3839 →
        ∃ v o, exec (.stitchRoundStart t ns) s = .next v ∧ v.mem = s.mem ∧ v.out = s.out ∧ v.work.cmds = s.work.cmds ∧
          (v.stackUnits[t]?).bind Stack.round = some o ∧ o.scheduled = false ∧ o.items = q.map Prod.fst)) ∧
    ∀ r, k.round = some r → r.paused = true → s.roundBusy t = true →
      (ns + s.roundLeft r ≤ 3839 →
        exec (.pauseResume t ns) s = .next ((s.tick ns).setStack t fun k => { k with round := some { r with paused := false } })) ∧
      (3839 < ns + s.roundLeft r →
        ∃ v, exec (.pauseResume t ns) s = .next v ∧ v.mem = s.mem ∧ (v.stackUnits[t]?).bind Stack.round = none ∧
          (∀ x ∈ v.work.ctxs, x.2.item ∉ r.items) ∧
          ∀ x ∈ s.work.ctxs, x.2.item ∈ r.items → ∀ c, s.cmd x.2.cmd = some c → c.cls ≠ .l8 → c.result = none →
            LateCompute v x.2.cmd c)

/-- R171, R172, R174: a scheduled position or gradient tile that is first in order, before no item of a PATH 01 slot, and would end
by 3,839 ns, its wait for APPEND writes counted (R178), takes the lowest-numbered free array; one that does not fit ends the issue of
scheduled tiles and makes their commands LATE. A position tile whose staged data holds no poison gives its command its partials when
it ends; a tile past 3,839 ns, or abandoned, frees its array and makes its commands LATE. -/
def Obligations.TilesIssueAndEnd : Prop :=
  ∀ (ns a : Nat) (t : Tile) (s : State),
    (∀ e, s.pat.exec = some e → 256 ≤ ns → ns ≤ 3839 → s.arrays.noSched = false →
      s.arrayItems (fun x => x.scheduled && x.path = 1) = [] → firstTile (s.arrays.due.filter fun t => t.scheduled) = some t →
      s.freeArray = some a → s.scheduledArrays < e.arrayCap →
      let len := s.tileSpan t (s.aclk (a / 48))
      (ns + len ≤ 3839 →
        ∃ v, exec (.tileIssue ns) s = .next v ∧ v.mem = s.mem ∧ v.out = s.out ∧ v.work.cmds = s.work.cmds ∧
          v.arrays.due = dropTile t s.arrays.due ∧
          ∃ w m, v.arrays.running =
            s.arrays.running ++ [{ t with array := a, startNs := ns, endNs := ns + len, left := w, staged := m }]) ∧
      (3839 < ns + len →
        ∃ v, exec (.tileIssue ns) s = .next v ∧ v.mem = s.mem ∧ v.arrays.running = s.arrays.running ∧
          (∀ x ∈ v.arrays.due, x.scheduled = false) ∧
          ∀ x ∈ s.arrays.due, x.scheduled = true → ∀ c, s.cmd x.cmd = some c → c.cls ≠ .l8 → c.result = none →
            LateCompute v x.cmd c)) ∧
    (∀ c b, s.arrays.running.find? (fun x => x.array = a) = some t → t.kind = .position → s.cmd t.cmd = some c →
      c.attn = some b → ns ≤ 3839 → ∀ bytes, t.staged = some (bytes, []) →
      let view : State := { s.tick ns with mem := bytes, poison := [] }
      let r := collect (t.visits.flatMap fun i => (List.range t.count).map fun j => view.cellPartials t.cmd c b i (t.first + j))
      ∃ v m, exec (.tileEnd a ns) s = .next v ∧ v.mem = s.mem ∧ v.out = s.out ∧
        v.arrays.running = (s.arrays.running.filter fun u => u.array ≠ a) ∧ v.cmd t.cmd = some m ∧
        m.parts = c.parts ++ r.1 ∧ m.work = c.work - t.visits.length * t.count ∧ m.result = c.result) ∧
    ∀ i, (i = .tileAbandon a ∨ (i = .tileEnd a ns ∧ 3839 < ns ∧ ∃ x ∈ s.arrays.running, x.array = a)) →
      ∃ v, exec i s = .next v ∧ v.mem = s.mem ∧ v.arrays.running = (s.arrays.running.filter fun u => u.array ≠ a) ∧
        ∀ x ∈ s.arrays.running, x.array = a → ∀ n ∈ s.tileCmds x, ∀ c, s.cmd n = some c → c.cls ≠ .l8 → c.result = none →
          LateCompute v n c

/-- R154, R177, R179, R442: between 256 ns and 3,839 ns of a row the next line of a die's APPENDs is written whole, and no other byte
of memory changes; while its region is in a round it waits in a conflict queue, and nothing is written; a line that covers a poisoned
one only in part is not written, and its scheduled APPEND is decided with POISONED, DETAIL 0x1. R184 to R186, R231: a scheduled GRAD
that has formed its sums adds them from row n+2, all or none, where its key is Valid and not revoked; one whose key is not is decided
with REVOKED and adds nothing. -/
def Obligations.DeferredWritesLand : Prop :=
  (∀ (die ns l : Nat) (a : AppendJob) (cells : List Host.Cell) (cards : List Nat) (rest : List AppendAct) (s : State),
    256 ≤ ns → ns ≤ 3839 → s.nextAppend die = some a → a.acts = .line l cells cards :: rest →
    (∀ p ∈ s.work.cmds, p.2.forkIn = none) →
    ((∀ r ∈ regionsOf (l * 64) 64, s.inRound r.1 r.2 = false) →
      (s.lineRefused l cells = false →
        ∃ t, exec (.appendLineWrite ⟨die, ns⟩) s = .next t ∧ t.mem = cells.foldl (fun m c => Mem.set m c.1 c.2) s.mem ∧
          t.cat.leaves = s.cat.leaves ∧ (∀ x, x ∈ t.poison ↔ x ∈ s.poison ∧ (x ≠ l ∨ cells.length < 64))) ∧
      (s.lineRefused l cells = true → ∀ c, s.cmd a.cmd = some c → c.cls ≠ .l8 → c.result = none →
        ∃ t, exec (.appendLineWrite ⟨die, ns⟩) s = .next t ∧ t.mem = s.mem ∧ t.poison = s.poison ∧
          Decided t a.cmd (Outcome.poison c.head 0x1))) ∧
    ((∃ r ∈ regionsOf (l * 64) 64, s.inRound r.1 r.2 = true) →
      ∃ t, exec (.appendLineWrite ⟨die, ns⟩) s = .next t ∧ t.mem = s.mem ∧ t.poison = s.poison ∧ t.cat = s.cat ∧
        t.work.appends = s.work.appends.map fun b => if b.cmd = a.cmd then { b with waits := true } else b)) ∧
  ∀ (n i : Nat) (c : Cmd) (b : AttnBody) (k : Key) (o : Outcome) (s : State), s.cmd n = some c → c.opcode = opGrad →
    c.attn = some b → c.result = some o → o.status.good = true → c.key = some i → Tbl.get s.xport.keys i = some k →
    c.stage ≠ .sent → c.cls ≠ .l8 → c.row + 2 ≤ s.row →
    (∀ p ∈ s.work.cmds, p.1 < n → p.2.opcode = opGrad → p.2.seqSlot = c.seqSlot → p.2.key = none) →
    let d := (s.seqAt c.seqSlot).d
    (k.state = .valid → k.isRevoking s.row = false → ∀ u, s.addGrad c b d (s.gradBase c k) c.sumPositions = some u →
      ∃ t, exec (.gradAddPhase n) s = .next t ∧ t.mem = u.mem ∧ Decided t n o) ∧
    (k.state = .valid → k.isRevoking s.row = false → s.addGrad c b d (s.gradBase c k) c.sumPositions = none →
      ∃ t, exec (.gradAddPhase n) s = .next t ∧ t.mem = s.mem ∧
        Decided t n (Outcome.poison c.head (s.addPoison c b d (s.gradBase c k)))) ∧
    (k.state ≠ .valid ∨ k.isRevoking s.row = true →
      ∃ t, exec (.gradAddPhase n) s = .next t ∧ t.mem = s.mem ∧ Decided t n (Outcome.bare c.head .revoked 0))

/-! ## The row clock (chapters 02 and 18) -/

/-- The machine has its 12 stacks and their sensors. -/
def Whole (s : State) : Prop := s.stackUnits.length = 12 ∧ s.power.stackTemps.length = 12 ∧ s.power.dieTemps.length = 20

/-- R29, R39, R152, R427: ROW_START moves the clock to the first nanosecond of the next row, makes the row's entry the execution entry,
sets the level by the first case of R427 that applies and each stack's EFFECTIVE_CAP to the least of its three caps; memory stays
where no raw command, APPEND or GRAD is in flight, whose effect a row's end may let through (R154, R184). HOUSEKEEPING_START runs
routine swatches only where the execution entry asks for them. -/
def Obligations.RowBoundaries : Prop :=
  ∀ (x : RowSample) (s : State), Whole s → s.runs = true →
    (∃ t, exec (.rowStart x) s = .next t ∧ t.clock = ⟨s.clock.row + 1, 0⟩ ∧ t.pat.exec = s.pat.entry ∧
      t.pat.entry = patEntry s.pat.active (s.clock.row + 1) ∧ t.pat.active = s.pat.active ∧
      (s.work.raws = [] → s.work.appends = [] → (∀ p ∈ s.work.cmds, p.2.opcode ≠ opGrad) → t.mem = s.mem ∧ t.poison = s.poison) ∧
      t.power.peakOver = false ∧
      (s.fld rPowerStatusLevel ≤ 4 → t.fld rPowerStatusLevel = s.nextLevel) ∧
      ∀ k < 12, t.fld (rCapNowEffectiveCap k) =
        min (t.fld (rCapNowPatternCap k)) (min (t.fld (rCapNowGovernorCap k)) (t.fld (rCapNowThermalCap k)))) ∧
    (s.node.state = .serving →
      ∃ t, exec .housekeepingStart s = .next t ∧ t.clock = ⟨s.clock.row, 3840⟩ ∧ t.mem = s.mem ∧
        ∀ e, s.pat.exec = some e → e.swatch = false → t.health.swatch = s.health.swatch)

/-- R426: at the end of a row BUDGET falls by 8, not below 0, where the row's power and 1.5% exceed 1,500 W, and otherwise rises by
1, not above 488,280. It starts full, at 488,280, at power-on and after every full reset. The end of a row changes nothing else
but the row's power and the peak mark. -/
def Obligations.RowEndMovesTheBudget : Prop :=
  State.reset.fld rPowerStatusBudget = 488280 ∧
  (∀ (s : State) (i : Instr), (∃ o, i = .powerOnResetRelease o) ∨ (s.runs = true ∧
      (i = .resetN ∨ i = .vaultWatchdogExpiry ∨ i = .faultHandlerWatchdogExpiry)) →
    ∃ t, exec i s = .next t ∧ t.fld rPowerStatusBudget = 488280) ∧
  (∀ (s : State) (cause fault : Nat), s.runs = true → (s.fullReset cause fault).fld rPowerStatusBudget = 488280) ∧
  ∀ (w p : Nat) (s : State), s.runs = true →
    ∃ t, exec (.rowEnd w p) s = .next t ∧
      t.fld rPowerStatusBudget = (if 1500 * 1000 < w * 1015 then s.fld rPowerStatusBudget - 8
        else min 488280 (s.fld rPowerStatusBudget + 1)) ∧
      t.fld rPowerStatusRowPowerW = min 4095 w ∧ t.fld rPowerStatusLevel = s.fld rPowerStatusLevel ∧
      t.power = { s.power with peakOver := s.power.peakOver || 1900 < p } ∧
      { t with regs := s.regs, power := s.power } = s

/-- R32 to R36, R437: the changes of synchronisation. Lock needs 64 rows within the budget, and steps the
row number and phase, where it does, to those of a PTP time counted from ROW_EPOCH, with the pattern entry of the new row (R31); unlock 8 beyond it, holdover the loss of both
sources, and 4,096 rows of it unlock; leaving Locked in Serving goes back to Cast-on. A ROWSYNC pulse more than 40 ns from PTP is
not used and sets ROWSYNC_FAULT; a PPS edge only leaves its stamp. -/
def Obligations.Synchronisation : Prop :=
  ∀ (s : State),
    (∀ r, s.sync.state = .unlocked → 64 ≤ s.sync.inRange →
      ∃ t, exec (.syncLock r) s = .next t ∧ t.sync.state = .locked ∧ (r = none → t.clock = s.clock ∧ t.pat = s.pat) ∧
        (∀ p, r = some p → t.clock = ⟨(p - s.epoch) / 4096 % 2 ^ 48, (p - s.epoch) % 4096⟩ ∧
          t.pat.entry = patEntry s.pat.active ((p - s.epoch) / 4096 % 2 ^ 48) ∧ t.pat.active = s.pat.active ∧
          t.pat.pending = s.pat.pending ∧ t.pat.armed = s.pat.armed) ∧
        { t with sync := s.sync, clock := s.clock, pat := s.pat } = s) ∧
    (∀ i, Canonical s → (i = .syncUnlock ∧ s.sync.state = .locked ∧ 8 ≤ s.sync.outRange) ∨
        (i = .holdoverExpiry ∧ s.sync.state = .holdover ∧ s.sync.holdSince + 4096 ≤ s.row) ∨
        (∃ o, i = .holdoverRelock o ∧ s.sync.state = .holdover ∧ within o = false) →
      ∃ t, exec i s = .next t ∧ t.sync.state = .unlocked ∧ t.clock = s.clock ∧ t.mem = s.mem ∧
        (s.node.state = .serving ∨ s.node.state = .draining → t.node.state = .castOn ∧
          (t.node.drainHeld = true ↔ s.node.state = .draining) ∧ ∀ p ∈ t.work.cmds, p.2.cls = .l8)) ∧
    (s.sync.state = .locked → s.sync.ptp = false → s.sync.rowsync = false →
      ∃ t, exec .holdoverEntry s = .next t ∧ t.sync = { s.sync with state := .holdover, holdSince := s.row } ∧
        t.node = s.node ∧ t.work = s.work ∧ t.mem = s.mem) ∧
    (∀ o, s.sync.state = .holdover → within o = true →
      ∃ t, exec (.holdoverRelock o) s = .next t ∧ t.sync.state = .locked ∧ t.sync.offset = o ∧ t.clock = s.clock ∧
        t.node = s.node ∧ t.work = s.work ∧ t.mem = s.mem) ∧
    (∀ (o p : Int), s.rackMaster = false → s.sync.ptp = true →
      let d : Int := o - (s.fld rSyncCfgBoardDelay / 8 : Nat)
      ∃ t, exec (.rowsyncInPulse o p) s = .next t ∧ t.sync.rowsync = within (d - p) ∧
        t.sync.offset = (if within (d - p) then d else p) ∧
        (within (d - p) = false → t.fld rSyncStatusRowsyncFault = 1) ∧ t.clock = s.clock ∧ t.mem = s.mem) ∧
    ∀ stamp, exec (.ppsInEdge stamp) s = .next { s with sync := { s.sync with ppsStamp := stamp } }


/-! ## Faults of units and of memory (chapters 06, 07 and 16) -/

/-- R151, R161 to R163, R188, R390: a stopped NBU keeps a record, falls back from the next row and has its group's free spare
tested, and after a check code or a missing acknowledgement the scheduled commands with an open item of it, or with work it served in
the row, are LATE; a stopped cell takes its array out of service from the next row, with a spare cell tested for it, and after a check
code or a gauge its tile and what the array served in the row are withdrawn; a failed head slice ends the round, where no host access
waits; a failed walker loses what its CLB holds. Each enters the fault queue, and memory stays. -/
def Obligations.UnitFaultsAreFenced : Prop :=
  ∀ (s : State),
    (∀ (i : Instr) (t region cause : Nat) (k : Stack),
      (i = .nbuStop t region cause ∨ (i = .nbuPauseAckTimeout t region ∧ cause = 2 ∧ s.inRound t region = true ∧
        ∃ r, k.round = some r ∧ r.paused = true)) →
      s.stackUnits[t]? = some k → region < 256 → 1 ≤ cause → cause ≤ 3 → s.fld (fallbackBit t region) = 0 →
      region ∉ k.fallNext → k.spares[region / 16]? = some .free →
      ∃ v k', exec i s = .next v ∧ v.stackUnits[t]? = some k' ∧ k'.fallNext = region :: k.fallNext ∧
        k'.spares[region / 16]? = some (.testing region s.row) ∧ v.health.faults = s.health.faults ++ [s.row] ∧ v.mem = s.mem ∧
        (t < 12 → s.fld (rNbuFaultValid t) = 0 → v.fld (rNbuFaultValid t) = 1 ∧ v.fld (rNbuFaultCause t) = cause ∧
          v.fld (rNbuFaultRegion t) = region) ∧
        (cause ≠ 3 → ∀ x ∈ s.openItems t true, x.2.region = region → ∀ c, s.cmd x.2.cmd = some c → c.cls ≠ .l8 →
          c.result = none → LateCompute v x.2.cmd c) ∧
        (cause ≠ 3 → ∀ n c, (nbuUnit t region, n) ∈ s.work.served → s.cmd n = some c → c.cls ≠ .l8 → c.result = none →
          LateCompute v n c)) ∧
    (∀ die array cell cause, die < 4 → array < 48 → cell < 68 → 1 ≤ cause → cause ≤ 3 →
      (s.fld (rOutMapArrays die)).testBit array = false → die * 48 + array ∉ s.arrays.outNext →
      s.arrays.testsFor die array = false → s.freeCells die array ≠ 0 →
      ∃ v, exec (.cellStop die array cell cause) s = .next v ∧ v.arrays.outNext = (die * 48 + array) :: s.arrays.outNext ∧
        v.arrays.testing = s.arrays.testing ++ [(.cell die array, s.row)] ∧
        v.health.faults = s.health.faults ++ [s.row] ∧ v.mem = s.mem ∧
        (cause ≠ 2 → (∀ x ∈ v.arrays.running, x.array ≠ die * 48 + array) ∧
          ∀ n c, (arrayUnit (die * 48 + array), n) ∈ s.work.served → s.cmd n = some c → c.cls ≠ .l8 → c.result = none →
            LateCompute v n c) ∧
        (s.fld (rArrayFaultValid die) = 0 → v.fld (rArrayFaultValid die) = 1 ∧ v.fld (rArrayFaultCause die) = cause ∧
          v.fld (rArrayFaultCell die) = cell)) ∧
    (∀ t slice k, s.stackUnits[t]? = some k → slice < 136 → k.slicesFailed < 8 → NoAccess s t →
      ∃ v k', exec (.stitchSliceFault t slice) s = .next v ∧ v.stackUnits[t]? = some k' ∧
        k'.slicesFailed = k.slicesFailed + 1 ∧ (s.roundBusy t = true → k'.round = none) ∧
        v.health.faults = s.health.faults ++ [s.row] ∧ v.mem = s.mem) ∧
    ∀ w, w < 16 →
      ∃ v, exec (.walkerFault w) s = .next v ∧ w ∈ v.cat.walkerDown ∧
        (∀ e ∈ v.cat.clb, e ∈ s.cat.clb ∧ e.walker ≠ (Tbl.get s.cat.walkerMap w).getD w) ∧
        v.health.faults = s.health.faults ++ [s.row] ∧ v.cat.leaves = s.cat.leaves ∧ v.work = s.work ∧ v.mem = s.mem

/-- R163, R164, R189 to R191: a spare under test since row f takes over in row f+5: the region leaves fall-back, or the array is in
service again, on the spare array's place where an array was used. The Keeper's SPARE_CTL starts the test of a free spare, RESULT
running; asked for a region that a test runs for it shows RESULT running, and "no spare" where the group's spare serves, is tested for
another region, or has failed. -/
def Obligations.SparesTakeOver : Prop :=
  ∀ (s : State),
    (∀ t group region f k, t < 12 → s.stackUnits[t]? = some k → k.spares[group]? = some (.testing region f) → region < 256 →
      s.row = f + 5 →
      ∃ v k', exec (.spareTakeover (.nbu t group)) s = .next v ∧ v.stackUnits[t]? = some k' ∧
        k'.spares[group]? = some (.used region) ∧ v.fld (fallbackBit t region) = 0 ∧ v.mem = s.mem ∧ v.out = s.out) ∧
    (∀ d a f, d < 4 → a < 48 → s.testRow (.cell d a) = some f → s.row = f + 5 →
      ∃ v, exec (.spareTakeover (.cell d a)) s = .next v ∧ (v.fld (rOutMapArrays d)).testBit a = false ∧
        Tbl.num v.arrays.spareCells (s.physicalArray d a) = Tbl.num s.arrays.spareCells (s.physicalArray d a) + 1 ∧
        v.mem = s.mem ∧ v.out = s.out) ∧
    (∀ d a f, d < 4 → a < 48 → s.testRow (.array d a) = some f → s.row = f + 5 → Tbl.num s.arrays.spareArrays d < 4 →
      ∃ v, exec (.spareTakeover (.array d a)) s = .next v ∧ (v.fld (rOutMapArrays d)).testBit a = false ∧
        v.fld (rArrayInfoPhysical d a) = 48 + Tbl.num s.arrays.spareArrays d ∧
        Tbl.num v.arrays.spareArrays d = Tbl.num s.arrays.spareArrays d + 1 ∧ v.mem = s.mem ∧ v.out = s.out) ∧
    (s.runs = true → s.fld rBootStatusImage ≠ 0 →
      (∀ t region k, t < 12 → region < 256 → s.stackUnits[t]? = some k →
        (k.spares[region / 16]? = some .free →
          ∃ v k', exec (.nbuSpareMap .keeper t region) s = .next v ∧ v.stackUnits[t]? = some k' ∧
            k'.spares[region / 16]? = some (.testing region s.row) ∧ v.fld (rSpareCtlResult t) = 1 ∧ v.mem = s.mem) ∧
        (∀ f, k.spares[region / 16]? = some (.testing region f) →
          ∃ v, exec (.nbuSpareMap .keeper t region) s = .next v ∧ v.stackUnits = s.stackUnits ∧
            v.fld (rSpareCtlResult t) = 1 ∧ v.mem = s.mem) ∧
        (∀ x, k.spares[region / 16]? = some x → x ≠ .free → (∀ f, x ≠ .testing region f) →
          ∃ v, exec (.nbuSpareMap .keeper t region) s = .next v ∧ v.stackUnits = s.stackUnits ∧
            v.fld (rSpareCtlResult t) = 3 ∧ v.mem = s.mem)) ∧
      (∀ d a, d < 4 → a < 48 → s.freeCells d a ≠ 0 →
        ∃ v, exec (.cellSpareMap .keeper d a) s = .next v ∧ v.arrays.testing = s.arrays.testing ++ [(.cell d a, s.row)] ∧
          v.fld (rAttSpareCtlResult d) = 1 ∧ v.mem = s.mem) ∧
      ∀ d a, d < 4 → a < 48 → s.freeSpareArrays d ≠ 0 →
        ∃ v, exec (.arraySpareMap .keeper d a) s = .next v ∧ v.arrays.testing = s.arrays.testing ++ [(.array d a, s.row)] ∧
          v.fld (rAttSpareCtlResult d) = 1 ∧ v.mem = s.mem)

/-- R385 to R387, R442: a corrected error is counted and changes no byte; an uncorrectable one makes exactly its line poison, and
the leaf a patrol, walk or scrub reads there is Lost, the sequence damaged; patrol reading makes every leaf with a poisoned line
among those it reads Lost; a row repair takes a spare row and changes no byte and no poison. -/
def Obligations.DramErrors : Prop :=
  ∀ (s : State),
    (∀ t region bank row column, t < 12 → region < 256 → bank < 4 →
      ∃ v, exec (.dramCorrectedError t region bank row column) s = .next v ∧
        v.fld (rEccCountsCorrected t) = min (rEccCountsCorrected t).max (s.fld (rEccCountsCorrected t) + 1) ∧
        v.mem = s.mem ∧ v.poison = s.poison ∧ v.cat = s.cat ∧ v.work = s.work ∧ v.out = s.out) ∧
    (∀ addr reader, addr < stackBytes →
      ∃ v, exec (.dramUncorrectableError addr reader) s = .next v ∧ v.mem = s.mem ∧
        (∀ l, l ∈ v.poison ↔ l ∈ s.poison ∨ l = lineOf addr) ∧
        (reader = .command → v.cat = s.cat) ∧
        (reader = .patrol → ∀ n c, Canonical s → s.card n = some c → s.cardMeets n c (lineOf addr * 64) 64 = true →
          ∃ c', v.card n = some c' ∧ c'.state = .lost) ∧
        (∀ n c, reader = .card n → s.card n = some c → ∃ c', v.card n = some c' ∧ c'.state = .lost ∧ c'.loc = c.loc) ∧
        (∀ slot, reader = .sequence slot → slot < seqSlots → (v.seqAt slot).damaged = true)) ∧
    (∀ t first lines, ∃ v, exec (.patrolRead t first lines) s = .next v ∧ v.mem = s.mem ∧ v.poison = s.poison ∧
      ∀ l ∈ s.poison, (stackLine l).1 = t → first ≤ (stackLine l).2 → (stackLine l).2 < first + lines →
        ∀ n c, Canonical s → s.card n = some c → s.cardMeets n c (l * 64) 64 = true →
          ∃ c', v.card n = some c' ∧ c'.state = .lost) ∧
    ∀ t region bank row k, t < 12 → region < 256 → bank < 4 → s.stackUnits[t]? = some k →
      Tbl.num k.rowSpares (region * 4 + bank) < 8 →
      ∃ v k', exec (.dramRowRepair t region bank row none) s = .next v ∧ v.stackUnits[t]? = some k' ∧
        Tbl.num k'.rowSpares (region * 4 + bank) = Tbl.num k.rowSpares (region * 4 + bank) + 1 ∧
        v.fld (rRepairSpareRowsLeft t) = s.fld (rRepairSpareRowsLeft t) - 1 ∧ v.mem = s.mem ∧ v.poison = s.poison

/-! ## The states of the node (chapters 01 and 14) -/

/-- A change of state that Table 1-8 lists. A full reset goes through Fault to Boot within one step, and every power-on goes to
Boot. -/
def NodeMoves (a b : NodeState) : Prop :=
  a = b ∨ b = .off ∨ b = .boot ∨ (b = .fault ∧ a ≠ .off) ∨ (a = .boot ∧ b = .training) ∨ (a = .training ∧ b = .attested) ∨
    (a = .attested ∧ b = .castOn) ∨ (a = .castOn ∧ (b = .serving ∨ b = .draining ∨ b = .boundOff)) ∨
    (a = .serving ∧ (b = .draining ∨ b = .castOn)) ∨ (a = .draining ∧ (b = .castOn ∨ b = .boundOff))

/-- R26: whatever happens, the node changes state only as Table 1-8 lists. -/
def Obligations.NodeStatesFollowTheTable : Prop :=
  ∀ s t : State, step s = .next t → NodeMoves s.node.state t.node.state

/-- A message that does not use the network ports. -/
def Aside : Sent → Prop
  | .mgmtReply path _ _ _ _ => path = .oob
  | .i3cReply _ => True
  | .vault _ _ _ _ _ => True
  | .endpointData _ _ => True
  | .rowsyncOut _ => True
  | .ppsOut _ => True
  | _ => False

/-- R27, R28: while the node is in Fault, a step leaves it there or resets it (or removes its power): then it holds no command, no
sequence, no leaf and no byte of the stacks; and a step that leaves it in Fault sends nothing on the network ports. -/
def Obligations.FaultEndsOnlyByReset : Prop :=
  ∀ s t : State, s.node.state = .fault → step s = .next t →
    (t.node.state = .fault ∧ ∃ l, t.out = s.out ++ l ∧ ∀ m ∈ l, Aside m) ∨
    ((t.node.state = .boot ∨ t.node.state = .off) ∧ t.work = State.reset.work ∧ t.cat = State.reset.cat ∧ t.mem = [] ∧
      t.xport.keys = [] ∧ t.xport.conns = [])

/-- R361, R390, R400, R436, Table 1-8: a fatal error, a training that fails and the loss of the reference clock enter Fault with
the cause recorded, nothing in flight and nothing sent. -/
def Obligations.FatalErrorsEnterFault : Prop :=
  ∀ (i : Instr) (cause : Nat) (s : State), s.node.state ≠ .off → s.node.state ≠ .fault →
    ((∃ b, i = .fatalError b ∧ (b < 0x00C ∨ b = 0x070 ∨ b = 0x038 ∨ b = 0x040 ∨ b = 0x050 ∨ b = 0x058) ∧ cause = 0x04) ∨
     (i = .refclkNet0Fail ∧ cause = 0x04) ∨ (i = .trainingFail ∧ s.node.state = .training ∧ cause = 0x03)) →
    ∃ t, exec i s = .next t ∧ t.node.state = .fault ∧ t.fld rGlobalStatusFaultCause = cause ∧ t.work.cmds = [] ∧
      t.work.held = [] ∧ t.work.waiting = [] ∧ t.work.raws = [] ∧ t.out = s.out ∧ t.mem = s.mem ∧ t.cat = s.cat


/-! ## Tiers, loans and the annex (chapter 10) -/

/-- R249, R252, R255, R257, R265, R266, R270: a queued move to the stacks that the classes let start (`turnOf`, R266) takes a channel of
its class with its destination reserved, and its leaf is Moving at its old place; with no free channel it waits. A move that has read
its leaf lands: the leaf lies in the stacks and is Moving no longer, and the move is gone. Below LOW_WATER, or until HIGH_WATER is
reached after it, the first victim of R250 is queued for a destination where it has one. -/
def Obligations.MovesStartAndLand : Prop :=
  ∀ (n : Nat) (m : Move) (cs : List (Nat × Card)) (s : State), Canonical s → Tbl.get s.mover.moves n = some m →
    s.moveCards m = some cs →
    (∀ i ch p c hs u v, (i = .moveStart n ∨ (i = .promotionRetry n ∧ m.cls = .demand)) → m.started = none →
      s.freeChannel m.cls = some ch → s.isMoving m.cards = false → s.inQueue n m.cls = true →
      Tbl.get s.vault.blocks 0x060 = none →
      (m.cls = .prefetch → s.fld rWaterLowWater ≤ s.freeGranules ∧ s.row < m.queued + 64) → s.moveDone m cs = false →
      m.dest = .stack → s.turnOf m cs = some v → cs.head? = some (p, c) →
      v.takeLeaf (placement (handleSlot c.handle) c.layer c.head c.block) c.format c.d cs.length = (some hs, u) →
      ∃ t m', exec i s = .next t ∧ Tbl.get t.mover.moves n = some m' ∧ m'.started = some s.row ∧ m'.channel = ch ∧
        m'.granules = hs.map (fun h => runOf h.granule (leafGranules c.format c.d)) ∧ m'.scales = hs.map HalfLoc.scale ∧
        (∀ q ∈ cs, ∃ x, t.card q.1 = some x ∧ x.state = .moving q.2.isShared ∧ x.loc = q.2.loc) ∧ t.mem = s.mem) ∧
    (s.freeChannel m.cls = none → exec (.moveStart n) s = .next s) ∧
    (∀ xs u, m.started ≠ none → m.dest = .stack → (∀ p ∈ cs, p.2.onLoan = true → (Tbl.get m.recalled p.1).isSome = true) →
      s.readSource m cs = (some xs, u) → m.granules.length = cs.length → m.scales.length = cs.length →
      ∃ t, exec (.moveLand n) s = .next t ∧ Tbl.get t.mover.moves n = none ∧
        ∀ p ∈ cs, ∃ x g, t.card p.1 = some x ∧ x.loc = .stack g ∧ ∀ b, x.state ≠ .moving b) ∧
    ∀ p rest u, s.freeGranules < s.fld rWaterLowWater ∨ s.mover.demoting = true → s.freeGranules + s.outgoing < s.fld rWaterHighWater →
      s.victims = p :: rest → s.demoteOne p = (true, u) →
      ∃ t, exec .fallbackDemotionStart s = .next t ∧ t.cat.cards = s.cat.cards ∧ t.mem = s.mem ∧
        ∃ x ∈ t.mover.moves, p.1 ∈ x.2.cards ∧ x.2.fallback = true

/-- A card is at the place it had and Moving no longer; PINNED is as before but where an UNPIN waited for the move's end (R224). -/
def Settled (s t : State) (n : Nat) (p : Nat × Card) : Prop :=
  ∃ x, t.card p.1 = some x ∧ { x with pinned := p.2.pinned } = p.2.settle ∧ (s.unpinsAt n = [] → x.pinned = p.2.pinned)

/-- R251, R254, R257, R390, Table 10-1: a move that fails at its destination ends with its leaf at its source, and one that cannot read
its source makes the leaf Lost; a prefetch not started in 64 rows is dropped; a lender that has not answered a LEND for 64 rows is
passed over for 256, and a fall-back victim or a returned leaf goes on to the next lender; an engine's fault queues its move again. No
byte of the stacks changes. -/
def Obligations.MovesFail : Prop :=
  ∀ (n : Nat) (m : Move) (cs : List (Nat × Card)) (s : State), Canonical s → Tbl.get s.mover.moves n = some m →
    s.moveCards m = some cs →
    (m.started ≠ none → m.fallback = false → m.dest = .stack ∨ m.dest = .annex →
      ∃ t, exec (.moveFail n .destination) s = .next t ∧ Tbl.get t.mover.moves n = none ∧ t.mem = s.mem ∧
        t.fld rMovesFailed = min rMovesFailed.max (s.fld rMovesFailed + 1) ∧ ∀ p ∈ cs, Settled s t n p) ∧
    (∀ why, m.started ≠ none → why = .sourceRead ∨ why = .crc →
      ∃ t, exec (.moveFail n why) s = .next t ∧ Tbl.get t.mover.moves n = none ∧ t.mem = s.mem ∧
        ∀ p ∈ cs, ∃ x, t.card p.1 = some x ∧ x.state = .lost) ∧
    (m.cls = .prefetch → m.started = none → m.queued + 64 ≤ s.row →
      ∃ t, exec (.prefetchDrop n) s = .next t ∧ Tbl.get t.mover.moves n = none ∧ t.mem = s.mem ∧ t.cat.leaves = s.cat.leaves ∧
        (s.unpinsAt n = [] → t.cat.cards = s.cat.cards)) ∧
    (∀ r l, m.lentAt = some r → m.dest = .loan l → r + 64 ≤ s.row →
      (m.fallback = false → m.returns = false →
        ∃ t, exec (.lenderAckTimeout n) s = .next t ∧ Tbl.get t.mover.moves n = none ∧
          Tbl.get t.mover.passed l = some (s.row + 256) ∧ t.mem = s.mem ∧ ∀ p ∈ cs, Settled s t n p) ∧
      ∀ l', m.fallback = true ∨ m.returns = true → m.acks = [] →
        { s with mover := { s.mover with passed := Tbl.set s.mover.passed l (s.row + 256) } }.nextLender cs = some l' →
        ∃ t x, exec (.lenderAckTimeout n) s = .next t ∧ Tbl.get t.mover.moves n = some x ∧ x.dest = .loan l' ∧ x.started = none ∧
          x.cards = m.cards ∧ Tbl.get t.mover.passed l = some (s.row + 256) ∧ t.mem = s.mem ∧
          ∀ p ∈ cs, t.card p.1 = some p.2.settle) ∧
    (m.started ≠ none →
      ∃ t x, exec (.moverEngineFault n) s = .next t ∧ Tbl.get t.mover.moves n = some x ∧ x.started = none ∧ x.dest = m.dest ∧
        x.cards = m.cards ∧ x.lentAt = none ∧ t.mem = s.mem ∧ ∀ p ∈ cs, t.card p.1 = some p.2.settle) ∧
    ∀ l r, Tbl.get s.mover.passed l = some r → r ≤ s.row →
      exec (.lenderPassOverExpiry l) s = .next { s with mover := { s.mover with passed := Tbl.erase s.mover.passed l } }

/-- A loan message came on the Ready LOAN queue pair of its sender. -/
def OnLoan (s : State) (m : LoanMsg) : Prop :=
  ∃ k c, s.conn m.qp m.src s.domain m.srcQp = some (k, c) ∧ c.state = .ready ∧ c.cls = 2

/-- R258, R259, R263: a LEND that the lender takes is a Sealed leaf under the CRC it came with and is acknowledged with its loan slot,
one it refuses is answered with the RESULT and changes nothing; RECALL is answered with the leaf's bytes and keeps them; RELEASE
frees the loan slot and the leaf's shelfmark; LEND_ACK puts the borrower's leaf on loan; RECALL_DATA keeps the data for the
landing; RETURN records the leaf's way out of loan, beside any other move of it: to the stacks at LOW_WATER or above, otherwise by
R251. -/
def Obligations.LoansAreServed : Prop :=
  ∀ (m : LoanMsg) (s : State), Canonical s → Tbl.wf s.cat.lent = true → OnLoan s m → s.runs = true → s.node.state ≠ .fault →
    (∀ k h u, s.takeLoan m = .ok (k, h, u) →
      ∃ t x c, exec (.lend m) s = .next t ∧ t.out = u.out ++ [.loan .lendAck m.src (loanAnswer m loanOk k h)] ∧
        Tbl.get t.cat.lent k = some x ∧ x.borrower = m.src ∧ x.borrowerHandle = m.borrowerHandle ∧ t.card x.card = some c ∧
        c.state = .sealed ∧ c.valid = 256 ∧ c.crc = m.crc ∧ c.origin = m.origin) ∧
    (∀ e, s.takeLoan m = .error e →
      ∃ t, exec (.lend m) s = .next t ∧ t.out = s.out ++ [.loan .lendAck m.src (loanAnswer m e 0 m.lenderHandle)] ∧
        t.cat = s.cat ∧ t.mem = s.mem) ∧
    (∀ x c l, s.loanNamed m = some x → s.card x.card = some c → c.state ≠ .lost → c.place = some l →
      s.leafPoisoned l c.format c.d = false →
      ∃ t, exec (.recall m) s = .next t ∧ t.cat = s.cat ∧ t.mem = s.mem ∧
        t.out = s.out ++ [.loan .recallData m.src { loanAnswer m loanOk m.loanSlot m.lenderHandle with
          crc := c.crc, data := s.leafData l c.format c.d }]) ∧
    (∀ x, s.loanNamed m = some x → Tbl.get s.cat.leaves x.key = some x.card →
      ∃ t, exec (.release m) s = .next t ∧ Tbl.get t.cat.lent m.loanSlot = none ∧ Tbl.get t.cat.leaves x.key = none ∧
        t.mem = s.mem ∧ ((∀ p ∈ s.cat.lent, p.2.slot = x.slot → p.1 = m.loanSlot) → (t.seqAt x.slot).state = .closing)) ∧
    (∀ n c k v, s.cardNamed m (fun n _ => (s.lendMove m.src n).isSome) = some (n, c) → s.lendMove m.src n = some (k, v) →
      v.cards = [n] → m.result = loanOk →
      ∃ t x, exec (.lendAck m) s = .next t ∧ t.card n = some x ∧ x.loc = .loan m.src m.loanSlot ∧
        Tbl.get t.mover.moves k = none ∧ t.mem = s.mem) ∧
    (∀ n c k v, s.cardNamed m (fun n c => c.loc = .loan m.src m.loanSlot && s.mover.moves.any fun p =>
        p.2.started.isSome && p.2.cards.contains n) = some (n, c) →
      (s.mover.moves.find? fun p => p.2.started.isSome && p.2.cards.contains n) = some (k, v) → v.dest = .stack →
      m.result = loanOk →
      ∃ t x, exec (.recallData m) s = .next t ∧ Tbl.get t.mover.moves k = some x ∧
        Tbl.get x.recalled n = some (slice m.data 0 c.bytes) ∧ t.cat = s.cat ∧ t.mem = s.mem ∧ t.out = s.out) ∧
    ∀ n c, s.cardNamed m (fun _ c => c.loc = .loan m.src m.loanSlot) = some (n, c) → s.isReturned n = false →
      s.partner n = none →
      ∃ t k x, exec (.returnLeaf m) s = .next t ∧ Tbl.get t.mover.moves k = some x ∧ x.cards = [n] ∧ x.cls = .evict ∧
        x.returns = true ∧ x.started = none ∧ t.cat = s.cat ∧ t.mem = s.mem ∧ t.out = s.out ∧
        x.dest = if s.fld rWaterLowWater ≤ s.freeGranules then .stack else (s.fallDest [(n, c)] false).getD .annex

/-- R275, R276, R278, R390, R439: each of the four causes fences a pool device; the sweep makes every leaf Lost that has no parity and
touches the fenced device; the links follow their events and, for A0 as endpoint, ANNEX_PERST_N0; an endpoint read that is
admitted returns the bytes, or poison where it meets poison, and a write stores them, or nothing where it covers a poisoned line in
part, once no raw operation waits before it and its bytes lie under no round (R154); one that the region check refuses, or that
comes before Serving, returns poison or is dropped, both counted. -/
def Obligations.AnnexPoolAndPorts : Prop :=
  ∀ (s : State),
    (∀ i dev, (i = .poolDeviceFence dev ∨ (i = .poolLinkRetrainTimeout dev ∧ s.linkLost = true) ∨
        (i = .poolPoisonLimit dev ∧ 16 ≤ s.recentPoison dev) ∨ i = .cxlDeviceEvent dev true) → dev < s.mover.devices → dev < 16 →
      ∃ t, exec i s = .next t ∧ (t.fld rPoolStatusFenced).testBit dev = true ∧ t.cat = s.cat ∧ t.mem = s.mem) ∧
    (∀ dev, dev < s.mover.devices →
      ∃ t, exec (.cxlDeviceEvent dev false) s = .next t ∧
        Tbl.num t.health.counts (gaugeKey 5 dev) = Tbl.num s.health.counts (gaugeKey 5 dev) + 4 ∧
        { t with health := s.health } = s) ∧
    (∀ dev, (s.fld rPoolStatusFenced).testBit dev = true →
      ∃ t, exec (.fenceSweep dev) s = .next t ∧ t.mem = s.mem ∧
        ∀ p ∈ s.mover.copies, p.2.parity = false → s.copyTouches p.2 dev = true → ∀ c, s.card p.1 = some c →
          ∃ x, t.card p.1 = some x ∧ x.state = .lost) ∧
    (∀ a, a < 4 →
      (∃ t, exec (.annexLinkDown a) s = .next t ∧ t.fld (rAnnexLinkLink a) = 0 ∧ t.cat = s.cat ∧ t.mem = s.mem ∧ t.out = s.out) ∧
      (s.fld (rAnnexLinkLink a) < 2 → Tbl.get s.vault.blocks (0x068 + a) = none →
        (s.isEndpoint a = true → s.mover.perstHigh = true) →
        ∃ t, exec (.annexLinkUp a) s = .next t ∧ t.fld (rAnnexLinkLink a) = (if s.isEndpoint a then 3 else 2) ∧
          t.cat = s.cat ∧ t.mem = s.mem ∧ t.out = s.out)) ∧
    (∀ high, ∃ t, exec (.annexPerstInput high) s = .next t ∧ t.mover.perstHigh = high ∧ t.cat = s.cat ∧ t.mem = s.mem ∧
      (s.isEndpoint 0 = true → high = false → t.fld (rAnnexLinkLink 0) = 0 ∧ t.mover.endpointUp = (s.mover.endpointUp &&
        s.fld (rAnnexLinkLink 0) = 0))) ∧
    (∀ x a, s.mover.endpointUp = true → s.node.state = .serving ∨ s.node.state = .draining → s.endpointTarget x = some a →
      RawClear s a x.length → 1 ≤ x.length →
      (∀ bs, x.write = some bs → a + x.length ≤ stackBytes → bs.length = x.length → Canonical s →
        (s.edgePoison a x.length = false →
          ∃ t, exec (.endpointAccess x) s = .next t ∧ t.out = s.out ∧
            (∀ y, a ≤ y → y < a + x.length → Mem.get t.mem y = bs.getD (y - a) 0) ∧
            (∀ y, y < a ∨ a + x.length ≤ y → Mem.get t.mem y = Mem.get s.mem y) ∧ t.cat = s.cat) ∧
        (s.edgePoison a x.length = true →
          ∃ t, exec (.endpointAccess x) s = .next t ∧ t.out = s.out ∧ t.mem = s.mem ∧ t.poison = s.poison ∧ t.cat = s.cat)) ∧
      (x.write = none →
        ∃ t, exec (.endpointAccess x) s = .next t ∧ t.mem = s.mem ∧ t.poison = s.poison ∧ t.cat = s.cat ∧
          t.out = s.out ++ [if s.readsPoison a x.length then .endpointData [] true
            else .endpointData (s.readBytes a x.length) false])) ∧
    ∀ x, s.mover.endpointUp = true →
      (s.node.state = .serving ∨ s.node.state = .draining → s.endpointTarget x = none) →
      ∃ t, exec (.endpointAccess x) s = .next t ∧ t.mem = s.mem ∧ t.cat = s.cat ∧
        t.out = (if x.write.isSome then s.out else s.out ++ [.endpointData [] true]) ∧
        t.fld rPoolEventsEndpointDenied = min rPoolEventsEndpointDenied.max (s.fld rPoolEventsEndpointDenied + 1)

/-- R280: MOVER_CTL starts an evacuation or a rebuild when none runs and the pool has eight devices: RESULT shows running, and the
device is marked; while one runs RESULT is "refused". The operation is done when its last rewrite has ended and no move heads for the
device. -/
def Obligations.AnnexOperations : Prop :=
  ∀ (s : State), s.runs = true → s.fld rBootStatusImage ≠ 0 →
    (∀ i op, ((∃ dev, dev < s.mover.devices ∧ dev < 16 ∧ i = .moverEvacuate dev ∧ op = .evacuate dev) ∨
        (i = .moverRebuild ∧ op = .rebuild)) →
      (s.mover.op = none → 8 ≤ s.mover.devices →
        ∃ t, exec i s = .next t ∧ t.mover.op = some op ∧ t.fld rMoverCtlResult = 1 ∧ t.mem = s.mem ∧ t.cat = s.cat ∧
          t.out = s.out ∧ (∀ dev, op = .evacuate dev → (t.fld rPoolStatusEvacuating).testBit dev = true)) ∧
      (s.mover.op ≠ none → ∃ t, exec i s = .next t ∧ t.mover.op = s.mover.op ∧ t.mover.moves = s.mover.moves ∧
        t.fld rMoverCtlResult = 3 ∧ t.mem = s.mem ∧ t.cat = s.cat ∧ t.out = s.out)) ∧
    (∀ op, s.mover.op = some op → (∀ p ∈ s.mover.moves, p.2.dest ≠ .annexRewrite) →
      (∀ dev, op = .evacuate dev → s.headsFor dev = false) →
      ∃ t, exec .evacuationComplete s = .next t ∧ t.mover = { s.mover with op := none } ∧ t.fld rMoverCtlResult = 2 ∧
        t.cat = s.cat ∧ t.mem = s.mem ∧ t.out = s.out)

/-! ## The catalogue and the Index in the background (chapters 03 and 09) -/

/-- R70, R78, R81, R91, R92: what was released with no walk left before it is free, in the stacks, the annex and the tables, and
zeroed where it must be; a Closing sequence with nothing in flight is Closed with its next generation and holds no leaf; compaction
starts below its threshold, once no walk from before the last swap is left, with a shadow of the tables; at the first nanosecond of a
row a complete shadow takes effect, with every shelfmark and card as it was. -/
def Obligations.CatalogueBackground : Prop :=
  ∀ (s : State), Canonical s →
    (∃ t, exec .resourceRelease s = .next t ∧ t.cat.cards = s.cat.cards ∧ t.cat.leaves = s.cat.leaves ∧
      (∀ r ∈ s.cat.releasing, (∀ p ∈ s.work.cmds, p.2.walks = true → r.row < p.2.row) → r ∉ t.cat.releasing ∧
        (∀ g ∈ r.granules, g ∉ t.cat.granules ∧ (r.zero = true → ∀ a, a / 16384 = g → Mem.get t.mem a = 0)) ∧
        (∀ g ∈ r.annex, g ∉ t.mover.granules) ∧ ∀ p ∈ r.pages, p ∉ t.cat.pages) ∧
      ((∀ r ∈ s.cat.releasing, r.zero = false) → t.mem = s.mem)) ∧
    (∀ slot, (s.seqAt slot).state = .closing → s.seqInFlight slot = 0 →
      ∃ t, exec (.sequenceClosed slot) s = .next t ∧ t.leavesOf slot = [] ∧ t.mem = s.mem ∧
        (∀ x, x ≠ slot → t.seqAt x = s.seqAt x) ∧
        (if (s.seqAt slot).generation = 0xFFF then (t.seqAt slot).state = .retired
         else (t.seqAt slot).state = .closed ∧ (t.seqAt slot).generation = (s.seqAt slot).generation + 1)) ∧
    ((∀ r, s.cat.swapRow = some r → s.walksPast (r - 1) = true) → s.fld rCompactPhase = 0 → ∀ i,
      (i = .compactionAutoStart ∧ s.freePages < s.fld rCompactThreshold) ∨
        (∃ path, i = .compactStart path ∧ s.reaches path true 0x050 0x048 = true) →
      ∃ t, exec i s = .next t ∧ t.fld rCompactPhase = 1 ∧ t.cat.shadow.isSome = true ∧
        { t with regs := s.regs, cat := { t.cat with shadow := s.cat.shadow } } = s) ∧
    ∀ x, s.cat.shadow = some x → s.fld rCompactPhase = 2 → s.clock.ns = 0 →
      ∃ t, exec .compactionSwap s = .next t ∧ t.fld rCompactPhase = 0 ∧ t.cat.shadow = none ∧ t.cat.pages = x.pages ∧
        t.cat.dirPages = x.dirPages ∧ t.cat.heads = x.heads ∧ t.index.recordPages = x.records ∧ t.cat.leaves = s.cat.leaves ∧
        t.cat.cards = s.cat.cards ∧ (∀ k, { t.seqAt k with headDir := (s.seqAt k).headDir } = s.seqAt k) ∧
        t.mem = s.mem ∧ t.out = s.out

/-- What the Index does leaves every leaf, sequence and byte as it is. -/
def LeafSame (s t : State) : Prop :=
  t.cat.leaves = s.cat.leaves ∧ t.cat.cards = s.cat.cards ∧ t.cat.seqs = s.cat.seqs ∧ t.mem = s.mem

/-- R243, R244, R247: INDEX_CTL removes one entry or every entry of a bank set, which then departs and answers nothing; its references
are dropped when it is released. A failed CAM bank is rebuilt from the verification copies whose CRC passes, into the one spare, which
takes over once it is built, at the first nanosecond of a row: an entry whose copy failed is gone, and other sets are as before. -/
def Obligations.IndexBackground : Prop :=
  ∀ (s : State), Tbl.wf s.index.entries = true → Tbl.wf s.index.copies = true →
    (∀ path n e, s.reaches path true 0x058 0x028 = true → n < 1048576 → Tbl.get s.index.entries n = some e → e.valid = true →
      ∃ t, exec (.indexRemove path n) s = .next t ∧ Tbl.get t.index.entries n = none ∧ t.fld rIndexCtlResult = 2 ∧
        (∃ d ∈ t.index.departing, d.entry = n) ∧ (∀ x, x ≠ n → Tbl.get t.index.entries x = Tbl.get s.index.entries x) ∧
        LeafSame s t ∧ t.out = s.out) ∧
    (∀ path k, s.reaches path true 0x058 0x028 = true → k < 16 →
      ∃ t, exec (.indexFlush path k) s = .next t ∧ (∀ p ∈ t.index.entries, p.1 / setSize ≠ k) ∧ t.fld rIndexCtlResult = 2 ∧
        (∀ x, x / setSize ≠ k → Tbl.get t.index.entries x = Tbl.get s.index.entries x) ∧ LeafSame s t) ∧
    (∀ n, ∃ t, exec (.indexEntryRelease n) s = .next t ∧ t.index.entries = s.index.entries ∧
      t.index.departing = (s.index.departing.filter fun d => d.entry ≠ n) ∧ t.cat.leaves = s.cat.leaves ∧ t.mem = s.mem) ∧
    (∀ k, k < 16 → s.index.spareUsed = false → s.index.rebuild = none →
      ∃ t x, exec (.camBankRebuild k) s = .next t ∧ t.index = { s.index with rebuild := some x } ∧ x.set = k ∧ x.row = s.row ∧
        (∀ n e, Tbl.get x.entries n = some e ↔ Tbl.get s.index.copies n = some e ∧ n / setSize = k ∧ crc32c e.bytes = e.crc) ∧
        t.fld rScrubStatusRebuild = 1 ∧ LeafSame s t) ∧
    ∀ x, s.index.rebuild = some x → Tbl.wf x.entries = true → (∀ p ∈ x.entries, p.1 / setSize = x.set) → s.clock.ns = 0 →
      s.fld rScrubStatusRebuild = 2 →
      ∃ t, exec .camRebuildSwap s = .next t ∧ t.index.rebuild = none ∧ t.index.spareUsed = true ∧
        t.fld rScrubStatusRebuild = 0 ∧ LeafSame s t ∧
        ∀ n, Tbl.get t.index.entries n = if n / setSize = x.set then Tbl.get x.entries n else Tbl.get s.index.entries n

/-! ## Transport, gateways, frames and lanes (chapters 11, 12 and 13) -/

/-- The places in sequence of the packets not acknowledged. -/
def openPsns (l : List Unacked) : List (Nat × Nat) := l.map fun u => (u.conn, u.psn)

/-- The node sends on its network ports. -/
def Talks (s : State) : Prop := s.runs = true ∧ s.node.state ≠ .fault

/-- A whole message goes on to its reader: a completion's class, a loan, one whose ENVELOPE is still to be read, or a command with an
assigned opcode that the node's state admits (R27, R196). -/
def GoesOn (s : State) (c : Conn) (k : Packet) (op : Nat) : Prop :=
  k.tc = 5 ∨ c.cls = 2 ∨ s.enveloped c = true ∨ (op ∈ assignedOps ∧ s.refusesState op = false)

/-- R196, R198, R315 to R318: a packet next in order that is a whole message delivers it and is acknowledged in its class; a command
whose opcode is not assigned completes with NO_RESOURCE; a packet already accepted changes nothing it delivers; one more than 512
ahead is discarded and puts the queue pair in Error. ACK_SEND acknowledges every class owed; an ACK releases what it covers; a NAK
sends packets again, and so does a time-out once ACK_TIMEOUT has passed, the third of a path in a row holding it down for 4,096 rows.
An unreachable peer puts its queue pairs in Error. -/
def Obligations.PacketsInOrder : Prop :=
  ∀ (s : State), Talks s →
    (∀ (k : Packet) key c, 4 ≤ k.dstQp → k.kind = 0 → s.conn k.dstQp k.srcNode k.srcDomain k.srcQp = some (key, c) →
      Tbl.get s.xport.conns key = some c → c.state = .ready → s.classOk c k = true →
      (k.psn = c.nextPsn → c.buffered = [] → c.assembling = [] → k.first = true → k.last = true → k.payload.length ≤ messageMax →
        (k.tc ≤ 4 → s.poolUsed + k.payload.length ≤ poolLimit) → (s.xport.issued.any fun i => i.conn = key) = false →
        c.malformed k k.payload = false →
        let next := (c.nextPsn + 1) % 2 ^ 24
        let op := num (if c.relay then k.payload.drop 8 else k.payload) 0 1
        (GoesOn s c k op →
          ∃ t c', exec (.dataPacketReceive k) s = .next t ∧ Tbl.get t.xport.conns key = some c' ∧ c'.state = .ready ∧
            c'.nextPsn = next ∧ t.xport.inbox = s.xport.inbox ++ [(key, k.payload)] ∧
            (∀ tc, tc = k.tc ∨ tc ∈ c.ackDue → Sent.ack key tc next 0 ∈ t.out) ∧ t.mem = s.mem) ∧
        (k.tc ≠ 5 → c.cls ≠ 2 → s.enveloped c = false → s.refusesState op = false → op ∉ assignedOps →
          ∃ t tag, exec (.dataPacketReceive k) s = .next t ∧ t.xport.inbox = s.xport.inbox ∧
            Sent.completion k.dstQp k.srcNode k.srcQp tag op (s.row % 65536)
              (Outcome.noRes (headerOf key c k.payload s.clock.ns) 0x2) ∈ t.out ∧ t.mem = s.mem)) ∧
      (2 ^ 23 ≤ psnAhead c.nextPsn k.psn →
        ∃ t, exec (.dataPacketReceive k) s = .next t ∧ t.xport.inbox = s.xport.inbox ∧
          Tbl.get t.xport.conns key = some { c with ackDue := addNum c.ackDue k.tc } ∧ t.mem = s.mem) ∧
      (512 < psnAhead c.nextPsn k.psn → psnAhead c.nextPsn k.psn < 2 ^ 23 → (∀ x ∈ c.buffered, x.psn ≠ k.psn) →
        ∃ t c', exec (.dataPacketReceive k) s = .next t ∧ t.xport.inbox = s.xport.inbox ∧
          Tbl.get t.xport.conns key = some c' ∧ c'.state = .error ∧ c'.cause = 1 ∧ t.mem = s.mem)) ∧
    (∀ qp key c, (s.xport.conns.filter fun p => connQp p.1 = qp) = [(key, c)] → Tbl.get s.xport.conns key = some c →
      ∃ t, exec (.ackSend qp) s = .next t ∧ t.out = s.out ++ c.ackDue.map (fun tc => Sent.ack key tc c.nextPsn c.sack) ∧
        Tbl.get t.xport.conns key = some { c with ackDue := [] } ∧ t.xport.unacked = s.xport.unacked ∧ t.mem = s.mem) ∧
    (∀ qp node peer cum sack key, s.connTo qp node peer = some key →
      ∃ t, exec (.ackReceive qp ⟨node, peer⟩ cum sack) s = .next t ∧ t.out = s.out ∧ t.mem = s.mem ∧
        openPsns t.xport.unacked = openPsns (s.xport.unacked.filter fun u =>
          !(u.conn = key && 0 < u.tries && acknowledges cum sack u.psn))) ∧
    (∀ node index first count u, (s.xport.unacked.filter fun u => u.entry = node && u.index = index && 0 < u.tries &&
        !u.resend && (u.pathSeq + 65536 - first) % 65536 < count) = [u] →
      s.weightedPaths (s.usablePaths u.entry) ≠ [] → Tbl.get s.xport.conns u.conn ≠ none →
      ∃ t, exec (.nakReceive node index first count) s = .next t ∧ openPsns t.xport.unacked = openPsns s.xport.unacked ∧
        t.xport.conns = s.xport.conns ∧ t.out = s.out ∧ t.mem = s.mem ∧
        ∃ v ∈ t.xport.unacked, v.conn = u.conn ∧ v.psn = u.psn ∧ v.tries = u.tries + 1 ∧ v.sent = s.now) ∧
    (∀ qp node peer psn ns key, s.connTo qp node peer = some key →
      ((∀ u ∈ s.xport.unacked, u.conn = key → u.psn = psn → (s.tick ns).now < u.sent + s.fld rTimersAckTimeout) →
        exec (.ackTimeout qp ⟨node, peer⟩ ⟨psn, ns⟩) s = .next (s.tick ns)) ∧
      ∀ u, (s.xport.unacked.find? fun u => u.conn = key && u.psn = psn && 0 < u.tries && !u.resend &&
          u.sent + s.fld rTimersAckTimeout ≤ (s.tick ns).now) = some u →
        ∃ t, exec (.ackTimeout qp ⟨node, peer⟩ ⟨psn, ns⟩) s = .next t ∧ openPsns t.xport.unacked = openPsns s.xport.unacked ∧
          t.xport.conns = s.xport.conns ∧ t.mem = s.mem ∧
          (Tbl.get s.xport.held (pathKey u.entry u.path) = none →
            (((Tbl.get s.xport.timeouts (pathKey u.entry u.path)).getD []).filter (· = s.row)).length = 2 →
            Tbl.get t.xport.held (pathKey u.entry u.path) = some (s.row + 4096)) ∧
          ((((Tbl.get s.xport.timeouts (pathKey u.entry u.path)).getD []).filter (· = s.row)).length < 2 →
            t.xport.held = s.xport.held)) ∧
    (∀ node path r, Tbl.get s.xport.held (pathKey node path) = some r →
      (s.row < r → exec (.pathHoldDownExpiry node path) s = .next s) ∧
      (r ≤ s.row → ∃ t, exec (.pathHoldDownExpiry node path) s = .next t ∧
        Tbl.get t.xport.held (pathKey node path) = none ∧ t.xport.conns = s.xport.conns ∧ t.mem = s.mem)) ∧
    ∀ node domain,
      (s.lostPeer node domain = false → exec (.peerUnreachable node domain) s = .next s) ∧
      (s.lostPeer node domain = true → ∃ t, exec (.peerUnreachable node domain) s = .next t ∧
        ∀ k c, Tbl.get s.xport.conns k = some c → c.peerNode = node → c.peerDomain = domain →
          c.state = .ready ∨ c.state = .closing →
          ∃ c', Tbl.get t.xport.conns k = some c' ∧ c'.state = .error ∧ c'.cause = 3 ∧ c'.since = s.row)

/-- R311, R313, R314, R376: CONNECT makes a Ready connection with the fields of the message, or is refused and makes none; DISCONNECT
closes a Ready one, and one in Error once no command runs on it and nothing is unacknowledged; Closing and Error end in Quarantine,
and Quarantine in a free queue pair. -/
def Obligations.QueuePairsComeAndGo : Prop :=
  ∀ (s : State), Talks s → Tbl.wf s.xport.conns = true →
    (∀ (m : CmMsg) k, s.admits m = true → s.takesConnect m = true → s.newKey m = some k →
      ∃ t c psn, exec (.connect m) s = .next t ∧ Tbl.get t.xport.conns k = some c ∧ c.state = .ready ∧ c.cls = m.cls ∧
        c.tenant = m.tenant ∧ c.peerNode = m.srcNode ∧ c.peerDomain = m.srcDomain ∧ c.peerQp = m.senderQp ∧
        c.shared = m.shared ∧ c.nextPsn = m.psn ∧ c.sendPsn = psn ∧ psn < 2 ^ 24 ∧
        t.out = s.out ++ [.cmReply .accept (connQp k) m.srcNode m.srcDomain m.senderQp m.tag Status.ok.code psn 0 0] ∧ t.mem = s.mem) ∧
    (∀ (m : CmMsg), s.admits m = false →
      ∃ t, exec (.connect m) s = .next t ∧ t.xport.conns = s.xport.conns ∧
        t.out = s.out ++ [.cmReply .accept 0 m.srcNode m.srcDomain m.senderQp m.tag Status.deniedSecure.code 0 0 0]) ∧
    (∀ (m : CmMsg), s.admits m = true → s.takesConnect m = false ∨ s.newKey m = none →
      ∃ t, exec (.connect m) s = .next t ∧ t.xport.conns = s.xport.conns ∧
        t.out = s.out ++ [.cmReply .accept 0 m.srcNode m.srcDomain m.senderQp m.tag Status.noResource.code 0 0 0]) ∧
    (∀ (m : CmMsg) k c, s.conn m.qp m.srcNode m.srcDomain m.senderQp = some (k, c) → Tbl.get s.xport.conns k = some c →
      ∃ t c', exec (.disconnect m) s = .next t ∧ Tbl.get t.xport.conns k = some c' ∧ c'.peerGone = true ∧ t.mem = s.mem ∧
        t.out = s.out ++ [.cmReply .disconnected m.qp m.srcNode m.srcDomain m.senderQp m.tag 0 0 0 0] ∧
        (c.state = .ready → c'.state = .closing ∧ c'.since = s.row) ∧
        (c.state = .error → s.commandsOn k = 0 → s.drained k = true → c'.state = .quarantine ∧ c'.since = s.row) ∧
        (c.state = .error → s.commandsOn k ≠ 0 ∨ s.drained k = false → c'.state = .error ∧ c'.since = c.since)) ∧
    ∀ qp k c, connQp k = qp → Tbl.get s.xport.conns k = some c →
      (c.state = .closing → s.commandsOn k = 0 → s.drained k = true →
        ∃ t c', exec (.qpClosingDone qp) s = .next t ∧ Tbl.get t.xport.conns k = some c' ∧ c'.state = .quarantine ∧
          c'.since = s.row ∧ t.out = s.out ∧ t.mem = s.mem) ∧
      (c.state = .error → c.since + 4096 ≤ s.row →
        ∃ t c', exec (.qpErrorExpiry qp) s = .next t ∧ Tbl.get t.xport.conns k = some c' ∧ c'.state = .quarantine ∧
          c'.since = s.row ∧ t.out = s.out ∧ t.mem = s.mem) ∧
      ((c.state ≠ .error ∨ s.row < c.since + 4096) →
        ∃ t, exec (.qpErrorExpiry qp) s = .next t ∧ Tbl.get t.xport.conns k = some c) ∧
      (∃ t, exec (.quarantineExpiry qp) s = .next t ∧ t.mem = s.mem ∧
        (c.state = .quarantine → c.since + 64 ≤ s.row → ∀ p ∈ t.xport.conns, p ≠ (k, c)) ∧
        ∀ p ∈ s.xport.conns, connQp p.1 ≠ qp ∨ p.2.state ≠ .quarantine ∨ s.row < p.2.since + 64 → p ∈ t.xport.conns)

/-- R321, R322, R324, R325, R327: REGISTER makes a Valid key over the region, an ALLOC region zeroed; DEREGISTER has the key, or on a
COMPAT queue pair every region of the process key, revoked from the next row; the key is then Revoking while commands use it, and once
none does its index is Free with the next generation, or Retired after the last one, and with the last of them the revoker is
answered. -/
def Obligations.KeysAreRegisteredAndRevoked : Prop :=
  ∀ (s : State), Talks s →
    (∀ (m : CmMsg) k c i, s.conn m.qp m.srcNode m.srcDomain m.senderQp = some (k, c) → c.state = .ready → s.registerFail c m = none →
      firstFrom s.keyFree 0 keyCount keyCount = some i →
      (m.rights.testBit 4 = true →
        ∃ t x, exec (.register m) s = .next t ∧ Tbl.get t.xport.keys i = some x ∧ x.state = .valid ∧ x.tenant = c.tenant ∧
          x.rights = m.rights % 16 ∧ x.base = m.offset ∧ x.length = m.length ∧ t.mem = s.mem ∧
          t.out = s.out ++ [.cmReply .registered m.qp m.srcNode m.srcDomain m.senderQp m.tag Status.ok.code 0
            (i * 4096 + x.generation) m.offset]) ∧
      ∀ base u, m.rights.testBit 4 = false → s.takeAlloc m.length = .ok (base, u) →
        ∃ t x, exec (.register m) s = .next t ∧ Tbl.get t.xport.keys i = some x ∧ x.state = .valid ∧ x.tenant = c.tenant ∧
          x.rights = m.rights % 16 ∧ x.base = base ∧ x.length = m.length ∧
          (∀ a, base ≤ a → a < base + m.length → Mem.get t.mem a = 0) ∧
          (∀ a, a < base ∨ base + m.length ≤ a → Mem.get t.mem a = Mem.get s.mem a) ∧
          t.out = s.out ++ [.cmReply .registered m.qp m.srcNode m.srcDomain m.senderQp m.tag Status.ok.code 0
            (i * 4096 + x.generation) base]) ∧
    (∀ (m : CmMsg) k c, s.conn m.qp m.srcNode m.srcDomain m.senderQp = some (k, c) → c.state = .ready →
      (∀ x, c.compat = false → Tbl.get s.xport.keys (m.key / 4096) = some x → x.state = .valid → x.revokeDue = none →
        x.generation = m.key % 4096 → c.tenant = 0 ∨ x.tenant = c.tenant →
        ∃ t, exec (.deregister m) s = .next t ∧ t.out = s.out ∧ t.mem = s.mem ∧
          Tbl.get t.xport.keys (m.key / 4096) = some { x with revokeDue := some s.row, revoker := some m }) ∧
      (c.compat = true → 4096 ≤ m.key → ∃ t, exec (.deregister m) s = .next t ∧ t.xport.keys = s.xport.keys ∧ t.mem = s.mem ∧
        t.out = s.out ++ [.cmReply .deregistered m.qp m.srcNode m.srcDomain m.senderQp m.tag Status.keyInvalid.code 0 m.key 0]) ∧
      (c.compat = true → m.key < 4096 → ∃ t, exec (.deregister m) s = .next t ∧ t.mem = s.mem ∧
        ∀ i x, Tbl.get s.xport.keys i = some x → x.state = .valid → x.revokeDue = none → x.tenant = c.tenant →
          x.process.map Prod.fst = some m.key →
          t.out = s.out ∧ Tbl.get t.xport.keys i = some { x with revokeDue := some s.row, revoker := some m })) ∧
    ∀ i x, Tbl.get s.xport.keys i = some x →
      (∀ r, x.state = .valid → x.revokeDue = some r → ∃ t, exec (.keyRevoking i) s = .next t ∧ t.out = s.out ∧ t.mem = s.mem ∧
        (r < s.row → Tbl.get t.xport.keys i = some { x with state := .revoking, revokeDue := none }) ∧
        (s.row ≤ r → Tbl.get t.xport.keys i = some x)) ∧
      (x.state ≠ .revoking ∨ x.inFlight ≠ 0 → exec (.revocationComplete i) s = .next s) ∧
      (x.state = .revoking → x.inFlight = 0 →
        ∃ t y, exec (.revocationComplete i) s = .next t ∧ Tbl.get t.xport.keys i = some y ∧ t.mem = s.mem ∧
          (x.generation ≠ 0xFFF → y.state = .free ∧ y.generation = x.generation + 1) ∧
          (x.generation = 0xFFF → y.state = .retired) ∧
          (x.revoker = none → t.out = s.out) ∧
          ∀ m, x.revoker = some m → (∀ p ∈ s.xport.keys, p.1 ≠ i → p.2.live = true → p.2.revoker ≠ some m) →
            t.out = s.out ++ [.cmReply .deregistered m.qp m.srcNode m.srcDomain m.senderQp m.tag Status.ok.code 0 m.key 0])

/-- R328 to R333: a command enveloped on a BEST or DATA queue pair opens the BULK message of its domain and is held as relayed; on
another class the queue pair enters Error. BULK_WAIT after it was opened a BULK message closes onto its trunk, which the gateway opens
where there is none (log entry 90). On a trunk a command record is issued on the relay queue pair under a free TAG, and a completion,
split where commands were merged, or an event goes to the requester its record names; a trunk in Error completes every command relayed
on it with FLUSHED. -/
def Obligations.GatewaysRelay : Prop :=
  ∀ (s : State), Talks s →
    (∀ qp node peer dom dst m k c, s.conn qp node s.domain peer = some (k, c) → Tbl.get s.xport.conns k = some c →
      c.state = .ready →
      let r : BulkRecord := { kind := 1, srcDomain := s.domain, srcNode := node, dstDomain := dom, cls := c.cls, dstNode := dst,
                              tenant := c.tenant, srcQp := qp, message := m }
      (c.cls = 1 ∨ c.cls = 3 → s.isGateway dom = true → dom ≠ s.domain → 16 ≤ m.length → bulkSize r < bulkMax →
        Tbl.get s.xport.bulk dom = none →
        ∃ t z, exec (.envelopeMessage qp ⟨node, peer⟩ dom dst m) s = .next t ∧
          Tbl.get t.xport.bulk dom = some { records := [r], bytes := bulkSize r, opened := s.now } ∧
          t.xport.relayed = s.xport.relayed ++ [z] ∧ z.domain = dom ∧ z.conn = k ∧ z.qp = qp ∧ z.node = node ∧
          z.tags.map Prod.fst = [messageTag m] ∧ t.out = s.out ∧ t.mem = s.mem) ∧
      (c.cls ≠ 1 → c.cls ≠ 3 →
        ∃ t c', exec (.envelopeMessage qp ⟨node, peer⟩ dom dst m) s = .next t ∧ Tbl.get t.xport.conns k = some c' ∧
          c'.state = .error ∧ c'.cause = 1)) ∧
    (∀ dom ns b, Tbl.get s.xport.bulk dom = some b →
      ((s.tick ns).now < b.opened + s.fld rTimersBulkWait → exec (.bulkWaitExpiry ⟨dom, ns⟩) s = .next (s.tick ns)) ∧
      (b.opened + s.fld rTimersBulkWait ≤ (s.tick ns).now →
        (∀ k c, (s.xport.conns.find? fun p => s.isTrunk dom p.2) = some (k, c) → c.state = .ready →
          ∃ t, exec (.bulkWaitExpiry ⟨dom, ns⟩) s = .next t ∧ Tbl.get t.xport.bulk dom = none ∧
            t.out = s.out ++ [.bulk k dom b.records] ∧ t.mem = s.mem) ∧
        ∀ node q, (s.xport.conns.find? fun p => s.isTrunk dom p.2) = none → s.gatewayOf dom = some node → dom ≠ s.domain →
          s.lowestQp = some q →
          ∃ t c, exec (.bulkWaitExpiry ⟨dom, ns⟩) s = .next t ∧ Tbl.get t.xport.bulk dom = none ∧
            Tbl.get t.xport.conns (q * 4096) = some c ∧ c.state = .ready ∧ c.peerNode = node ∧ c.peerDomain = dom ∧ c.tenant = 0 ∧
            t.out = s.out ++ [.bulk (q * 4096) dom b.records] ∧ t.mem = s.mem)) ∧
    (∀ qp k c r, (s.findConn fun k c => connQp k = qp && c.state = .ready) = some k → Tbl.get s.xport.conns k = some c →
      c.peerDomain ≠ s.domain →
      (r.kind = 1 → ∀ x tag, (s.findConn fun _ c => c.relay && c.peerNode = r.dstNode && c.peerDomain = s.domain &&
            c.cls = r.cls && c.state = .ready) = some x →
          firstFrom (fun t => !((s.xport.issued.filter fun i => i.conn = x).map Issued.tag).contains t) 0 4096 4096 = some tag →
          ∃ t, exec (.bulkMessage qp [r]) s = .next t ∧ t.mem = s.mem ∧
            t.xport.issued = s.xport.issued ++
              [{ conn := x, tag := tag, original := messageTag r.message, record := { r with message := [] } }] ∧
            t.out = s.out ++ [.relayed x (connQp x) r.dstNode (relayPrefix r ++ setTag r.message tag)]) ∧
      (r.kind = 2 → ∀ x, s.xport.relayed.find? (fun x => x.isFor r.dstDomain r) = some x →
          ∃ t, exec (.bulkMessage qp [r]) s = .next t ∧ x ∉ t.xport.relayed ∧ t.mem = s.mem ∧
            t.out = s.out ++ (if x.tags.length ≤ 1 then [r.message] else splitAnswer r.message 0 x.tags).map
              (Sent.relayed x.conn x.qp x.node)) ∧
      (r.kind = 3 → ∀ x, (s.findConn fun k c => connQp k = r.srcQp && c.peerNode = r.srcNode && c.peerDomain = s.domain) = some x →
          ∃ t, exec (.bulkMessage qp [r]) s = .next t ∧ t.out = s.out ++ [.relayed x r.srcQp r.srcNode r.message] ∧
            t.mem = s.mem)) ∧
    ∀ dom, s.trunkDown dom = true →
      ∃ t, exec (.trunkErrorFlush dom) s = .next t ∧ Tbl.get t.xport.bulk dom = none ∧ t.mem = s.mem ∧
        (∀ x, x ∈ t.xport.relayed ↔ x ∈ s.xport.relayed ∧ x.domain ≠ dom) ∧
        ∀ x ∈ s.xport.relayed, x.domain = dom → ∀ a ∈ x.tags,
          Sent.relayed x.conn x.qp x.node (flushedMessage x.opcode a.1 s.row) ∈ t.out

/-- The port is enabled, present, Up and not cut, stopped or gated. -/
def PortUp (s : State) (p : Nat) (q : Port) : Prop :=
  s.ports[p]? = some q ∧ s.portMode p ≠ 0 ∧ s.portHeld p = false ∧ q.link = .up

/-- A frame that reaches the MAC of an in-rack port: decoded, with its check sequence, not secured, and no longer than 9,216 bytes in
standard mode (R283, R284). -/
def WholeFrame (s : State) (p : Nat) (f : Frame) : Prop :=
  f.decoded = true ∧ f.fcsOk = true ∧ f.secured = false ∧ (s.portMode p = 1 → f.length ≤ frameMax)

/-- R283, R284, R303 to R305, R335 to R345: FEC's corrections in a frame are counted; one that does not decode counts as uncorrected;
one whose check sequence fails or that is too long, is of no class, or whose header fails goes no further, the last two counted; a red
one is counted with its sender and row; a green one enters its die's buffer where there is room; TC7 has a buffer of its own. An idle
port sends the first frame of the class that is served next, of TC7, TC6 and TC5 always the highest eligible, with its transport
header between the MAC addresses of the two ports. A policer and a routing entry are written in one write, with their GENERATION one
up. -/
def Obligations.FramesAndQueues : Prop :=
  ∀ (s : State),
    (∀ p q (f : Frame), PortUp s p q → s.fld (rPortCfgOutOfRack p) = 0 →
      let u := (s.tick f.ns).countFec p f.codewords f.corrected
      (f.corrected = [] → u.tm = s.tm ∧ u.xport = s.xport ∧ u.out = s.out ∧
        u.fld (rFecCountsCorrected p) = min (rFecCountsCorrected p).max (s.fld (rFecCountsCorrected p) + f.codewords)) ∧
      (f.decoded = false → ∃ t, exec (.frameReceive p f) s = .next t ∧ t.tm = u.tm ∧ t.xport = u.xport ∧
        t.fld (rFecCountsUncorrected p) = min (rFecCountsUncorrected p).max (u.fld (rFecCountsUncorrected p) + 1)) ∧
      (f.decoded = true → f.fcsOk = false ∨ (u.portMode p = 1 ∧ frameMax < f.length) →
        exec (.frameReceive p f) s = .next u) ∧
      (WholeFrame u p f → u.fld (rPortCfgOutOfRack p) = 0 →
        (u.classify f = none → ∃ t, exec (.frameReceive p f) s = .next t ∧ t.tm = u.tm ∧ t.xport = u.xport ∧
          t.fld rClassDropsUnclassified = min rClassDropsUnclassified.max (u.fld rClassDropsUnclassified + 1)) ∧
        (f.tags ≤ 1 → u.isFabric f = true → u.headerOk f = false → ∃ t, exec (.frameReceive p f) s = .next t ∧ t.tm = u.tm ∧
          t.xport = { u.xport with headerDrops := u.xport.headerDrops + 1 } ∧ t.work = u.work ∧ t.out = u.out) ∧
        (f.tags ≤ 1 → f.etherType = 0x88F7 → u.isFabric f = false → ∀ l, u.tm.mgmt[p]? = some l →
          inUse u.now l + f.length ≤ 131072 →
          ∃ t, exec (.frameReceive p f) s = .next t ∧ t.tm.mgmt[p]? = some (present u.now l ++ [⟨u.now, f.length⟩]) ∧
            t.tm.shared = u.tm.shared ∧ t.tm.general = u.tm.general) ∧
        ∀ cls, u.classify f = some (cls, false) → u.isFabric f = true → u.headerOk f = true → cls ≠ 7 →
          u.node.state ≠ .boundOff →
          (∀ b, f.srcNode < 16383 → (u.policer f.srcNode).bypass cls f = false →
            meter (u.policer f.srcNode) (u.bucketsAt f.srcNode (u.policer f.srcNode))
              ((u.policer f.srcNode).aware && f.tags = 1 && f.dei) f.length = (.red, b) →
            ∃ t, exec (.frameReceive p f) s = .next t ∧ t.tm.shared = u.tm.shared ∧ t.fld rLastRedNode = f.srcNode ∧
              t.fld rLastRedRow = u.row % 2 ^ 48 ∧
              t.fld rPoliceCountsRed = min rPoliceCountsRed.max (u.fld rPoliceCountsRed + 1)) ∧
          ∀ l, (u.policer f.srcNode).bypass cls f = true → u.tm.shared[p / 4]? = some l →
            inUse u.now l + f.length ≤ 67108864 → (cls ≤ 4 → inUse u.now l + 8388608 < 67108864) →
            ∃ t, exec (.frameReceive p f) s = .next t ∧ t.tm.mgmt = u.tm.mgmt ∧
              t.tm.shared[p / 4]? = some (present u.now l ++ [⟨u.now, f.length⟩]))) ∧
    (∀ p q ns8, PortUp s p q → s.fld (rPortCfgOutOfRack p) = 0 → q.spraying = true → Talks s → ns8 < 32768 →
      let now8 := s.row * 32768 + ns8
      (now8 < Tbl.num s.tm.busyUntil p → exec (.frameTransmit p ns8) s = .next s) ∧
      (∀ c, ([7, 6, 5].find? fun c => s.eligible p q.lanes c ns8) = some c →
        s.pickClass p q.lanes ns8 = some (c, s.tm.deficits)) ∧
      ∀ c d f l, Tbl.num s.tm.busyUntil p ≤ now8 → s.pickClass p q.lanes ns8 = some (c, d) →
        Tbl.get s.tm.queues (classKey p c) = some (f :: l) →
        ∃ t, exec (.frameTransmit p ns8) s = .next t ∧ t.mem = s.mem ∧
          t.out = s.out ++ [.frame p c f.length ns8 (portMac f.header.dstDomain f.header.dstNode f.header.dstPort)
            (portMac s.domain s.nodeId p) f.header] ∧
          (Tbl.get t.tm.queues (classKey p c)).getD [] = l ∧
          Tbl.get t.tm.busyUntil p = some (now8 + frameTime f.length q.lanes)) ∧
    (∀ path i w0 w1, i < 16383 → s.reaches path true 0x040 (policerOffset i) = true →
      ∃ t, exec (.policerWrite path i w0 w1) s = .next t ∧ bits (t.stored 0x040 (policerOffset i)) 20 0 = bits w0 20 0 ∧
        bits (t.stored 0x040 (policerOffset i)) 52 32 = bits w0 52 32 ∧
        bits (t.stored 0x040 (policerOffset i + 8)) 47 40 = bits w1 47 40 ∧
        bits (t.stored 0x040 (policerOffset i + 8)) 34 0 = bits w1 34 0 ∧
        bits (t.stored 0x040 (policerOffset i + 8)) 63 48 = (bits (s.stored 0x040 (policerOffset i + 8)) 63 48 + 1) % 65536 ∧
        t.mem = s.mem) ∧
    ∀ path i w0 w1, i < 16383 → s.reaches path true 0x038 (routeOffset i) = true →
      ∃ t, exec (.routeEntryWrite path i w0 w1) s = .next t ∧
        (∀ j, j < 8 → bits (t.stored 0x038 (routeOffset i)) (8 * j + 5) (8 * j) = bits w0 (8 * j + 5) (8 * j) ∧
          bits (t.stored 0x038 (routeOffset i)) (8 * j + 7) (8 * j + 7) = bits w0 (8 * j + 7) (8 * j + 7)) ∧
        bits (t.stored 0x038 (routeOffset i + 8)) 15 0 = (bits (s.stored 0x038 (routeOffset i + 8)) 15 0 + 1) % 65536 ∧
        t.xport.conns = s.xport.conns ∧ t.mem = s.mem

/-- The other end of a word leads (R288). -/
def WordLeads (s : State) (p : Nat) (w : LaneWord) : Prop := w.node < s.nodeId ∨ (w.node = s.nodeId ∧ w.port ≤ p)

/-- R288 to R294, R301: an end sends its next word with its SEQ, map and failed lanes, or the request that is due. A word that
fails its CRC has no effect; a good one names the partner. A swap or narrowing requested of an end with no change under way is
acknowledged with its map, two words ahead, and the requester takes the acknowledgement; a retrain word retrains and a test word
enters Test. Where requests cross, the leader ignores the follower's; the follower abandons its own, RESULT of PORT_CTL showing 5. -/
def Obligations.LaneWordsMoveMaps : Prop :=
  ∀ (s : State) p q, s.ports[p]? = some q → s.portMode p = 2 → s.portHeld p = false → q.link ≠ .down →
    (Talks s → q.due = none →
      let w : LaneWord := { seq := q.seq, node := s.nodeId, port := p, actSeq := 0, failed := laneMask q.failed, map := q.txMap,
                            domain := s.domain, reserved := [], crc := 0 }
      ∃ t, exec (.laneControlWordSend p) s = .next t ∧ t.mem = s.mem ∧ t.ports[p]? = some q.afterSend ∧
        q.afterSend.seq = (q.seq + 1) % 256 ∧
        t.out = s.out ++ [.laneWord p .status { w with crc := crc16 (laneBytes .status w) }]) ∧
    (Talks s → ∀ d, q.due = some d → d.map ≠ 0 →
      ∃ t w, exec (.laneControlWordSend p) s = .next t ∧ t.out = s.out ++ [.laneWord p d.kind w] ∧ w.map = d.map ∧
        w.actSeq = d.actSeq ∧ w.seq = q.seq ∧ laneGood d.kind w = true ∧ t.ports[p]? = some q.afterSend) ∧
    (∀ (w : LaneWord),
      (laneGood .status w = false → exec (.statusWord p w) s = .next s) ∧
      (laneGood .swapRequest w = false → exec (.swapRequest p w) s = .next s) ∧
      (laneGood .swapAck w = false → exec (.swapAcknowledge p w) s = .next s) ∧
      (laneGood .narrowRequest w = false → exec (.narrowRequest p w) s = .next s) ∧
      (laneGood .narrowAck w = false → exec (.narrowAcknowledge p w) s = .next s) ∧
      (laneGood .retrain w = false → exec (.retrainWord p w) s = .next s) ∧
      (laneGood .test w = false → exec (.testWord p w) s = .next s) ∧
      (laneGood .status w = true → ∃ t x, exec (.statusWord p w) s = .next t ∧ t.ports[p]? = some x ∧ x.partnerNode = w.node ∧
        x.partnerPort = w.port ∧ x.partnerDomain = w.domain ∧ t.mem = s.mem ∧
        (lanesIn w.failed = [] → q.failed = [] → x.link = q.link ∧ x.met = true)) ∧
      (q.change = none → q.link = .up ∨ q.link = .awaitSecure →
        (laneGood .swapRequest w = true → ∃ t x, exec (.swapRequest p w) s = .next t ∧ t.ports[p]? = some x ∧
          x.link = .swapping ∧ x.spraying = false ∧ x.txMap = q.txMap ∧ x.rxMap = q.rxMap ∧ t.mem = s.mem ∧
          x.change = some ⟨.swapAck, w.map, (q.seq + 2) % 256, some w.actSeq, false, true⟩ ∧
          x.due = some ⟨.swapAck, w.map, (q.seq + 2) % 256⟩) ∧
        (laneGood .narrowRequest w = true → ∃ t x, exec (.narrowRequest p w) s = .next t ∧ t.ports[p]? = some x ∧
          x.link = .narrowing ∧ x.spraying = false ∧ x.txMap = q.txMap ∧ x.rxMap = q.rxMap ∧ t.mem = s.mem ∧
          x.change = some ⟨.narrowAck, w.map, (q.seq + 2) % 256, some w.actSeq, false, true⟩ ∧
          x.due = some ⟨.narrowAck, w.map, (q.seq + 2) % 256⟩) ∧
        (laneGood .retrain w = true → ∃ t x, exec (.retrainWord p w) s = .next t ∧ t.ports[p]? = some x ∧
          x.link = .training ∧ x.failed = [] ∧ x.lanes = 0 ∧ x.spraying = false ∧ t.mem = s.mem) ∧
        (laneGood .test w = true → ∃ t x, exec (.testWord p w) s = .next t ∧ t.ports[p]? = some x ∧ x.link = .test ∧
          x.spraying = false ∧ t.mem = s.mem)) ∧
      (∀ c i k, q.change = some c → c.kind ≠ .swapAck → c.kind ≠ .narrowAck → laneGood k w = true →
        (i = .swapRequest p w ∧ k = .swapRequest) ∨ (i = .narrowRequest p w ∧ k = .narrowRequest) ∨
          (i = .retrainWord p w ∧ k = .retrain) ∨ (i = .testWord p w ∧ k = .test) →
        (¬ WordLeads s p w → ∃ t x, exec i s = .next t ∧ t.ports[p]? = some x ∧ x.change = some c ∧ x.link = q.link ∧
          x.txMap = q.txMap ∧ t.mem = s.mem) ∧
        (WordLeads s p w → k = .narrowRequest → c.remaps = true → q.link = .swapping ∨ q.link = .narrowing →
          ∃ t x, exec i s = .next t ∧ t.ports[p]? = some x ∧ x.link = .narrowing ∧
            x.change = some ⟨.narrowAck, w.map, (q.seq + 2) % 256, some w.actSeq, false, true⟩ ∧
            (c.fromCtl = true → t.fld (rPortCtlResult p) = 5) ∧ t.mem = s.mem)) ∧
      ∀ c, q.change = some c → c.partnerSeq = none → c.acked = false → c.map = w.map →
        (c.kind = .swapRequest → laneGood .swapAck w = true → ∃ t x, exec (.swapAcknowledge p w) s = .next t ∧
          t.ports[p]? = some x ∧ x.change = some { c with partnerSeq := some w.actSeq, acked := true } ∧ x.txMap = q.txMap ∧
          x.rxMap = q.rxMap ∧ t.mem = s.mem) ∧
        (c.kind = .narrowRequest → laneGood .narrowAck w = true → ∃ t x, exec (.narrowAcknowledge p w) s = .next t ∧
          t.ports[p]? = some x ∧ x.change = some { c with partnerSeq := some w.actSeq, acked := true } ∧ x.txMap = q.txMap ∧
          x.rxMap = q.rxMap ∧ t.mem = s.mem))

/-- R287, R290 to R302: a failed lane is marked: in standard mode the link goes Down, in direct mode the leader of a steady link
requests a swap onto the idle spare, and deskew ends it; more corrections in one microsecond than SWAP_LIMIT fail a lane too. A
retrain, in direct mode of 4,096 rows, maps the lanes that passed; a link goes Down, tries again after 4,096 rows, and comes Up into
spraying, in direct mode once a good word of its partner has come, out of rack only with a secure association; without a packet
number left a port leaves spraying. PORT_CTL retrains, tests and swaps and answers in RESULT; PRBS_CTL is written only in Test. A PTP
event message leaves its stamp. An MKA frame is handed on (log entry 18). -/
def Obligations.PortsLive : Prop :=
  ∀ (s : State) p q, p < 8 → s.ports[p]? = some q → s.portMode p ≠ 0 → s.portHeld p = false →
    (∀ lane, lane < s.laneCount p → lane ∉ q.failed → q.link = .up ∨ q.link = .awaitSecure →
      (s.portMode p ≠ 2 → ∃ t x, exec (.laneFailed p lane) s = .next t ∧ t.ports[p]? = some x ∧
        x.failed = addNum q.failed lane ∧ x.link = .down ∧ x.spraying = false ∧ x.downSince = s.row ∧ t.mem = s.mem) ∧
      ∀ i, s.portMode p = 2 → s.leads p q = true → q.change = none → q.bad = [] → q.spareIdle = true → i < 8 →
        laneAt q.txMap i = lane → lane < 8 → (∀ j, j < i → laneAt q.txMap j ≠ lane) →
        ∃ t x, exec (.laneFailed p lane) s = .next t ∧ t.ports[p]? = some x ∧ x.link = .swapping ∧ x.failed = [lane] ∧
          x.change = some ⟨.swapRequest, moveLane q.txMap i 8, (q.seq + 4) % 256, none, false, false⟩ ∧ x.spraying = false ∧
          t.mem = s.mem) ∧
    (∀ (f : Frame) lane n, s.portMode p = 2 → q.link.receives = true → lane < 9 → lane ∉ q.failed → f.corrected = [(lane, n)] →
      s.fld (rSwapLimitSymbols p) < n + (if q.symbolsUs = (s.tick f.ns).now / 1000 then Tbl.num q.symbols lane else 0) →
      ∃ t x, exec (.frameReceive p f) s = .next t ∧ t.ports[p]? = some x ∧ (lane ∈ x.failed ∨ x.link = .training) ∧
        t.mem = s.mem) ∧
    (q.moved = false → exec (.swapDeskewDone p) s = .next s) ∧
    (q.moved = true → q.bad = [] → ∃ t x, exec (.swapDeskewDone p) s = .next t ∧ t.ports[p]? = some x ∧
      x.link = (if s.awaits p q then .awaitSecure else .up) ∧ x.change = none ∧ x.spraying = (!s.awaits p q && !q.spent) ∧
      x.lanes = widthOf (lanesOf q.txMap).length ∧ x.txMap = q.txMap ∧ t.mem = s.mem) ∧
    (∀ passed, q.link = .training → s.portMode p = 2 →
      let good := lanesIn passed
      (s.row < q.downSince + 4096 → exec (.retrainDone p passed) s = .next s) ∧
      (q.downSince + 4096 ≤ s.row →
        (widthOf good.length ≠ 0 → ∃ t x, exec (.retrainDone p passed) s = .next t ∧ t.ports[p]? = some x ∧
          x.lanes = widthOf good.length ∧ x.txMap = mapOf (good.take (widthOf good.length)) ∧ x.rxMap = x.txMap ∧
          (∀ k, k < 9 → (k ∈ x.failed ↔ k ∉ good)) ∧ t.mem = s.mem) ∧
        (widthOf good.length = 0 → ∃ t x, exec (.retrainDone p passed) s = .next t ∧ t.ports[p]? = some x ∧ x.link = .down ∧
          t.mem = s.mem))) ∧
    (q.link ≠ .down → ∃ t x, exec (.linkDown p) s = .next t ∧ t.ports[p]? = some x ∧ x.link = .down ∧ x.lanes = 0 ∧
      x.spraying = false ∧ x.downSince = s.row ∧ t.mem = s.mem) ∧
    (∀ node port dom, q.link = .training → s.portMode p ≤ 2 →
      (s.portMode p = 1 ∨ (dom = s.domain ∧ s.directReady q = true) → q.bad = [] →
        ∃ t x, exec (.linkUp p node port dom) s = .next t ∧ t.ports[p]? = some x ∧
          x.link = (if s.awaits p q then .awaitSecure else .up) ∧ x.spraying = (!s.awaits p q && !q.spent) ∧ t.mem = s.mem ∧
          (s.fld (rPortCtlResult p) = 1 → s.fld (rPortCtlOp p) = 1 → t.fld (rPortCtlResult p) = 2)) ∧
      (s.portMode p = 2 → dom ≠ s.domain ∨ s.directReady q = false →
        ∃ t x, exec (.linkUp p node port dom) s = .next t ∧ t.ports[p]? = some x ∧ x.link = q.link ∧ x.spraying = q.spraying)) ∧
    ((q.link ≠ .down ∨ s.row < q.downSince + 4096) → exec (.linkRetrainRetry p) s = .next s) ∧
    (q.link = .down → q.downSince + 4096 ≤ s.row → ∃ t x, exec (.linkRetrainRetry p) s = .next t ∧ t.ports[p]? = some x ∧
      x.link = .training ∧ x.failed = [] ∧ t.mem = s.mem) ∧
    (∀ bytes, exec (.mkaFrame p bytes) s = .next s) ∧
    (∀ a, s.fld (rPortCfgOutOfRack p) = 1 → q.link = .awaitSecure → q.bad = [] → ∃ t x,
      exec (.saKeyInstall p a) s = .next t ∧ t.ports[p]? = some x ∧ x.link = .up ∧ x.saLive = true ∧ x.association = a % 4 ∧
      x.packetNumber = 1 ∧ x.rxNext = 1 ∧ x.spent = false ∧ x.spraying = true ∧ t.mem = s.mem) ∧
    (s.fld (rPortCfgOutOfRack p) = 1 → s.lastPn p ≤ q.packetNumber → ∃ t x, exec (.pnExhausted p) s = .next t ∧
      t.ports[p]? = some x ∧ x.spraying = false ∧ x.spent = true ∧ x.link = q.link ∧ t.mem = s.mem) ∧
    (∀ stamp crossed, q.link = .up →
      (q.stamps.length < 64 → ∃ t, exec (.ptpEventMessage p stamp crossed) s = .next t ∧ t.mem = s.mem ∧ t.regs = s.regs ∧
        t.ports[p]? = some { q with stamps := q.stamps ++ [(s.correctStamp p q stamp, !crossed)] }) ∧
      (64 ≤ q.stamps.length → ∃ t, exec (.ptpEventMessage p stamp crossed) s = .next t ∧ t.ports = s.ports ∧
        bits (t.stored (0x030 + p) 0x010) 3 3 = 1)) ∧
    ∀ path, s.reaches path true (0x030 + p) 0x038 = true →
      (∃ t x, exec (.portRetrain path p) s = .next t ∧ t.ports[p]? = some x ∧ x.link = .training ∧ x.spraying = false ∧
        t.fld (rPortCtlResult p) = 1 ∧ t.mem = s.mem) ∧
      (∃ t x, exec (.portEnterTest path p) s = .next t ∧ t.ports[p]? = some x ∧ x.testNext = true ∧ x.link = q.link ∧
        t.fld (rPortCtlResult p) = 1 ∧ t.mem = s.mem) ∧
      (q.link = .test → ∃ t x, exec (.portLeaveTest path p) s = .next t ∧ t.ports[p]? = some x ∧ x.link = .training ∧
        t.fld (rPortCtlResult p) = 1 ∧ t.mem = s.mem) ∧
      (q.link ≠ .test → ∃ t, exec (.portLeaveTest path p) s = .next t ∧ t.ports = s.ports ∧ t.fld (rPortCtlResult p) = 3 ∧
        t.mem = s.mem) ∧
      (∀ lane, lane < 8 → s.portMode p = 2 → q.link = .up ∨ q.link = .awaitSecure → q.spareIdle = true → 8 ∉ q.bad → q.change = none →
        ∃ t x, exec (.portSwapLane path p lane) s = .next t ∧ t.ports[p]? = some x ∧ x.link = .swapping ∧
          x.change = some ⟨.swapRequest, moveLane q.txMap lane 8, (q.seq + 4) % 256, none, true, false⟩ ∧
          t.fld (rPortCtlResult p) = 1 ∧ t.mem = s.mem) ∧
      ∀ lane value, lane < 9 → s.reaches path true (0x030 + p) (0x1000 * (lane + 1) + 8) = true →
        (q.link ≠ .test → ∃ t, exec (.prbsCtlWrite path p lane value) s = .next t ∧ t.ports = s.ports ∧ t.mem = s.mem ∧
          t.stored (0x030 + p) (0x1000 * (lane + 1) + 8) = s.stored (0x030 + p) (0x1000 * (lane + 1) + 8) ∧
          bits (t.stored (0x030 + p) 0x010) 1 1 = 1) ∧
        (q.link = .test → ∃ t, exec (.prbsCtlWrite path p lane value) s = .next t ∧ t.ports = s.ports ∧ t.mem = s.mem ∧
          t.stored (0x030 + p) (0x1000 * (lane + 1) + 8) =
            writeWord (fieldsAt (0x030 + p) (0x1000 * (lane + 1) + 8)) s.locked
              (s.stored (0x030 + p) (0x1000 * (lane + 1) + 8)) value)

/-! ## Registers, switches and management (chapters 02, 09, 12, 13 and 17) -/

/-- R54, R56, R347: a pattern or a gate list is armed for a row at least 16 rows ahead, and otherwise RESULT says why not; a switch
that is not too near is cancelled; from its row the pending list is active and the registers say so. -/
def Obligations.SwitchesAreArmedAndMade : Prop :=
  ∀ (s : State),
    (∀ path row, s.reaches path true 0x070 0x030 = true → row < 2 ^ 48 →
      (s.pat.armed = none → s.row + 16 ≤ row → s.bankOk row = true →
        ∃ t, exec (.patSwitchArm path row) s = .next t ∧ t.pat = { s.pat with armed := some row } ∧ t.fld rPatSwitchResult = 1 ∧
          t.mem = s.mem) ∧
      (s.pat.armed = none → row < s.row + 16 →
        ∃ t, exec (.patSwitchArm path row) s = .next t ∧ t.pat = s.pat ∧ t.fld rPatSwitchResult = 3 ∧ t.mem = s.mem) ∧
      (s.pat.armed = none → s.row + 16 ≤ row → s.bankOk row = false →
        ∃ t, exec (.patSwitchArm path row) s = .next t ∧ t.pat = s.pat ∧ t.fld rPatSwitchResult = 4 ∧ t.mem = s.mem) ∧
      ∀ a, s.pat.armed = some a →
        (a < s.row + 16 → (∃ t, exec (.patSwitchArm path row) s = .next t ∧ t.pat = s.pat ∧ t.fld rPatSwitchResult = 5) ∧
          ∃ t, exec (.patSwitchCancel path) s = .next t ∧ t.pat = s.pat ∧ t.fld rPatSwitchResult = 5) ∧
        (s.row + 16 ≤ a → ∃ t, exec (.patSwitchCancel path) s = .next t ∧ t.pat = { s.pat with armed := none } ∧
          t.fld rPatSwitchResult = 0 ∧ t.mem = s.mem)) ∧
    (∀ path p row g, p < 8 → s.tm.gates[p]? = some g → s.reaches path true 0x040 (0x10000 * (p + 1)) = true → row < 2 ^ 48 →
      (g.armed = none → s.row + 16 ≤ row → gateListOk g.pending = true →
        ∃ t, exec (.gateSwitchArm path p row) s = .next t ∧ t.tm.gates[p]? = some { g with armed := some row } ∧
          t.fld (rGateSwitchResult p) = 1 ∧ t.mem = s.mem) ∧
      (g.armed = none → row < s.row + 16 →
        ∃ t, exec (.gateSwitchArm path p row) s = .next t ∧ t.tm = s.tm ∧ t.fld (rGateSwitchResult p) = 3 ∧ t.mem = s.mem) ∧
      ∀ a, g.armed = some a → s.row + 16 ≤ a →
        ∃ t, exec (.gateSwitchCancel path p) s = .next t ∧ t.tm.gates[p]? = some { g with armed := none } ∧
          t.fld (rGateSwitchResult p) = 0 ∧ t.mem = s.mem) ∧
    (∀ r, s.pat.armed = some r → s.sync.stepped = false →
      (s.row < r → exec .patternSwitch s = .next s) ∧
      (r ≤ s.row → ∃ t, exec .patternSwitch s = .next t ∧ t.pat.active = s.pat.pending ∧ t.pat.pending = s.pat.active ∧
        t.pat.armed = none ∧ t.fld rPatSwitchResult = 2 ∧ t.mem = s.mem)) ∧
    (∀ p g r, s.tm.gates[p]? = some g → g.armed = some r → s.sync.stepped = false →
      (s.row < r → exec (.gateListSwitch p) s = .next s) ∧
      (r ≤ s.row → ∃ t x, exec (.gateListSwitch p) s = .next t ∧ t.tm.gates[p]? = some x ∧ x.active = g.pending ∧
        x.armed = none ∧ t.fld (rGateSwitchResult p) = 2 ∧ t.mem = s.mem))

/-- R57: the pending bank cannot be written while it is protected, a write then having no effect and setting PROTECTED, and can be
written at all other times. An accepted arm protects it, one that replaces the armed row too; an accepted cancel of the armed
switch ends that; the switch itself protects until the start of row SWITCH_ROW + 2, which ROW_START brings. -/
def Obligations.PendingBankIsProtected : Prop :=
  ∀ (s : State),
    (∀ path x v a, x < 0x80000 → x % 8 = 0 → s.reaches path true 0x070 (0x80000 + x) = true → s.patByte (0x80000 + x) = some a →
      s.fld rPatWindowBank ≠ 1 →
      (s.pat.armed = none → s.pat.protect = none → ∃ t, exec (.patternWindowWrite path x v) s = .next t ∧
        t.pat = { s.pat with pending := Mem.write s.pat.pending a (leBytes 8 v.toNat) } ∧ t.regs = s.regs ∧ t.mem = s.mem) ∧
      (s.pat.armed ≠ none ∨ s.pat.protect ≠ none → ∃ t, exec (.patternWindowWrite path x v) s = .next t ∧ t.pat = s.pat ∧
        bits (t.stored 0x070 0x010) 1 1 = 1 ∧ t.mem = s.mem)) ∧
    (∀ path row, s.reaches path true 0x070 0x030 = true → row < 2 ^ 48 → s.row + 16 ≤ row → s.bankOk row = true →
      (∀ a, s.pat.armed = some a → s.row + 16 ≤ a) →
      ∃ t, exec (.patSwitchArm path row) s = .next t ∧ t.pat = { s.pat with armed := some row } ∧ t.fld rPatSwitchResult = 1) ∧
    (∀ path a, s.reaches path true 0x070 0x030 = true → s.pat.armed = some a → s.row + 16 ≤ a →
      ∃ t, exec (.patSwitchCancel path) s = .next t ∧ t.pat = { s.pat with armed := none }) ∧
    (∀ r, s.pat.armed = some r → s.sync.stepped = false → r ≤ s.row →
      ∃ t, exec .patternSwitch s = .next t ∧ t.pat.armed = none ∧ t.pat.protect = some (r + 2)) ∧
    ∀ x, s.runs = true →
      ∃ t, exec (.rowStart x) s = .next t ∧ t.pat.armed = s.pat.armed ∧ t.pat.pending = s.pat.pending ∧
        (∀ p, s.pat.protect = some p → t.pat.protect = if p ≤ s.clock.row + 1 then none else some p) ∧
        (s.pat.protect = none → t.pat.protect = none)
/-- R8, R409, R412, R414 to R417, R420, R425, R237, R334: a register is written under its access types where its path reaches it, and
not at all where it does not; an offset with no register records BAD_ACCESS; a locked ROL register keeps its value; some take
effect only at the next row. A management message is answered, by the network only to a fabric manager; I3C reads. QP_INSPECT shows or
closes a queue pair; the event ring's TAIL and FLOOR_LEVEL take what is written. -/
def Obligations.RegistersAreReachedAndWritten : Prop :=
  ∀ (s : State),
    (∀ path b o v,
      (s.reaches path true b o = false → exec (.registerWrite path b o v) s = .next s) ∧
      (s.reaches path true b o = true → o % 8 = 0 → o < 0x100000 → fieldsAt b o = [] → gateWindow b o = none →
        inPatWindow b o = false → inRing b o = false → (blockAt b).isSome = true →
        ∃ t, exec (.registerWrite path b o v) s = .next t ∧ bits (t.stored b 0x010) 2 2 = 1 ∧ t.mem = s.mem ∧ t.out = s.out) ∧
      (s.reaches path true b o = true → keeperOnly b o = false → isRol b o = true → s.locked = true → o % 8 = 0 →
        gateWindow b o = none → inPatWindow b o = false → inRing b o = false →
        ∃ t, exec (.registerWrite path b o v) s = .next t ∧ t.stored b o = s.stored b o ∧
          bits (t.stored b 0x010) 0 0 = 1 ∧ t.mem = s.mem ∧ t.out = s.out)) ∧
    (∀ path v, s.reaches path true 0x080 0x0D0 = true →
      ∃ t, exec (.registerWrite path 0x080 0x0D0 v) s = .next t ∧
        t.stored 0x080 0x0D0 = writeWord (fieldsAt 0x080 0x0D0) s.locked (s.stored 0x080 0x0D0) v ∧ t.mem = s.mem ∧
        t.out = s.out ∧ t.node = s.node) ∧
    (∀ path set enable tenant, set < 16 → s.reaches path true 0x058 (0x040 + 8 * set) = true →
      ∃ t d, exec (.bankScopeWrite path set enable tenant) s = .next t ∧ t.regs = s.regs ∧ t.mem = s.mem ∧
        t.mgmt.due = s.mgmt.due ++ [d] ∧ d.row = s.row ∧ d.block = 0x058 ∧ d.offset = 0x040 + 8 * set ∧
        bits d.value 31 31 = bit enable ∧ bits d.value 11 0 = tenant % 4096) ∧
    (∀ d, s.mgmt.due = [d] → d.block = 0x058 →
      (s.row ≤ d.row → exec .nextRowWriteEffect s = .next s) ∧
      (d.row < s.row → ∃ t, exec .nextRowWriteEffect s = .next t ∧ t.mgmt.due = [] ∧ t.mem = s.mem ∧
        t.stored d.block d.offset = writeWord (fieldsAt d.block d.offset) s.locked (s.stored d.block d.offset) d.value)) ∧
    (∀ qp, s.reaches .keeper true 0x038 0x060 = true → qp < 65536 →
      (4 ≤ qp → ∃ t, exec (.qpInspectRead .keeper qp) s = .next t ∧ t.stored 0x038 0x068 = s.qpWord qp ∧
        t.fld rQpInspectResult = 2 ∧ t.xport = s.xport ∧ t.mem = s.mem) ∧
      (qp < 4 → ∃ t, exec (.qpInspectRead .keeper qp) s = .next t ∧ t.fld rQpInspectResult = 3 ∧ t.xport = s.xport) ∧
      (4 ≤ qp → ∃ t, exec (.qpInspectClose .keeper qp) s = .next t ∧ t.fld rQpInspectResult = 2 ∧
        ∀ k c, connQp k = qp → Tbl.get s.xport.conns k = some c → c.state = .ready ∨ c.state = .closing →
          ∃ c', Tbl.get t.xport.conns k = some c' ∧ c'.state = .error ∧ c'.cause = 5)) ∧
    (∀ path tail, s.reaches path true 0x0F0 0x080 = true → s.mgmt.due = [] →
      ∃ t, exec (.eventTailWrite path tail) s = .next t ∧ t.fld rEventPtrTail = tail % 4096 ∧
        t.fld rEventPtrHead = s.fld rEventPtrHead ∧ t.mgmt = s.mgmt ∧ t.mem = s.mem) ∧
    (∀ path value, s.reaches path true 0x0F0 0x090 = true → s.emergency = false → value < 8 →
      ∃ t, exec (.powerCfgWrite path value) s = .next t ∧ t.fld rPowerCfgFloorLevel = min 4 value ∧ t.mem = s.mem) ∧
    (∀ src (m : MgmtMsg) a, Talks s → s.attested = true → wellFormedRequest m = true → m.entries = [⟨0, regBase + a, 0⟩] →
      a < 0x10000000 →
      (s.managers.contains src = false → exec (.managementRequest src m) s = .next s) ∧
      (s.managers.contains src = true → s.present (a / 0x100000) (a % 0x100000) = true →
        ∃ t, exec (.managementRequest src m) s = .next t ∧ t.mem = s.mem ∧ t.regs = s.regs ∧ t.out = s.out ++
          [.mgmtReply .fm src m.tag s.replyRow [⟨0, regBase + a, 0, s.readWord (a / 0x100000) (a % 0x100000)⟩]])) ∧
    (∀ (f : OobFrame) m a, f.body = .mgmt m → f.etherType = 0x88B5 → s.oobMacs.contains f.mac = true → f.mac ≠ broadcastMac →
      wellFormedRequest m = true →
      (s.powered = false → exec (.oobFrame f) s = .next s) ∧
      (s.powered = true → ∀ k, (s.mgmt.kept.find? fun k => k.srcId = f.srcId && k.tag = m.tag && k.request = m) = some k →
        exec (.oobFrame f) s = .next (s.sendAside (.mgmtReply .oob f.srcId m.tag k.row k.reply))) ∧
      (s.powered = true → (s.mgmt.kept.find? fun k => k.srcId = f.srcId && k.tag = m.tag && k.request = m) = none →
        m.entries = [⟨0, regBase + a, 0⟩] → a < 0x10000000 →
        s.reaches .oob false (a / 0x100000) (a % 0x100000) = true → s.present (a / 0x100000) (a % 0x100000) = true →
        ∃ t, exec (.oobFrame f) s = .next t ∧ t.mem = s.mem ∧ t.regs = s.regs ∧ t.out = s.out ++
          [.mgmtReply .oob f.srcId m.tag s.replyRow [⟨0, regBase + a, 0, s.readWord (a / 0x100000) (a % 0x100000)⟩]])) ∧
    ∀ a, s.powered = true → a < 0x10000000 → i3cPart (a / 0x100000) (a % 0x100000) = true →
      s.present (a / 0x100000) (a % 0x100000) = true →
      exec (.i3cAccess (regBase + a) none) s =
        .next (s.sendAside (.i3cReply (s.readWord (a / 0x100000) (a % 0x100000))))

/-! ## Boot, reset and cast-on (chapter 14) -/

/-- The node is as a reset leaves it: in Boot, with no command, no sequence, no connection and no byte of the stacks. -/
def Cleared (s t : State) : Prop :=
  t.node.state = .boot ∧ t.work = State.reset.work ∧ t.cat = State.reset.cat ∧ t.xport = State.reset.xport ∧ t.mem = [] ∧
    t.poison = [] ∧ t.clock = State.reset.clock ∧ t.node.flash = s.node.flash ∧ t.out = s.out

/-- R26, R356 to R363, R400, R417, R434: power and PORST_N give the power-on state; a full reset keeps LOCKED, counts itself and
records its cause and row. Boot takes the image that passes, or enters Fault; Training zeroes the stacks and ends once every enabled
port is Up or the time has passed; cast-on is admitted, committed and left for Serving. Flash is erased and programmed outside the booted
image. -/
def Obligations.BootAndReset : Prop :=
  ∀ (s : State),
    (∀ high, ∃ t, exec (.powerOnResetRelease high) s = .next t ∧ Cleared s t ∧ t.regs = [] ∧ t.node.oobHigh = high ∧
      t.node.porstLow = false) ∧
    (s.node.state ≠ .off → ∃ t, exec .porstNAssert s = .next t ∧ Cleared s t ∧ t.regs = [] ∧ t.node.porstLow = true) ∧
    (∃ t, exec .powerRemoved s = .next t ∧ t.node.state = .off ∧ t.work = State.reset.work ∧ t.cat = State.reset.cat ∧
      t.mem = [] ∧ t.regs = [] ∧ t.out = s.out) ∧
    (∀ (i : Instr) cause, s.runs = true →
      (i = .resetN ∧ cause = 5) ∨ (i = .vaultWatchdogExpiry ∧ cause = 3) ∨ (i = .faultHandlerWatchdogExpiry ∧ cause = 4) ∨
        (∃ path, i = .fullReset path ∧ s.reaches path true 0x080 0x030 = true ∧ cause = if path = .keeper then 2 else 1) →
      ∃ t, exec i s = .next t ∧ Cleared s t ∧ t.fld rBootStatusLocked = s.fld rBootStatusLocked ∧
        t.fld rResetCauseCause = cause ∧ t.fld rResetCauseBootCount = (s.fld rResetCauseBootCount + 1) % 4096 ∧
        t.fld rResetCauseLastRow = s.row % 2 ^ 48) ∧
    (s.node.state = .boot → s.node.porstLow = false → s.node.fuseAlg = 1 ∨ s.node.fuseAlg = 2 →
      (∀ i u, s.pickImage = (some i, u) → ∃ t, exec .bootComplete s = .next t ∧ t.node.state = .training ∧
        t.fld rBootStatusLocked = 1 ∧ t.fld rBootStatusImage = i.image ∧ t.mem = s.mem) ∧
      (∀ u, s.pickImage = (none, u) → ∃ t, exec .bootComplete s = .next t ∧ t.node.state = .fault ∧
        t.fld rGlobalStatusFaultCause = (if s.node.bootDigest = none then 0x02 else 0x0A) ∧ t.mem = s.mem)) ∧
    (s.node.state = .training →
      (∀ n gib, s.node.restDone = false → ∃ t, exec (.trainingComplete n gib) s = .next t ∧ t.mem = [] ∧
        t.node.restDone = true ∧ t.mover.devices = min 16 n ∧
        ((∀ p, p < 8 → s.portMode p = 0 ∨ ∃ q, s.ports[p]? = some q ∧ q.link = .up) → t.node.state = .attested) ∧
        (∀ p q, p < 8 → s.portMode p ≠ 0 → s.ports[p]? = some q → q.link ≠ .up → s.node.portTimeout = false →
          t.node.state = .training)) ∧
      ∃ t, exec .portTrainingTimeout s = .next t ∧ t.node.portTimeout = true ∧ t.mem = s.mem ∧
        t.node.state = (if s.node.restDone then .attested else .training)) ∧
    (∀ path, s.reaches path true 0x080 0x038 = true →
      (s.node.state = .attested → ∃ t, exec (.castonAdmit path) s = .next t ∧ t.node.state = .castOn ∧
        t.fld rCastonCtlResult = 1 ∧ t.mem = s.mem) ∧
      (s.node.state ≠ .attested → ∃ t, exec (.castonAdmit path) s = .next t ∧ t.node = s.node ∧ t.fld rCastonCtlResult = 3) ∧
      (s.node.state = .castOn → ∃ t, exec (.castonCommit path) s = .next t ∧ t.node = { s.node with committed := true } ∧
        t.fld rCastonCtlResult = 2 ∧ t.mem = s.mem) ∧
      (s.node.state ≠ .castOn → ∃ t, exec (.castonCommit path) s = .next t ∧ t.node = s.node ∧ t.fld rCastonCtlResult = 3)) ∧
    (s.node.state = .castOn → s.clock.ns = 0 → s.sync.state = .locked → patId s.pat.active ≠ 0 → s.node.committed = true →
      ∃ t, exec .castOnToServing s = .next t ∧ t.mem = s.mem ∧
        t.node.state = (if s.node.drainHeld then .draining else .serving) ∧
        (s.node.drainHeld = false → t.node.fuseRollback = max s.node.fuseRollback s.node.bootVersion)) ∧
    (∀ path a, s.reaches path true 0x0F0 0x088 = true → s.fld rFlashCtlResult ≠ 1 → a < 2 ^ 27 →
      (a % 65536 ≠ 0 → ∃ t, exec (.flashErase path a) s = .next t ∧ t.node = s.node ∧ t.fld rFlashCtlResult = 4) ∧
      (a % 65536 = 0 → s.inBooted a 65536 = true → ∃ t, exec (.flashErase path a) s = .next t ∧ t.node = s.node ∧
        t.fld rFlashCtlResult = 3) ∧
      (a % 65536 = 0 → s.inBooted a 65536 = false → ∃ t, exec (.flashErase path a) s = .next t ∧
        t.node = { s.node with flashErase := some a, flashProgram := none } ∧ t.fld rFlashCtlResult = 1 ∧ t.mem = s.mem) ∧
      (a % 256 = 0 → s.inBooted a 256 = false → ∃ t, exec (.flashProgram path a) s = .next t ∧
        t.node = { s.node with flashErase := none, flashProgram := some (a, s.flashData) } ∧ t.fld rFlashCtlResult = 1 ∧
        t.mem = s.mem)) ∧
    (s.fld rFlashCtlResult ≠ 1 → exec .flashOpDone s = .next s) ∧
    (s.fld rFlashCtlResult = 1 →
      ∃ t, exec .flashOpDone s = .next t ∧ t.fld rFlashCtlResult = 2 ∧ t.mem = s.mem ∧
        (∀ a, s.node.flashErase = some a → s.node.flashProgram = none → ∀ x, Flash.get t.node.flash x =
          if a ≤ x ∧ x < a + 65536 then 0xFF else Flash.get s.node.flash x) ∧
        ∀ a bs, s.node.flashErase = none → s.node.flashProgram = some (a, bs) → ∀ x, Flash.get t.node.flash x =
          if a ≤ x then Flash.get s.node.flash x &&& (bs[x - a]?).getD 0xFF else Flash.get s.node.flash x)

/-! ## Tenants and the vault (chapter 15) -/

/-- R370 to R384: a tenant slot is admitted, withdrawn and read through TENANT_CTL; withdrawing closes its sequences, revokes its keys
and ends its queue pairs, and ends when nothing of it is left. The vault answers in sessions that live by their heartbeat, sets and
clears keys, tickets and consent for those who authenticate, and shows its log; keys and claims take effect in the row after. -/
def Obligations.TenantsAndTheVault : Prop :=
  ∀ (s : State),
    (∀ path n b, s.reaches path true 0x080 0x048 = true → s.fld rTenantCtlResult ≠ 1 → n < 4096 →
      (ownTenant n = true → ∃ t, exec (.tenantAdmit path n b) s = .next t ∧ t.vault = s.vault ∧ t.fld rTenantCtlResult = 4) ∧
      (ownTenant n = false → (s.tenantAt n).state = .free → ∃ t, exec (.tenantAdmit path n b) s = .next t ∧
        t.tenantAt n = { Tenant.free with state := .admitted, auth := s.authHash, isSealed := b } ∧
        t.fld rTenantCtlResult = 2 ∧ (s.vault.log.length < 65536 → ∃ e, t.vault.log = s.vault.log ++ [e] ∧ e.index = 11) ∧
        (b = true → s.vault.claimed = false → ∃ r, t.vault.claimsDue = some (r, true)) ∧ t.mem = s.mem) ∧
      (ownTenant n = false → (s.tenantAt n).state ≠ .free → ∃ t, exec (.tenantAdmit path n b) s = .next t ∧ t.vault = s.vault ∧
        t.fld rTenantCtlResult = 3) ∧
      (ownTenant n = false → (s.tenantAt n).state = .admitted ∨ (s.tenantAt n).state = .keyed →
        ∃ t, exec (.tenantWithdraw path n) s = .next t ∧ (t.tenantAt n).state = .withdrawing ∧ (t.tenantAt n).key = none ∧
          (t.tenantAt n).ticket = none ∧ t.fld rTenantCtlResult = 1 ∧ t.mem = s.mem ∧
          (∀ k q, Tbl.get s.cat.seqs k = some q → q.tenant = n → q.state = .opened →
            ∃ q', Tbl.get t.cat.seqs k = some q' ∧ q'.state = .closing) ∧
          (∀ k x, Tbl.get s.xport.keys k = some x → x.tenant = n → x.state = .valid →
            ∃ y, Tbl.get t.xport.keys k = some y ∧ (x.revokeDue = none → y.revokeDue = some s.row) ∧
              y.revokeDue.isSome = true) ∧
          ∀ k c, Tbl.get s.xport.conns k = some c → c.tenant = n → c.relay = false → c.state = .ready →
            ∃ c', Tbl.get t.xport.conns k = some c' ∧ c'.state = .error ∧ c'.cause = 4) ∧
      (∃ t, exec (.tenantRead path n) s = .next t ∧ t.stored 0x080 0x080 = s.tenantInfo n ∧ t.fld rTenantCtlResult = 2 ∧
        t.vault = s.vault ∧ t.mem = s.mem)) ∧
    (∀ n, ((s.tenantAt n).state ≠ .withdrawing ∨ s.tenantLeft n = true → exec (.withdrawalComplete n) s = .next s) ∧
      ((s.tenantAt n).state = .withdrawing → s.tenantLeft n = false → ∃ t, exec (.withdrawalComplete n) s = .next t ∧
        t.tenantAt n = Tenant.free ∧ t.mem = s.mem ∧ (s.fld rTenantCtlResult = 1 → t.fld rTenantCtlResult = 2))) ∧
    (∀ r, s.vaultOnline = false → exec (.spdmRequest none r) s = .next s) ∧
    (s.vaultOnline = true →
      (∀ nonce, exec (.spdmRequest none (.measurements nonce)) s =
        .next (s.sendAside (.vault none 0x60 0 (measurementIndices.map s.measurement) []))) ∧
      (s.vault.sessions.length < 64 → ∃ t, exec (.spdmRequest none .keyExchange) s = .next t ∧
        Tbl.get t.vault.sessions s.vault.nextSession = some ⟨none, s.row⟩ ∧
        t.out = s.out ++ [.vault (some s.vault.nextSession) 0x64 0 [] []])) ∧
    (∀ n x k, s.vaultUp = true → Tbl.get s.vault.sessions n = some x →
      (s.speaksFor x k = false → ∀ k1 k2, exec (.setKey n k k1 k2) s = .next (s.sendAside (.vault (some n) 1 4 [] []))) ∧
      (s.speaksFor x k = true →
        ((s.tenantAt k).isIn = true →
          (∀ k1 k2, (s.tenantAt k).key = none → (s.tenantAt k).keyDue = none → k1 ≠ k2 →
            ∃ t, exec (.setKey n k k1 k2) s = .next t ∧ t.out = s.out ++ [.vault (some n) 1 0 [] []] ∧
              t.tenantAt k = { s.tenantAt k with keyDue := some (s.row, some (k1 ++ k2)) }) ∧
          (∀ k1, (s.tenantAt k).key = none → (s.tenantAt k).keyDue = none →
            exec (.setKey n k k1 k1) s = .next (s.sendAside (.vault (some n) 1 3 [] []))) ∧
          (∀ v, ∃ t, exec (.setTicket n k v) s = .next t ∧ t.out = s.out ++ [.vault (some n) 2 0 [] []] ∧
            t.tenantAt k = { s.tenantAt k with ticket := some v }) ∧
          (∀ v, ∃ t, exec (.setConsent n k v) s = .next t ∧ t.out = s.out ++ [.vault (some n) 3 0 [] []] ∧
            t.tenantAt k = { s.tenantAt k with consentDue := some (v % 8) }) ∧
          ∃ t, exec (.clearTicket n k) s = .next t ∧ t.out = s.out ++ [.vault (some n) 5 0 [] []] ∧
            t.tenantAt k = { s.tenantAt k with ticket := none }) ∧
        ((s.tenantAt k).state = .keyed → ownTenant k = false → ∃ t, exec (.clearKey n k) s = .next t ∧
          t.out = s.out ++ [.vault (some n) 4 0 [] []] ∧ t.tenantAt k = { s.tenantAt k with keyDue := some (s.row, none) })) ∧
      (∀ first, exec (.readLog (some n) first) s =
        .next (s.sendAside (.vault (some n) 6 0 [] ((s.vault.log.drop first).take 63))))) ∧
    (Tbl.wf s.vault.tenants = true → ∃ t, exec .keySlotEffect s = .next t ∧ t.mem = s.mem ∧
      ∀ n x r key, Tbl.get s.vault.tenants n = some x → x.keyDue = some (r, key) → r < s.row → x.isIn = true →
        ∃ y, Tbl.get t.vault.tenants n = some y ∧ y.key = key ∧ y.keyDue = none ∧
          y.state = (if key = none then .admitted else .keyed)) ∧
    (∀ r, s.vault.claimsDue = some (r, true) → r < s.row →
      exec .claimsEffect s = .next { s with vault := { s.vault with claimed := true, claimsDue := none } }) ∧
    (∀ r, s.vault.claimsDue = some (r, false) → r < s.row → s.vault.deferred = none →
      exec .claimsRelease s = .next { s with vault := { s.vault with claimed := false, claimsDue := none, deferred := none } }) ∧
    ∀ n x, Tbl.get s.vault.sessions n = some x →
      (s.row < x.beat + 1953125 → exec (.spdmHeartbeatTimeout n) s = .next s) ∧
      (x.beat + 1953125 ≤ s.row → ∃ t, exec (.spdmHeartbeatTimeout n) s = .next t ∧ Tbl.get t.vault.sessions n = none ∧
        t.mem = s.mem)

/-! ## Blocks, health, bind-off, power and temperature (chapters 15, 16 and 18) -/

/-- R380, R381, Table 15-6: BLOCK_REQ stops, gates, restores or captures a block that is not claimed; a claimed one is deferred or
denied, and counted; CANCEL drops what is deferred. (The Catalogue, whose loss resets the node, is left to FatalErrorsEnterFault and
BootAndReset.) -/
def Obligations.BlocksAreHeldAndReturned : Prop :=
  ∀ (s : State) b, s.runs = true → s.fld rBootStatusImage ≠ 0 → b < 256 → noSuchBlock b = false →
    (∀ (i : Instr) how gate, (i = .stopClock .keeper b ∧ how = BlockHold.stopped ∧ gate = false) ∨
        (i = .gatePower .keeper b ∧ how = BlockHold.gated ∧ gate = true) →
      (s.isClaimed b = false → Tbl.get s.vault.blocks b ≠ some .cut → b ≠ 0x050 → ∃ t, exec i s = .next t ∧
        Tbl.get t.vault.blocks b = some how ∧ t.fld rBlockReqResult = 1 ∧ t.vault.deferred = none) ∧
      (s.isClaimed b = true → ∃ t, exec i s = .next t ∧ t.vault = { s.vault with deferred := some (gate, b) } ∧
        t.fld rBlockReqResult = 2 ∧
        t.fld rSecureEventsDenied = min rSecureEventsDenied.max (s.fld rSecureEventsDenied + 1) ∧ t.mem = s.mem)) ∧
    (Tbl.get s.vault.blocks b = some .stopped ∨ Tbl.get s.vault.blocks b = some .gated →
      ∃ t, exec (.restore .keeper b) s = .next t ∧ Tbl.get t.vault.blocks b = none ∧ t.fld rBlockReqResult = 1 ∧ t.mem = s.mem) ∧
    (Tbl.get s.vault.blocks b = some .cut →
      ∃ t, exec (.restore .keeper b) s = .next t ∧ Tbl.get t.vault.blocks b = some .cut ∧ t.fld rBlockReqResult = 4) ∧
    (s.isClaimed b = false → ∃ t, exec (.capture .keeper b) s = .next t ∧ t.fld rBlockReqResult = 1 ∧ t.mem = s.mem ∧
      t.fld rSecureEventsCaptures = min rSecureEventsCaptures.max (s.fld rSecureEventsCaptures + 1)) ∧
    (s.isClaimed b = true → s.debugConsent = false → ∃ t, exec (.capture .keeper b) s = .next t ∧ t.fld rBlockReqResult = 3 ∧
      t.fld rSecureEventsDenied = min rSecureEventsDenied.max (s.fld rSecureEventsDenied + 1) ∧ t.mem = s.mem) ∧
    ∃ t, exec (.cancel .keeper) s = .next t ∧ t.vault = { s.vault with deferred := none } ∧ t.mem = s.mem ∧
      t.fld rBlockReqResult = if s.vault.deferred = none then 0 else 5

/-- R390, R393, R399: a gauge loses an eighth of its value and takes the epoch's count, unless scoring is shed; load over 90 % raises the shed
level and under 70 % lowers it; a Keeper core that faults drops out. R402 to R405: DRAIN leaves Serving, an order that passes sets the
row of the bind-off, from which nothing more is admitted, and four rows later the node is Bound-off, its stacks and keys gone. -/
def Obligations.HealthAndBindOff : Prop :=
  ∀ (s : State),
    (3 ≤ s.fld rShedLevel → ∃ t, exec .gaugeEpochEnd s = .next t ∧ t.health = s.health ∧ t.mem = s.mem) ∧
    (s.fld rShedLevel < 3 → ∃ t, exec .gaugeEpochEnd s = .next t ∧ t.health.counts = [] ∧ t.mem = s.mem ∧
      ∀ k g, Tbl.get s.health.gauges k = some g → k / 2 ^ 20 ≠ 4 → k / 2 ^ 20 ≠ 7 →
        Tbl.get t.health.gauges k = some (g.scored (Tbl.num s.health.counts k))) ∧
    (∀ load,
      (∃ t, exec (.keeperShedRaise load) s = .next t ∧ t.fld rShedLoadPct = min 100 load ∧ t.mem = s.mem ∧
        t.fld rShedLevel = if 90 < load then min 4 (s.fld rShedLevel + 1) else s.fld rShedLevel) ∧
      ∃ t, exec (.keeperShedLower load) s = .next t ∧ t.fld rShedLoadPct = min 100 load ∧ t.mem = s.mem ∧
        t.fld rShedLevel = if load < 70 then s.fld rShedLevel - 1 else s.fld rShedLevel) ∧
    (∀ core, ∃ t, exec (.keeperCoreFault core) s = .next t ∧ t.health.faults = s.health.faults ++ [s.row] ∧
      t.health.cores = s.health.cores.filter (· ≠ core) ∧ t.mem = s.mem) ∧
    (∀ path, s.reaches path true 0x080 0x0F0 = true →
      (path = .fm ∨ path = .oob →
        (s.node.state = .serving → ∃ t, exec (.drain path) s = .next t ∧ t.node.state = .draining ∧
          t.fld rBindoffCtlResult = 2 ∧ t.mem = s.mem) ∧
        (s.node.state ≠ .serving → ∃ t, exec (.drain path) s = .next t ∧ t.node = s.node ∧ t.fld rBindoffCtlResult = 4 ∧
          t.mem = s.mem)) ∧
      (s.bindable = false → ∃ t, exec (.submit path) s = .next t ∧ t.node = s.node ∧ t.fld rBindoffCtlResult = 4 ∧
        t.fld rBindoffNonceNonce = Config.freeNat s.fresh % 2 ^ 32) ∧
      (s.bindable = true → s.orderOk s.orderBytes = false → ∃ t, exec (.submit path) s = .next t ∧ t.node = s.node ∧
        t.fld rBindoffCtlResult = 3 ∧ t.fld rBindoffNonceNonce = Config.freeNat s.fresh % 2 ^ 32) ∧
      (s.bindable = true → s.orderOk s.orderBytes = true → ∃ t, exec (.submit path) s = .next t ∧
        t.node.bindoff = some (orderRow s.orderBytes) ∧ t.fld rBindoffCtlResult = 2 ∧
        t.fld rBindoffCtlTargetRow = orderRow s.orderBytes ∧ t.mem = s.mem ∧
        t.node.state = if s.node.state = .serving then .draining else s.node.state)) ∧
    ∀ r, s.node.bindoff = some r →
      (s.row < r → exec .bindoffTargetRow s = .next s) ∧
      (r ≤ s.row → ∃ t, exec .bindoffTargetRow s = .next t ∧ t.work.held = [] ∧ t.work.waiting = [] ∧
        t.work.cmds = s.work.cmds ∧ t.mem = s.mem) ∧
      (s.row < r + 4 → exec .boundOff s = .next s) ∧
      (r + 4 ≤ s.row → s.node.state = .draining → ∃ t, exec .boundOff s = .next t ∧ t.node.state = .boundOff ∧ t.mem = [] ∧
        t.cat = State.reset.cat ∧ t.xport.keys = [] ∧ t.vault.sessions = [] ∧ t.work.cmds = [] ∧
        ∀ k c, Tbl.get t.xport.conns k = some c → c.state ≠ .ready ∧ c.state ≠ .closing)

/-- R382, R428, R429, R433, Tables 18-3 and 18-4: a temperature that reaches 100, 105 and 115 degrees alerts, cuts its blocks and stops the
clocks; conditions clear and caps rise after 256 rows below their limits, and a cut block returns after 4,096. A rail out of range is
recorded, one beyond its rating cuts its blocks, enters Fault or resets, and one that is back in range frees what it cut. -/
def Obligations.HeatAndRails : Prop :=
  ∀ (s : State),
    (∀ x y temp, s.tempAt x = some y →
      (temp < 100 → exec (.thermalAlert x temp) s = .next s) ∧
      (100 ≤ temp → ∃ t, exec (.thermalAlert x temp) s = .next t ∧ t.tempAt x = some { y with alert := true } ∧
        t.mem = s.mem ∧ t.work = s.work) ∧
      (temp < 105 → exec (.thermalEmergency x temp) s = .next s) ∧
      (105 ≤ temp → x ≠ .die 19 → ∃ t, exec (.thermalEmergency x temp) s = .next t ∧
        t.tempAt x = some { y with alert := true, emergency := true, isCut := true } ∧
        ((∀ (n : Nat) (k : Stack), s.stackUnits[n]? = some k → k.conflicts = [] ∧ k.held = []) → t.mem = s.mem) ∧
        ∀ b ∈ sensorBlocks x, Tbl.get t.vault.blocks b = some .cut) ∧
      (105 ≤ temp → x = .die 19 → s.runs = true → ∃ t, exec (.thermalEmergency x temp) s = .next t ∧ Cleared s t) ∧
      (temp < 115 → exec (.thermalTrip x temp) s = .next s) ∧
      (115 ≤ temp → exec (.thermalTrip x temp) s = .next { s with node := { s.node with tripped := true } }) ∧
      (∃ t, exec (.thermalClear x) s = .next t ∧ t.mem = s.mem ∧ t.tempAt x =
        some { y with alert := y.alert && y.r98 < 256, emergency := y.emergency && y.r103 < 256 }) ∧
      (y.isCut = false ∨ y.r94 < 4096 → exec (.cutBlockReturn x) s = .next s) ∧
      (y.isCut = true → 4096 ≤ y.r94 → ∃ t, exec (.cutBlockReturn x) s = .next t ∧ t.mem = s.mem ∧
        t.tempAt x = some { y with isCut := false } ∧
        ∀ b ∈ sensorBlocks x, (s.setTemp x fun t => { t with isCut := false }).stillCut b = false →
          Tbl.get s.vault.blocks b = some .cut → Tbl.get t.vault.blocks b = none)) ∧
    (∀ n x k, s.power.stackTemps[n]? = some x → s.stackUnits[n]? = some k →
      ∃ t k', exec (.thermalCapRise n) s = .next t ∧ t.stackUnits[n]? = some k' ∧ t.mem = s.mem ∧ k'.thermalCap =
        (if k.thermalCap = 96 ∧ 256 ≤ x.r88 then 128 else if k.thermalCap = 64 ∧ 256 ≤ x.r93 then 96
         else if k.thermalCap = 32 ∧ 256 ≤ x.r98 then 64 else if k.thermalCap = 0 ∧ 256 ≤ x.r103 then 32 else k.thermalCap)) ∧
    ∀ k, k < 13 →
      (∃ t, exec (.railOutOfRange k) s = .next t ∧ k ∈ t.power.railOut ∧
        bits (t.stored 0x0F0 0x0A8) (16 + k) (16 + k) = 1 ∧ t.mem = s.mem ∧ t.work = s.work) ∧
      (s.node.state ≠ .off →
        (k = 0 → ∃ t, exec (.railAbsoluteExcursion k) s = .next t ∧ Cleared s t ∧ 0 ∈ t.power.railOut) ∧
        (k = 5 ∨ k = 8 ∨ k = 12 → ∃ t, exec (.railAbsoluteExcursion k) s = .next t ∧ k ∈ t.power.railCut ∧
          ((∀ (n : Nat) (k : Stack), s.stackUnits[n]? = some k → k.conflicts = [] ∧ k.held = []) → t.mem = s.mem) ∧
          ∀ b ∈ railBlocks k, Tbl.get t.vault.blocks b = some .cut) ∧
        (k ≠ 0 → k ≠ 5 → k ≠ 8 → k ≠ 12 → s.node.state ≠ .fault → ∃ t, exec (.railAbsoluteExcursion k) s = .next t ∧
          t.node.state = .fault ∧ t.fld rGlobalStatusFaultCause = 0x04 ∧ t.mem = s.mem)) ∧
      (k ∈ s.power.railOut → ∃ t, exec (.railRecovery k) s = .next t ∧ k ∉ t.power.railOut ∧
        Tbl.get t.power.railBack k = some s.row ∧ t.vault = s.vault ∧ t.mem = s.mem) ∧
      (k ∉ s.power.railOut → k ∈ s.power.railCut → Tbl.num s.power.railBack k + 64 ≤ s.row →
        ∃ t, exec (.railRecovery k) s = .next t ∧ k ∉ t.power.railCut ∧ t.mem = s.mem ∧
          ∀ b ∈ railBlocks k, ({ s with power := { s.power with
              railCut := s.power.railCut.filter (· ≠ k)
              railBack := Tbl.erase s.power.railBack k } }).stillCut b = false →
            Tbl.get s.vault.blocks b = some .cut → Tbl.get t.vault.blocks b = none)
end

