-- ==== Sys2Proof/Laws/State.lean ====
section
/-! SUPPORT. Updates of the state: what each named update leaves as it was, field by field. -/

namespace Sys2Proof.Machine

variable (s : State)

/-! `tick` changes clock only. -/

@[simp] theorem State.tick_pending (ns : Nat) : (s.tick ns).pending = s.pending := rfl
@[simp] theorem State.tick_node (ns : Nat) : (s.tick ns).node = s.node := rfl
@[simp] theorem State.tick_sync (ns : Nat) : (s.tick ns).sync = s.sync := rfl
@[simp] theorem State.tick_pat (ns : Nat) : (s.tick ns).pat = s.pat := rfl
@[simp] theorem State.tick_regs (ns : Nat) : (s.tick ns).regs = s.regs := rfl
@[simp] theorem State.tick_mem (ns : Nat) : (s.tick ns).mem = s.mem := rfl
@[simp] theorem State.tick_poison (ns : Nat) : (s.tick ns).poison = s.poison := rfl
@[simp] theorem State.tick_stackUnits (ns : Nat) : (s.tick ns).stackUnits = s.stackUnits := rfl
@[simp] theorem State.tick_arrays (ns : Nat) : (s.tick ns).arrays = s.arrays := rfl
@[simp] theorem State.tick_cat (ns : Nat) : (s.tick ns).cat = s.cat := rfl
@[simp] theorem State.tick_work (ns : Nat) : (s.tick ns).work = s.work := rfl
@[simp] theorem State.tick_index (ns : Nat) : (s.tick ns).index = s.index := rfl
@[simp] theorem State.tick_mover (ns : Nat) : (s.tick ns).mover = s.mover := rfl
@[simp] theorem State.tick_ports (ns : Nat) : (s.tick ns).ports = s.ports := rfl
@[simp] theorem State.tick_xport (ns : Nat) : (s.tick ns).xport = s.xport := rfl
@[simp] theorem State.tick_tm (ns : Nat) : (s.tick ns).tm = s.tm := rfl
@[simp] theorem State.tick_vault (ns : Nat) : (s.tick ns).vault = s.vault := rfl
@[simp] theorem State.tick_health (ns : Nat) : (s.tick ns).health = s.health := rfl
@[simp] theorem State.tick_power (ns : Nat) : (s.tick ns).power = s.power := rfl
@[simp] theorem State.tick_mgmt (ns : Nat) : (s.tick ns).mgmt = s.mgmt := rfl
@[simp] theorem State.tick_out (ns : Nat) : (s.tick ns).out = s.out := rfl
@[simp] theorem State.tick_fresh (ns : Nat) : (s.tick ns).fresh = s.fresh := rfl

/-! `setStored` changes regs only. -/

@[simp] theorem State.setStored_pending (b o : Nat) (w : Word) : (s.setStored b o w).pending = s.pending := rfl
@[simp] theorem State.setStored_clock (b o : Nat) (w : Word) : (s.setStored b o w).clock = s.clock := rfl
@[simp] theorem State.setStored_node (b o : Nat) (w : Word) : (s.setStored b o w).node = s.node := rfl
@[simp] theorem State.setStored_sync (b o : Nat) (w : Word) : (s.setStored b o w).sync = s.sync := rfl
@[simp] theorem State.setStored_pat (b o : Nat) (w : Word) : (s.setStored b o w).pat = s.pat := rfl
@[simp] theorem State.setStored_mem (b o : Nat) (w : Word) : (s.setStored b o w).mem = s.mem := rfl
@[simp] theorem State.setStored_poison (b o : Nat) (w : Word) : (s.setStored b o w).poison = s.poison := rfl
@[simp] theorem State.setStored_stackUnits (b o : Nat) (w : Word) : (s.setStored b o w).stackUnits = s.stackUnits := rfl
@[simp] theorem State.setStored_arrays (b o : Nat) (w : Word) : (s.setStored b o w).arrays = s.arrays := rfl
@[simp] theorem State.setStored_cat (b o : Nat) (w : Word) : (s.setStored b o w).cat = s.cat := rfl
@[simp] theorem State.setStored_work (b o : Nat) (w : Word) : (s.setStored b o w).work = s.work := rfl
@[simp] theorem State.setStored_index (b o : Nat) (w : Word) : (s.setStored b o w).index = s.index := rfl
@[simp] theorem State.setStored_mover (b o : Nat) (w : Word) : (s.setStored b o w).mover = s.mover := rfl
@[simp] theorem State.setStored_ports (b o : Nat) (w : Word) : (s.setStored b o w).ports = s.ports := rfl
@[simp] theorem State.setStored_xport (b o : Nat) (w : Word) : (s.setStored b o w).xport = s.xport := rfl
@[simp] theorem State.setStored_tm (b o : Nat) (w : Word) : (s.setStored b o w).tm = s.tm := rfl
@[simp] theorem State.setStored_vault (b o : Nat) (w : Word) : (s.setStored b o w).vault = s.vault := rfl
@[simp] theorem State.setStored_health (b o : Nat) (w : Word) : (s.setStored b o w).health = s.health := rfl
@[simp] theorem State.setStored_power (b o : Nat) (w : Word) : (s.setStored b o w).power = s.power := rfl
@[simp] theorem State.setStored_mgmt (b o : Nat) (w : Word) : (s.setStored b o w).mgmt = s.mgmt := rfl
@[simp] theorem State.setStored_out (b o : Nat) (w : Word) : (s.setStored b o w).out = s.out := rfl
@[simp] theorem State.setStored_fresh (b o : Nat) (w : Word) : (s.setStored b o w).fresh = s.fresh := rfl

/-! `setFld` changes regs only. -/

@[simp] theorem State.setFld_pending (f : Field) (v : Nat) : (s.setFld f v).pending = s.pending := State.setStored_pending _ _ _ _
@[simp] theorem State.setFld_clock (f : Field) (v : Nat) : (s.setFld f v).clock = s.clock := State.setStored_clock _ _ _ _
@[simp] theorem State.setFld_node (f : Field) (v : Nat) : (s.setFld f v).node = s.node := State.setStored_node _ _ _ _
@[simp] theorem State.setFld_sync (f : Field) (v : Nat) : (s.setFld f v).sync = s.sync := State.setStored_sync _ _ _ _
@[simp] theorem State.setFld_pat (f : Field) (v : Nat) : (s.setFld f v).pat = s.pat := State.setStored_pat _ _ _ _
@[simp] theorem State.setFld_mem (f : Field) (v : Nat) : (s.setFld f v).mem = s.mem := State.setStored_mem _ _ _ _
@[simp] theorem State.setFld_poison (f : Field) (v : Nat) : (s.setFld f v).poison = s.poison := State.setStored_poison _ _ _ _
@[simp] theorem State.setFld_stackUnits (f : Field) (v : Nat) : (s.setFld f v).stackUnits = s.stackUnits := State.setStored_stackUnits _ _ _ _
@[simp] theorem State.setFld_arrays (f : Field) (v : Nat) : (s.setFld f v).arrays = s.arrays := State.setStored_arrays _ _ _ _
@[simp] theorem State.setFld_cat (f : Field) (v : Nat) : (s.setFld f v).cat = s.cat := State.setStored_cat _ _ _ _
@[simp] theorem State.setFld_work (f : Field) (v : Nat) : (s.setFld f v).work = s.work := State.setStored_work _ _ _ _
@[simp] theorem State.setFld_index (f : Field) (v : Nat) : (s.setFld f v).index = s.index := State.setStored_index _ _ _ _
@[simp] theorem State.setFld_mover (f : Field) (v : Nat) : (s.setFld f v).mover = s.mover := State.setStored_mover _ _ _ _
@[simp] theorem State.setFld_ports (f : Field) (v : Nat) : (s.setFld f v).ports = s.ports := State.setStored_ports _ _ _ _
@[simp] theorem State.setFld_xport (f : Field) (v : Nat) : (s.setFld f v).xport = s.xport := State.setStored_xport _ _ _ _
@[simp] theorem State.setFld_tm (f : Field) (v : Nat) : (s.setFld f v).tm = s.tm := State.setStored_tm _ _ _ _
@[simp] theorem State.setFld_vault (f : Field) (v : Nat) : (s.setFld f v).vault = s.vault := State.setStored_vault _ _ _ _
@[simp] theorem State.setFld_health (f : Field) (v : Nat) : (s.setFld f v).health = s.health := State.setStored_health _ _ _ _
@[simp] theorem State.setFld_power (f : Field) (v : Nat) : (s.setFld f v).power = s.power := State.setStored_power _ _ _ _
@[simp] theorem State.setFld_mgmt (f : Field) (v : Nat) : (s.setFld f v).mgmt = s.mgmt := State.setStored_mgmt _ _ _ _
@[simp] theorem State.setFld_out (f : Field) (v : Nat) : (s.setFld f v).out = s.out := State.setStored_out _ _ _ _
@[simp] theorem State.setFld_fresh (f : Field) (v : Nat) : (s.setFld f v).fresh = s.fresh := State.setStored_fresh _ _ _ _

/-! `count` changes regs only. -/

@[simp] theorem State.count_pending (f : Field) (n : Nat) : (s.count f n).pending = s.pending := State.setFld_pending _ _ _
@[simp] theorem State.count_clock (f : Field) (n : Nat) : (s.count f n).clock = s.clock := State.setFld_clock _ _ _
@[simp] theorem State.count_node (f : Field) (n : Nat) : (s.count f n).node = s.node := State.setFld_node _ _ _
@[simp] theorem State.count_sync (f : Field) (n : Nat) : (s.count f n).sync = s.sync := State.setFld_sync _ _ _
@[simp] theorem State.count_pat (f : Field) (n : Nat) : (s.count f n).pat = s.pat := State.setFld_pat _ _ _
@[simp] theorem State.count_mem (f : Field) (n : Nat) : (s.count f n).mem = s.mem := State.setFld_mem _ _ _
@[simp] theorem State.count_poison (f : Field) (n : Nat) : (s.count f n).poison = s.poison := State.setFld_poison _ _ _
@[simp] theorem State.count_stackUnits (f : Field) (n : Nat) : (s.count f n).stackUnits = s.stackUnits := State.setFld_stackUnits _ _ _
@[simp] theorem State.count_arrays (f : Field) (n : Nat) : (s.count f n).arrays = s.arrays := State.setFld_arrays _ _ _
@[simp] theorem State.count_cat (f : Field) (n : Nat) : (s.count f n).cat = s.cat := State.setFld_cat _ _ _
@[simp] theorem State.count_work (f : Field) (n : Nat) : (s.count f n).work = s.work := State.setFld_work _ _ _
@[simp] theorem State.count_index (f : Field) (n : Nat) : (s.count f n).index = s.index := State.setFld_index _ _ _
@[simp] theorem State.count_mover (f : Field) (n : Nat) : (s.count f n).mover = s.mover := State.setFld_mover _ _ _
@[simp] theorem State.count_ports (f : Field) (n : Nat) : (s.count f n).ports = s.ports := State.setFld_ports _ _ _
@[simp] theorem State.count_xport (f : Field) (n : Nat) : (s.count f n).xport = s.xport := State.setFld_xport _ _ _
@[simp] theorem State.count_tm (f : Field) (n : Nat) : (s.count f n).tm = s.tm := State.setFld_tm _ _ _
@[simp] theorem State.count_vault (f : Field) (n : Nat) : (s.count f n).vault = s.vault := State.setFld_vault _ _ _
@[simp] theorem State.count_health (f : Field) (n : Nat) : (s.count f n).health = s.health := State.setFld_health _ _ _
@[simp] theorem State.count_power (f : Field) (n : Nat) : (s.count f n).power = s.power := State.setFld_power _ _ _
@[simp] theorem State.count_mgmt (f : Field) (n : Nat) : (s.count f n).mgmt = s.mgmt := State.setFld_mgmt _ _ _
@[simp] theorem State.count_out (f : Field) (n : Nat) : (s.count f n).out = s.out := State.setFld_out _ _ _
@[simp] theorem State.count_fresh (f : Field) (n : Nat) : (s.count f n).fresh = s.fresh := State.setFld_fresh _ _ _

/-! `raise` changes regs only. -/

@[simp] theorem State.raise_pending (f : Field) (v : Nat) : (s.raise f v).pending = s.pending := State.setFld_pending _ _ _
@[simp] theorem State.raise_clock (f : Field) (v : Nat) : (s.raise f v).clock = s.clock := State.setFld_clock _ _ _
@[simp] theorem State.raise_node (f : Field) (v : Nat) : (s.raise f v).node = s.node := State.setFld_node _ _ _
@[simp] theorem State.raise_sync (f : Field) (v : Nat) : (s.raise f v).sync = s.sync := State.setFld_sync _ _ _
@[simp] theorem State.raise_pat (f : Field) (v : Nat) : (s.raise f v).pat = s.pat := State.setFld_pat _ _ _
@[simp] theorem State.raise_mem (f : Field) (v : Nat) : (s.raise f v).mem = s.mem := State.setFld_mem _ _ _
@[simp] theorem State.raise_poison (f : Field) (v : Nat) : (s.raise f v).poison = s.poison := State.setFld_poison _ _ _
@[simp] theorem State.raise_stackUnits (f : Field) (v : Nat) : (s.raise f v).stackUnits = s.stackUnits := State.setFld_stackUnits _ _ _
@[simp] theorem State.raise_arrays (f : Field) (v : Nat) : (s.raise f v).arrays = s.arrays := State.setFld_arrays _ _ _
@[simp] theorem State.raise_cat (f : Field) (v : Nat) : (s.raise f v).cat = s.cat := State.setFld_cat _ _ _
@[simp] theorem State.raise_work (f : Field) (v : Nat) : (s.raise f v).work = s.work := State.setFld_work _ _ _
@[simp] theorem State.raise_index (f : Field) (v : Nat) : (s.raise f v).index = s.index := State.setFld_index _ _ _
@[simp] theorem State.raise_mover (f : Field) (v : Nat) : (s.raise f v).mover = s.mover := State.setFld_mover _ _ _
@[simp] theorem State.raise_ports (f : Field) (v : Nat) : (s.raise f v).ports = s.ports := State.setFld_ports _ _ _
@[simp] theorem State.raise_xport (f : Field) (v : Nat) : (s.raise f v).xport = s.xport := State.setFld_xport _ _ _
@[simp] theorem State.raise_tm (f : Field) (v : Nat) : (s.raise f v).tm = s.tm := State.setFld_tm _ _ _
@[simp] theorem State.raise_vault (f : Field) (v : Nat) : (s.raise f v).vault = s.vault := State.setFld_vault _ _ _
@[simp] theorem State.raise_health (f : Field) (v : Nat) : (s.raise f v).health = s.health := State.setFld_health _ _ _
@[simp] theorem State.raise_power (f : Field) (v : Nat) : (s.raise f v).power = s.power := State.setFld_power _ _ _
@[simp] theorem State.raise_mgmt (f : Field) (v : Nat) : (s.raise f v).mgmt = s.mgmt := State.setFld_mgmt _ _ _
@[simp] theorem State.raise_out (f : Field) (v : Nat) : (s.raise f v).out = s.out := State.setFld_out _ _ _
@[simp] theorem State.raise_fresh (f : Field) (v : Nat) : (s.raise f v).fresh = s.fresh := State.setFld_fresh _ _ _

/-! `mark` changes regs only. -/

@[simp] theorem State.mark_pending (b bit : Nat) : (s.mark b bit).pending = s.pending := (State.count_pending _ _ _).trans (State.setFld_pending _ _ _)
@[simp] theorem State.mark_clock (b bit : Nat) : (s.mark b bit).clock = s.clock := (State.count_clock _ _ _).trans (State.setFld_clock _ _ _)
@[simp] theorem State.mark_node (b bit : Nat) : (s.mark b bit).node = s.node := (State.count_node _ _ _).trans (State.setFld_node _ _ _)
@[simp] theorem State.mark_sync (b bit : Nat) : (s.mark b bit).sync = s.sync := (State.count_sync _ _ _).trans (State.setFld_sync _ _ _)
@[simp] theorem State.mark_pat (b bit : Nat) : (s.mark b bit).pat = s.pat := (State.count_pat _ _ _).trans (State.setFld_pat _ _ _)
@[simp] theorem State.mark_mem (b bit : Nat) : (s.mark b bit).mem = s.mem := (State.count_mem _ _ _).trans (State.setFld_mem _ _ _)
@[simp] theorem State.mark_poison (b bit : Nat) : (s.mark b bit).poison = s.poison := (State.count_poison _ _ _).trans (State.setFld_poison _ _ _)
@[simp] theorem State.mark_stackUnits (b bit : Nat) : (s.mark b bit).stackUnits = s.stackUnits := (State.count_stackUnits _ _ _).trans (State.setFld_stackUnits _ _ _)
@[simp] theorem State.mark_arrays (b bit : Nat) : (s.mark b bit).arrays = s.arrays := (State.count_arrays _ _ _).trans (State.setFld_arrays _ _ _)
@[simp] theorem State.mark_cat (b bit : Nat) : (s.mark b bit).cat = s.cat := (State.count_cat _ _ _).trans (State.setFld_cat _ _ _)
@[simp] theorem State.mark_work (b bit : Nat) : (s.mark b bit).work = s.work := (State.count_work _ _ _).trans (State.setFld_work _ _ _)
@[simp] theorem State.mark_index (b bit : Nat) : (s.mark b bit).index = s.index := (State.count_index _ _ _).trans (State.setFld_index _ _ _)
@[simp] theorem State.mark_mover (b bit : Nat) : (s.mark b bit).mover = s.mover := (State.count_mover _ _ _).trans (State.setFld_mover _ _ _)
@[simp] theorem State.mark_ports (b bit : Nat) : (s.mark b bit).ports = s.ports := (State.count_ports _ _ _).trans (State.setFld_ports _ _ _)
@[simp] theorem State.mark_xport (b bit : Nat) : (s.mark b bit).xport = s.xport := (State.count_xport _ _ _).trans (State.setFld_xport _ _ _)
@[simp] theorem State.mark_tm (b bit : Nat) : (s.mark b bit).tm = s.tm := (State.count_tm _ _ _).trans (State.setFld_tm _ _ _)
@[simp] theorem State.mark_vault (b bit : Nat) : (s.mark b bit).vault = s.vault := (State.count_vault _ _ _).trans (State.setFld_vault _ _ _)
@[simp] theorem State.mark_health (b bit : Nat) : (s.mark b bit).health = s.health := (State.count_health _ _ _).trans (State.setFld_health _ _ _)
@[simp] theorem State.mark_power (b bit : Nat) : (s.mark b bit).power = s.power := (State.count_power _ _ _).trans (State.setFld_power _ _ _)
@[simp] theorem State.mark_mgmt (b bit : Nat) : (s.mark b bit).mgmt = s.mgmt := (State.count_mgmt _ _ _).trans (State.setFld_mgmt _ _ _)
@[simp] theorem State.mark_out (b bit : Nat) : (s.mark b bit).out = s.out := (State.count_out _ _ _).trans (State.setFld_out _ _ _)
@[simp] theorem State.mark_fresh (b bit : Nat) : (s.mark b bit).fresh = s.fresh := (State.count_fresh _ _ _).trans (State.setFld_fresh _ _ _)

/-! `markAccess` changes regs only. -/

@[simp] theorem State.markAccess_pending (b bit o : Nat) : (s.markAccess b bit o).pending = s.pending := (State.setFld_pending _ _ _).trans (State.mark_pending _ _ _)
@[simp] theorem State.markAccess_clock (b bit o : Nat) : (s.markAccess b bit o).clock = s.clock := (State.setFld_clock _ _ _).trans (State.mark_clock _ _ _)
@[simp] theorem State.markAccess_node (b bit o : Nat) : (s.markAccess b bit o).node = s.node := (State.setFld_node _ _ _).trans (State.mark_node _ _ _)
@[simp] theorem State.markAccess_sync (b bit o : Nat) : (s.markAccess b bit o).sync = s.sync := (State.setFld_sync _ _ _).trans (State.mark_sync _ _ _)
@[simp] theorem State.markAccess_pat (b bit o : Nat) : (s.markAccess b bit o).pat = s.pat := (State.setFld_pat _ _ _).trans (State.mark_pat _ _ _)
@[simp] theorem State.markAccess_mem (b bit o : Nat) : (s.markAccess b bit o).mem = s.mem := (State.setFld_mem _ _ _).trans (State.mark_mem _ _ _)
@[simp] theorem State.markAccess_poison (b bit o : Nat) : (s.markAccess b bit o).poison = s.poison := (State.setFld_poison _ _ _).trans (State.mark_poison _ _ _)
@[simp] theorem State.markAccess_stackUnits (b bit o : Nat) : (s.markAccess b bit o).stackUnits = s.stackUnits := (State.setFld_stackUnits _ _ _).trans (State.mark_stackUnits _ _ _)
@[simp] theorem State.markAccess_arrays (b bit o : Nat) : (s.markAccess b bit o).arrays = s.arrays := (State.setFld_arrays _ _ _).trans (State.mark_arrays _ _ _)
@[simp] theorem State.markAccess_cat (b bit o : Nat) : (s.markAccess b bit o).cat = s.cat := (State.setFld_cat _ _ _).trans (State.mark_cat _ _ _)
@[simp] theorem State.markAccess_work (b bit o : Nat) : (s.markAccess b bit o).work = s.work := (State.setFld_work _ _ _).trans (State.mark_work _ _ _)
@[simp] theorem State.markAccess_index (b bit o : Nat) : (s.markAccess b bit o).index = s.index := (State.setFld_index _ _ _).trans (State.mark_index _ _ _)
@[simp] theorem State.markAccess_mover (b bit o : Nat) : (s.markAccess b bit o).mover = s.mover := (State.setFld_mover _ _ _).trans (State.mark_mover _ _ _)
@[simp] theorem State.markAccess_ports (b bit o : Nat) : (s.markAccess b bit o).ports = s.ports := (State.setFld_ports _ _ _).trans (State.mark_ports _ _ _)
@[simp] theorem State.markAccess_xport (b bit o : Nat) : (s.markAccess b bit o).xport = s.xport := (State.setFld_xport _ _ _).trans (State.mark_xport _ _ _)
@[simp] theorem State.markAccess_tm (b bit o : Nat) : (s.markAccess b bit o).tm = s.tm := (State.setFld_tm _ _ _).trans (State.mark_tm _ _ _)
@[simp] theorem State.markAccess_vault (b bit o : Nat) : (s.markAccess b bit o).vault = s.vault := (State.setFld_vault _ _ _).trans (State.mark_vault _ _ _)
@[simp] theorem State.markAccess_health (b bit o : Nat) : (s.markAccess b bit o).health = s.health := (State.setFld_health _ _ _).trans (State.mark_health _ _ _)
@[simp] theorem State.markAccess_power (b bit o : Nat) : (s.markAccess b bit o).power = s.power := (State.setFld_power _ _ _).trans (State.mark_power _ _ _)
@[simp] theorem State.markAccess_mgmt (b bit o : Nat) : (s.markAccess b bit o).mgmt = s.mgmt := (State.setFld_mgmt _ _ _).trans (State.mark_mgmt _ _ _)
@[simp] theorem State.markAccess_out (b bit o : Nat) : (s.markAccess b bit o).out = s.out := (State.setFld_out _ _ _).trans (State.mark_out _ _ _)
@[simp] theorem State.markAccess_fresh (b bit o : Nat) : (s.markAccess b bit o).fresh = s.fresh := (State.setFld_fresh _ _ _).trans (State.mark_fresh _ _ _)

/-! `sendAside` changes out only. -/

@[simp] theorem State.sendAside_pending (m : Sent) : (s.sendAside m).pending = s.pending := rfl
@[simp] theorem State.sendAside_clock (m : Sent) : (s.sendAside m).clock = s.clock := rfl
@[simp] theorem State.sendAside_node (m : Sent) : (s.sendAside m).node = s.node := rfl
@[simp] theorem State.sendAside_sync (m : Sent) : (s.sendAside m).sync = s.sync := rfl
@[simp] theorem State.sendAside_pat (m : Sent) : (s.sendAside m).pat = s.pat := rfl
@[simp] theorem State.sendAside_regs (m : Sent) : (s.sendAside m).regs = s.regs := rfl
@[simp] theorem State.sendAside_mem (m : Sent) : (s.sendAside m).mem = s.mem := rfl
@[simp] theorem State.sendAside_poison (m : Sent) : (s.sendAside m).poison = s.poison := rfl
@[simp] theorem State.sendAside_stackUnits (m : Sent) : (s.sendAside m).stackUnits = s.stackUnits := rfl
@[simp] theorem State.sendAside_arrays (m : Sent) : (s.sendAside m).arrays = s.arrays := rfl
@[simp] theorem State.sendAside_cat (m : Sent) : (s.sendAside m).cat = s.cat := rfl
@[simp] theorem State.sendAside_work (m : Sent) : (s.sendAside m).work = s.work := rfl
@[simp] theorem State.sendAside_index (m : Sent) : (s.sendAside m).index = s.index := rfl
@[simp] theorem State.sendAside_mover (m : Sent) : (s.sendAside m).mover = s.mover := rfl
@[simp] theorem State.sendAside_ports (m : Sent) : (s.sendAside m).ports = s.ports := rfl
@[simp] theorem State.sendAside_xport (m : Sent) : (s.sendAside m).xport = s.xport := rfl
@[simp] theorem State.sendAside_tm (m : Sent) : (s.sendAside m).tm = s.tm := rfl
@[simp] theorem State.sendAside_vault (m : Sent) : (s.sendAside m).vault = s.vault := rfl
@[simp] theorem State.sendAside_health (m : Sent) : (s.sendAside m).health = s.health := rfl
@[simp] theorem State.sendAside_power (m : Sent) : (s.sendAside m).power = s.power := rfl
@[simp] theorem State.sendAside_mgmt (m : Sent) : (s.sendAside m).mgmt = s.mgmt := rfl
@[simp] theorem State.sendAside_fresh (m : Sent) : (s.sendAside m).fresh = s.fresh := rfl

/-! `store` changes mem only. -/

@[simp] theorem State.store_pending (a : Nat) (bs : List Byte) : (s.store a bs).pending = s.pending := rfl
@[simp] theorem State.store_clock (a : Nat) (bs : List Byte) : (s.store a bs).clock = s.clock := rfl
@[simp] theorem State.store_node (a : Nat) (bs : List Byte) : (s.store a bs).node = s.node := rfl
@[simp] theorem State.store_sync (a : Nat) (bs : List Byte) : (s.store a bs).sync = s.sync := rfl
@[simp] theorem State.store_pat (a : Nat) (bs : List Byte) : (s.store a bs).pat = s.pat := rfl
@[simp] theorem State.store_regs (a : Nat) (bs : List Byte) : (s.store a bs).regs = s.regs := rfl
@[simp] theorem State.store_poison (a : Nat) (bs : List Byte) : (s.store a bs).poison = s.poison := rfl
@[simp] theorem State.store_stackUnits (a : Nat) (bs : List Byte) : (s.store a bs).stackUnits = s.stackUnits := rfl
@[simp] theorem State.store_arrays (a : Nat) (bs : List Byte) : (s.store a bs).arrays = s.arrays := rfl
@[simp] theorem State.store_cat (a : Nat) (bs : List Byte) : (s.store a bs).cat = s.cat := rfl
@[simp] theorem State.store_work (a : Nat) (bs : List Byte) : (s.store a bs).work = s.work := rfl
@[simp] theorem State.store_index (a : Nat) (bs : List Byte) : (s.store a bs).index = s.index := rfl
@[simp] theorem State.store_mover (a : Nat) (bs : List Byte) : (s.store a bs).mover = s.mover := rfl
@[simp] theorem State.store_ports (a : Nat) (bs : List Byte) : (s.store a bs).ports = s.ports := rfl
@[simp] theorem State.store_xport (a : Nat) (bs : List Byte) : (s.store a bs).xport = s.xport := rfl
@[simp] theorem State.store_tm (a : Nat) (bs : List Byte) : (s.store a bs).tm = s.tm := rfl
@[simp] theorem State.store_vault (a : Nat) (bs : List Byte) : (s.store a bs).vault = s.vault := rfl
@[simp] theorem State.store_health (a : Nat) (bs : List Byte) : (s.store a bs).health = s.health := rfl
@[simp] theorem State.store_power (a : Nat) (bs : List Byte) : (s.store a bs).power = s.power := rfl
@[simp] theorem State.store_mgmt (a : Nat) (bs : List Byte) : (s.store a bs).mgmt = s.mgmt := rfl
@[simp] theorem State.store_out (a : Nat) (bs : List Byte) : (s.store a bs).out = s.out := rfl
@[simp] theorem State.store_fresh (a : Nat) (bs : List Byte) : (s.store a bs).fresh = s.fresh := rfl

/-! `zero` changes mem and poison only. -/

@[simp] theorem State.zero_pending (lo hi : Nat) : (s.zero lo hi).pending = s.pending := rfl
@[simp] theorem State.zero_clock (lo hi : Nat) : (s.zero lo hi).clock = s.clock := rfl
@[simp] theorem State.zero_node (lo hi : Nat) : (s.zero lo hi).node = s.node := rfl
@[simp] theorem State.zero_sync (lo hi : Nat) : (s.zero lo hi).sync = s.sync := rfl
@[simp] theorem State.zero_pat (lo hi : Nat) : (s.zero lo hi).pat = s.pat := rfl
@[simp] theorem State.zero_regs (lo hi : Nat) : (s.zero lo hi).regs = s.regs := rfl
@[simp] theorem State.zero_stackUnits (lo hi : Nat) : (s.zero lo hi).stackUnits = s.stackUnits := rfl
@[simp] theorem State.zero_arrays (lo hi : Nat) : (s.zero lo hi).arrays = s.arrays := rfl
@[simp] theorem State.zero_cat (lo hi : Nat) : (s.zero lo hi).cat = s.cat := rfl
@[simp] theorem State.zero_work (lo hi : Nat) : (s.zero lo hi).work = s.work := rfl
@[simp] theorem State.zero_index (lo hi : Nat) : (s.zero lo hi).index = s.index := rfl
@[simp] theorem State.zero_mover (lo hi : Nat) : (s.zero lo hi).mover = s.mover := rfl
@[simp] theorem State.zero_ports (lo hi : Nat) : (s.zero lo hi).ports = s.ports := rfl
@[simp] theorem State.zero_xport (lo hi : Nat) : (s.zero lo hi).xport = s.xport := rfl
@[simp] theorem State.zero_tm (lo hi : Nat) : (s.zero lo hi).tm = s.tm := rfl
@[simp] theorem State.zero_vault (lo hi : Nat) : (s.zero lo hi).vault = s.vault := rfl
@[simp] theorem State.zero_health (lo hi : Nat) : (s.zero lo hi).health = s.health := rfl
@[simp] theorem State.zero_power (lo hi : Nat) : (s.zero lo hi).power = s.power := rfl
@[simp] theorem State.zero_mgmt (lo hi : Nat) : (s.zero lo hi).mgmt = s.mgmt := rfl
@[simp] theorem State.zero_out (lo hi : Nat) : (s.zero lo hi).out = s.out := rfl
@[simp] theorem State.zero_fresh (lo hi : Nat) : (s.zero lo hi).fresh = s.fresh := rfl

/-! `poisonLine` changes poison only. -/

@[simp] theorem State.poisonLine_pending (l : Nat) : (s.poisonLine l).pending = s.pending := rfl
@[simp] theorem State.poisonLine_clock (l : Nat) : (s.poisonLine l).clock = s.clock := rfl
@[simp] theorem State.poisonLine_node (l : Nat) : (s.poisonLine l).node = s.node := rfl
@[simp] theorem State.poisonLine_sync (l : Nat) : (s.poisonLine l).sync = s.sync := rfl
@[simp] theorem State.poisonLine_pat (l : Nat) : (s.poisonLine l).pat = s.pat := rfl
@[simp] theorem State.poisonLine_regs (l : Nat) : (s.poisonLine l).regs = s.regs := rfl
@[simp] theorem State.poisonLine_mem (l : Nat) : (s.poisonLine l).mem = s.mem := rfl
@[simp] theorem State.poisonLine_stackUnits (l : Nat) : (s.poisonLine l).stackUnits = s.stackUnits := rfl
@[simp] theorem State.poisonLine_arrays (l : Nat) : (s.poisonLine l).arrays = s.arrays := rfl
@[simp] theorem State.poisonLine_cat (l : Nat) : (s.poisonLine l).cat = s.cat := rfl
@[simp] theorem State.poisonLine_work (l : Nat) : (s.poisonLine l).work = s.work := rfl
@[simp] theorem State.poisonLine_index (l : Nat) : (s.poisonLine l).index = s.index := rfl
@[simp] theorem State.poisonLine_mover (l : Nat) : (s.poisonLine l).mover = s.mover := rfl
@[simp] theorem State.poisonLine_ports (l : Nat) : (s.poisonLine l).ports = s.ports := rfl
@[simp] theorem State.poisonLine_xport (l : Nat) : (s.poisonLine l).xport = s.xport := rfl
@[simp] theorem State.poisonLine_tm (l : Nat) : (s.poisonLine l).tm = s.tm := rfl
@[simp] theorem State.poisonLine_vault (l : Nat) : (s.poisonLine l).vault = s.vault := rfl
@[simp] theorem State.poisonLine_health (l : Nat) : (s.poisonLine l).health = s.health := rfl
@[simp] theorem State.poisonLine_power (l : Nat) : (s.poisonLine l).power = s.power := rfl
@[simp] theorem State.poisonLine_mgmt (l : Nat) : (s.poisonLine l).mgmt = s.mgmt := rfl
@[simp] theorem State.poisonLine_out (l : Nat) : (s.poisonLine l).out = s.out := rfl
@[simp] theorem State.poisonLine_fresh (l : Nat) : (s.poisonLine l).fresh = s.fresh := rfl

/-! `writeLine` changes mem and poison only. -/

@[simp] theorem State.writeLine_pending (l : Nat) (cells : List Host.Cell) : (s.writeLine l cells).pending = s.pending := rfl
@[simp] theorem State.writeLine_clock (l : Nat) (cells : List Host.Cell) : (s.writeLine l cells).clock = s.clock := rfl
@[simp] theorem State.writeLine_node (l : Nat) (cells : List Host.Cell) : (s.writeLine l cells).node = s.node := rfl
@[simp] theorem State.writeLine_sync (l : Nat) (cells : List Host.Cell) : (s.writeLine l cells).sync = s.sync := rfl
@[simp] theorem State.writeLine_pat (l : Nat) (cells : List Host.Cell) : (s.writeLine l cells).pat = s.pat := rfl
@[simp] theorem State.writeLine_regs (l : Nat) (cells : List Host.Cell) : (s.writeLine l cells).regs = s.regs := rfl
@[simp] theorem State.writeLine_stackUnits (l : Nat) (cells : List Host.Cell) : (s.writeLine l cells).stackUnits = s.stackUnits := rfl
@[simp] theorem State.writeLine_arrays (l : Nat) (cells : List Host.Cell) : (s.writeLine l cells).arrays = s.arrays := rfl
@[simp] theorem State.writeLine_cat (l : Nat) (cells : List Host.Cell) : (s.writeLine l cells).cat = s.cat := rfl
@[simp] theorem State.writeLine_work (l : Nat) (cells : List Host.Cell) : (s.writeLine l cells).work = s.work := rfl
@[simp] theorem State.writeLine_index (l : Nat) (cells : List Host.Cell) : (s.writeLine l cells).index = s.index := rfl
@[simp] theorem State.writeLine_mover (l : Nat) (cells : List Host.Cell) : (s.writeLine l cells).mover = s.mover := rfl
@[simp] theorem State.writeLine_ports (l : Nat) (cells : List Host.Cell) : (s.writeLine l cells).ports = s.ports := rfl
@[simp] theorem State.writeLine_xport (l : Nat) (cells : List Host.Cell) : (s.writeLine l cells).xport = s.xport := rfl
@[simp] theorem State.writeLine_tm (l : Nat) (cells : List Host.Cell) : (s.writeLine l cells).tm = s.tm := rfl
@[simp] theorem State.writeLine_vault (l : Nat) (cells : List Host.Cell) : (s.writeLine l cells).vault = s.vault := rfl
@[simp] theorem State.writeLine_health (l : Nat) (cells : List Host.Cell) : (s.writeLine l cells).health = s.health := rfl
@[simp] theorem State.writeLine_power (l : Nat) (cells : List Host.Cell) : (s.writeLine l cells).power = s.power := rfl
@[simp] theorem State.writeLine_mgmt (l : Nat) (cells : List Host.Cell) : (s.writeLine l cells).mgmt = s.mgmt := rfl
@[simp] theorem State.writeLine_out (l : Nat) (cells : List Host.Cell) : (s.writeLine l cells).out = s.out := rfl
@[simp] theorem State.writeLine_fresh (l : Nat) (cells : List Host.Cell) : (s.writeLine l cells).fresh = s.fresh := rfl

/-! `setConn` changes xport only. -/

@[simp] theorem State.setConn_pending (k : Nat) (f : Conn → Conn) : (s.setConn k f).pending = s.pending := rfl
@[simp] theorem State.setConn_clock (k : Nat) (f : Conn → Conn) : (s.setConn k f).clock = s.clock := rfl
@[simp] theorem State.setConn_node (k : Nat) (f : Conn → Conn) : (s.setConn k f).node = s.node := rfl
@[simp] theorem State.setConn_sync (k : Nat) (f : Conn → Conn) : (s.setConn k f).sync = s.sync := rfl
@[simp] theorem State.setConn_pat (k : Nat) (f : Conn → Conn) : (s.setConn k f).pat = s.pat := rfl
@[simp] theorem State.setConn_regs (k : Nat) (f : Conn → Conn) : (s.setConn k f).regs = s.regs := rfl
@[simp] theorem State.setConn_mem (k : Nat) (f : Conn → Conn) : (s.setConn k f).mem = s.mem := rfl
@[simp] theorem State.setConn_poison (k : Nat) (f : Conn → Conn) : (s.setConn k f).poison = s.poison := rfl
@[simp] theorem State.setConn_stackUnits (k : Nat) (f : Conn → Conn) : (s.setConn k f).stackUnits = s.stackUnits := rfl
@[simp] theorem State.setConn_arrays (k : Nat) (f : Conn → Conn) : (s.setConn k f).arrays = s.arrays := rfl
@[simp] theorem State.setConn_cat (k : Nat) (f : Conn → Conn) : (s.setConn k f).cat = s.cat := rfl
@[simp] theorem State.setConn_work (k : Nat) (f : Conn → Conn) : (s.setConn k f).work = s.work := rfl
@[simp] theorem State.setConn_index (k : Nat) (f : Conn → Conn) : (s.setConn k f).index = s.index := rfl
@[simp] theorem State.setConn_mover (k : Nat) (f : Conn → Conn) : (s.setConn k f).mover = s.mover := rfl
@[simp] theorem State.setConn_ports (k : Nat) (f : Conn → Conn) : (s.setConn k f).ports = s.ports := rfl
@[simp] theorem State.setConn_tm (k : Nat) (f : Conn → Conn) : (s.setConn k f).tm = s.tm := rfl
@[simp] theorem State.setConn_vault (k : Nat) (f : Conn → Conn) : (s.setConn k f).vault = s.vault := rfl
@[simp] theorem State.setConn_health (k : Nat) (f : Conn → Conn) : (s.setConn k f).health = s.health := rfl
@[simp] theorem State.setConn_power (k : Nat) (f : Conn → Conn) : (s.setConn k f).power = s.power := rfl
@[simp] theorem State.setConn_mgmt (k : Nat) (f : Conn → Conn) : (s.setConn k f).mgmt = s.mgmt := rfl
@[simp] theorem State.setConn_out (k : Nat) (f : Conn → Conn) : (s.setConn k f).out = s.out := rfl
@[simp] theorem State.setConn_fresh (k : Nat) (f : Conn → Conn) : (s.setConn k f).fresh = s.fresh := rfl

/-! `setUnacked` changes xport only. -/

@[simp] theorem State.setUnacked_pending (k psn : Nat) (f : Unacked → Unacked) : (s.setUnacked k psn f).pending = s.pending := rfl
@[simp] theorem State.setUnacked_clock (k psn : Nat) (f : Unacked → Unacked) : (s.setUnacked k psn f).clock = s.clock := rfl
@[simp] theorem State.setUnacked_node (k psn : Nat) (f : Unacked → Unacked) : (s.setUnacked k psn f).node = s.node := rfl
@[simp] theorem State.setUnacked_sync (k psn : Nat) (f : Unacked → Unacked) : (s.setUnacked k psn f).sync = s.sync := rfl
@[simp] theorem State.setUnacked_pat (k psn : Nat) (f : Unacked → Unacked) : (s.setUnacked k psn f).pat = s.pat := rfl
@[simp] theorem State.setUnacked_regs (k psn : Nat) (f : Unacked → Unacked) : (s.setUnacked k psn f).regs = s.regs := rfl
@[simp] theorem State.setUnacked_mem (k psn : Nat) (f : Unacked → Unacked) : (s.setUnacked k psn f).mem = s.mem := rfl
@[simp] theorem State.setUnacked_poison (k psn : Nat) (f : Unacked → Unacked) : (s.setUnacked k psn f).poison = s.poison := rfl
@[simp] theorem State.setUnacked_stackUnits (k psn : Nat) (f : Unacked → Unacked) : (s.setUnacked k psn f).stackUnits = s.stackUnits := rfl
@[simp] theorem State.setUnacked_arrays (k psn : Nat) (f : Unacked → Unacked) : (s.setUnacked k psn f).arrays = s.arrays := rfl
@[simp] theorem State.setUnacked_cat (k psn : Nat) (f : Unacked → Unacked) : (s.setUnacked k psn f).cat = s.cat := rfl
@[simp] theorem State.setUnacked_work (k psn : Nat) (f : Unacked → Unacked) : (s.setUnacked k psn f).work = s.work := rfl
@[simp] theorem State.setUnacked_index (k psn : Nat) (f : Unacked → Unacked) : (s.setUnacked k psn f).index = s.index := rfl
@[simp] theorem State.setUnacked_mover (k psn : Nat) (f : Unacked → Unacked) : (s.setUnacked k psn f).mover = s.mover := rfl
@[simp] theorem State.setUnacked_ports (k psn : Nat) (f : Unacked → Unacked) : (s.setUnacked k psn f).ports = s.ports := rfl
@[simp] theorem State.setUnacked_tm (k psn : Nat) (f : Unacked → Unacked) : (s.setUnacked k psn f).tm = s.tm := rfl
@[simp] theorem State.setUnacked_vault (k psn : Nat) (f : Unacked → Unacked) : (s.setUnacked k psn f).vault = s.vault := rfl
@[simp] theorem State.setUnacked_health (k psn : Nat) (f : Unacked → Unacked) : (s.setUnacked k psn f).health = s.health := rfl
@[simp] theorem State.setUnacked_power (k psn : Nat) (f : Unacked → Unacked) : (s.setUnacked k psn f).power = s.power := rfl
@[simp] theorem State.setUnacked_mgmt (k psn : Nat) (f : Unacked → Unacked) : (s.setUnacked k psn f).mgmt = s.mgmt := rfl
@[simp] theorem State.setUnacked_out (k psn : Nat) (f : Unacked → Unacked) : (s.setUnacked k psn f).out = s.out := rfl
@[simp] theorem State.setUnacked_fresh (k psn : Nat) (f : Unacked → Unacked) : (s.setUnacked k psn f).fresh = s.fresh := rfl

/-! `enqueue` changes tm only. -/

@[simp] theorem State.enqueue_pending (h : TxHeader) (front : Bool) : (s.enqueue h front).pending = s.pending := rfl
@[simp] theorem State.enqueue_clock (h : TxHeader) (front : Bool) : (s.enqueue h front).clock = s.clock := rfl
@[simp] theorem State.enqueue_node (h : TxHeader) (front : Bool) : (s.enqueue h front).node = s.node := rfl
@[simp] theorem State.enqueue_sync (h : TxHeader) (front : Bool) : (s.enqueue h front).sync = s.sync := rfl
@[simp] theorem State.enqueue_pat (h : TxHeader) (front : Bool) : (s.enqueue h front).pat = s.pat := rfl
@[simp] theorem State.enqueue_regs (h : TxHeader) (front : Bool) : (s.enqueue h front).regs = s.regs := rfl
@[simp] theorem State.enqueue_mem (h : TxHeader) (front : Bool) : (s.enqueue h front).mem = s.mem := rfl
@[simp] theorem State.enqueue_poison (h : TxHeader) (front : Bool) : (s.enqueue h front).poison = s.poison := rfl
@[simp] theorem State.enqueue_stackUnits (h : TxHeader) (front : Bool) : (s.enqueue h front).stackUnits = s.stackUnits := rfl
@[simp] theorem State.enqueue_arrays (h : TxHeader) (front : Bool) : (s.enqueue h front).arrays = s.arrays := rfl
@[simp] theorem State.enqueue_cat (h : TxHeader) (front : Bool) : (s.enqueue h front).cat = s.cat := rfl
@[simp] theorem State.enqueue_work (h : TxHeader) (front : Bool) : (s.enqueue h front).work = s.work := rfl
@[simp] theorem State.enqueue_index (h : TxHeader) (front : Bool) : (s.enqueue h front).index = s.index := rfl
@[simp] theorem State.enqueue_mover (h : TxHeader) (front : Bool) : (s.enqueue h front).mover = s.mover := rfl
@[simp] theorem State.enqueue_ports (h : TxHeader) (front : Bool) : (s.enqueue h front).ports = s.ports := rfl
@[simp] theorem State.enqueue_xport (h : TxHeader) (front : Bool) : (s.enqueue h front).xport = s.xport := rfl
@[simp] theorem State.enqueue_vault (h : TxHeader) (front : Bool) : (s.enqueue h front).vault = s.vault := rfl
@[simp] theorem State.enqueue_health (h : TxHeader) (front : Bool) : (s.enqueue h front).health = s.health := rfl
@[simp] theorem State.enqueue_power (h : TxHeader) (front : Bool) : (s.enqueue h front).power = s.power := rfl
@[simp] theorem State.enqueue_mgmt (h : TxHeader) (front : Bool) : (s.enqueue h front).mgmt = s.mgmt := rfl
@[simp] theorem State.enqueue_out (h : TxHeader) (front : Bool) : (s.enqueue h front).out = s.out := rfl
@[simp] theorem State.enqueue_fresh (h : TxHeader) (front : Bool) : (s.enqueue h front).fresh = s.fresh := rfl

/-! `deliver` changes xport only. -/

@[simp] theorem State.deliver_pending (k : Nat) (m : List Byte) : (s.deliver k m).pending = s.pending := rfl
@[simp] theorem State.deliver_clock (k : Nat) (m : List Byte) : (s.deliver k m).clock = s.clock := rfl
@[simp] theorem State.deliver_node (k : Nat) (m : List Byte) : (s.deliver k m).node = s.node := rfl
@[simp] theorem State.deliver_sync (k : Nat) (m : List Byte) : (s.deliver k m).sync = s.sync := rfl
@[simp] theorem State.deliver_pat (k : Nat) (m : List Byte) : (s.deliver k m).pat = s.pat := rfl
@[simp] theorem State.deliver_regs (k : Nat) (m : List Byte) : (s.deliver k m).regs = s.regs := rfl
@[simp] theorem State.deliver_mem (k : Nat) (m : List Byte) : (s.deliver k m).mem = s.mem := rfl
@[simp] theorem State.deliver_poison (k : Nat) (m : List Byte) : (s.deliver k m).poison = s.poison := rfl
@[simp] theorem State.deliver_stackUnits (k : Nat) (m : List Byte) : (s.deliver k m).stackUnits = s.stackUnits := rfl
@[simp] theorem State.deliver_arrays (k : Nat) (m : List Byte) : (s.deliver k m).arrays = s.arrays := rfl
@[simp] theorem State.deliver_cat (k : Nat) (m : List Byte) : (s.deliver k m).cat = s.cat := rfl
@[simp] theorem State.deliver_work (k : Nat) (m : List Byte) : (s.deliver k m).work = s.work := rfl
@[simp] theorem State.deliver_index (k : Nat) (m : List Byte) : (s.deliver k m).index = s.index := rfl
@[simp] theorem State.deliver_mover (k : Nat) (m : List Byte) : (s.deliver k m).mover = s.mover := rfl
@[simp] theorem State.deliver_ports (k : Nat) (m : List Byte) : (s.deliver k m).ports = s.ports := rfl
@[simp] theorem State.deliver_tm (k : Nat) (m : List Byte) : (s.deliver k m).tm = s.tm := rfl
@[simp] theorem State.deliver_vault (k : Nat) (m : List Byte) : (s.deliver k m).vault = s.vault := rfl
@[simp] theorem State.deliver_health (k : Nat) (m : List Byte) : (s.deliver k m).health = s.health := rfl
@[simp] theorem State.deliver_power (k : Nat) (m : List Byte) : (s.deliver k m).power = s.power := rfl
@[simp] theorem State.deliver_mgmt (k : Nat) (m : List Byte) : (s.deliver k m).mgmt = s.mgmt := rfl
@[simp] theorem State.deliver_out (k : Nat) (m : List Byte) : (s.deliver k m).out = s.out := rfl
@[simp] theorem State.deliver_fresh (k : Nat) (m : List Byte) : (s.deliver k m).fresh = s.fresh := rfl

/-! `keyRevokes` changes xport only. -/

@[simp] theorem State.keyRevokes_pending (i : Nat) : (s.keyRevokes i).pending = s.pending := rfl
@[simp] theorem State.keyRevokes_clock (i : Nat) : (s.keyRevokes i).clock = s.clock := rfl
@[simp] theorem State.keyRevokes_node (i : Nat) : (s.keyRevokes i).node = s.node := rfl
@[simp] theorem State.keyRevokes_sync (i : Nat) : (s.keyRevokes i).sync = s.sync := rfl
@[simp] theorem State.keyRevokes_pat (i : Nat) : (s.keyRevokes i).pat = s.pat := rfl
@[simp] theorem State.keyRevokes_regs (i : Nat) : (s.keyRevokes i).regs = s.regs := rfl
@[simp] theorem State.keyRevokes_mem (i : Nat) : (s.keyRevokes i).mem = s.mem := rfl
@[simp] theorem State.keyRevokes_poison (i : Nat) : (s.keyRevokes i).poison = s.poison := rfl
@[simp] theorem State.keyRevokes_stackUnits (i : Nat) : (s.keyRevokes i).stackUnits = s.stackUnits := rfl
@[simp] theorem State.keyRevokes_arrays (i : Nat) : (s.keyRevokes i).arrays = s.arrays := rfl
@[simp] theorem State.keyRevokes_cat (i : Nat) : (s.keyRevokes i).cat = s.cat := rfl
@[simp] theorem State.keyRevokes_work (i : Nat) : (s.keyRevokes i).work = s.work := rfl
@[simp] theorem State.keyRevokes_index (i : Nat) : (s.keyRevokes i).index = s.index := rfl
@[simp] theorem State.keyRevokes_mover (i : Nat) : (s.keyRevokes i).mover = s.mover := rfl
@[simp] theorem State.keyRevokes_ports (i : Nat) : (s.keyRevokes i).ports = s.ports := rfl
@[simp] theorem State.keyRevokes_tm (i : Nat) : (s.keyRevokes i).tm = s.tm := rfl
@[simp] theorem State.keyRevokes_vault (i : Nat) : (s.keyRevokes i).vault = s.vault := rfl
@[simp] theorem State.keyRevokes_health (i : Nat) : (s.keyRevokes i).health = s.health := rfl
@[simp] theorem State.keyRevokes_power (i : Nat) : (s.keyRevokes i).power = s.power := rfl
@[simp] theorem State.keyRevokes_mgmt (i : Nat) : (s.keyRevokes i).mgmt = s.mgmt := rfl
@[simp] theorem State.keyRevokes_out (i : Nat) : (s.keyRevokes i).out = s.out := rfl
@[simp] theorem State.keyRevokes_fresh (i : Nat) : (s.keyRevokes i).fresh = s.fresh := rfl

/-! `gauge` changes health only. -/

@[simp] theorem State.gauge_pending (kind unit weight : Nat) : (s.gauge kind unit weight).pending = s.pending := rfl
@[simp] theorem State.gauge_clock (kind unit weight : Nat) : (s.gauge kind unit weight).clock = s.clock := rfl
@[simp] theorem State.gauge_node (kind unit weight : Nat) : (s.gauge kind unit weight).node = s.node := rfl
@[simp] theorem State.gauge_sync (kind unit weight : Nat) : (s.gauge kind unit weight).sync = s.sync := rfl
@[simp] theorem State.gauge_pat (kind unit weight : Nat) : (s.gauge kind unit weight).pat = s.pat := rfl
@[simp] theorem State.gauge_regs (kind unit weight : Nat) : (s.gauge kind unit weight).regs = s.regs := rfl
@[simp] theorem State.gauge_mem (kind unit weight : Nat) : (s.gauge kind unit weight).mem = s.mem := rfl
@[simp] theorem State.gauge_poison (kind unit weight : Nat) : (s.gauge kind unit weight).poison = s.poison := rfl
@[simp] theorem State.gauge_stackUnits (kind unit weight : Nat) : (s.gauge kind unit weight).stackUnits = s.stackUnits := rfl
@[simp] theorem State.gauge_arrays (kind unit weight : Nat) : (s.gauge kind unit weight).arrays = s.arrays := rfl
@[simp] theorem State.gauge_cat (kind unit weight : Nat) : (s.gauge kind unit weight).cat = s.cat := rfl
@[simp] theorem State.gauge_work (kind unit weight : Nat) : (s.gauge kind unit weight).work = s.work := rfl
@[simp] theorem State.gauge_index (kind unit weight : Nat) : (s.gauge kind unit weight).index = s.index := rfl
@[simp] theorem State.gauge_mover (kind unit weight : Nat) : (s.gauge kind unit weight).mover = s.mover := rfl
@[simp] theorem State.gauge_ports (kind unit weight : Nat) : (s.gauge kind unit weight).ports = s.ports := rfl
@[simp] theorem State.gauge_xport (kind unit weight : Nat) : (s.gauge kind unit weight).xport = s.xport := rfl
@[simp] theorem State.gauge_tm (kind unit weight : Nat) : (s.gauge kind unit weight).tm = s.tm := rfl
@[simp] theorem State.gauge_vault (kind unit weight : Nat) : (s.gauge kind unit weight).vault = s.vault := rfl
@[simp] theorem State.gauge_power (kind unit weight : Nat) : (s.gauge kind unit weight).power = s.power := rfl
@[simp] theorem State.gauge_mgmt (kind unit weight : Nat) : (s.gauge kind unit weight).mgmt = s.mgmt := rfl
@[simp] theorem State.gauge_out (kind unit weight : Nat) : (s.gauge kind unit weight).out = s.out := rfl
@[simp] theorem State.gauge_fresh (kind unit weight : Nat) : (s.gauge kind unit weight).fresh = s.fresh := rfl

/-! `enter` changes work only. -/

@[simp] theorem State.enter_pending (c : Cmd) : (s.enter c).pending = s.pending := rfl
@[simp] theorem State.enter_clock (c : Cmd) : (s.enter c).clock = s.clock := rfl
@[simp] theorem State.enter_node (c : Cmd) : (s.enter c).node = s.node := rfl
@[simp] theorem State.enter_sync (c : Cmd) : (s.enter c).sync = s.sync := rfl
@[simp] theorem State.enter_pat (c : Cmd) : (s.enter c).pat = s.pat := rfl
@[simp] theorem State.enter_regs (c : Cmd) : (s.enter c).regs = s.regs := rfl
@[simp] theorem State.enter_mem (c : Cmd) : (s.enter c).mem = s.mem := rfl
@[simp] theorem State.enter_poison (c : Cmd) : (s.enter c).poison = s.poison := rfl
@[simp] theorem State.enter_stackUnits (c : Cmd) : (s.enter c).stackUnits = s.stackUnits := rfl
@[simp] theorem State.enter_arrays (c : Cmd) : (s.enter c).arrays = s.arrays := rfl
@[simp] theorem State.enter_cat (c : Cmd) : (s.enter c).cat = s.cat := rfl
@[simp] theorem State.enter_index (c : Cmd) : (s.enter c).index = s.index := rfl
@[simp] theorem State.enter_mover (c : Cmd) : (s.enter c).mover = s.mover := rfl
@[simp] theorem State.enter_ports (c : Cmd) : (s.enter c).ports = s.ports := rfl
@[simp] theorem State.enter_xport (c : Cmd) : (s.enter c).xport = s.xport := rfl
@[simp] theorem State.enter_tm (c : Cmd) : (s.enter c).tm = s.tm := rfl
@[simp] theorem State.enter_vault (c : Cmd) : (s.enter c).vault = s.vault := rfl
@[simp] theorem State.enter_health (c : Cmd) : (s.enter c).health = s.health := rfl
@[simp] theorem State.enter_power (c : Cmd) : (s.enter c).power = s.power := rfl
@[simp] theorem State.enter_mgmt (c : Cmd) : (s.enter c).mgmt = s.mgmt := rfl
@[simp] theorem State.enter_out (c : Cmd) : (s.enter c).out = s.out := rfl
@[simp] theorem State.enter_fresh (c : Cmd) : (s.enter c).fresh = s.fresh := rfl

/-! `setCmd` changes work only. -/

@[simp] theorem State.setCmd_pending (n : Nat) (f : Cmd → Cmd) : (s.setCmd n f).pending = s.pending := rfl
@[simp] theorem State.setCmd_clock (n : Nat) (f : Cmd → Cmd) : (s.setCmd n f).clock = s.clock := rfl
@[simp] theorem State.setCmd_node (n : Nat) (f : Cmd → Cmd) : (s.setCmd n f).node = s.node := rfl
@[simp] theorem State.setCmd_sync (n : Nat) (f : Cmd → Cmd) : (s.setCmd n f).sync = s.sync := rfl
@[simp] theorem State.setCmd_pat (n : Nat) (f : Cmd → Cmd) : (s.setCmd n f).pat = s.pat := rfl
@[simp] theorem State.setCmd_regs (n : Nat) (f : Cmd → Cmd) : (s.setCmd n f).regs = s.regs := rfl
@[simp] theorem State.setCmd_mem (n : Nat) (f : Cmd → Cmd) : (s.setCmd n f).mem = s.mem := rfl
@[simp] theorem State.setCmd_poison (n : Nat) (f : Cmd → Cmd) : (s.setCmd n f).poison = s.poison := rfl
@[simp] theorem State.setCmd_stackUnits (n : Nat) (f : Cmd → Cmd) : (s.setCmd n f).stackUnits = s.stackUnits := rfl
@[simp] theorem State.setCmd_arrays (n : Nat) (f : Cmd → Cmd) : (s.setCmd n f).arrays = s.arrays := rfl
@[simp] theorem State.setCmd_cat (n : Nat) (f : Cmd → Cmd) : (s.setCmd n f).cat = s.cat := rfl
@[simp] theorem State.setCmd_index (n : Nat) (f : Cmd → Cmd) : (s.setCmd n f).index = s.index := rfl
@[simp] theorem State.setCmd_mover (n : Nat) (f : Cmd → Cmd) : (s.setCmd n f).mover = s.mover := rfl
@[simp] theorem State.setCmd_ports (n : Nat) (f : Cmd → Cmd) : (s.setCmd n f).ports = s.ports := rfl
@[simp] theorem State.setCmd_xport (n : Nat) (f : Cmd → Cmd) : (s.setCmd n f).xport = s.xport := rfl
@[simp] theorem State.setCmd_tm (n : Nat) (f : Cmd → Cmd) : (s.setCmd n f).tm = s.tm := rfl
@[simp] theorem State.setCmd_vault (n : Nat) (f : Cmd → Cmd) : (s.setCmd n f).vault = s.vault := rfl
@[simp] theorem State.setCmd_health (n : Nat) (f : Cmd → Cmd) : (s.setCmd n f).health = s.health := rfl
@[simp] theorem State.setCmd_power (n : Nat) (f : Cmd → Cmd) : (s.setCmd n f).power = s.power := rfl
@[simp] theorem State.setCmd_mgmt (n : Nat) (f : Cmd → Cmd) : (s.setCmd n f).mgmt = s.mgmt := rfl
@[simp] theorem State.setCmd_out (n : Nat) (f : Cmd → Cmd) : (s.setCmd n f).out = s.out := rfl
@[simp] theorem State.setCmd_fresh (n : Nat) (f : Cmd → Cmd) : (s.setCmd n f).fresh = s.fresh := rfl

/-! `leave` changes work and arrays only. -/

@[simp] theorem State.leave_pending (n : Nat) : (s.leave n).pending = s.pending := rfl
@[simp] theorem State.leave_clock (n : Nat) : (s.leave n).clock = s.clock := rfl
@[simp] theorem State.leave_node (n : Nat) : (s.leave n).node = s.node := rfl
@[simp] theorem State.leave_sync (n : Nat) : (s.leave n).sync = s.sync := rfl
@[simp] theorem State.leave_pat (n : Nat) : (s.leave n).pat = s.pat := rfl
@[simp] theorem State.leave_regs (n : Nat) : (s.leave n).regs = s.regs := rfl
@[simp] theorem State.leave_mem (n : Nat) : (s.leave n).mem = s.mem := rfl
@[simp] theorem State.leave_poison (n : Nat) : (s.leave n).poison = s.poison := rfl
@[simp] theorem State.leave_stackUnits (n : Nat) : (s.leave n).stackUnits = s.stackUnits := rfl
@[simp] theorem State.leave_cat (n : Nat) : (s.leave n).cat = s.cat := rfl
@[simp] theorem State.leave_index (n : Nat) : (s.leave n).index = s.index := rfl
@[simp] theorem State.leave_mover (n : Nat) : (s.leave n).mover = s.mover := rfl
@[simp] theorem State.leave_ports (n : Nat) : (s.leave n).ports = s.ports := rfl
@[simp] theorem State.leave_xport (n : Nat) : (s.leave n).xport = s.xport := rfl
@[simp] theorem State.leave_tm (n : Nat) : (s.leave n).tm = s.tm := rfl
@[simp] theorem State.leave_vault (n : Nat) : (s.leave n).vault = s.vault := rfl
@[simp] theorem State.leave_health (n : Nat) : (s.leave n).health = s.health := rfl
@[simp] theorem State.leave_power (n : Nat) : (s.leave n).power = s.power := rfl
@[simp] theorem State.leave_mgmt (n : Nat) : (s.leave n).mgmt = s.mgmt := rfl
@[simp] theorem State.leave_out (n : Nat) : (s.leave n).out = s.out := rfl
@[simp] theorem State.leave_fresh (n : Nat) : (s.leave n).fresh = s.fresh := rfl

/-! `serves` changes work only. -/

@[simp] theorem State.serves_pending (unit : Nat) (cmds : List Nat) : (s.serves unit cmds).pending = s.pending := rfl
@[simp] theorem State.serves_clock (unit : Nat) (cmds : List Nat) : (s.serves unit cmds).clock = s.clock := rfl
@[simp] theorem State.serves_node (unit : Nat) (cmds : List Nat) : (s.serves unit cmds).node = s.node := rfl
@[simp] theorem State.serves_sync (unit : Nat) (cmds : List Nat) : (s.serves unit cmds).sync = s.sync := rfl
@[simp] theorem State.serves_pat (unit : Nat) (cmds : List Nat) : (s.serves unit cmds).pat = s.pat := rfl
@[simp] theorem State.serves_regs (unit : Nat) (cmds : List Nat) : (s.serves unit cmds).regs = s.regs := rfl
@[simp] theorem State.serves_mem (unit : Nat) (cmds : List Nat) : (s.serves unit cmds).mem = s.mem := rfl
@[simp] theorem State.serves_poison (unit : Nat) (cmds : List Nat) : (s.serves unit cmds).poison = s.poison := rfl
@[simp] theorem State.serves_stackUnits (unit : Nat) (cmds : List Nat) : (s.serves unit cmds).stackUnits = s.stackUnits := rfl
@[simp] theorem State.serves_arrays (unit : Nat) (cmds : List Nat) : (s.serves unit cmds).arrays = s.arrays := rfl
@[simp] theorem State.serves_cat (unit : Nat) (cmds : List Nat) : (s.serves unit cmds).cat = s.cat := rfl
@[simp] theorem State.serves_index (unit : Nat) (cmds : List Nat) : (s.serves unit cmds).index = s.index := rfl
@[simp] theorem State.serves_mover (unit : Nat) (cmds : List Nat) : (s.serves unit cmds).mover = s.mover := rfl
@[simp] theorem State.serves_ports (unit : Nat) (cmds : List Nat) : (s.serves unit cmds).ports = s.ports := rfl
@[simp] theorem State.serves_xport (unit : Nat) (cmds : List Nat) : (s.serves unit cmds).xport = s.xport := rfl
@[simp] theorem State.serves_tm (unit : Nat) (cmds : List Nat) : (s.serves unit cmds).tm = s.tm := rfl
@[simp] theorem State.serves_vault (unit : Nat) (cmds : List Nat) : (s.serves unit cmds).vault = s.vault := rfl
@[simp] theorem State.serves_health (unit : Nat) (cmds : List Nat) : (s.serves unit cmds).health = s.health := rfl
@[simp] theorem State.serves_power (unit : Nat) (cmds : List Nat) : (s.serves unit cmds).power = s.power := rfl
@[simp] theorem State.serves_mgmt (unit : Nat) (cmds : List Nat) : (s.serves unit cmds).mgmt = s.mgmt := rfl
@[simp] theorem State.serves_out (unit : Nat) (cmds : List Nat) : (s.serves unit cmds).out = s.out := rfl
@[simp] theorem State.serves_fresh (unit : Nat) (cmds : List Nat) : (s.serves unit cmds).fresh = s.fresh := rfl

/-! `addItem` changes work only. -/

@[simp] theorem State.addItem_pending (k : Nat) (x : Item) : (s.addItem k x).pending = s.pending := rfl
@[simp] theorem State.addItem_clock (k : Nat) (x : Item) : (s.addItem k x).clock = s.clock := rfl
@[simp] theorem State.addItem_node (k : Nat) (x : Item) : (s.addItem k x).node = s.node := rfl
@[simp] theorem State.addItem_sync (k : Nat) (x : Item) : (s.addItem k x).sync = s.sync := rfl
@[simp] theorem State.addItem_pat (k : Nat) (x : Item) : (s.addItem k x).pat = s.pat := rfl
@[simp] theorem State.addItem_regs (k : Nat) (x : Item) : (s.addItem k x).regs = s.regs := rfl
@[simp] theorem State.addItem_mem (k : Nat) (x : Item) : (s.addItem k x).mem = s.mem := rfl
@[simp] theorem State.addItem_poison (k : Nat) (x : Item) : (s.addItem k x).poison = s.poison := rfl
@[simp] theorem State.addItem_stackUnits (k : Nat) (x : Item) : (s.addItem k x).stackUnits = s.stackUnits := rfl
@[simp] theorem State.addItem_arrays (k : Nat) (x : Item) : (s.addItem k x).arrays = s.arrays := rfl
@[simp] theorem State.addItem_cat (k : Nat) (x : Item) : (s.addItem k x).cat = s.cat := rfl
@[simp] theorem State.addItem_index (k : Nat) (x : Item) : (s.addItem k x).index = s.index := rfl
@[simp] theorem State.addItem_mover (k : Nat) (x : Item) : (s.addItem k x).mover = s.mover := rfl
@[simp] theorem State.addItem_ports (k : Nat) (x : Item) : (s.addItem k x).ports = s.ports := rfl
@[simp] theorem State.addItem_xport (k : Nat) (x : Item) : (s.addItem k x).xport = s.xport := rfl
@[simp] theorem State.addItem_tm (k : Nat) (x : Item) : (s.addItem k x).tm = s.tm := rfl
@[simp] theorem State.addItem_vault (k : Nat) (x : Item) : (s.addItem k x).vault = s.vault := rfl
@[simp] theorem State.addItem_health (k : Nat) (x : Item) : (s.addItem k x).health = s.health := rfl
@[simp] theorem State.addItem_power (k : Nat) (x : Item) : (s.addItem k x).power = s.power := rfl
@[simp] theorem State.addItem_mgmt (k : Nat) (x : Item) : (s.addItem k x).mgmt = s.mgmt := rfl
@[simp] theorem State.addItem_out (k : Nat) (x : Item) : (s.addItem k x).out = s.out := rfl
@[simp] theorem State.addItem_fresh (k : Nat) (x : Item) : (s.addItem k x).fresh = s.fresh := rfl

/-! `setItems` changes work only. -/

@[simp] theorem State.setItems_pending (f : Nat → Item → Item) : (s.setItems f).pending = s.pending := rfl
@[simp] theorem State.setItems_clock (f : Nat → Item → Item) : (s.setItems f).clock = s.clock := rfl
@[simp] theorem State.setItems_node (f : Nat → Item → Item) : (s.setItems f).node = s.node := rfl
@[simp] theorem State.setItems_sync (f : Nat → Item → Item) : (s.setItems f).sync = s.sync := rfl
@[simp] theorem State.setItems_pat (f : Nat → Item → Item) : (s.setItems f).pat = s.pat := rfl
@[simp] theorem State.setItems_regs (f : Nat → Item → Item) : (s.setItems f).regs = s.regs := rfl
@[simp] theorem State.setItems_mem (f : Nat → Item → Item) : (s.setItems f).mem = s.mem := rfl
@[simp] theorem State.setItems_poison (f : Nat → Item → Item) : (s.setItems f).poison = s.poison := rfl
@[simp] theorem State.setItems_stackUnits (f : Nat → Item → Item) : (s.setItems f).stackUnits = s.stackUnits := rfl
@[simp] theorem State.setItems_arrays (f : Nat → Item → Item) : (s.setItems f).arrays = s.arrays := rfl
@[simp] theorem State.setItems_cat (f : Nat → Item → Item) : (s.setItems f).cat = s.cat := rfl
@[simp] theorem State.setItems_index (f : Nat → Item → Item) : (s.setItems f).index = s.index := rfl
@[simp] theorem State.setItems_mover (f : Nat → Item → Item) : (s.setItems f).mover = s.mover := rfl
@[simp] theorem State.setItems_ports (f : Nat → Item → Item) : (s.setItems f).ports = s.ports := rfl
@[simp] theorem State.setItems_xport (f : Nat → Item → Item) : (s.setItems f).xport = s.xport := rfl
@[simp] theorem State.setItems_tm (f : Nat → Item → Item) : (s.setItems f).tm = s.tm := rfl
@[simp] theorem State.setItems_vault (f : Nat → Item → Item) : (s.setItems f).vault = s.vault := rfl
@[simp] theorem State.setItems_health (f : Nat → Item → Item) : (s.setItems f).health = s.health := rfl
@[simp] theorem State.setItems_power (f : Nat → Item → Item) : (s.setItems f).power = s.power := rfl
@[simp] theorem State.setItems_mgmt (f : Nat → Item → Item) : (s.setItems f).mgmt = s.mgmt := rfl
@[simp] theorem State.setItems_out (f : Nat → Item → Item) : (s.setItems f).out = s.out := rfl
@[simp] theorem State.setItems_fresh (f : Nat → Item → Item) : (s.setItems f).fresh = s.fresh := rfl

/-! `setJob` changes work only. -/

@[simp] theorem State.setJob_pending (n : Nat) (f : AppendJob → AppendJob) : (s.setJob n f).pending = s.pending := rfl
@[simp] theorem State.setJob_clock (n : Nat) (f : AppendJob → AppendJob) : (s.setJob n f).clock = s.clock := rfl
@[simp] theorem State.setJob_node (n : Nat) (f : AppendJob → AppendJob) : (s.setJob n f).node = s.node := rfl
@[simp] theorem State.setJob_sync (n : Nat) (f : AppendJob → AppendJob) : (s.setJob n f).sync = s.sync := rfl
@[simp] theorem State.setJob_pat (n : Nat) (f : AppendJob → AppendJob) : (s.setJob n f).pat = s.pat := rfl
@[simp] theorem State.setJob_regs (n : Nat) (f : AppendJob → AppendJob) : (s.setJob n f).regs = s.regs := rfl
@[simp] theorem State.setJob_mem (n : Nat) (f : AppendJob → AppendJob) : (s.setJob n f).mem = s.mem := rfl
@[simp] theorem State.setJob_poison (n : Nat) (f : AppendJob → AppendJob) : (s.setJob n f).poison = s.poison := rfl
@[simp] theorem State.setJob_stackUnits (n : Nat) (f : AppendJob → AppendJob) : (s.setJob n f).stackUnits = s.stackUnits := rfl
@[simp] theorem State.setJob_arrays (n : Nat) (f : AppendJob → AppendJob) : (s.setJob n f).arrays = s.arrays := rfl
@[simp] theorem State.setJob_cat (n : Nat) (f : AppendJob → AppendJob) : (s.setJob n f).cat = s.cat := rfl
@[simp] theorem State.setJob_index (n : Nat) (f : AppendJob → AppendJob) : (s.setJob n f).index = s.index := rfl
@[simp] theorem State.setJob_mover (n : Nat) (f : AppendJob → AppendJob) : (s.setJob n f).mover = s.mover := rfl
@[simp] theorem State.setJob_ports (n : Nat) (f : AppendJob → AppendJob) : (s.setJob n f).ports = s.ports := rfl
@[simp] theorem State.setJob_xport (n : Nat) (f : AppendJob → AppendJob) : (s.setJob n f).xport = s.xport := rfl
@[simp] theorem State.setJob_tm (n : Nat) (f : AppendJob → AppendJob) : (s.setJob n f).tm = s.tm := rfl
@[simp] theorem State.setJob_vault (n : Nat) (f : AppendJob → AppendJob) : (s.setJob n f).vault = s.vault := rfl
@[simp] theorem State.setJob_health (n : Nat) (f : AppendJob → AppendJob) : (s.setJob n f).health = s.health := rfl
@[simp] theorem State.setJob_power (n : Nat) (f : AppendJob → AppendJob) : (s.setJob n f).power = s.power := rfl
@[simp] theorem State.setJob_mgmt (n : Nat) (f : AppendJob → AppendJob) : (s.setJob n f).mgmt = s.mgmt := rfl
@[simp] theorem State.setJob_out (n : Nat) (f : AppendJob → AppendJob) : (s.setJob n f).out = s.out := rfl
@[simp] theorem State.setJob_fresh (n : Nat) (f : AppendJob → AppendJob) : (s.setJob n f).fresh = s.fresh := rfl

/-! `inShadow` changes cat only. -/

@[simp] theorem State.inShadow_pending (f : Shadow → Shadow) : (s.inShadow f).pending = s.pending := rfl
@[simp] theorem State.inShadow_clock (f : Shadow → Shadow) : (s.inShadow f).clock = s.clock := rfl
@[simp] theorem State.inShadow_node (f : Shadow → Shadow) : (s.inShadow f).node = s.node := rfl
@[simp] theorem State.inShadow_sync (f : Shadow → Shadow) : (s.inShadow f).sync = s.sync := rfl
@[simp] theorem State.inShadow_pat (f : Shadow → Shadow) : (s.inShadow f).pat = s.pat := rfl
@[simp] theorem State.inShadow_regs (f : Shadow → Shadow) : (s.inShadow f).regs = s.regs := rfl
@[simp] theorem State.inShadow_mem (f : Shadow → Shadow) : (s.inShadow f).mem = s.mem := rfl
@[simp] theorem State.inShadow_poison (f : Shadow → Shadow) : (s.inShadow f).poison = s.poison := rfl
@[simp] theorem State.inShadow_stackUnits (f : Shadow → Shadow) : (s.inShadow f).stackUnits = s.stackUnits := rfl
@[simp] theorem State.inShadow_arrays (f : Shadow → Shadow) : (s.inShadow f).arrays = s.arrays := rfl
@[simp] theorem State.inShadow_work (f : Shadow → Shadow) : (s.inShadow f).work = s.work := rfl
@[simp] theorem State.inShadow_index (f : Shadow → Shadow) : (s.inShadow f).index = s.index := rfl
@[simp] theorem State.inShadow_mover (f : Shadow → Shadow) : (s.inShadow f).mover = s.mover := rfl
@[simp] theorem State.inShadow_ports (f : Shadow → Shadow) : (s.inShadow f).ports = s.ports := rfl
@[simp] theorem State.inShadow_xport (f : Shadow → Shadow) : (s.inShadow f).xport = s.xport := rfl
@[simp] theorem State.inShadow_tm (f : Shadow → Shadow) : (s.inShadow f).tm = s.tm := rfl
@[simp] theorem State.inShadow_vault (f : Shadow → Shadow) : (s.inShadow f).vault = s.vault := rfl
@[simp] theorem State.inShadow_health (f : Shadow → Shadow) : (s.inShadow f).health = s.health := rfl
@[simp] theorem State.inShadow_power (f : Shadow → Shadow) : (s.inShadow f).power = s.power := rfl
@[simp] theorem State.inShadow_mgmt (f : Shadow → Shadow) : (s.inShadow f).mgmt = s.mgmt := rfl
@[simp] theorem State.inShadow_out (f : Shadow → Shadow) : (s.inShadow f).out = s.out := rfl
@[simp] theorem State.inShadow_fresh (f : Shadow → Shadow) : (s.inShadow f).fresh = s.fresh := rfl

/-! `clbDrop` changes cat only. -/

@[simp] theorem State.clbDrop_pending (n : Nat) : (s.clbDrop n).pending = s.pending := rfl
@[simp] theorem State.clbDrop_clock (n : Nat) : (s.clbDrop n).clock = s.clock := rfl
@[simp] theorem State.clbDrop_node (n : Nat) : (s.clbDrop n).node = s.node := rfl
@[simp] theorem State.clbDrop_sync (n : Nat) : (s.clbDrop n).sync = s.sync := rfl
@[simp] theorem State.clbDrop_pat (n : Nat) : (s.clbDrop n).pat = s.pat := rfl
@[simp] theorem State.clbDrop_regs (n : Nat) : (s.clbDrop n).regs = s.regs := rfl
@[simp] theorem State.clbDrop_mem (n : Nat) : (s.clbDrop n).mem = s.mem := rfl
@[simp] theorem State.clbDrop_poison (n : Nat) : (s.clbDrop n).poison = s.poison := rfl
@[simp] theorem State.clbDrop_stackUnits (n : Nat) : (s.clbDrop n).stackUnits = s.stackUnits := rfl
@[simp] theorem State.clbDrop_arrays (n : Nat) : (s.clbDrop n).arrays = s.arrays := rfl
@[simp] theorem State.clbDrop_work (n : Nat) : (s.clbDrop n).work = s.work := rfl
@[simp] theorem State.clbDrop_index (n : Nat) : (s.clbDrop n).index = s.index := rfl
@[simp] theorem State.clbDrop_mover (n : Nat) : (s.clbDrop n).mover = s.mover := rfl
@[simp] theorem State.clbDrop_ports (n : Nat) : (s.clbDrop n).ports = s.ports := rfl
@[simp] theorem State.clbDrop_xport (n : Nat) : (s.clbDrop n).xport = s.xport := rfl
@[simp] theorem State.clbDrop_tm (n : Nat) : (s.clbDrop n).tm = s.tm := rfl
@[simp] theorem State.clbDrop_vault (n : Nat) : (s.clbDrop n).vault = s.vault := rfl
@[simp] theorem State.clbDrop_health (n : Nat) : (s.clbDrop n).health = s.health := rfl
@[simp] theorem State.clbDrop_power (n : Nat) : (s.clbDrop n).power = s.power := rfl
@[simp] theorem State.clbDrop_mgmt (n : Nat) : (s.clbDrop n).mgmt = s.mgmt := rfl
@[simp] theorem State.clbDrop_out (n : Nat) : (s.clbDrop n).out = s.out := rfl
@[simp] theorem State.clbDrop_fresh (n : Nat) : (s.clbDrop n).fresh = s.fresh := rfl

/-! `oweAck` changes xport only. -/

@[simp] theorem State.oweAck_pending (k tc : Nat) : (s.oweAck k tc).pending = s.pending := rfl
@[simp] theorem State.oweAck_clock (k tc : Nat) : (s.oweAck k tc).clock = s.clock := rfl
@[simp] theorem State.oweAck_node (k tc : Nat) : (s.oweAck k tc).node = s.node := rfl
@[simp] theorem State.oweAck_sync (k tc : Nat) : (s.oweAck k tc).sync = s.sync := rfl
@[simp] theorem State.oweAck_pat (k tc : Nat) : (s.oweAck k tc).pat = s.pat := rfl
@[simp] theorem State.oweAck_regs (k tc : Nat) : (s.oweAck k tc).regs = s.regs := rfl
@[simp] theorem State.oweAck_mem (k tc : Nat) : (s.oweAck k tc).mem = s.mem := rfl
@[simp] theorem State.oweAck_poison (k tc : Nat) : (s.oweAck k tc).poison = s.poison := rfl
@[simp] theorem State.oweAck_stackUnits (k tc : Nat) : (s.oweAck k tc).stackUnits = s.stackUnits := rfl
@[simp] theorem State.oweAck_arrays (k tc : Nat) : (s.oweAck k tc).arrays = s.arrays := rfl
@[simp] theorem State.oweAck_cat (k tc : Nat) : (s.oweAck k tc).cat = s.cat := rfl
@[simp] theorem State.oweAck_work (k tc : Nat) : (s.oweAck k tc).work = s.work := rfl
@[simp] theorem State.oweAck_index (k tc : Nat) : (s.oweAck k tc).index = s.index := rfl
@[simp] theorem State.oweAck_mover (k tc : Nat) : (s.oweAck k tc).mover = s.mover := rfl
@[simp] theorem State.oweAck_ports (k tc : Nat) : (s.oweAck k tc).ports = s.ports := rfl
@[simp] theorem State.oweAck_tm (k tc : Nat) : (s.oweAck k tc).tm = s.tm := rfl
@[simp] theorem State.oweAck_vault (k tc : Nat) : (s.oweAck k tc).vault = s.vault := rfl
@[simp] theorem State.oweAck_health (k tc : Nat) : (s.oweAck k tc).health = s.health := rfl
@[simp] theorem State.oweAck_power (k tc : Nat) : (s.oweAck k tc).power = s.power := rfl
@[simp] theorem State.oweAck_mgmt (k tc : Nat) : (s.oweAck k tc).mgmt = s.mgmt := rfl
@[simp] theorem State.oweAck_out (k tc : Nat) : (s.oweAck k tc).out = s.out := rfl
@[simp] theorem State.oweAck_fresh (k tc : Nat) : (s.oweAck k tc).fresh = s.fresh := rfl

/-! `setSeq` changes cat only. -/

@[simp] theorem State.setSeq_pending (slot : Nat) (q : Seq) : (s.setSeq slot q).pending = s.pending := rfl
@[simp] theorem State.setSeq_clock (slot : Nat) (q : Seq) : (s.setSeq slot q).clock = s.clock := rfl
@[simp] theorem State.setSeq_node (slot : Nat) (q : Seq) : (s.setSeq slot q).node = s.node := rfl
@[simp] theorem State.setSeq_sync (slot : Nat) (q : Seq) : (s.setSeq slot q).sync = s.sync := rfl
@[simp] theorem State.setSeq_pat (slot : Nat) (q : Seq) : (s.setSeq slot q).pat = s.pat := rfl
@[simp] theorem State.setSeq_regs (slot : Nat) (q : Seq) : (s.setSeq slot q).regs = s.regs := rfl
@[simp] theorem State.setSeq_mem (slot : Nat) (q : Seq) : (s.setSeq slot q).mem = s.mem := rfl
@[simp] theorem State.setSeq_poison (slot : Nat) (q : Seq) : (s.setSeq slot q).poison = s.poison := rfl
@[simp] theorem State.setSeq_stackUnits (slot : Nat) (q : Seq) : (s.setSeq slot q).stackUnits = s.stackUnits := rfl
@[simp] theorem State.setSeq_arrays (slot : Nat) (q : Seq) : (s.setSeq slot q).arrays = s.arrays := rfl
@[simp] theorem State.setSeq_work (slot : Nat) (q : Seq) : (s.setSeq slot q).work = s.work := rfl
@[simp] theorem State.setSeq_index (slot : Nat) (q : Seq) : (s.setSeq slot q).index = s.index := rfl
@[simp] theorem State.setSeq_mover (slot : Nat) (q : Seq) : (s.setSeq slot q).mover = s.mover := rfl
@[simp] theorem State.setSeq_ports (slot : Nat) (q : Seq) : (s.setSeq slot q).ports = s.ports := rfl
@[simp] theorem State.setSeq_xport (slot : Nat) (q : Seq) : (s.setSeq slot q).xport = s.xport := rfl
@[simp] theorem State.setSeq_tm (slot : Nat) (q : Seq) : (s.setSeq slot q).tm = s.tm := rfl
@[simp] theorem State.setSeq_vault (slot : Nat) (q : Seq) : (s.setSeq slot q).vault = s.vault := rfl
@[simp] theorem State.setSeq_health (slot : Nat) (q : Seq) : (s.setSeq slot q).health = s.health := rfl
@[simp] theorem State.setSeq_power (slot : Nat) (q : Seq) : (s.setSeq slot q).power = s.power := rfl
@[simp] theorem State.setSeq_mgmt (slot : Nat) (q : Seq) : (s.setSeq slot q).mgmt = s.mgmt := rfl
@[simp] theorem State.setSeq_out (slot : Nat) (q : Seq) : (s.setSeq slot q).out = s.out := rfl
@[simp] theorem State.setSeq_fresh (slot : Nat) (q : Seq) : (s.setSeq slot q).fresh = s.fresh := rfl

/-! `setCard` changes cat only. -/

@[simp] theorem State.setCard_pending (n : Nat) (f : Card → Card) : (s.setCard n f).pending = s.pending := rfl
@[simp] theorem State.setCard_clock (n : Nat) (f : Card → Card) : (s.setCard n f).clock = s.clock := rfl
@[simp] theorem State.setCard_node (n : Nat) (f : Card → Card) : (s.setCard n f).node = s.node := rfl
@[simp] theorem State.setCard_sync (n : Nat) (f : Card → Card) : (s.setCard n f).sync = s.sync := rfl
@[simp] theorem State.setCard_pat (n : Nat) (f : Card → Card) : (s.setCard n f).pat = s.pat := rfl
@[simp] theorem State.setCard_regs (n : Nat) (f : Card → Card) : (s.setCard n f).regs = s.regs := rfl
@[simp] theorem State.setCard_mem (n : Nat) (f : Card → Card) : (s.setCard n f).mem = s.mem := rfl
@[simp] theorem State.setCard_poison (n : Nat) (f : Card → Card) : (s.setCard n f).poison = s.poison := rfl
@[simp] theorem State.setCard_stackUnits (n : Nat) (f : Card → Card) : (s.setCard n f).stackUnits = s.stackUnits := rfl
@[simp] theorem State.setCard_arrays (n : Nat) (f : Card → Card) : (s.setCard n f).arrays = s.arrays := rfl
@[simp] theorem State.setCard_work (n : Nat) (f : Card → Card) : (s.setCard n f).work = s.work := rfl
@[simp] theorem State.setCard_index (n : Nat) (f : Card → Card) : (s.setCard n f).index = s.index := rfl
@[simp] theorem State.setCard_mover (n : Nat) (f : Card → Card) : (s.setCard n f).mover = s.mover := rfl
@[simp] theorem State.setCard_ports (n : Nat) (f : Card → Card) : (s.setCard n f).ports = s.ports := rfl
@[simp] theorem State.setCard_xport (n : Nat) (f : Card → Card) : (s.setCard n f).xport = s.xport := rfl
@[simp] theorem State.setCard_tm (n : Nat) (f : Card → Card) : (s.setCard n f).tm = s.tm := rfl
@[simp] theorem State.setCard_vault (n : Nat) (f : Card → Card) : (s.setCard n f).vault = s.vault := rfl
@[simp] theorem State.setCard_health (n : Nat) (f : Card → Card) : (s.setCard n f).health = s.health := rfl
@[simp] theorem State.setCard_power (n : Nat) (f : Card → Card) : (s.setCard n f).power = s.power := rfl
@[simp] theorem State.setCard_mgmt (n : Nat) (f : Card → Card) : (s.setCard n f).mgmt = s.mgmt := rfl
@[simp] theorem State.setCard_out (n : Nat) (f : Card → Card) : (s.setCard n f).out = s.out := rfl
@[simp] theorem State.setCard_fresh (n : Nat) (f : Card → Card) : (s.setCard n f).fresh = s.fresh := rfl

/-! `release` changes cat only. -/

@[simp] theorem State.release_pending (r : Released) : (s.release r).pending = s.pending := rfl
@[simp] theorem State.release_clock (r : Released) : (s.release r).clock = s.clock := rfl
@[simp] theorem State.release_node (r : Released) : (s.release r).node = s.node := rfl
@[simp] theorem State.release_sync (r : Released) : (s.release r).sync = s.sync := rfl
@[simp] theorem State.release_pat (r : Released) : (s.release r).pat = s.pat := rfl
@[simp] theorem State.release_regs (r : Released) : (s.release r).regs = s.regs := rfl
@[simp] theorem State.release_mem (r : Released) : (s.release r).mem = s.mem := rfl
@[simp] theorem State.release_poison (r : Released) : (s.release r).poison = s.poison := rfl
@[simp] theorem State.release_stackUnits (r : Released) : (s.release r).stackUnits = s.stackUnits := rfl
@[simp] theorem State.release_arrays (r : Released) : (s.release r).arrays = s.arrays := rfl
@[simp] theorem State.release_work (r : Released) : (s.release r).work = s.work := rfl
@[simp] theorem State.release_index (r : Released) : (s.release r).index = s.index := rfl
@[simp] theorem State.release_mover (r : Released) : (s.release r).mover = s.mover := rfl
@[simp] theorem State.release_ports (r : Released) : (s.release r).ports = s.ports := rfl
@[simp] theorem State.release_xport (r : Released) : (s.release r).xport = s.xport := rfl
@[simp] theorem State.release_tm (r : Released) : (s.release r).tm = s.tm := rfl
@[simp] theorem State.release_vault (r : Released) : (s.release r).vault = s.vault := rfl
@[simp] theorem State.release_health (r : Released) : (s.release r).health = s.health := rfl
@[simp] theorem State.release_power (r : Released) : (s.release r).power = s.power := rfl
@[simp] theorem State.release_mgmt (r : Released) : (s.release r).mgmt = s.mgmt := rfl
@[simp] theorem State.release_out (r : Released) : (s.release r).out = s.out := rfl
@[simp] theorem State.release_fresh (r : Released) : (s.release r).fresh = s.fresh := rfl

/-! `returnPages` changes cat only. -/

@[simp] theorem State.returnPages_pending (ps : List Nat) : (s.returnPages ps).pending = s.pending := rfl
@[simp] theorem State.returnPages_clock (ps : List Nat) : (s.returnPages ps).clock = s.clock := rfl
@[simp] theorem State.returnPages_node (ps : List Nat) : (s.returnPages ps).node = s.node := rfl
@[simp] theorem State.returnPages_sync (ps : List Nat) : (s.returnPages ps).sync = s.sync := rfl
@[simp] theorem State.returnPages_pat (ps : List Nat) : (s.returnPages ps).pat = s.pat := rfl
@[simp] theorem State.returnPages_regs (ps : List Nat) : (s.returnPages ps).regs = s.regs := rfl
@[simp] theorem State.returnPages_mem (ps : List Nat) : (s.returnPages ps).mem = s.mem := rfl
@[simp] theorem State.returnPages_poison (ps : List Nat) : (s.returnPages ps).poison = s.poison := rfl
@[simp] theorem State.returnPages_stackUnits (ps : List Nat) : (s.returnPages ps).stackUnits = s.stackUnits := rfl
@[simp] theorem State.returnPages_arrays (ps : List Nat) : (s.returnPages ps).arrays = s.arrays := rfl
@[simp] theorem State.returnPages_work (ps : List Nat) : (s.returnPages ps).work = s.work := rfl
@[simp] theorem State.returnPages_index (ps : List Nat) : (s.returnPages ps).index = s.index := rfl
@[simp] theorem State.returnPages_mover (ps : List Nat) : (s.returnPages ps).mover = s.mover := rfl
@[simp] theorem State.returnPages_ports (ps : List Nat) : (s.returnPages ps).ports = s.ports := rfl
@[simp] theorem State.returnPages_xport (ps : List Nat) : (s.returnPages ps).xport = s.xport := rfl
@[simp] theorem State.returnPages_tm (ps : List Nat) : (s.returnPages ps).tm = s.tm := rfl
@[simp] theorem State.returnPages_vault (ps : List Nat) : (s.returnPages ps).vault = s.vault := rfl
@[simp] theorem State.returnPages_health (ps : List Nat) : (s.returnPages ps).health = s.health := rfl
@[simp] theorem State.returnPages_power (ps : List Nat) : (s.returnPages ps).power = s.power := rfl
@[simp] theorem State.returnPages_mgmt (ps : List Nat) : (s.returnPages ps).mgmt = s.mgmt := rfl
@[simp] theorem State.returnPages_out (ps : List Nat) : (s.returnPages ps).out = s.out := rfl
@[simp] theorem State.returnPages_fresh (ps : List Nat) : (s.returnPages ps).fresh = s.fresh := rfl

/-! `setStack` changes stackUnits only. -/

@[simp] theorem State.setStack_pending (t : Nat) (f : Stack → Stack) : (s.setStack t f).pending = s.pending := rfl
@[simp] theorem State.setStack_clock (t : Nat) (f : Stack → Stack) : (s.setStack t f).clock = s.clock := rfl
@[simp] theorem State.setStack_node (t : Nat) (f : Stack → Stack) : (s.setStack t f).node = s.node := rfl
@[simp] theorem State.setStack_sync (t : Nat) (f : Stack → Stack) : (s.setStack t f).sync = s.sync := rfl
@[simp] theorem State.setStack_pat (t : Nat) (f : Stack → Stack) : (s.setStack t f).pat = s.pat := rfl
@[simp] theorem State.setStack_regs (t : Nat) (f : Stack → Stack) : (s.setStack t f).regs = s.regs := rfl
@[simp] theorem State.setStack_mem (t : Nat) (f : Stack → Stack) : (s.setStack t f).mem = s.mem := rfl
@[simp] theorem State.setStack_poison (t : Nat) (f : Stack → Stack) : (s.setStack t f).poison = s.poison := rfl
@[simp] theorem State.setStack_arrays (t : Nat) (f : Stack → Stack) : (s.setStack t f).arrays = s.arrays := rfl
@[simp] theorem State.setStack_cat (t : Nat) (f : Stack → Stack) : (s.setStack t f).cat = s.cat := rfl
@[simp] theorem State.setStack_work (t : Nat) (f : Stack → Stack) : (s.setStack t f).work = s.work := rfl
@[simp] theorem State.setStack_index (t : Nat) (f : Stack → Stack) : (s.setStack t f).index = s.index := rfl
@[simp] theorem State.setStack_mover (t : Nat) (f : Stack → Stack) : (s.setStack t f).mover = s.mover := rfl
@[simp] theorem State.setStack_ports (t : Nat) (f : Stack → Stack) : (s.setStack t f).ports = s.ports := rfl
@[simp] theorem State.setStack_xport (t : Nat) (f : Stack → Stack) : (s.setStack t f).xport = s.xport := rfl
@[simp] theorem State.setStack_tm (t : Nat) (f : Stack → Stack) : (s.setStack t f).tm = s.tm := rfl
@[simp] theorem State.setStack_vault (t : Nat) (f : Stack → Stack) : (s.setStack t f).vault = s.vault := rfl
@[simp] theorem State.setStack_health (t : Nat) (f : Stack → Stack) : (s.setStack t f).health = s.health := rfl
@[simp] theorem State.setStack_power (t : Nat) (f : Stack → Stack) : (s.setStack t f).power = s.power := rfl
@[simp] theorem State.setStack_mgmt (t : Nat) (f : Stack → Stack) : (s.setStack t f).mgmt = s.mgmt := rfl
@[simp] theorem State.setStack_out (t : Nat) (f : Stack → Stack) : (s.setStack t f).out = s.out := rfl
@[simp] theorem State.setStack_fresh (t : Nat) (f : Stack → Stack) : (s.setStack t f).fresh = s.fresh := rfl

/-! `queueMove` changes mover only. -/

@[simp] theorem State.queueMove_pending (m : Move) : (s.queueMove m).pending = s.pending := rfl
@[simp] theorem State.queueMove_clock (m : Move) : (s.queueMove m).clock = s.clock := rfl
@[simp] theorem State.queueMove_node (m : Move) : (s.queueMove m).node = s.node := rfl
@[simp] theorem State.queueMove_sync (m : Move) : (s.queueMove m).sync = s.sync := rfl
@[simp] theorem State.queueMove_pat (m : Move) : (s.queueMove m).pat = s.pat := rfl
@[simp] theorem State.queueMove_regs (m : Move) : (s.queueMove m).regs = s.regs := rfl
@[simp] theorem State.queueMove_mem (m : Move) : (s.queueMove m).mem = s.mem := rfl
@[simp] theorem State.queueMove_poison (m : Move) : (s.queueMove m).poison = s.poison := rfl
@[simp] theorem State.queueMove_stackUnits (m : Move) : (s.queueMove m).stackUnits = s.stackUnits := rfl
@[simp] theorem State.queueMove_arrays (m : Move) : (s.queueMove m).arrays = s.arrays := rfl
@[simp] theorem State.queueMove_cat (m : Move) : (s.queueMove m).cat = s.cat := rfl
@[simp] theorem State.queueMove_work (m : Move) : (s.queueMove m).work = s.work := rfl
@[simp] theorem State.queueMove_index (m : Move) : (s.queueMove m).index = s.index := rfl
@[simp] theorem State.queueMove_ports (m : Move) : (s.queueMove m).ports = s.ports := rfl
@[simp] theorem State.queueMove_xport (m : Move) : (s.queueMove m).xport = s.xport := rfl
@[simp] theorem State.queueMove_tm (m : Move) : (s.queueMove m).tm = s.tm := rfl
@[simp] theorem State.queueMove_vault (m : Move) : (s.queueMove m).vault = s.vault := rfl
@[simp] theorem State.queueMove_health (m : Move) : (s.queueMove m).health = s.health := rfl
@[simp] theorem State.queueMove_power (m : Move) : (s.queueMove m).power = s.power := rfl
@[simp] theorem State.queueMove_mgmt (m : Move) : (s.queueMove m).mgmt = s.mgmt := rfl
@[simp] theorem State.queueMove_out (m : Move) : (s.queueMove m).out = s.out := rfl
@[simp] theorem State.queueMove_fresh (m : Move) : (s.queueMove m).fresh = s.fresh := rfl

/-! `setMove` changes mover only. -/

@[simp] theorem State.setMove_pending (n : Nat) (f : Move → Move) : (s.setMove n f).pending = s.pending := rfl
@[simp] theorem State.setMove_clock (n : Nat) (f : Move → Move) : (s.setMove n f).clock = s.clock := rfl
@[simp] theorem State.setMove_node (n : Nat) (f : Move → Move) : (s.setMove n f).node = s.node := rfl
@[simp] theorem State.setMove_sync (n : Nat) (f : Move → Move) : (s.setMove n f).sync = s.sync := rfl
@[simp] theorem State.setMove_pat (n : Nat) (f : Move → Move) : (s.setMove n f).pat = s.pat := rfl
@[simp] theorem State.setMove_regs (n : Nat) (f : Move → Move) : (s.setMove n f).regs = s.regs := rfl
@[simp] theorem State.setMove_mem (n : Nat) (f : Move → Move) : (s.setMove n f).mem = s.mem := rfl
@[simp] theorem State.setMove_poison (n : Nat) (f : Move → Move) : (s.setMove n f).poison = s.poison := rfl
@[simp] theorem State.setMove_stackUnits (n : Nat) (f : Move → Move) : (s.setMove n f).stackUnits = s.stackUnits := rfl
@[simp] theorem State.setMove_arrays (n : Nat) (f : Move → Move) : (s.setMove n f).arrays = s.arrays := rfl
@[simp] theorem State.setMove_cat (n : Nat) (f : Move → Move) : (s.setMove n f).cat = s.cat := rfl
@[simp] theorem State.setMove_work (n : Nat) (f : Move → Move) : (s.setMove n f).work = s.work := rfl
@[simp] theorem State.setMove_index (n : Nat) (f : Move → Move) : (s.setMove n f).index = s.index := rfl
@[simp] theorem State.setMove_ports (n : Nat) (f : Move → Move) : (s.setMove n f).ports = s.ports := rfl
@[simp] theorem State.setMove_xport (n : Nat) (f : Move → Move) : (s.setMove n f).xport = s.xport := rfl
@[simp] theorem State.setMove_tm (n : Nat) (f : Move → Move) : (s.setMove n f).tm = s.tm := rfl
@[simp] theorem State.setMove_vault (n : Nat) (f : Move → Move) : (s.setMove n f).vault = s.vault := rfl
@[simp] theorem State.setMove_health (n : Nat) (f : Move → Move) : (s.setMove n f).health = s.health := rfl
@[simp] theorem State.setMove_power (n : Nat) (f : Move → Move) : (s.setMove n f).power = s.power := rfl
@[simp] theorem State.setMove_mgmt (n : Nat) (f : Move → Move) : (s.setMove n f).mgmt = s.mgmt := rfl
@[simp] theorem State.setMove_out (n : Nat) (f : Move → Move) : (s.setMove n f).out = s.out := rfl
@[simp] theorem State.setMove_fresh (n : Nat) (f : Move → Move) : (s.setMove n f).fresh = s.fresh := rfl

/-! `setPort` changes ports only. -/

@[simp] theorem State.setPort_pending (p : Nat) (f : Port → Port) : (s.setPort p f).pending = s.pending := rfl
@[simp] theorem State.setPort_clock (p : Nat) (f : Port → Port) : (s.setPort p f).clock = s.clock := rfl
@[simp] theorem State.setPort_node (p : Nat) (f : Port → Port) : (s.setPort p f).node = s.node := rfl
@[simp] theorem State.setPort_sync (p : Nat) (f : Port → Port) : (s.setPort p f).sync = s.sync := rfl
@[simp] theorem State.setPort_pat (p : Nat) (f : Port → Port) : (s.setPort p f).pat = s.pat := rfl
@[simp] theorem State.setPort_regs (p : Nat) (f : Port → Port) : (s.setPort p f).regs = s.regs := rfl
@[simp] theorem State.setPort_mem (p : Nat) (f : Port → Port) : (s.setPort p f).mem = s.mem := rfl
@[simp] theorem State.setPort_poison (p : Nat) (f : Port → Port) : (s.setPort p f).poison = s.poison := rfl
@[simp] theorem State.setPort_stackUnits (p : Nat) (f : Port → Port) : (s.setPort p f).stackUnits = s.stackUnits := rfl
@[simp] theorem State.setPort_arrays (p : Nat) (f : Port → Port) : (s.setPort p f).arrays = s.arrays := rfl
@[simp] theorem State.setPort_cat (p : Nat) (f : Port → Port) : (s.setPort p f).cat = s.cat := rfl
@[simp] theorem State.setPort_work (p : Nat) (f : Port → Port) : (s.setPort p f).work = s.work := rfl
@[simp] theorem State.setPort_index (p : Nat) (f : Port → Port) : (s.setPort p f).index = s.index := rfl
@[simp] theorem State.setPort_mover (p : Nat) (f : Port → Port) : (s.setPort p f).mover = s.mover := rfl
@[simp] theorem State.setPort_xport (p : Nat) (f : Port → Port) : (s.setPort p f).xport = s.xport := rfl
@[simp] theorem State.setPort_tm (p : Nat) (f : Port → Port) : (s.setPort p f).tm = s.tm := rfl
@[simp] theorem State.setPort_vault (p : Nat) (f : Port → Port) : (s.setPort p f).vault = s.vault := rfl
@[simp] theorem State.setPort_health (p : Nat) (f : Port → Port) : (s.setPort p f).health = s.health := rfl
@[simp] theorem State.setPort_power (p : Nat) (f : Port → Port) : (s.setPort p f).power = s.power := rfl
@[simp] theorem State.setPort_mgmt (p : Nat) (f : Port → Port) : (s.setPort p f).mgmt = s.mgmt := rfl
@[simp] theorem State.setPort_out (p : Nat) (f : Port → Port) : (s.setPort p f).out = s.out := rfl
@[simp] theorem State.setPort_fresh (p : Nat) (f : Port → Port) : (s.setPort p f).fresh = s.fresh := rfl

/-! `setGate` changes tm only. -/

@[simp] theorem State.setGate_pending (p : Nat) (f : Gate → Gate) : (s.setGate p f).pending = s.pending := rfl
@[simp] theorem State.setGate_clock (p : Nat) (f : Gate → Gate) : (s.setGate p f).clock = s.clock := rfl
@[simp] theorem State.setGate_node (p : Nat) (f : Gate → Gate) : (s.setGate p f).node = s.node := rfl
@[simp] theorem State.setGate_sync (p : Nat) (f : Gate → Gate) : (s.setGate p f).sync = s.sync := rfl
@[simp] theorem State.setGate_pat (p : Nat) (f : Gate → Gate) : (s.setGate p f).pat = s.pat := rfl
@[simp] theorem State.setGate_regs (p : Nat) (f : Gate → Gate) : (s.setGate p f).regs = s.regs := rfl
@[simp] theorem State.setGate_mem (p : Nat) (f : Gate → Gate) : (s.setGate p f).mem = s.mem := rfl
@[simp] theorem State.setGate_poison (p : Nat) (f : Gate → Gate) : (s.setGate p f).poison = s.poison := rfl
@[simp] theorem State.setGate_stackUnits (p : Nat) (f : Gate → Gate) : (s.setGate p f).stackUnits = s.stackUnits := rfl
@[simp] theorem State.setGate_arrays (p : Nat) (f : Gate → Gate) : (s.setGate p f).arrays = s.arrays := rfl
@[simp] theorem State.setGate_cat (p : Nat) (f : Gate → Gate) : (s.setGate p f).cat = s.cat := rfl
@[simp] theorem State.setGate_work (p : Nat) (f : Gate → Gate) : (s.setGate p f).work = s.work := rfl
@[simp] theorem State.setGate_index (p : Nat) (f : Gate → Gate) : (s.setGate p f).index = s.index := rfl
@[simp] theorem State.setGate_mover (p : Nat) (f : Gate → Gate) : (s.setGate p f).mover = s.mover := rfl
@[simp] theorem State.setGate_ports (p : Nat) (f : Gate → Gate) : (s.setGate p f).ports = s.ports := rfl
@[simp] theorem State.setGate_xport (p : Nat) (f : Gate → Gate) : (s.setGate p f).xport = s.xport := rfl
@[simp] theorem State.setGate_vault (p : Nat) (f : Gate → Gate) : (s.setGate p f).vault = s.vault := rfl
@[simp] theorem State.setGate_health (p : Nat) (f : Gate → Gate) : (s.setGate p f).health = s.health := rfl
@[simp] theorem State.setGate_power (p : Nat) (f : Gate → Gate) : (s.setGate p f).power = s.power := rfl
@[simp] theorem State.setGate_mgmt (p : Nat) (f : Gate → Gate) : (s.setGate p f).mgmt = s.mgmt := rfl
@[simp] theorem State.setGate_out (p : Nat) (f : Gate → Gate) : (s.setGate p f).out = s.out := rfl
@[simp] theorem State.setGate_fresh (p : Nat) (f : Gate → Gate) : (s.setGate p f).fresh = s.fresh := rfl

/-! `setTenant` changes vault only. -/

@[simp] theorem State.setTenant_pending (t : Nat) (x : Tenant) : (s.setTenant t x).pending = s.pending := rfl
@[simp] theorem State.setTenant_clock (t : Nat) (x : Tenant) : (s.setTenant t x).clock = s.clock := rfl
@[simp] theorem State.setTenant_node (t : Nat) (x : Tenant) : (s.setTenant t x).node = s.node := rfl
@[simp] theorem State.setTenant_sync (t : Nat) (x : Tenant) : (s.setTenant t x).sync = s.sync := rfl
@[simp] theorem State.setTenant_pat (t : Nat) (x : Tenant) : (s.setTenant t x).pat = s.pat := rfl
@[simp] theorem State.setTenant_regs (t : Nat) (x : Tenant) : (s.setTenant t x).regs = s.regs := rfl
@[simp] theorem State.setTenant_mem (t : Nat) (x : Tenant) : (s.setTenant t x).mem = s.mem := rfl
@[simp] theorem State.setTenant_poison (t : Nat) (x : Tenant) : (s.setTenant t x).poison = s.poison := rfl
@[simp] theorem State.setTenant_stackUnits (t : Nat) (x : Tenant) : (s.setTenant t x).stackUnits = s.stackUnits := rfl
@[simp] theorem State.setTenant_arrays (t : Nat) (x : Tenant) : (s.setTenant t x).arrays = s.arrays := rfl
@[simp] theorem State.setTenant_cat (t : Nat) (x : Tenant) : (s.setTenant t x).cat = s.cat := rfl
@[simp] theorem State.setTenant_work (t : Nat) (x : Tenant) : (s.setTenant t x).work = s.work := rfl
@[simp] theorem State.setTenant_index (t : Nat) (x : Tenant) : (s.setTenant t x).index = s.index := rfl
@[simp] theorem State.setTenant_mover (t : Nat) (x : Tenant) : (s.setTenant t x).mover = s.mover := rfl
@[simp] theorem State.setTenant_ports (t : Nat) (x : Tenant) : (s.setTenant t x).ports = s.ports := rfl
@[simp] theorem State.setTenant_xport (t : Nat) (x : Tenant) : (s.setTenant t x).xport = s.xport := rfl
@[simp] theorem State.setTenant_tm (t : Nat) (x : Tenant) : (s.setTenant t x).tm = s.tm := rfl
@[simp] theorem State.setTenant_health (t : Nat) (x : Tenant) : (s.setTenant t x).health = s.health := rfl
@[simp] theorem State.setTenant_power (t : Nat) (x : Tenant) : (s.setTenant t x).power = s.power := rfl
@[simp] theorem State.setTenant_mgmt (t : Nat) (x : Tenant) : (s.setTenant t x).mgmt = s.mgmt := rfl
@[simp] theorem State.setTenant_out (t : Nat) (x : Tenant) : (s.setTenant t x).out = s.out := rfl
@[simp] theorem State.setTenant_fresh (t : Nat) (x : Tenant) : (s.setTenant t x).fresh = s.fresh := rfl

/-! `setSessions` changes vault only. -/

@[simp] theorem State.setSessions_pending (t : Tbl Session) : (s.setSessions t).pending = s.pending := rfl
@[simp] theorem State.setSessions_clock (t : Tbl Session) : (s.setSessions t).clock = s.clock := rfl
@[simp] theorem State.setSessions_node (t : Tbl Session) : (s.setSessions t).node = s.node := rfl
@[simp] theorem State.setSessions_sync (t : Tbl Session) : (s.setSessions t).sync = s.sync := rfl
@[simp] theorem State.setSessions_pat (t : Tbl Session) : (s.setSessions t).pat = s.pat := rfl
@[simp] theorem State.setSessions_regs (t : Tbl Session) : (s.setSessions t).regs = s.regs := rfl
@[simp] theorem State.setSessions_mem (t : Tbl Session) : (s.setSessions t).mem = s.mem := rfl
@[simp] theorem State.setSessions_poison (t : Tbl Session) : (s.setSessions t).poison = s.poison := rfl
@[simp] theorem State.setSessions_stackUnits (t : Tbl Session) : (s.setSessions t).stackUnits = s.stackUnits := rfl
@[simp] theorem State.setSessions_arrays (t : Tbl Session) : (s.setSessions t).arrays = s.arrays := rfl
@[simp] theorem State.setSessions_cat (t : Tbl Session) : (s.setSessions t).cat = s.cat := rfl
@[simp] theorem State.setSessions_work (t : Tbl Session) : (s.setSessions t).work = s.work := rfl
@[simp] theorem State.setSessions_index (t : Tbl Session) : (s.setSessions t).index = s.index := rfl
@[simp] theorem State.setSessions_mover (t : Tbl Session) : (s.setSessions t).mover = s.mover := rfl
@[simp] theorem State.setSessions_ports (t : Tbl Session) : (s.setSessions t).ports = s.ports := rfl
@[simp] theorem State.setSessions_xport (t : Tbl Session) : (s.setSessions t).xport = s.xport := rfl
@[simp] theorem State.setSessions_tm (t : Tbl Session) : (s.setSessions t).tm = s.tm := rfl
@[simp] theorem State.setSessions_health (t : Tbl Session) : (s.setSessions t).health = s.health := rfl
@[simp] theorem State.setSessions_power (t : Tbl Session) : (s.setSessions t).power = s.power := rfl
@[simp] theorem State.setSessions_mgmt (t : Tbl Session) : (s.setSessions t).mgmt = s.mgmt := rfl
@[simp] theorem State.setSessions_out (t : Tbl Session) : (s.setSessions t).out = s.out := rfl
@[simp] theorem State.setSessions_fresh (t : Tbl Session) : (s.setSessions t).fresh = s.fresh := rfl

/-! `undefer` changes vault only. -/

@[simp] theorem State.undefer_pending : (s.undefer).pending = s.pending := rfl
@[simp] theorem State.undefer_clock : (s.undefer).clock = s.clock := rfl
@[simp] theorem State.undefer_node : (s.undefer).node = s.node := rfl
@[simp] theorem State.undefer_sync : (s.undefer).sync = s.sync := rfl
@[simp] theorem State.undefer_pat : (s.undefer).pat = s.pat := rfl
@[simp] theorem State.undefer_regs : (s.undefer).regs = s.regs := rfl
@[simp] theorem State.undefer_mem : (s.undefer).mem = s.mem := rfl
@[simp] theorem State.undefer_poison : (s.undefer).poison = s.poison := rfl
@[simp] theorem State.undefer_stackUnits : (s.undefer).stackUnits = s.stackUnits := rfl
@[simp] theorem State.undefer_arrays : (s.undefer).arrays = s.arrays := rfl
@[simp] theorem State.undefer_cat : (s.undefer).cat = s.cat := rfl
@[simp] theorem State.undefer_work : (s.undefer).work = s.work := rfl
@[simp] theorem State.undefer_index : (s.undefer).index = s.index := rfl
@[simp] theorem State.undefer_mover : (s.undefer).mover = s.mover := rfl
@[simp] theorem State.undefer_ports : (s.undefer).ports = s.ports := rfl
@[simp] theorem State.undefer_xport : (s.undefer).xport = s.xport := rfl
@[simp] theorem State.undefer_tm : (s.undefer).tm = s.tm := rfl
@[simp] theorem State.undefer_health : (s.undefer).health = s.health := rfl
@[simp] theorem State.undefer_power : (s.undefer).power = s.power := rfl
@[simp] theorem State.undefer_mgmt : (s.undefer).mgmt = s.mgmt := rfl
@[simp] theorem State.undefer_out : (s.undefer).out = s.out := rfl
@[simp] theorem State.undefer_fresh : (s.undefer).fresh = s.fresh := rfl

/-! `queueFault` changes health only. -/

@[simp] theorem State.queueFault_pending : (s.queueFault).pending = s.pending := rfl
@[simp] theorem State.queueFault_clock : (s.queueFault).clock = s.clock := rfl
@[simp] theorem State.queueFault_node : (s.queueFault).node = s.node := rfl
@[simp] theorem State.queueFault_sync : (s.queueFault).sync = s.sync := rfl
@[simp] theorem State.queueFault_pat : (s.queueFault).pat = s.pat := rfl
@[simp] theorem State.queueFault_regs : (s.queueFault).regs = s.regs := rfl
@[simp] theorem State.queueFault_mem : (s.queueFault).mem = s.mem := rfl
@[simp] theorem State.queueFault_poison : (s.queueFault).poison = s.poison := rfl
@[simp] theorem State.queueFault_stackUnits : (s.queueFault).stackUnits = s.stackUnits := rfl
@[simp] theorem State.queueFault_arrays : (s.queueFault).arrays = s.arrays := rfl
@[simp] theorem State.queueFault_cat : (s.queueFault).cat = s.cat := rfl
@[simp] theorem State.queueFault_work : (s.queueFault).work = s.work := rfl
@[simp] theorem State.queueFault_index : (s.queueFault).index = s.index := rfl
@[simp] theorem State.queueFault_mover : (s.queueFault).mover = s.mover := rfl
@[simp] theorem State.queueFault_ports : (s.queueFault).ports = s.ports := rfl
@[simp] theorem State.queueFault_xport : (s.queueFault).xport = s.xport := rfl
@[simp] theorem State.queueFault_tm : (s.queueFault).tm = s.tm := rfl
@[simp] theorem State.queueFault_vault : (s.queueFault).vault = s.vault := rfl
@[simp] theorem State.queueFault_power : (s.queueFault).power = s.power := rfl
@[simp] theorem State.queueFault_mgmt : (s.queueFault).mgmt = s.mgmt := rfl
@[simp] theorem State.queueFault_out : (s.queueFault).out = s.out := rfl
@[simp] theorem State.queueFault_fresh : (s.queueFault).fresh = s.fresh := rfl

/-! `testSpare` changes arrays only. -/

@[simp] theorem State.testSpare_pending (x : SpareTarget) (row : Nat) : (s.testSpare x row).pending = s.pending := rfl
@[simp] theorem State.testSpare_clock (x : SpareTarget) (row : Nat) : (s.testSpare x row).clock = s.clock := rfl
@[simp] theorem State.testSpare_node (x : SpareTarget) (row : Nat) : (s.testSpare x row).node = s.node := rfl
@[simp] theorem State.testSpare_sync (x : SpareTarget) (row : Nat) : (s.testSpare x row).sync = s.sync := rfl
@[simp] theorem State.testSpare_pat (x : SpareTarget) (row : Nat) : (s.testSpare x row).pat = s.pat := rfl
@[simp] theorem State.testSpare_regs (x : SpareTarget) (row : Nat) : (s.testSpare x row).regs = s.regs := rfl
@[simp] theorem State.testSpare_mem (x : SpareTarget) (row : Nat) : (s.testSpare x row).mem = s.mem := rfl
@[simp] theorem State.testSpare_poison (x : SpareTarget) (row : Nat) : (s.testSpare x row).poison = s.poison := rfl
@[simp] theorem State.testSpare_stackUnits (x : SpareTarget) (row : Nat) : (s.testSpare x row).stackUnits = s.stackUnits := rfl
@[simp] theorem State.testSpare_cat (x : SpareTarget) (row : Nat) : (s.testSpare x row).cat = s.cat := rfl
@[simp] theorem State.testSpare_work (x : SpareTarget) (row : Nat) : (s.testSpare x row).work = s.work := rfl
@[simp] theorem State.testSpare_index (x : SpareTarget) (row : Nat) : (s.testSpare x row).index = s.index := rfl
@[simp] theorem State.testSpare_mover (x : SpareTarget) (row : Nat) : (s.testSpare x row).mover = s.mover := rfl
@[simp] theorem State.testSpare_ports (x : SpareTarget) (row : Nat) : (s.testSpare x row).ports = s.ports := rfl
@[simp] theorem State.testSpare_xport (x : SpareTarget) (row : Nat) : (s.testSpare x row).xport = s.xport := rfl
@[simp] theorem State.testSpare_tm (x : SpareTarget) (row : Nat) : (s.testSpare x row).tm = s.tm := rfl
@[simp] theorem State.testSpare_vault (x : SpareTarget) (row : Nat) : (s.testSpare x row).vault = s.vault := rfl
@[simp] theorem State.testSpare_health (x : SpareTarget) (row : Nat) : (s.testSpare x row).health = s.health := rfl
@[simp] theorem State.testSpare_power (x : SpareTarget) (row : Nat) : (s.testSpare x row).power = s.power := rfl
@[simp] theorem State.testSpare_mgmt (x : SpareTarget) (row : Nat) : (s.testSpare x row).mgmt = s.mgmt := rfl
@[simp] theorem State.testSpare_out (x : SpareTarget) (row : Nat) : (s.testSpare x row).out = s.out := rfl
@[simp] theorem State.testSpare_fresh (x : SpareTarget) (row : Nat) : (s.testSpare x row).fresh = s.fresh := rfl

/-! `useArray` changes arrays only. -/

@[simp] theorem State.useArray_pending (die : Nat) : (s.useArray die).pending = s.pending := rfl
@[simp] theorem State.useArray_clock (die : Nat) : (s.useArray die).clock = s.clock := rfl
@[simp] theorem State.useArray_node (die : Nat) : (s.useArray die).node = s.node := rfl
@[simp] theorem State.useArray_sync (die : Nat) : (s.useArray die).sync = s.sync := rfl
@[simp] theorem State.useArray_pat (die : Nat) : (s.useArray die).pat = s.pat := rfl
@[simp] theorem State.useArray_regs (die : Nat) : (s.useArray die).regs = s.regs := rfl
@[simp] theorem State.useArray_mem (die : Nat) : (s.useArray die).mem = s.mem := rfl
@[simp] theorem State.useArray_poison (die : Nat) : (s.useArray die).poison = s.poison := rfl
@[simp] theorem State.useArray_stackUnits (die : Nat) : (s.useArray die).stackUnits = s.stackUnits := rfl
@[simp] theorem State.useArray_cat (die : Nat) : (s.useArray die).cat = s.cat := rfl
@[simp] theorem State.useArray_work (die : Nat) : (s.useArray die).work = s.work := rfl
@[simp] theorem State.useArray_index (die : Nat) : (s.useArray die).index = s.index := rfl
@[simp] theorem State.useArray_mover (die : Nat) : (s.useArray die).mover = s.mover := rfl
@[simp] theorem State.useArray_ports (die : Nat) : (s.useArray die).ports = s.ports := rfl
@[simp] theorem State.useArray_xport (die : Nat) : (s.useArray die).xport = s.xport := rfl
@[simp] theorem State.useArray_tm (die : Nat) : (s.useArray die).tm = s.tm := rfl
@[simp] theorem State.useArray_vault (die : Nat) : (s.useArray die).vault = s.vault := rfl
@[simp] theorem State.useArray_health (die : Nat) : (s.useArray die).health = s.health := rfl
@[simp] theorem State.useArray_power (die : Nat) : (s.useArray die).power = s.power := rfl
@[simp] theorem State.useArray_mgmt (die : Nat) : (s.useArray die).mgmt = s.mgmt := rfl
@[simp] theorem State.useArray_out (die : Nat) : (s.useArray die).out = s.out := rfl
@[simp] theorem State.useArray_fresh (die : Nat) : (s.useArray die).fresh = s.fresh := rfl

/-! `setTile` changes arrays only. -/

@[simp] theorem State.setTile_pending (a : Nat) (f : Tile → Tile) : (s.setTile a f).pending = s.pending := rfl
@[simp] theorem State.setTile_clock (a : Nat) (f : Tile → Tile) : (s.setTile a f).clock = s.clock := rfl
@[simp] theorem State.setTile_node (a : Nat) (f : Tile → Tile) : (s.setTile a f).node = s.node := rfl
@[simp] theorem State.setTile_sync (a : Nat) (f : Tile → Tile) : (s.setTile a f).sync = s.sync := rfl
@[simp] theorem State.setTile_pat (a : Nat) (f : Tile → Tile) : (s.setTile a f).pat = s.pat := rfl
@[simp] theorem State.setTile_regs (a : Nat) (f : Tile → Tile) : (s.setTile a f).regs = s.regs := rfl
@[simp] theorem State.setTile_mem (a : Nat) (f : Tile → Tile) : (s.setTile a f).mem = s.mem := rfl
@[simp] theorem State.setTile_poison (a : Nat) (f : Tile → Tile) : (s.setTile a f).poison = s.poison := rfl
@[simp] theorem State.setTile_stackUnits (a : Nat) (f : Tile → Tile) : (s.setTile a f).stackUnits = s.stackUnits := rfl
@[simp] theorem State.setTile_cat (a : Nat) (f : Tile → Tile) : (s.setTile a f).cat = s.cat := rfl
@[simp] theorem State.setTile_work (a : Nat) (f : Tile → Tile) : (s.setTile a f).work = s.work := rfl
@[simp] theorem State.setTile_index (a : Nat) (f : Tile → Tile) : (s.setTile a f).index = s.index := rfl
@[simp] theorem State.setTile_mover (a : Nat) (f : Tile → Tile) : (s.setTile a f).mover = s.mover := rfl
@[simp] theorem State.setTile_ports (a : Nat) (f : Tile → Tile) : (s.setTile a f).ports = s.ports := rfl
@[simp] theorem State.setTile_xport (a : Nat) (f : Tile → Tile) : (s.setTile a f).xport = s.xport := rfl
@[simp] theorem State.setTile_tm (a : Nat) (f : Tile → Tile) : (s.setTile a f).tm = s.tm := rfl
@[simp] theorem State.setTile_vault (a : Nat) (f : Tile → Tile) : (s.setTile a f).vault = s.vault := rfl
@[simp] theorem State.setTile_health (a : Nat) (f : Tile → Tile) : (s.setTile a f).health = s.health := rfl
@[simp] theorem State.setTile_power (a : Nat) (f : Tile → Tile) : (s.setTile a f).power = s.power := rfl
@[simp] theorem State.setTile_mgmt (a : Nat) (f : Tile → Tile) : (s.setTile a f).mgmt = s.mgmt := rfl
@[simp] theorem State.setTile_out (a : Nat) (f : Tile → Tile) : (s.setTile a f).out = s.out := rfl
@[simp] theorem State.setTile_fresh (a : Nat) (f : Tile → Tile) : (s.setTile a f).fresh = s.fresh := rfl

/-! `clipVisits` changes work only. -/

@[simp] theorem State.clipVisits_pending (cards : List Nat) (valid : Nat) : (s.clipVisits cards valid).pending = s.pending := rfl
@[simp] theorem State.clipVisits_clock (cards : List Nat) (valid : Nat) : (s.clipVisits cards valid).clock = s.clock := rfl
@[simp] theorem State.clipVisits_node (cards : List Nat) (valid : Nat) : (s.clipVisits cards valid).node = s.node := rfl
@[simp] theorem State.clipVisits_sync (cards : List Nat) (valid : Nat) : (s.clipVisits cards valid).sync = s.sync := rfl
@[simp] theorem State.clipVisits_pat (cards : List Nat) (valid : Nat) : (s.clipVisits cards valid).pat = s.pat := rfl
@[simp] theorem State.clipVisits_regs (cards : List Nat) (valid : Nat) : (s.clipVisits cards valid).regs = s.regs := rfl
@[simp] theorem State.clipVisits_mem (cards : List Nat) (valid : Nat) : (s.clipVisits cards valid).mem = s.mem := rfl
@[simp] theorem State.clipVisits_poison (cards : List Nat) (valid : Nat) : (s.clipVisits cards valid).poison = s.poison := rfl
@[simp] theorem State.clipVisits_stackUnits (cards : List Nat) (valid : Nat) : (s.clipVisits cards valid).stackUnits = s.stackUnits := rfl
@[simp] theorem State.clipVisits_arrays (cards : List Nat) (valid : Nat) : (s.clipVisits cards valid).arrays = s.arrays := rfl
@[simp] theorem State.clipVisits_cat (cards : List Nat) (valid : Nat) : (s.clipVisits cards valid).cat = s.cat := rfl
@[simp] theorem State.clipVisits_index (cards : List Nat) (valid : Nat) : (s.clipVisits cards valid).index = s.index := rfl
@[simp] theorem State.clipVisits_mover (cards : List Nat) (valid : Nat) : (s.clipVisits cards valid).mover = s.mover := rfl
@[simp] theorem State.clipVisits_ports (cards : List Nat) (valid : Nat) : (s.clipVisits cards valid).ports = s.ports := rfl
@[simp] theorem State.clipVisits_xport (cards : List Nat) (valid : Nat) : (s.clipVisits cards valid).xport = s.xport := rfl
@[simp] theorem State.clipVisits_tm (cards : List Nat) (valid : Nat) : (s.clipVisits cards valid).tm = s.tm := rfl
@[simp] theorem State.clipVisits_vault (cards : List Nat) (valid : Nat) : (s.clipVisits cards valid).vault = s.vault := rfl
@[simp] theorem State.clipVisits_health (cards : List Nat) (valid : Nat) : (s.clipVisits cards valid).health = s.health := rfl
@[simp] theorem State.clipVisits_power (cards : List Nat) (valid : Nat) : (s.clipVisits cards valid).power = s.power := rfl
@[simp] theorem State.clipVisits_mgmt (cards : List Nat) (valid : Nat) : (s.clipVisits cards valid).mgmt = s.mgmt := rfl
@[simp] theorem State.clipVisits_out (cards : List Nat) (valid : Nat) : (s.clipVisits cards valid).out = s.out := rfl
@[simp] theorem State.clipVisits_fresh (cards : List Nat) (valid : Nat) : (s.clipVisits cards valid).fresh = s.fresh := rfl

/-! `setEntry` changes cat only. -/

@[simp] theorem State.setEntry_pending (key : Nat) (card : Option Nat) : (s.setEntry key card).pending = s.pending := rfl
@[simp] theorem State.setEntry_clock (key : Nat) (card : Option Nat) : (s.setEntry key card).clock = s.clock := rfl
@[simp] theorem State.setEntry_node (key : Nat) (card : Option Nat) : (s.setEntry key card).node = s.node := rfl
@[simp] theorem State.setEntry_sync (key : Nat) (card : Option Nat) : (s.setEntry key card).sync = s.sync := rfl
@[simp] theorem State.setEntry_pat (key : Nat) (card : Option Nat) : (s.setEntry key card).pat = s.pat := rfl
@[simp] theorem State.setEntry_regs (key : Nat) (card : Option Nat) : (s.setEntry key card).regs = s.regs := rfl
@[simp] theorem State.setEntry_mem (key : Nat) (card : Option Nat) : (s.setEntry key card).mem = s.mem := rfl
@[simp] theorem State.setEntry_poison (key : Nat) (card : Option Nat) : (s.setEntry key card).poison = s.poison := rfl
@[simp] theorem State.setEntry_stackUnits (key : Nat) (card : Option Nat) : (s.setEntry key card).stackUnits = s.stackUnits := rfl
@[simp] theorem State.setEntry_arrays (key : Nat) (card : Option Nat) : (s.setEntry key card).arrays = s.arrays := rfl
@[simp] theorem State.setEntry_work (key : Nat) (card : Option Nat) : (s.setEntry key card).work = s.work := rfl
@[simp] theorem State.setEntry_index (key : Nat) (card : Option Nat) : (s.setEntry key card).index = s.index := rfl
@[simp] theorem State.setEntry_mover (key : Nat) (card : Option Nat) : (s.setEntry key card).mover = s.mover := rfl
@[simp] theorem State.setEntry_ports (key : Nat) (card : Option Nat) : (s.setEntry key card).ports = s.ports := rfl
@[simp] theorem State.setEntry_xport (key : Nat) (card : Option Nat) : (s.setEntry key card).xport = s.xport := rfl
@[simp] theorem State.setEntry_tm (key : Nat) (card : Option Nat) : (s.setEntry key card).tm = s.tm := rfl
@[simp] theorem State.setEntry_vault (key : Nat) (card : Option Nat) : (s.setEntry key card).vault = s.vault := rfl
@[simp] theorem State.setEntry_health (key : Nat) (card : Option Nat) : (s.setEntry key card).health = s.health := rfl
@[simp] theorem State.setEntry_power (key : Nat) (card : Option Nat) : (s.setEntry key card).power = s.power := rfl
@[simp] theorem State.setEntry_mgmt (key : Nat) (card : Option Nat) : (s.setEntry key card).mgmt = s.mgmt := rfl
@[simp] theorem State.setEntry_out (key : Nat) (card : Option Nat) : (s.setEntry key card).out = s.out := rfl
@[simp] theorem State.setEntry_fresh (key : Nat) (card : Option Nat) : (s.setEntry key card).fresh = s.fresh := rfl

/-! What the updates write. -/

@[simp] theorem State.tick_clock (ns : Nat) : (s.tick ns).clock = { s.clock with ns := ns } := rfl
@[simp] theorem State.sendAside_out (m : Sent) : (s.sendAside m).out = s.out ++ [m] := rfl
@[simp] theorem State.store_mem (a : Nat) (bs : List Byte) : (s.store a bs).mem = Mem.write s.mem a bs := rfl
@[simp] theorem State.zero_mem (lo hi : Nat) : (s.zero lo hi).mem = Mem.clear s.mem lo hi := rfl
@[simp] theorem State.poisonLine_poison (l : Nat) : (s.poisonLine l).poison = addNum s.poison l := rfl
@[simp] theorem State.writeLine_mem (l : Nat) (cells : List Host.Cell) : (s.writeLine l cells).mem =
    cells.foldl (fun m c => Mem.set m c.1 c.2) s.mem := rfl
@[simp] theorem State.setConn_xport (k : Nat) (f : Conn → Conn) : (s.setConn k f).xport =
    { s.xport with conns := Tbl.modify s.xport.conns k f } := rfl
@[simp] theorem State.deliver_xport (k : Nat) (m : List Byte) : (s.deliver k m).xport =
    { s.xport with inbox := s.xport.inbox ++ [(k, m)] } := rfl
@[simp] theorem State.enter_work (c : Cmd) : (s.enter c).work =
    { s.work with cmds := Tbl.set s.work.cmds s.work.next c, next := s.work.next + 1 } := rfl
@[simp] theorem State.setCmd_work (n : Nat) (f : Cmd → Cmd) : (s.setCmd n f).work =
    { s.work with cmds := Tbl.modify s.work.cmds n f } := rfl
@[simp] theorem State.serves_work (unit : Nat) (cmds : List Nat) : (s.serves unit cmds).work =
    { s.work with served := cmds.map (fun n => (unit, n)) ++ s.work.served } := rfl
@[simp] theorem State.addItem_work (k : Nat) (x : Item) : (s.addItem k x).work =
    { s.work with items := Tbl.set s.work.items k x } := rfl
@[simp] theorem State.setItems_work (f : Nat → Item → Item) : (s.setItems f).work =
    { s.work with items := Tbl.mapVals s.work.items f } := rfl
@[simp] theorem State.setJob_work (n : Nat) (f : AppendJob → AppendJob) : (s.setJob n f).work =
    { s.work with appends := s.work.appends.map fun b => if b.cmd = n then f b else b } := rfl
@[simp] theorem State.setTile_arrays (a : Nat) (f : Tile → Tile) : (s.setTile a f).arrays =
    { s.arrays with running := s.arrays.running.map fun t => if t.array = a then f t else t } := rfl
@[simp] theorem State.inShadow_cat (f : Shadow → Shadow) : (s.inShadow f).cat =
    { s.cat with shadow := s.cat.shadow.map f } := rfl
@[simp] theorem State.setSeq_cat (slot : Nat) (q : Seq) : (s.setSeq slot q).cat =
    { s.cat with seqs := Tbl.set s.cat.seqs slot q } := rfl
@[simp] theorem State.setCard_cat (n : Nat) (f : Card → Card) : (s.setCard n f).cat =
    { s.cat with cards := Tbl.modify s.cat.cards n f } := rfl
@[simp] theorem State.release_cat (r : Released) : (s.release r).cat = { s.cat with releasing := s.cat.releasing ++ [r] } := rfl
@[simp] theorem State.returnPages_cat (ps : List Nat) : (s.returnPages ps).cat =
    { s.cat with pages := s.cat.pages.filter fun p => !ps.contains p } := rfl
@[simp] theorem State.setStack_stackUnits (t : Nat) (f : Stack → Stack) : (s.setStack t f).stackUnits =
    setAt s.stackUnits t f := rfl
@[simp] theorem State.queueMove_mover (m : Move) : (s.queueMove m).mover =
    { s.mover with moves := Tbl.set s.mover.moves s.mover.next m, next := s.mover.next + 1 } := rfl
@[simp] theorem State.setMove_mover (n : Nat) (f : Move → Move) : (s.setMove n f).mover =
    { s.mover with moves := Tbl.modify s.mover.moves n f } := rfl
@[simp] theorem State.setPort_ports (p : Nat) (f : Port → Port) : (s.setPort p f).ports = setAt s.ports p f := rfl
@[simp] theorem State.setGate_tm (p : Nat) (f : Gate → Gate) : (s.setGate p f).tm =
    { s.tm with gates := setAt s.tm.gates p f } := rfl
@[simp] theorem State.setTenant_vault (t : Nat) (x : Tenant) : (s.setTenant t x).vault =
    { s.vault with tenants := Tbl.set s.vault.tenants t x } := rfl
@[simp] theorem State.setSessions_vault (t : Tbl Session) : (s.setSessions t).vault = { s.vault with sessions := t } := rfl
@[simp] theorem State.undefer_vault : (s.undefer).vault = { s.vault with deferred := none } := rfl
@[simp] theorem State.queueFault_health : (s.queueFault).health = { s.health with faults := s.health.faults ++ [s.row] } := rfl
@[simp] theorem State.testSpare_arrays (x : SpareTarget) (row : Nat) : (s.testSpare x row).arrays =
    { s.arrays with testing := s.arrays.testing ++ [(x, row)] } := rfl

end Sys2Proof.Machine
end

