-- ==== Sys2Proof/Laws/Outputs.lean ====
section
/-! SUPPORT. Sending, recording and sampling: all they can change is the output, registers, the event ring, the free-value
counter, the packets queued for it and the events posted in the row. -/

namespace Sys2Proof.Machine

/-- `t` is `s` but for what sending, recording and sampling write. -/
structure OnlyOut (s t : State) : Prop where
  pending : t.pending = s.pending
  clock : t.clock = s.clock
  node : t.node = s.node
  sync : t.sync = s.sync
  pat : t.pat = s.pat
  mem : t.mem = s.mem
  poison : t.poison = s.poison
  stackUnits : t.stackUnits = s.stackUnits
  arrays : t.arrays = s.arrays
  cat : { t.cat with posted := [] } = { s.cat with posted := [] }
  work : t.work = s.work
  index : t.index = s.index
  mover : t.mover = s.mover
  ports : t.ports = s.ports
  keys : t.xport.keys = s.xport.keys
  inbox : t.xport.inbox = s.xport.inbox
  gates : t.tm.gates = s.tm.gates
  vault : t.vault = s.vault
  health : t.health = s.health
  power : t.power = s.power

namespace OnlyOut

theorem refl (s : State) : OnlyOut s s := by constructor <;> rfl

theorem trans {s t u : State} (a : OnlyOut s t) (b : OnlyOut t u) : OnlyOut s u := by
  constructor
  · rw [b.pending, a.pending]
  · rw [b.clock, a.clock]
  · rw [b.node, a.node]
  · rw [b.sync, a.sync]
  · rw [b.pat, a.pat]
  · rw [b.mem, a.mem]
  · rw [b.poison, a.poison]
  · rw [b.stackUnits, a.stackUnits]
  · rw [b.arrays, a.arrays]
  · rw [b.cat, a.cat]
  · rw [b.work, a.work]
  · rw [b.index, a.index]
  · rw [b.mover, a.mover]
  · rw [b.ports, a.ports]
  · rw [b.keys, a.keys]
  · rw [b.inbox, a.inbox]
  · rw [b.gates, a.gates]
  · rw [b.vault, a.vault]
  · rw [b.health, a.health]
  · rw [b.power, a.power]

/-- A fold of such steps is one. -/
theorem foldl {α : Type} (f : State → α → State) (h : ∀ s x, OnlyOut s (f s x)) (l : List α) (s : State) :
    OnlyOut s (l.foldl f s) := by
  induction l generalizing s with
  | nil => exact refl s
  | cons x l ih => exact (h s x).trans (ih _)

/-! ## Registers -/

theorem setStored (s : State) (b o : Nat) (w : Word) : OnlyOut s (s.setStored b o w) := by constructor <;> rfl

theorem setFld (s : State) (f : Field) (v : Nat) : OnlyOut s (s.setFld f v) := setStored _ _ _ _

theorem count (s : State) (f : Field) (n : Nat) : OnlyOut s (s.count f n) := setFld _ _ _

theorem raise (s : State) (f : Field) (v : Nat) : OnlyOut s (s.raise f v) := setFld _ _ _

theorem mark (s : State) (b bit : Nat) : OnlyOut s (s.mark b bit) := (setFld _ _ _).trans (count _ _ _)

theorem markAccess (s : State) (b bit o : Nat) : OnlyOut s (s.markAccess b bit o) := (mark _ _ _).trans (setFld _ _ _)

theorem ite {s t u : State} {c : Prop} [Decidable c] (a : OnlyOut s t) (b : OnlyOut s u) : OnlyOut s (if c then t else u) := by
  split
  · exact a
  · exact b

theorem sampleInto (s : State) (k : Nat) (v : Int) : OnlyOut s (s.sampleInto k v) := by
  unfold State.sampleInto
  exact (((ite (setFld _ _ _) (refl s)).trans (ite (setFld _ _ _) (refl _))).trans (count _ _ _)).trans (count _ _ _)

theorem sample (s : State) (source : Nat) (inst : List Nat) (v : Int) : OnlyOut s (s.sample source inst v) :=
  foldl _ (fun s k => ite (sampleInto s k v) (refl s)) _ s

/-! ## Packets -/

theorem free (s : State) : OnlyOut s s.free.2 := by constructor <;> rfl

theorem choose (s : State) (m : Nat) (ok : Nat → Bool) : OnlyOut s (s.choose m ok).2 := by constructor <;> rfl

theorem pickPath (s : State) (entry : Nat) (avoid : Option Nat) : OnlyOut s (s.pickPath entry avoid).2 := by
  unfold State.pickPath
  dsimp only
  split
  · exact refl s
  · constructor <;> rfl

theorem enqueue (s : State) (h : TxHeader) (front : Bool) : OnlyOut s (s.enqueue h front) := by constructor <;> rfl

theorem setUnacked (s : State) (k psn : Nat) (f : Unacked → Unacked) : OnlyOut s (s.setUnacked k psn f) := by
  constructor <;> rfl

theorem datagram (s : State) (x : TxHeader) : OnlyOut s (s.datagram x) := by
  have h := pickPath s (s.entryOf x.dstNode x.dstDomain) none
  unfold State.datagram
  dsimp only
  split
  · rename_i e
    rw [e] at h
    exact h.trans (enqueue _ _ _)
  · rename_i e
    rw [e] at h
    exact h

theorem dispatch (s : State) (u : Unacked) (avoid : Option Nat) (front : Bool) : OnlyOut s (s.dispatch u avoid front) := by
  have h := pickPath s u.entry avoid
  unfold State.dispatch
  split
  · rename_i e
    rw [e] at h
    exact (h.trans (setUnacked _ _ _ _)).trans (enqueue _ _ _)
  · rename_i e _
    rw [e] at h
    exact h.trans (setUnacked _ _ _ _)

theorem pump (s : State) (k : Nat) : OnlyOut s (s.pump k) :=
  foldl _ (fun s u => ite (dispatch s u none false) (refl s)) _ s

theorem packets (s : State) (k kind tc n : Nat) : OnlyOut s (s.packets k kind tc n) := by
  unfold State.packets
  split
  · exact refl s
  · refine trans ?_ (pump _ _)
    constructor <;> rfl

theorem packetsOn (s : State) (p : Nat → Conn → Bool) (kind tc n : Nat) : OnlyOut s (s.packetsOn p kind tc n) := by
  unfold State.packetsOn
  split
  · exact packets _ _ _ _ _
  · exact refl s

theorem wire (s : State) (m : Sent) : OnlyOut s (s.wire m) := by
  unfold State.wire
  split <;> first
    | exact packetsOn _ _ _ _ _
    | exact packets _ _ _ _ _
    | exact datagram _ _
    | exact refl s
    | (split <;> first | exact datagram _ _ | exact packetsOn _ _ _ _ _ | exact refl s)

/-! ## Messages and events -/

theorem sendAside (s : State) (m : Sent) : OnlyOut s (s.sendAside m) := by constructor <;> rfl

theorem send (s : State) (m : Sent) : OnlyOut s (s.send m) := by
  unfold State.send
  exact ite ((sendAside s m).trans (wire _ m)) (refl s)

theorem ring (s : State) (e : Event) : OnlyOut s (s.ring e) := by
  unfold State.ring
  refine ite (trans (trans (trans ?_ (setFld _ _ _)) ((setFld _ _ _).trans (count _ _ _))) (mark _ _ _)) (trans ?_ (setFld _ _ _))
  · constructor <;> rfl
  · constructor <;> rfl

theorem postFm (s : State) (e : Event) : OnlyOut s (s.postFm e) :=
  (ring s e).trans (foldl _ (fun s _ => send s _) _ _)

theorem postTo (s : State) (qp node : Nat) (e : Event) : OnlyOut s (s.postTo qp node e) := (ring s e).trans (send _ _)

theorem postTenant (s : State) (tenant : Nat) (e : Event) : OnlyOut s (s.postTenant tenant e) := by
  refine (ring s e).trans (foldl _ (fun s a => ite (refl s) (trans ?_ (send _ _))) _ _)
  constructor <;> rfl

theorem reply (s : State) (op : Nat) (h : Head) (o : Outcome) : OnlyOut s (s.reply op h o) := by
  unfold State.reply
  split
  · exact refl s
  · exact ((free s).trans (sample _ _ _ _)).trans (send _ _)

theorem dropWaiting (s : State) (f : Head → Outcome) (ws : List Waiting) : OnlyOut s (s.dropWaiting f ws) := by
  refine foldl _ (fun s w => ?_) _ _
  split
  · exact reply _ _ _ _
  · exact refl s

end OnlyOut

variable (s : State)

@[simp] theorem State.wire_pending (m : Sent) : (s.wire m).pending = s.pending := (OnlyOut.wire s _).pending
@[simp] theorem State.wire_clock (m : Sent) : (s.wire m).clock = s.clock := (OnlyOut.wire s _).clock
@[simp] theorem State.wire_node (m : Sent) : (s.wire m).node = s.node := (OnlyOut.wire s _).node
@[simp] theorem State.wire_sync (m : Sent) : (s.wire m).sync = s.sync := (OnlyOut.wire s _).sync
@[simp] theorem State.wire_pat (m : Sent) : (s.wire m).pat = s.pat := (OnlyOut.wire s _).pat
@[simp] theorem State.wire_mem (m : Sent) : (s.wire m).mem = s.mem := (OnlyOut.wire s _).mem
@[simp] theorem State.wire_poison (m : Sent) : (s.wire m).poison = s.poison := (OnlyOut.wire s _).poison
@[simp] theorem State.wire_stackUnits (m : Sent) : (s.wire m).stackUnits = s.stackUnits := (OnlyOut.wire s _).stackUnits
@[simp] theorem State.wire_arrays (m : Sent) : (s.wire m).arrays = s.arrays := (OnlyOut.wire s _).arrays
@[simp] theorem State.wire_work (m : Sent) : (s.wire m).work = s.work := (OnlyOut.wire s _).work
@[simp] theorem State.wire_index (m : Sent) : (s.wire m).index = s.index := (OnlyOut.wire s _).index
@[simp] theorem State.wire_mover (m : Sent) : (s.wire m).mover = s.mover := (OnlyOut.wire s _).mover
@[simp] theorem State.wire_ports (m : Sent) : (s.wire m).ports = s.ports := (OnlyOut.wire s _).ports
@[simp] theorem State.wire_vault (m : Sent) : (s.wire m).vault = s.vault := (OnlyOut.wire s _).vault
@[simp] theorem State.wire_health (m : Sent) : (s.wire m).health = s.health := (OnlyOut.wire s _).health
@[simp] theorem State.wire_power (m : Sent) : (s.wire m).power = s.power := (OnlyOut.wire s _).power

@[simp] theorem State.send_pending (m : Sent) : (s.send m).pending = s.pending := (OnlyOut.send s _).pending
@[simp] theorem State.send_clock (m : Sent) : (s.send m).clock = s.clock := (OnlyOut.send s _).clock
@[simp] theorem State.send_node (m : Sent) : (s.send m).node = s.node := (OnlyOut.send s _).node
@[simp] theorem State.send_sync (m : Sent) : (s.send m).sync = s.sync := (OnlyOut.send s _).sync
@[simp] theorem State.send_pat (m : Sent) : (s.send m).pat = s.pat := (OnlyOut.send s _).pat
@[simp] theorem State.send_mem (m : Sent) : (s.send m).mem = s.mem := (OnlyOut.send s _).mem
@[simp] theorem State.send_poison (m : Sent) : (s.send m).poison = s.poison := (OnlyOut.send s _).poison
@[simp] theorem State.send_stackUnits (m : Sent) : (s.send m).stackUnits = s.stackUnits := (OnlyOut.send s _).stackUnits
@[simp] theorem State.send_arrays (m : Sent) : (s.send m).arrays = s.arrays := (OnlyOut.send s _).arrays
@[simp] theorem State.send_work (m : Sent) : (s.send m).work = s.work := (OnlyOut.send s _).work
@[simp] theorem State.send_index (m : Sent) : (s.send m).index = s.index := (OnlyOut.send s _).index
@[simp] theorem State.send_mover (m : Sent) : (s.send m).mover = s.mover := (OnlyOut.send s _).mover
@[simp] theorem State.send_ports (m : Sent) : (s.send m).ports = s.ports := (OnlyOut.send s _).ports
@[simp] theorem State.send_vault (m : Sent) : (s.send m).vault = s.vault := (OnlyOut.send s _).vault
@[simp] theorem State.send_health (m : Sent) : (s.send m).health = s.health := (OnlyOut.send s _).health
@[simp] theorem State.send_power (m : Sent) : (s.send m).power = s.power := (OnlyOut.send s _).power

@[simp] theorem State.ring_pending (e : Event) : (s.ring e).pending = s.pending := (OnlyOut.ring s _).pending
@[simp] theorem State.ring_clock (e : Event) : (s.ring e).clock = s.clock := (OnlyOut.ring s _).clock
@[simp] theorem State.ring_node (e : Event) : (s.ring e).node = s.node := (OnlyOut.ring s _).node
@[simp] theorem State.ring_sync (e : Event) : (s.ring e).sync = s.sync := (OnlyOut.ring s _).sync
@[simp] theorem State.ring_pat (e : Event) : (s.ring e).pat = s.pat := (OnlyOut.ring s _).pat
@[simp] theorem State.ring_mem (e : Event) : (s.ring e).mem = s.mem := (OnlyOut.ring s _).mem
@[simp] theorem State.ring_poison (e : Event) : (s.ring e).poison = s.poison := (OnlyOut.ring s _).poison
@[simp] theorem State.ring_stackUnits (e : Event) : (s.ring e).stackUnits = s.stackUnits := (OnlyOut.ring s _).stackUnits
@[simp] theorem State.ring_arrays (e : Event) : (s.ring e).arrays = s.arrays := (OnlyOut.ring s _).arrays
@[simp] theorem State.ring_work (e : Event) : (s.ring e).work = s.work := (OnlyOut.ring s _).work
@[simp] theorem State.ring_index (e : Event) : (s.ring e).index = s.index := (OnlyOut.ring s _).index
@[simp] theorem State.ring_mover (e : Event) : (s.ring e).mover = s.mover := (OnlyOut.ring s _).mover
@[simp] theorem State.ring_ports (e : Event) : (s.ring e).ports = s.ports := (OnlyOut.ring s _).ports
@[simp] theorem State.ring_vault (e : Event) : (s.ring e).vault = s.vault := (OnlyOut.ring s _).vault
@[simp] theorem State.ring_health (e : Event) : (s.ring e).health = s.health := (OnlyOut.ring s _).health
@[simp] theorem State.ring_power (e : Event) : (s.ring e).power = s.power := (OnlyOut.ring s _).power

@[simp] theorem State.postFm_pending (e : Event) : (s.postFm e).pending = s.pending := (OnlyOut.postFm s _).pending
@[simp] theorem State.postFm_clock (e : Event) : (s.postFm e).clock = s.clock := (OnlyOut.postFm s _).clock
@[simp] theorem State.postFm_node (e : Event) : (s.postFm e).node = s.node := (OnlyOut.postFm s _).node
@[simp] theorem State.postFm_sync (e : Event) : (s.postFm e).sync = s.sync := (OnlyOut.postFm s _).sync
@[simp] theorem State.postFm_pat (e : Event) : (s.postFm e).pat = s.pat := (OnlyOut.postFm s _).pat
@[simp] theorem State.postFm_mem (e : Event) : (s.postFm e).mem = s.mem := (OnlyOut.postFm s _).mem
@[simp] theorem State.postFm_poison (e : Event) : (s.postFm e).poison = s.poison := (OnlyOut.postFm s _).poison
@[simp] theorem State.postFm_stackUnits (e : Event) : (s.postFm e).stackUnits = s.stackUnits := (OnlyOut.postFm s _).stackUnits
@[simp] theorem State.postFm_arrays (e : Event) : (s.postFm e).arrays = s.arrays := (OnlyOut.postFm s _).arrays
@[simp] theorem State.postFm_work (e : Event) : (s.postFm e).work = s.work := (OnlyOut.postFm s _).work
@[simp] theorem State.postFm_index (e : Event) : (s.postFm e).index = s.index := (OnlyOut.postFm s _).index
@[simp] theorem State.postFm_mover (e : Event) : (s.postFm e).mover = s.mover := (OnlyOut.postFm s _).mover
@[simp] theorem State.postFm_ports (e : Event) : (s.postFm e).ports = s.ports := (OnlyOut.postFm s _).ports
@[simp] theorem State.postFm_vault (e : Event) : (s.postFm e).vault = s.vault := (OnlyOut.postFm s _).vault
@[simp] theorem State.postFm_health (e : Event) : (s.postFm e).health = s.health := (OnlyOut.postFm s _).health
@[simp] theorem State.postFm_power (e : Event) : (s.postFm e).power = s.power := (OnlyOut.postFm s _).power

@[simp] theorem State.postTo_pending (qp n : Nat) (e : Event) : (s.postTo qp n e).pending = s.pending := (OnlyOut.postTo s _ _ _).pending
@[simp] theorem State.postTo_clock (qp n : Nat) (e : Event) : (s.postTo qp n e).clock = s.clock := (OnlyOut.postTo s _ _ _).clock
@[simp] theorem State.postTo_node (qp n : Nat) (e : Event) : (s.postTo qp n e).node = s.node := (OnlyOut.postTo s _ _ _).node
@[simp] theorem State.postTo_sync (qp n : Nat) (e : Event) : (s.postTo qp n e).sync = s.sync := (OnlyOut.postTo s _ _ _).sync
@[simp] theorem State.postTo_pat (qp n : Nat) (e : Event) : (s.postTo qp n e).pat = s.pat := (OnlyOut.postTo s _ _ _).pat
@[simp] theorem State.postTo_mem (qp n : Nat) (e : Event) : (s.postTo qp n e).mem = s.mem := (OnlyOut.postTo s _ _ _).mem
@[simp] theorem State.postTo_poison (qp n : Nat) (e : Event) : (s.postTo qp n e).poison = s.poison := (OnlyOut.postTo s _ _ _).poison
@[simp] theorem State.postTo_stackUnits (qp n : Nat) (e : Event) : (s.postTo qp n e).stackUnits = s.stackUnits := (OnlyOut.postTo s _ _ _).stackUnits
@[simp] theorem State.postTo_arrays (qp n : Nat) (e : Event) : (s.postTo qp n e).arrays = s.arrays := (OnlyOut.postTo s _ _ _).arrays
@[simp] theorem State.postTo_work (qp n : Nat) (e : Event) : (s.postTo qp n e).work = s.work := (OnlyOut.postTo s _ _ _).work
@[simp] theorem State.postTo_index (qp n : Nat) (e : Event) : (s.postTo qp n e).index = s.index := (OnlyOut.postTo s _ _ _).index
@[simp] theorem State.postTo_mover (qp n : Nat) (e : Event) : (s.postTo qp n e).mover = s.mover := (OnlyOut.postTo s _ _ _).mover
@[simp] theorem State.postTo_ports (qp n : Nat) (e : Event) : (s.postTo qp n e).ports = s.ports := (OnlyOut.postTo s _ _ _).ports
@[simp] theorem State.postTo_vault (qp n : Nat) (e : Event) : (s.postTo qp n e).vault = s.vault := (OnlyOut.postTo s _ _ _).vault
@[simp] theorem State.postTo_health (qp n : Nat) (e : Event) : (s.postTo qp n e).health = s.health := (OnlyOut.postTo s _ _ _).health
@[simp] theorem State.postTo_power (qp n : Nat) (e : Event) : (s.postTo qp n e).power = s.power := (OnlyOut.postTo s _ _ _).power

@[simp] theorem State.postTenant_pending (n : Nat) (e : Event) : (s.postTenant n e).pending = s.pending := (OnlyOut.postTenant s _ _).pending
@[simp] theorem State.postTenant_clock (n : Nat) (e : Event) : (s.postTenant n e).clock = s.clock := (OnlyOut.postTenant s _ _).clock
@[simp] theorem State.postTenant_node (n : Nat) (e : Event) : (s.postTenant n e).node = s.node := (OnlyOut.postTenant s _ _).node
@[simp] theorem State.postTenant_sync (n : Nat) (e : Event) : (s.postTenant n e).sync = s.sync := (OnlyOut.postTenant s _ _).sync
@[simp] theorem State.postTenant_pat (n : Nat) (e : Event) : (s.postTenant n e).pat = s.pat := (OnlyOut.postTenant s _ _).pat
@[simp] theorem State.postTenant_mem (n : Nat) (e : Event) : (s.postTenant n e).mem = s.mem := (OnlyOut.postTenant s _ _).mem
@[simp] theorem State.postTenant_poison (n : Nat) (e : Event) : (s.postTenant n e).poison = s.poison := (OnlyOut.postTenant s _ _).poison
@[simp] theorem State.postTenant_stackUnits (n : Nat) (e : Event) : (s.postTenant n e).stackUnits = s.stackUnits := (OnlyOut.postTenant s _ _).stackUnits
@[simp] theorem State.postTenant_arrays (n : Nat) (e : Event) : (s.postTenant n e).arrays = s.arrays := (OnlyOut.postTenant s _ _).arrays
@[simp] theorem State.postTenant_work (n : Nat) (e : Event) : (s.postTenant n e).work = s.work := (OnlyOut.postTenant s _ _).work
@[simp] theorem State.postTenant_index (n : Nat) (e : Event) : (s.postTenant n e).index = s.index := (OnlyOut.postTenant s _ _).index
@[simp] theorem State.postTenant_mover (n : Nat) (e : Event) : (s.postTenant n e).mover = s.mover := (OnlyOut.postTenant s _ _).mover
@[simp] theorem State.postTenant_ports (n : Nat) (e : Event) : (s.postTenant n e).ports = s.ports := (OnlyOut.postTenant s _ _).ports
@[simp] theorem State.postTenant_vault (n : Nat) (e : Event) : (s.postTenant n e).vault = s.vault := (OnlyOut.postTenant s _ _).vault
@[simp] theorem State.postTenant_health (n : Nat) (e : Event) : (s.postTenant n e).health = s.health := (OnlyOut.postTenant s _ _).health
@[simp] theorem State.postTenant_power (n : Nat) (e : Event) : (s.postTenant n e).power = s.power := (OnlyOut.postTenant s _ _).power

@[simp] theorem State.sample_pending (k : Nat) (l : List Nat) (v : Int) : (s.sample k l v).pending = s.pending := (OnlyOut.sample s _ _ _).pending
@[simp] theorem State.sample_clock (k : Nat) (l : List Nat) (v : Int) : (s.sample k l v).clock = s.clock := (OnlyOut.sample s _ _ _).clock
@[simp] theorem State.sample_node (k : Nat) (l : List Nat) (v : Int) : (s.sample k l v).node = s.node := (OnlyOut.sample s _ _ _).node
@[simp] theorem State.sample_sync (k : Nat) (l : List Nat) (v : Int) : (s.sample k l v).sync = s.sync := (OnlyOut.sample s _ _ _).sync
@[simp] theorem State.sample_pat (k : Nat) (l : List Nat) (v : Int) : (s.sample k l v).pat = s.pat := (OnlyOut.sample s _ _ _).pat
@[simp] theorem State.sample_mem (k : Nat) (l : List Nat) (v : Int) : (s.sample k l v).mem = s.mem := (OnlyOut.sample s _ _ _).mem
@[simp] theorem State.sample_poison (k : Nat) (l : List Nat) (v : Int) : (s.sample k l v).poison = s.poison := (OnlyOut.sample s _ _ _).poison
@[simp] theorem State.sample_stackUnits (k : Nat) (l : List Nat) (v : Int) : (s.sample k l v).stackUnits = s.stackUnits := (OnlyOut.sample s _ _ _).stackUnits
@[simp] theorem State.sample_arrays (k : Nat) (l : List Nat) (v : Int) : (s.sample k l v).arrays = s.arrays := (OnlyOut.sample s _ _ _).arrays
@[simp] theorem State.sample_work (k : Nat) (l : List Nat) (v : Int) : (s.sample k l v).work = s.work := (OnlyOut.sample s _ _ _).work
@[simp] theorem State.sample_index (k : Nat) (l : List Nat) (v : Int) : (s.sample k l v).index = s.index := (OnlyOut.sample s _ _ _).index
@[simp] theorem State.sample_mover (k : Nat) (l : List Nat) (v : Int) : (s.sample k l v).mover = s.mover := (OnlyOut.sample s _ _ _).mover
@[simp] theorem State.sample_ports (k : Nat) (l : List Nat) (v : Int) : (s.sample k l v).ports = s.ports := (OnlyOut.sample s _ _ _).ports
@[simp] theorem State.sample_vault (k : Nat) (l : List Nat) (v : Int) : (s.sample k l v).vault = s.vault := (OnlyOut.sample s _ _ _).vault
@[simp] theorem State.sample_health (k : Nat) (l : List Nat) (v : Int) : (s.sample k l v).health = s.health := (OnlyOut.sample s _ _ _).health
@[simp] theorem State.sample_power (k : Nat) (l : List Nat) (v : Int) : (s.sample k l v).power = s.power := (OnlyOut.sample s _ _ _).power

@[simp] theorem State.reply_pending (op : Nat) (h : Head) (o : Outcome) : (s.reply op h o).pending = s.pending := (OnlyOut.reply s _ _ _).pending
@[simp] theorem State.reply_clock (op : Nat) (h : Head) (o : Outcome) : (s.reply op h o).clock = s.clock := (OnlyOut.reply s _ _ _).clock
@[simp] theorem State.reply_node (op : Nat) (h : Head) (o : Outcome) : (s.reply op h o).node = s.node := (OnlyOut.reply s _ _ _).node
@[simp] theorem State.reply_sync (op : Nat) (h : Head) (o : Outcome) : (s.reply op h o).sync = s.sync := (OnlyOut.reply s _ _ _).sync
@[simp] theorem State.reply_pat (op : Nat) (h : Head) (o : Outcome) : (s.reply op h o).pat = s.pat := (OnlyOut.reply s _ _ _).pat
@[simp] theorem State.reply_mem (op : Nat) (h : Head) (o : Outcome) : (s.reply op h o).mem = s.mem := (OnlyOut.reply s _ _ _).mem
@[simp] theorem State.reply_poison (op : Nat) (h : Head) (o : Outcome) : (s.reply op h o).poison = s.poison := (OnlyOut.reply s _ _ _).poison
@[simp] theorem State.reply_stackUnits (op : Nat) (h : Head) (o : Outcome) : (s.reply op h o).stackUnits = s.stackUnits := (OnlyOut.reply s _ _ _).stackUnits
@[simp] theorem State.reply_arrays (op : Nat) (h : Head) (o : Outcome) : (s.reply op h o).arrays = s.arrays := (OnlyOut.reply s _ _ _).arrays
@[simp] theorem State.reply_work (op : Nat) (h : Head) (o : Outcome) : (s.reply op h o).work = s.work := (OnlyOut.reply s _ _ _).work
@[simp] theorem State.reply_index (op : Nat) (h : Head) (o : Outcome) : (s.reply op h o).index = s.index := (OnlyOut.reply s _ _ _).index
@[simp] theorem State.reply_mover (op : Nat) (h : Head) (o : Outcome) : (s.reply op h o).mover = s.mover := (OnlyOut.reply s _ _ _).mover
@[simp] theorem State.reply_ports (op : Nat) (h : Head) (o : Outcome) : (s.reply op h o).ports = s.ports := (OnlyOut.reply s _ _ _).ports
@[simp] theorem State.reply_vault (op : Nat) (h : Head) (o : Outcome) : (s.reply op h o).vault = s.vault := (OnlyOut.reply s _ _ _).vault
@[simp] theorem State.reply_health (op : Nat) (h : Head) (o : Outcome) : (s.reply op h o).health = s.health := (OnlyOut.reply s _ _ _).health
@[simp] theorem State.reply_power (op : Nat) (h : Head) (o : Outcome) : (s.reply op h o).power = s.power := (OnlyOut.reply s _ _ _).power

end Sys2Proof.Machine
end

