-- ==== Sys2Proof/Laws/Receipt.lean ====
section
/-! SUPPORT. What is sent, and the receipt of a cache command: each way it can end, said once. -/

namespace Sys2Proof.Machine

/-! ## What reaches the output -/

/-- `t` has sent what `s` has sent. -/
abbrev SameOut (s t : State) : Prop := t.out = s.out

theorem SameOut.foldl {α : Type} (f : State → α → State) (h : ∀ s x, SameOut s (f s x)) (l : List α) (s : State) :
    SameOut s (l.foldl f s) := by
  induction l generalizing s with
  | nil => rfl
  | cons x l ih => exact (ih _).trans (h s x)

theorem SameOut.ite {s t u : State} {c : Prop} [Decidable c] (a : SameOut s t) (b : SameOut s u) :
    SameOut s (if c then t else u) := by
  split
  · exact a
  · exact b

@[simp] theorem State.sampleInto_out (s : State) (k : Nat) (v : Int) : (s.sampleInto k v).out = s.out := by
  simp only [State.sampleInto, State.count_out]
  exact (SameOut.ite (State.setFld_out _ _ _) rfl).trans (SameOut.ite (State.setFld_out _ _ _) rfl)

@[simp] theorem State.sample_out (s : State) (k : Nat) (l : List Nat) (v : Int) : (s.sample k l v).out = s.out :=
  SameOut.foldl _ (fun s k => SameOut.ite (State.sampleInto_out s k v) rfl) _ s

@[simp] theorem State.pickPath_out (s : State) (entry : Nat) (avoid : Option Nat) : (s.pickPath entry avoid).2.out = s.out := by
  unfold State.pickPath
  dsimp only
  split <;> rfl

@[simp] theorem State.datagram_out (s : State) (x : TxHeader) : (s.datagram x).out = s.out := by
  have h := State.pickPath_out s (s.entryOf x.dstNode x.dstDomain) none
  unfold State.datagram
  dsimp only
  split <;> rename_i e <;> rw [e] at h
  · rw [State.enqueue_out, h]
  · exact h

@[simp] theorem State.dispatch_out (s : State) (u : Unacked) (avoid : Option Nat) (front : Bool) :
    (s.dispatch u avoid front).out = s.out := by
  have h := State.pickPath_out s u.entry avoid
  unfold State.dispatch
  split
  · rename_i e
    rw [e] at h
    rw [State.enqueue_out, State.setUnacked_out, h]
  · rename_i e _
    rw [e] at h
    rw [State.setUnacked_out, h]

@[simp] theorem State.pump_out (s : State) (k : Nat) : (s.pump k).out = s.out :=
  SameOut.foldl _ (fun s u => SameOut.ite (State.dispatch_out s u none false) rfl) _ s

@[simp] theorem State.packets_out (s : State) (k kind tc n : Nat) : (s.packets k kind tc n).out = s.out := by
  unfold State.packets
  split
  · rfl
  · rw [State.pump_out]

@[simp] theorem State.packetsOn_out (s : State) (p : Nat → Conn → Bool) (kind tc n : Nat) :
    (s.packetsOn p kind tc n).out = s.out := by
  unfold State.packetsOn
  split
  · exact State.packets_out _ _ _ _ _
  · rfl

/-- Queuing the packets of a message sends nothing more. -/
@[simp] theorem State.wire_out (s : State) (m : Sent) : (s.wire m).out = s.out := by
  unfold State.wire
  split <;> first
    | exact State.packetsOn_out _ _ _ _ _
    | exact State.packets_out _ _ _ _ _
    | exact State.datagram_out _ _
    | rfl
    | (split <;> first | exact State.datagram_out _ _ | exact State.packetsOn_out _ _ _ _ _ | rfl)

/-- R27: what is sent on the network ports. -/
theorem State.send_out (s : State) (m : Sent) :
    (s.send m).out = if s.runs ∧ s.node.state ≠ .fault then s.out ++ [m] else s.out := by
  unfold State.send
  split <;> simp

/-- An event is recorded without being sent. -/
@[simp] theorem State.ring_out (s : State) (e : Event) : (s.ring e).out = s.out := by
  unfold State.ring
  dsimp only
  split
  · rw [State.mark_out, State.count_out, State.setFld_out, State.setFld_out]
  · rw [State.setFld_out]

/-- R195: a completion is one message, on a connection that lives. -/
theorem State.reply_out (s : State) (op : Nat) (h : Head) (o : Outcome) :
    (s.reply op h o).out =
      if (s.sender h).isSome ∧ s.runs ∧ s.node.state ≠ .fault
      then s.out ++ [.completion h.qp h.srcNode h.srcQp h.tag op (s.row % 65536) o] else s.out := by
  unfold State.reply
  split
  · rename_i e
    simp [e]
  · rename_i x e
    have f := OnlyOut.free s
    rw [State.send_out]
    simp only [State.runs, State.row, State.sample_node, State.sample_clock, State.sample_out, f.node, f.clock, e,
      Option.isSome_some, true_and]
    rfl

/-! ## The receipt of a cache command -/

variable {s : State} {i : Instr} {op k : Nat} {h : Head} {c : Conn}

@[simp] theorem State.tick_sender (s : State) (n : Nat) (h : Head) : (s.tick n).sender h = s.sender h := rfl
@[simp] theorem State.tick_scheduled (s : State) (n op : Nat) (h : Head) (c : Conn) :
    (s.tick n).scheduled op h c = s.scheduled op h c := rfl
@[simp] theorem State.tick_arrivalFail (s : State) (n op : Nat) (h : Head) (b : Bool) :
    (s.tick n).arrivalFail op h b = s.arrivalFail op h b := rfl
@[simp] theorem State.tick_fenced (s : State) (n : Nat) (h : Head) : (s.tick n).fenced h = s.fenced h := rfl
@[simp] theorem State.tick_row (s : State) (n : Nat) : (s.tick n).row = s.row := rfl
@[simp] theorem State.tick_runs (s : State) (n : Nat) : (s.tick n).runs = s.runs := rfl

/-- A command that passes the checks at arrival and is handled in this row is admitted. -/
theorem State.receive_admits (run : Nat → State → State) (hi : cacheCommand i = some (op, h)) (hs : s.sender h = some (k, c))
    (hr : c.state = .ready) (hc : c.cls ≠ 2) (ha : s.arrivalFail op h (s.scheduled op h c) = none) (hf : s.fenced h = false)
    (hrow : handledRow (s.scheduled op h c) h s.row = s.row) : s.receive i run = run s.row (s.tick h.ns) := by
  simp [State.receive, hi, hs, hr, hc, ha, hf, hrow]

/-- A command that fails a check at arrival completes with that check's outcome. -/
theorem State.receive_fails (run : Nat → State → State) {o : Outcome} (hi : cacheCommand i = some (op, h))
    (hs : s.sender h = some (k, c)) (hr : c.state = .ready) (hc : c.cls ≠ 2)
    (ha : s.arrivalFail op h (s.scheduled op h c) = some o) : s.receive i run = (s.tick h.ns).reply op h o := by
  simp [State.receive, hi, hs, hr, hc, ha]

/-- A command behind a FENCE waits, with the row in which it was to be handled (R201). -/
theorem State.receive_waits (run : Nat → State → State) (hi : cacheCommand i = some (op, h)) (hs : s.sender h = some (k, c))
    (hr : c.state = .ready) (hc : c.cls ≠ 2) (ha : s.arrivalFail op h (s.scheduled op h c) = none) (hf : s.fenced h = true) :
    s.receive i run = { s.tick h.ns with
      work := { s.work with waiting := s.work.waiting ++ [⟨handledRow (s.scheduled op h c) h s.row, i⟩] } } := by
  simp [State.receive, hi, hs, hr, hc, ha, hf]

/-- A command handled in a later row is held (R44). -/
theorem State.receive_held (run : Nat → State → State) (hi : cacheCommand i = some (op, h)) (hs : s.sender h = some (k, c))
    (hr : c.state = .ready) (hc : c.cls ≠ 2) (ha : s.arrivalFail op h (s.scheduled op h c) = none) (hf : s.fenced h = false)
    (hrow : handledRow (s.scheduled op h c) h s.row ≠ s.row) :
    s.receive i run = { s.tick h.ns with
      work := { s.work with held := s.work.held ++ [⟨handledRow (s.scheduled op h c) h s.row, i⟩] } } := by
  simp [State.receive, hi, hs, hr, hc, ha, hf, hrow]

/-- On a queue pair in Error it completes with FLUSHED (R202). -/
theorem State.receive_flushed (run : Nat → State → State) (hi : cacheCommand i = some (op, h)) (hs : s.sender h = some (k, c))
    (hr : c.state = .error) : s.receive i run = (s.tick h.ns).reply op h (Outcome.bare h .flushed 0) := by
  simp [State.receive, hi, hs, hr]

/-- On a queue pair that is Closing or in Quarantine it has no effect (log entry 147). -/
theorem State.receive_discards (run : Nat → State → State) (hi : cacheCommand i = some (op, h)) (hs : s.sender h = some (k, c))
    (hr : c.state = .closing ∨ c.state = .quarantine) : s.receive i run = s.tick h.ns := by
  rcases hr with hr | hr <;> simp [State.receive, hi, hs, hr]

/-- On a LOAN queue pair it is a protocol error (R309, log entry 146). -/
theorem State.receive_onLoan (run : Nat → State → State) (hi : cacheCommand i = some (op, h)) (hs : s.sender h = some (k, c))
    (hr : c.state = .ready) (hc : c.cls = 2) : s.receive i run = (s.tick h.ns).qpError k 1 := by
  simp [State.receive, hi, hs, hr, hc]

/-- Without a connection it has no effect. -/
theorem State.receive_noConn (run : Nat → State → State) (hi : cacheCommand i = some (op, h)) (hs : s.sender h = none) :
    s.receive i run = s := by
  simp [State.receive, hi, hs]

/-- A command that is not scheduled is handled in the row in which it is received. -/
theorem handledRow_unscheduled (h : Head) (row : Nat) : handledRow false h row = row := by simp [handledRow]

end Sys2Proof.Machine
end

