-- ==== Sys2Proof/Laws/Tables.lean ====
section
/-! SUPPORT. Laws of tables, byte memories, number sets and searches: reading after writing, and the canonical form. -/

namespace Sys2Proof

/-! ## Tables -/

namespace Tbl

@[simp] theorem get_nil {α : Type} (k : Nat) : Tbl.get ([] : Tbl α) k = none := rfl

theorem get_cons {α : Type} (k' k : Nat) (v : α) (t : Tbl α) :
    Tbl.get ((k', v) :: t) k = if k' = k then some v else Tbl.get t k := rfl

/-- A key read back after it is written. -/
@[simp] theorem get_set_self {α : Type} (t : Tbl α) (k : Nat) (v : α) : (Tbl.set t k v).get k = some v := by
  induction t with
  | nil => simp [Tbl.set, Tbl.get]
  | cons p t ih =>
    obtain ⟨k', v'⟩ := p
    unfold Tbl.set
    split
    · simp [Tbl.get]
    · split
      · simp [Tbl.get]
      · rename_i h; simp [Tbl.get, Ne.symm h, ih]

/-- A write leaves every other key. -/
@[simp] theorem get_set_ne {α : Type} (t : Tbl α) (k x : Nat) (v : α) (h : x ≠ k) : (Tbl.set t k v).get x = t.get x := by
  induction t with
  | nil => simp [Tbl.set, Tbl.get, Ne.symm h]
  | cons p t ih =>
    obtain ⟨k', v'⟩ := p
    unfold Tbl.set
    split
    · simp [Tbl.get, Ne.symm h]
    · split
      · rename_i e; subst e; simp [Tbl.get, Ne.symm h]
      · simp [Tbl.get, ih]

theorem get_set {α : Type} (t : Tbl α) (k x : Nat) (v : α) :
    (Tbl.set t k v).get x = if x = k then some v else t.get x := by
  split
  · rename_i e; subst e; simp
  · rename_i e; simp [e]

@[simp] theorem get_erase_self {α : Type} (t : Tbl α) (k : Nat) : (Tbl.erase t k).get k = none := by
  induction t with
  | nil => rfl
  | cons p t ih =>
    obtain ⟨k', v'⟩ := p
    unfold Tbl.erase
    split
    · exact ih
    · rename_i h; simp [Tbl.get, h, ih]

@[simp] theorem get_erase_ne {α : Type} (t : Tbl α) (k x : Nat) (h : x ≠ k) : (Tbl.erase t k).get x = t.get x := by
  induction t with
  | nil => rfl
  | cons p t ih =>
    obtain ⟨k', v'⟩ := p
    unfold Tbl.erase
    split
    · rename_i e; subst e; simp [Tbl.get, Ne.symm h, ih]
    · simp [Tbl.get, ih]

theorem get_erase {α : Type} (t : Tbl α) (k x : Nat) : (Tbl.erase t k).get x = if x = k then none else t.get x := by
  split
  · rename_i e; subst e; simp
  · rename_i e; simp [e]

theorem get_modify {α : Type} (t : Tbl α) (k x : Nat) (f : α → α) :
    (Tbl.modify t k f).get x = if x = k then (t.get k).map f else t.get x := by
  unfold Tbl.modify
  split
  · rename_i e
    split
    · rename_i h; subst h; simp [e]
    · rfl
  · rename_i v e
    rw [get_set]
    split
    · simp [e]
    · rfl

@[simp] theorem get_modify_self {α : Type} (t : Tbl α) (k : Nat) (f : α → α) : (Tbl.modify t k f).get k = (t.get k).map f := by
  simp [get_modify]

@[simp] theorem get_modify_ne {α : Type} (t : Tbl α) (k x : Nat) (f : α → α) (h : x ≠ k) : (Tbl.modify t k f).get x = t.get x := by
  simp [get_modify, h]

theorem get_mapVals {α β : Type} (t : Tbl α) (f : Nat → α → β) (k : Nat) : (Tbl.mapVals t f).get k = (t.get k).map (f k) := by
  induction t with
  | nil => rfl
  | cons p t ih =>
    obtain ⟨k', v'⟩ := p
    show (if k' = k then some (f k' v') else Tbl.get (Tbl.mapVals t f) k) = (if k' = k then some v' else Tbl.get t k).map (f k)
    split
    · rename_i e; subst e; rfl
    · exact ih

/-- What a table answers is in it. -/
theorem mem_of_get {α : Type} {t : Tbl α} {k : Nat} {v : α} (h : t.get k = some v) : (k, v) ∈ t := by
  induction t with
  | nil => cases h
  | cons p t ih =>
    obtain ⟨k', v'⟩ := p
    simp only [get_cons] at h
    split at h
    · rename_i e; subst e; cases h; simp
    · exact List.mem_cons_of_mem _ (ih h)

/-! ### The canonical form -/

/-- The keys of a table that rises from above a bound are above it. -/
theorem risesFrom_some {α : Type} {t : Tbl α} {n : Nat} :
    Tbl.risesFrom (some n) t = true ↔ Tbl.wf t = true ∧ ∀ p ∈ t, n < p.1 := by
  induction t generalizing n with
  | nil => simp [Tbl.risesFrom, Tbl.wf]
  | cons p t ih =>
    obtain ⟨k, v⟩ := p
    simp only [Tbl.risesFrom, Tbl.wf, Bool.and_eq_true, decide_eq_true_eq, Bool.true_and, ih, List.mem_cons, forall_eq_or_imp]
    constructor
    · rintro ⟨h, w, g⟩
      exact ⟨⟨w, g⟩, h, fun q hq => lt_trans h (g q hq)⟩
    · rintro ⟨⟨w, g⟩, h, _⟩
      exact ⟨h, w, g⟩

@[simp] theorem wf_nil {α : Type} : Tbl.wf ([] : Tbl α) = true := rfl

theorem wf_cons {α : Type} {k : Nat} {v : α} {t : Tbl α} :
    Tbl.wf ((k, v) :: t) = true ↔ Tbl.wf t = true ∧ ∀ p ∈ t, k < p.1 := by
  show (true && Tbl.risesFrom (some k) t) = true ↔ _
  rw [Bool.true_and, risesFrom_some]

theorem mem_set {α : Type} {t : Tbl α} {k : Nat} {v : α} {p : Nat × α} (h : p ∈ Tbl.set t k v) : p = (k, v) ∨ p ∈ t := by
  induction t with
  | nil => simp [Tbl.set] at h; exact .inl h
  | cons q t ih =>
    obtain ⟨k', v'⟩ := q
    unfold Tbl.set at h
    split at h
    · simpa using h
    · split at h
      · rcases List.mem_cons.mp h with h | h
        · exact .inl h
        · exact .inr (List.mem_cons_of_mem _ h)
      · rcases List.mem_cons.mp h with h | h
        · exact .inr (by simp [h])
        · rcases ih h with h | h
          · exact .inl h
          · exact .inr (List.mem_cons_of_mem _ h)

theorem mem_erase {α : Type} {t : Tbl α} {k : Nat} {p : Nat × α} (h : p ∈ Tbl.erase t k) : p ∈ t ∧ p.1 ≠ k := by
  induction t with
  | nil => simp [Tbl.erase] at h
  | cons q t ih =>
    obtain ⟨k', v'⟩ := q
    unfold Tbl.erase at h
    split at h
    · exact ⟨List.mem_cons_of_mem _ (ih h).1, (ih h).2⟩
    · rename_i e
      rcases List.mem_cons.mp h with h | h
      · subst h; exact ⟨by simp, e⟩
      · exact ⟨List.mem_cons_of_mem _ (ih h).1, (ih h).2⟩

/-- A write keeps the canonical form. -/
theorem wf_set {α : Type} {t : Tbl α} {k : Nat} {v : α} (h : Tbl.wf t = true) : Tbl.wf (Tbl.set t k v) = true := by
  induction t with
  | nil => rfl
  | cons q t ih =>
    obtain ⟨k', v'⟩ := q
    rw [wf_cons] at h
    unfold Tbl.set
    split
    · rename_i l
      refine wf_cons.mpr ⟨wf_cons.mpr h, ?_⟩
      intro p hp
      rcases List.mem_cons.mp hp with hp | hp
      · subst hp; exact l
      · exact lt_trans l (h.2 p hp)
    · split
      · rename_i e; subst e; exact wf_cons.mpr h
      · rename_i l e
        refine wf_cons.mpr ⟨ih h.1, ?_⟩
        intro p hp
        rcases mem_set hp with hp | hp
        · subst hp; show k' < k; omega
        · exact h.2 p hp

/-- A removal keeps the canonical form. -/
theorem wf_erase {α : Type} {t : Tbl α} {k : Nat} (h : Tbl.wf t = true) : Tbl.wf (Tbl.erase t k) = true := by
  induction t with
  | nil => rfl
  | cons q t ih =>
    obtain ⟨k', v'⟩ := q
    rw [wf_cons] at h
    unfold Tbl.erase
    split
    · exact ih h.1
    · exact wf_cons.mpr ⟨ih h.1, fun p hp => h.2 p (mem_erase hp).1⟩

/-- A change of a record keeps the canonical form. -/
theorem wf_modify {α : Type} {t : Tbl α} {k : Nat} {f : α → α} (h : Tbl.wf t = true) : Tbl.wf (Tbl.modify t k f) = true := by
  unfold Tbl.modify
  split
  · exact h
  · exact wf_set h

/-- A selection keeps the canonical form. -/
theorem wf_filter {α : Type} {t : Tbl α} {p : Nat × α → Bool} (h : Tbl.wf t = true) : Tbl.wf (t.filter p) = true := by
  induction t with
  | nil => rfl
  | cons q t ih =>
    obtain ⟨k', v'⟩ := q
    rw [wf_cons] at h
    rw [List.filter_cons]
    split
    · exact wf_cons.mpr ⟨ih h.1, fun p hp => h.2 p (List.mem_filter.mp hp).1⟩
    · exact ih h.1

theorem wf_mapVals {α β : Type} {t : Tbl α} {f : Nat → α → β} (h : Tbl.wf t = true) : Tbl.wf (Tbl.mapVals t f) = true := by
  induction t with
  | nil => rfl
  | cons q t ih =>
    obtain ⟨k', v'⟩ := q
    rw [wf_cons] at h
    refine wf_cons.mpr ⟨ih h.1, ?_⟩
    intro p hp
    obtain ⟨q, hq, rfl⟩ := List.mem_map.mp hp
    exact h.2 q hq

/-- In a table in canonical form each record is the one its key answers. -/
theorem get_of_mem {α : Type} {t : Tbl α} {k : Nat} {v : α} (w : Tbl.wf t = true) (h : (k, v) ∈ t) : t.get k = some v := by
  induction t with
  | nil => cases h
  | cons q t ih =>
    obtain ⟨k', v'⟩ := q
    rw [wf_cons] at w
    rcases List.mem_cons.mp h with h | h
    · cases h; simp [get_cons]
    · have := w.2 _ h
      have e : k' ≠ k := by simpa using Nat.ne_of_lt this
      simp [get_cons, e, ih w.1 h]

theorem get_filter {α : Type} {t : Tbl α} (w : Tbl.wf t = true) (p : Nat × α → Bool) (k : Nat) :
    Tbl.get (t.filter p) k = (t.get k).filter fun v => p (k, v) := by
  induction t with
  | nil => rfl
  | cons q t ih =>
    obtain ⟨k', v'⟩ := q
    rw [wf_cons] at w
    rw [List.filter_cons]
    by_cases e : k' = k
    · subst e
      split
      · rename_i h; simp [get_cons, Option.filter, h]
      · rename_i h
        rw [ih w.1]
        have : Tbl.get t k' = none := by
          cases g : Tbl.get t k' with
          | none => rfl
          | some v => exact absurd (w.2 _ (mem_of_get g)) (by simp)
        simp [get_cons, Option.filter, h, this]
    · split <;> simp [get_cons, e, ih w.1]

end Tbl

namespace Machine

/-! ## Byte memories -/

/-- A byte read back after it is written. -/
@[simp] theorem Mem.get_set_self (m : List Host.Cell) (a : Nat) (b : Byte) : Mem.get (Mem.set m a b) a = b := by
  unfold Mem.set
  split
  · rename_i e; subst e; simp [Mem.get]
  · simp [Mem.get]

/-- A write leaves every other byte. -/
@[simp] theorem Mem.get_set_ne (m : List Host.Cell) (a x : Nat) (b : Byte) (h : x ≠ a) : Mem.get (Mem.set m a b) x = Mem.get m x := by
  unfold Mem.set
  split
  · simp [Mem.get, h]
  · simp [Mem.get, h]

/-- The bytes of a block write, and the bytes outside it. -/
theorem Mem.get_write (m : List Host.Cell) (a x : Nat) (bs : List Byte) :
    Mem.get (Mem.write m a bs) x = if a ≤ x ∧ x < a + bs.length then bs.getD (x - a) 0 else Mem.get m x := by
  induction bs generalizing m a with
  | nil => simp only [Mem.write, List.length_nil]; rw [if_neg (by omega)]
  | cons b bs ih =>
    simp only [Mem.write, ih, List.length_cons]
    by_cases h : x = a
    · subst h
      rw [if_neg (by omega), if_pos (by omega)]
      simp
    · by_cases g : a + 1 ≤ x ∧ x < a + 1 + bs.length
      · rw [if_pos g, if_pos (by omega)]
        obtain ⟨n, hn⟩ : ∃ n, x - a = n + 1 := ⟨x - a - 1, by omega⟩
        rw [hn, show x - (a + 1) = n by omega, List.getD_cons_succ]
      · rw [if_neg g, if_neg (by omega), Mem.get_set_ne _ _ _ _ h]

theorem Mem.wf_iff (m : List Host.Cell) : Mem.wf m = true ↔ Tbl.wf m = true ∧ ∀ c ∈ m, c.2 ≠ 0 := by
  simp [Mem.wf, List.all_eq_true]

/-- Writing a byte keeps the canonical form. -/
theorem Mem.wf_set {m : List Host.Cell} {a : Nat} {b : Byte} (h : Mem.wf m = true) : Mem.wf (Mem.set m a b) = true := by
  rw [Mem.wf_iff] at h ⊢
  unfold Mem.set
  split
  · exact ⟨Tbl.wf_erase h.1, fun c hc => h.2 c (Tbl.mem_erase hc).1⟩
  · rename_i e
    refine ⟨Tbl.wf_set h.1, fun c hc => ?_⟩
    rcases Tbl.mem_set hc with hc | hc
    · subst hc; exact e
    · exact h.2 c hc

/-- Writing a block keeps the canonical form. -/
theorem Mem.wf_write {m : List Host.Cell} {a : Nat} {bs : List Byte} (h : Mem.wf m = true) : Mem.wf (Mem.write m a bs) = true := by
  induction bs generalizing m a with
  | nil => exact h
  | cons b bs ih => exact ih (Mem.wf_set h)

/-- Writing cells keeps the canonical form. -/
theorem Mem.wf_foldl {m : List Host.Cell} {cs : List Host.Cell} (h : Mem.wf m = true) :
    Mem.wf (cs.foldl (fun m c => Mem.set m c.1 c.2) m) = true := by
  induction cs generalizing m with
  | nil => exact h
  | cons c cs ih => exact ih (Mem.wf_set h)

/-- Clearing a range keeps the canonical form. -/
theorem Mem.wf_clear {m : List Host.Cell} {lo hi : Nat} (h : Mem.wf m = true) : Mem.wf (Mem.clear m lo hi) = true := by
  rw [Mem.wf_iff] at h ⊢
  exact ⟨Tbl.wf_filter h.1, fun c hc => h.2 c (List.mem_filter.mp hc).1⟩

/-- The bytes of a cleared range read 0, and the others as before. -/
theorem Mem.get_clear {m : List Host.Cell} (h : Mem.wf m = true) (lo hi x : Nat) :
    Mem.get (Mem.clear m lo hi) x = if lo ≤ x ∧ x < hi then 0 else Mem.get m x := by
  unfold Mem.get Mem.clear
  rw [Tbl.get_filter ((Mem.wf_iff m).mp h).1]
  by_cases g : lo ≤ x ∧ x < hi
  · rw [if_pos g]
    cases e : Tbl.get m x with
    | none => rfl
    | some v => simp [Option.filter, show ¬ x < lo by omega, show ¬ hi ≤ x by omega]
  · rw [if_neg g]
    cases e : Tbl.get m x with
    | none => rfl
    | some v =>
      have : (decide (x < lo) || decide (hi ≤ x)) = true := by simp; omega
      simp [Option.filter, this]

/-- Bytes read one at a time. -/
theorem Mem.bytes_getD (m : List Host.Cell) (a n i : Nat) (h : i < n) : (Mem.bytes m a n).getD i 0 = Mem.get m (a + i) := by
  simp [Mem.bytes, List.getD, h]

@[simp] theorem Mem.bytes_length (m : List Host.Cell) (a n : Nat) : (Mem.bytes m a n).length = n := by simp [Mem.bytes]

@[simp] theorem leBytes_length (n v : Nat) : (leBytes n v).length = n := by
  induction n generalizing v with
  | zero => rfl
  | succ n ih => simp [leBytes, ih]

/-- A number read back from its little-endian bytes (R4). -/
theorem leNat_leBytes (n v : Nat) : leNat (leBytes n v) = v % 256 ^ n := by
  induction n generalizing v with
  | zero => simp [leBytes, leNat, Nat.mod_one]
  | succ n ih =>
    simp only [leBytes, leNat, ih, BitVec.toNat_ofNat]
    rw [show (256 : Nat) ^ (n + 1) = 256 * 256 ^ n by ring, Nat.mod_mul]

/-! ## Searches and lists -/

/-- A search that fails has tried every number from its start on. -/
theorem firstFrom_none {ok : Nat → Bool} {start m n : Nat} (h : firstFrom ok start m n = none) :
    ∀ i, i < n → ok ((start + i) % m) = false := by
  induction n generalizing start with
  | zero => intro i hi; omega
  | succ n ih =>
    simp only [firstFrom] at h
    split at h
    · cases h
    · rename_i e
      intro i hi
      cases i with
      | zero => simpa using e
      | succ i =>
        have := ih h i (by omega)
        rwa [show start + 1 + i = start + (i + 1) by omega] at this

/-- What a search finds passes and is in range. -/
theorem firstFrom_some {ok : Nat → Bool} {start m n k : Nat} (hm : 0 < m) (h : firstFrom ok start m n = some k) :
    ok k = true ∧ k < m := by
  induction n generalizing start with
  | zero => cases h
  | succ n ih =>
    simp only [firstFrom] at h
    split at h
    · rename_i e; cases h; exact ⟨e, Nat.mod_lt _ hm⟩
    · exact ih h

/-- A search once round finds a number where one passes. -/
theorem firstFrom_finds {ok : Nat → Bool} (start : Nat) {m k : Nat} (hk : k < m) (h : ok k = true) :
    ∃ j, firstFrom ok start m m = some j := by
  cases e : firstFrom ok start m m with
  | some j => exact ⟨j, rfl⟩
  | none =>
    have := firstFrom_none e ((k + m - start % m) % m) (Nat.mod_lt _ (by omega))
    have l := Nat.mod_lt start (show 0 < m by omega)
    have e : (start + (k + m - start % m) % m) % m = k := by
      rw [Nat.add_mod_mod, ← Nat.mod_add_mod, show start % m + (k + m - start % m) = k + m by omega, Nat.add_mod_right,
        Nat.mod_eq_of_lt hk]
    rw [e, h] at this
    cases this

theorem mem_addNum {l : List Nat} {k x : Nat} : x ∈ addNum l k ↔ x = k ∨ x ∈ l := by
  unfold addNum
  split
  · rename_i h
    constructor
    · exact .inr
    · rintro (rfl | h')
      · simpa using h
      · exact h'
  · simp

@[simp] theorem setAt_length {α : Type} (l : List α) (i : Nat) (f : α → α) : (setAt l i f).length = l.length := by
  induction l generalizing i with
  | nil => rfl
  | cons x l ih => cases i <;> simp [setAt, ih]

theorem getElem?_setAt {α : Type} (l : List α) (i j : Nat) (f : α → α) :
    (setAt l i f)[j]? = if j = i then (l[i]?).map f else l[j]? := by
  induction l generalizing i j with
  | nil => simp [setAt]
  | cons x l ih =>
    cases i with
    | zero => cases j <;> simp [setAt]
    | succ i => cases j <;> simp [setAt, ih]

@[simp] theorem getElem?_setAt_self {α : Type} (l : List α) (i : Nat) (f : α → α) : (setAt l i f)[i]? = (l[i]?).map f := by
  simp [getElem?_setAt]

@[simp] theorem getElem?_setAt_ne {α : Type} (l : List α) (i j : Nat) (f : α → α) (h : j ≠ i) : (setAt l i f)[j]? = l[j]? := by
  simp [getElem?_setAt, h]

end Machine
end Sys2Proof
end

