-- ==== Sys2Proof/Laws/Commands.lean ====
section
/-! SUPPORT. Commands in flight, ordered checks, free choices and the state of the node: what each shared operation can do. -/

namespace Sys2Proof.Machine

/-! ## Ordered checks (R196) -/

/-- No check fails where every one of them holds. -/
theorem firstFail_eq_none {l : List (Bool × Outcome)} : firstFail l = none ↔ ∀ x ∈ l, x.1 = false := by
  induction l with
  | nil => simp [firstFail]
  | cons x l ih =>
    obtain ⟨b, o⟩ := x
    cases b <;> simp [firstFail, ih]

/-- The first failing check decides. -/
theorem firstFail_cons (b : Bool) (o : Outcome) (l : List (Bool × Outcome)) :
    firstFail ((b, o) :: l) = if b then some o else firstFail l := by cases b <;> rfl

@[simp] theorem firstSome_nil : firstSome [] = none := rfl
@[simp] theorem firstSome_some (o : Outcome) (l : List (Option Outcome)) : firstSome (some o :: l) = some o := rfl
@[simp] theorem firstSome_none (l : List (Option Outcome)) : firstSome (none :: l) = firstSome l := rfl

theorem firstSome_eq_none {l : List (Option Outcome)} : firstSome l = none ↔ ∀ x ∈ l, x = none := by
  induction l with
  | nil => simp
  | cons x l ih => cases x <;> simp [ih]

/-! ## Free choices (log entry 2) -/

@[simp] theorem State.choose_snd (s : State) (m : Nat) (ok : Nat → Bool) : (s.choose m ok).2 = { s with fresh := s.fresh + 1 } := rfl

/-- What is chosen is acceptable and in range. -/
theorem State.choose_some (s : State) {m k : Nat} {ok : Nat → Bool} (hm : 0 < m) (h : (s.choose m ok).1 = some k) :
    ok k = true ∧ k < m := firstFrom_some hm h

/-- Where some number is acceptable, one is chosen. -/
theorem State.choose_finds (s : State) {m k : Nat} {ok : Nat → Bool} (hk : k < m) (h : ok k = true) :
    ∃ j, (s.choose m ok).1 = some j := firstFrom_finds _ hk h

/-- Where none is chosen, none in range is acceptable. -/
theorem State.choose_none (s : State) {m : Nat} {ok : Nat → Bool} (h : (s.choose m ok).1 = none) :
    ∀ k < m, ok k = false := by
  intro k hk
  cases e : ok k with
  | false => rfl
  | true =>
    obtain ⟨j, hj⟩ := State.choose_finds s hk e
    rw [h] at hj
    cases hj

/-! ## Commands in flight -/

variable (s : State) (n m : Nat)

theorem State.cmd_setCmd (f : Cmd → Cmd) : (s.setCmd n f).cmd m = if m = n then (s.cmd n).map f else s.cmd m :=
  Tbl.get_modify _ _ _ _

theorem State.cmd_enter (c : Cmd) : (s.enter c).cmd m = if m = s.work.next then some c else s.cmd m := Tbl.get_set _ _ _ _

theorem State.cmd_leave : (s.leave n).cmd m = if m = n then none else s.cmd m := Tbl.get_erase _ _ _

/-- A command admitted without a key leaves every key as it is. -/
theorem State.dropKey_of_none {c : Cmd} (h : s.cmd n = some c) (hk : c.key = none) : s.dropKey n = s := by
  simp [State.dropKey, h, hk]

/-- Leaving a key changes the command and the key's count of commands only. -/
theorem State.dropKey_cases : s.dropKey n = s ∨ ∃ i, s.dropKey n =
    { s.setCmd n fun c => { c with key := none } with
      xport := { s.xport with keys := Tbl.modify s.xport.keys i fun k => { k with inFlight := k.inFlight - 1 } } } := by
  unfold State.dropKey
  split
  · exact .inl rfl
  · split
    · exact .inl rfl
    · rename_i i _
      exact .inr ⟨i, rfl⟩

/-- Completing a command sends its completion and removes it. -/
theorem State.complete_eq {c : Cmd} (o : Outcome) (h : s.cmd n = some c) :
    s.complete n o = ((s.dropKey n).leave n).reply c.opcode c.head o := by simp [State.complete, h]

@[simp] theorem State.complete_of_none (o : Outcome) (h : s.cmd n = none) : s.complete n o = s := by simp [State.complete, h]

/-- The first decision stands. -/
theorem State.decide_decided {c : Cmd} (o : Outcome) (h : s.cmd n = some c) (hr : c.result.isSome) : s.decide n o = s := by
  simp [State.decide, h, hr]

/-- An L8 command completes when it is decided (R212). -/
theorem State.decide_l8 {c : Cmd} (o : Outcome) (h : s.cmd n = some c) (hr : c.result = none) (hc : c.cls = .l8) :
    s.decide n o = s.complete n o := by simp [State.decide, h, hr, hc]

/-- A scheduled command keeps its outcome until COMPLETION_SEND (R195), and its work is dropped (R49). -/
theorem State.decide_scheduled {c : Cmd} (o : Outcome) (h : s.cmd n = some c) (hr : c.result = none) (hc : c.cls ≠ .l8) :
    s.decide n o =
      (let t := (s.dropKey n).setCmd n fun c => { c with result := some o, stage := .sent }
       { t with work := { t.work with
           items := t.work.items.filter fun p => p.2.cmd ≠ n
           ctxs := t.work.ctxs.filter fun p => p.2.cmd ≠ n }
                arrays := { t.arrays with due := t.arrays.due.filter fun x => x.cmd ≠ n } }) := by
  simp [State.decide, h, hr, hc]

/-! ## The state of the node (R26) -/

/-- The node takes the state it is ordered into. -/
@[simp] theorem State.toNode_state (x : NodeState) : (s.toNode x).node.state = x := by
  unfold State.toNode
  split
  · assumption
  · simp

/-- A change of the node state leaves memory, commands, clock and queue as they are. -/
theorem State.toNode_keeps (x : NodeState) :
    (s.toNode x).mem = s.mem ∧ (s.toNode x).poison = s.poison ∧ (s.toNode x).work = s.work ∧ (s.toNode x).clock = s.clock ∧
      (s.toNode x).pending = s.pending := by
  unfold State.toNode
  split <;> simp

end Sys2Proof.Machine
end

