-- ==== Sys2Proof/Laws/Memory.lean ====
section
/-! SUPPORT. The stacks: every operation on memory keeps its canonical form, and what it makes each byte read. -/

namespace Sys2Proof.Machine

theorem State.reset_mem_wf : Mem.wf State.reset.mem = true := rfl

/-! ## The canonical form -/

theorem State.store_wf {s : State} (a : Nat) (bs : List Byte) (h : Mem.wf s.mem = true) : Mem.wf (s.store a bs).mem = true :=
  Mem.wf_write h

theorem State.zero_wf {s : State} (lo hi : Nat) (h : Mem.wf s.mem = true) : Mem.wf (s.zero lo hi).mem = true :=
  Mem.wf_clear h

theorem State.writeLine_wf {s : State} (l : Nat) (cells : List Host.Cell) (h : Mem.wf s.mem = true) :
    Mem.wf (s.writeLine l cells).mem = true := Mem.wf_foldl h

theorem State.putBytes_wf {s : State} (a : Nat) (bs : List Byte) (h : Mem.wf s.mem = true) :
    Mem.wf (s.putBytes a bs).mem = true := by
  unfold State.putBytes
  dsimp only
  split
  · exact Mem.wf_write h
  · exact h

/-- Writing the bytes of a leaf one at a time keeps the form. -/
theorem State.setBytes_wf (g : Nat) (l : List (Nat × Byte)) {s : State} (h : Mem.wf s.mem = true) :
    Mem.wf (l.foldl (fun (s : State) p => { s with mem := Mem.set s.mem (elemAddr g p.1) p.2 }) s).mem = true := by
  induction l generalizing s with
  | nil => exact h
  | cons p l ih => exact ih (Mem.wf_set h)

theorem State.putLeaf_wf {s : State} (x : HalfLoc) (fmt d : Nat) (bs : List Byte) (h : Mem.wf s.mem = true) :
    Mem.wf (s.putLeaf x fmt d bs).mem = true := by
  unfold State.putLeaf
  dsimp only
  split
  · exact State.store_wf _ _ (State.setBytes_wf _ _ h)
  · exact State.setBytes_wf _ _ h

/-! ## Reading back -/

/-- A byte after a store: the stored byte inside the block, the old one outside it. -/
theorem State.store_get (s : State) (a x : Nat) (bs : List Byte) :
    Mem.get (s.store a bs).mem x = if a ≤ x ∧ x < a + bs.length then bs.getD (x - a) 0 else Mem.get s.mem x :=
  Mem.get_write _ _ _ _

/-- A byte after a range is made zero. -/
theorem State.zero_get {s : State} (lo hi x : Nat) (h : Mem.wf s.mem = true) :
    Mem.get (s.zero lo hi).mem x = if lo ≤ x ∧ x < hi then 0 else Mem.get s.mem x := Mem.get_clear h _ _ _

/-- A byte of the stacks after a raw write to them. -/
theorem State.putBytes_get (s : State) (a x : Nat) (bs : List Byte) (h : a < stackBytes) :
    Mem.get (s.putBytes a bs).mem x = if a ≤ x ∧ x < a + bs.length then bs.getD (x - a) 0 else Mem.get s.mem x := by
  unfold State.putBytes
  rw [if_pos h]
  exact Mem.get_write _ _ _ _

/-- A write outside the stacks leaves them. -/
theorem State.putBytes_mem_of_le (s : State) (a : Nat) (bs : List Byte) (h : stackBytes ≤ a) : (s.putBytes a bs).mem = s.mem := by
  unfold State.putBytes
  rw [if_neg (by omega)]

/-- Cells written in turn leave every other byte. -/
theorem Mem.get_foldl_ne (m : List Host.Cell) (cs : List Host.Cell) (x : Nat) (h : ∀ c ∈ cs, c.1 ≠ x) :
    Mem.get (cs.foldl (fun m c => Mem.set m c.1 c.2) m) x = Mem.get m x := by
  induction cs generalizing m with
  | nil => rfl
  | cons c cs ih =>
    rw [List.foldl_cons, ih _ fun d hd => h d (List.mem_cons_of_mem _ hd), Mem.get_set_ne _ _ _ _ (Ne.symm (h c (by simp)))]

/-- A line write leaves every byte it does not name. -/
theorem State.writeLine_get_ne (s : State) (l x : Nat) (cells : List Host.Cell) (h : ∀ c ∈ cells, c.1 ≠ x) :
    Mem.get (s.writeLine l cells).mem x = Mem.get s.mem x := Mem.get_foldl_ne _ _ _ h

/-! ## Poison -/

/-- What a raw write leaves poisoned: every line it does not wholly cover. -/
theorem State.mem_putBytes_poison (s : State) (a l : Nat) (bs : List Byte) (h : a < stackBytes) :
    l ∈ (s.putBytes a bs).poison ↔ l ∈ s.poison ∧ ¬ (a ≤ l * 64 ∧ l * 64 + 64 ≤ a + bs.length) := by
  unfold State.putBytes
  rw [if_pos h]
  simp only [List.mem_filter, Bool.not_eq_true', Bool.and_eq_false_iff, decide_eq_false_iff_not]
  tauto

theorem State.mem_poisonLine (s : State) (l x : Nat) : x ∈ (s.poisonLine l).poison ↔ x = l ∨ x ∈ s.poison := mem_addNum

end Sys2Proof.Machine
end

