-- ==== Sys2Proof/Laws/Regs.lean ====
section
/-! SUPPORT. Registers: reading a register or a field after a register or a field is written. -/

namespace Sys2Proof.Machine

/-- Bit i of a field. -/
theorem testBit_bits (w : Word) (hi lo i : Nat) :
    (bits w hi lo).testBit i = (decide (i < hi + 1 - lo) && w.toNat.testBit (lo + i)) := by
  simp [bits, Nat.testBit_mod_two_pow, Nat.testBit_shiftRight]

/-- Bit i of a word whose field has been replaced. -/
theorem testBit_setBits (w : Word) {hi lo : Nat} (v i : Nat) (h : lo ≤ hi) (h64 : hi < 64) :
    (setBits w hi lo v).toNat.testBit i = if lo ≤ i ∧ i ≤ hi then v.testBit (i - lo) else w.toNat.testBit i := by
  have key : w.toNat % 2 ^ lo + v % 2 ^ (hi + 1 - lo) * 2 ^ lo + (w.toNat >>> (hi + 1)) * 2 ^ (hi + 1)
      = 2 ^ lo * (2 ^ (hi + 1 - lo) * (w.toNat >>> (hi + 1)) + v % 2 ^ (hi + 1 - lo)) + w.toNat % 2 ^ lo := by
    rw [mul_add, ← mul_assoc, ← pow_add, show lo + (hi + 1 - lo) = hi + 1 by omega]
    ring
  rw [setBits, BitVec.toNat_ofNat, Nat.testBit_mod_two_pow, key, Nat.testBit_two_pow_mul_add _ (Nat.mod_lt _ (by positivity)),
    Nat.testBit_mod_two_pow, Nat.testBit_two_pow_mul_add _ (Nat.mod_lt _ (by positivity)), Nat.testBit_mod_two_pow,
    Nat.testBit_shiftRight]
  have big : 64 ≤ i → w.toNat.testBit i = false := fun g =>
    Nat.testBit_lt_two_pow (lt_of_lt_of_le w.isLt (Nat.pow_le_pow_right (by norm_num) g))
  by_cases a : i < lo
  · simp [a, show ¬ lo ≤ i by omega, show i < 64 by omega]
  · by_cases b : i ≤ hi
    · simp [a, b, show lo ≤ i by omega, show i < 64 by omega, show i - lo < hi + 1 - lo by omega]
    · rw [show hi + 1 + (i - lo - (hi + 1 - lo)) = i by omega]
      simp only [a, b, show ¬ i - lo < hi + 1 - lo by omega, if_false, and_false]
      by_cases c : i < 64
      · simp [c]
      · simp [c, big (by omega)]

/-- A field read back after it is written. -/
theorem bits_setBits_self (w : Word) {hi lo : Nat} (v : Nat) (h : lo ≤ hi) (h64 : hi < 64) :
    bits (setBits w hi lo v) hi lo = v % 2 ^ (hi + 1 - lo) := by
  apply Nat.eq_of_testBit_eq
  intro i
  rw [testBit_bits, testBit_setBits w v _ h h64, Nat.testBit_mod_two_pow]
  by_cases a : i < hi + 1 - lo
  · rw [if_pos (by omega), show lo + i - lo = i by omega]
  · simp [a]

/-- A write of a field leaves a disjoint one. -/
theorem bits_setBits_disjoint (w : Word) {hi lo : Nat} (v : Nat) {hi' lo' : Nat} (h : lo ≤ hi) (h64 : hi < 64)
    (d : hi' < lo ∨ hi < lo') : bits (setBits w hi lo v) hi' lo' = bits w hi' lo' := by
  apply Nat.eq_of_testBit_eq
  intro i
  rw [testBit_bits, testBit_bits, testBit_setBits w v _ h h64]
  by_cases a : i < hi' + 1 - lo'
  · rw [if_neg (by omega)]
  · simp [a]

/-- A register read back after it is stored. -/
@[simp] theorem State.stored_setStored_self (s : State) (b o : Nat) (w : Word) : (s.setStored b o w).stored b o = w := by
  unfold State.stored State.setStored
  dsimp only
  split
  · rename_i e; simp [e]
  · simp

/-- A store leaves every other register. -/
theorem State.stored_setStored_ne (s : State) (b o b' o' : Nat) (w : Word) (h : regKey b' o' ≠ regKey b o) :
    (s.setStored b o w).stored b' o' = s.stored b' o' := by
  unfold State.stored State.setStored
  dsimp only
  split
  · rw [Tbl.get_erase_ne _ _ _ h]
  · rw [Tbl.get_set_ne _ _ _ _ h]

/-- A store keeps the canonical form of the registers. -/
theorem State.wf_setStored {s : State} (b o : Nat) (w : Word) (h : Tbl.wf s.regs = true) :
    Tbl.wf (s.setStored b o w).regs = true := by
  unfold State.setStored
  dsimp only
  split
  · exact Tbl.wf_erase h
  · exact Tbl.wf_set h

/-- A stored field read back. -/
theorem State.fld_setFld_self (s : State) (f : Field) (v : Nat) (h : f.lo ≤ f.hi) (h64 : f.hi < 64) :
    (s.setFld f v).fld f = v % 2 ^ (f.hi + 1 - f.lo) := by
  simp [State.fld, State.setFld, bits_setBits_self _ _ h h64]

/-- Setting a field leaves the fields of other registers. -/
theorem State.fld_setFld_ne (s : State) (f g : Field) (v : Nat) (h : regKey g.block g.offset ≠ regKey f.block f.offset) :
    (s.setFld f v).fld g = s.fld g := by
  simp [State.fld, State.setFld, State.stored_setStored_ne _ _ _ _ _ _ h]

/-- Setting a field leaves the other fields of its register. -/
theorem State.fld_setFld_disjoint (s : State) (f g : Field) (v : Nat) (hb : g.block = f.block) (ho : g.offset = f.offset)
    (h : f.lo ≤ f.hi) (h64 : f.hi < 64) (d : g.hi < f.lo ∨ f.hi < g.lo) : (s.setFld f v).fld g = s.fld g := by
  unfold State.fld State.setFld
  rw [hb, ho, State.stored_setStored_self, bits_setBits_disjoint _ _ h h64 d]

end Sys2Proof.Machine
end

