-- ==== Sys2Proof/Tests/Slice0.lean ====
section
/-! SUPPORT. The model's own tests: ill-formed commands are refused, single steps give the values of the spec, and every
statement's hypotheses can be met. -/

namespace Sys2Proof.Tests

set_option Elab.async false

open Sys2Proof Sys2Proof.Machine

/-! ## Well-formedness -/

/-- A header at its largest values. -/
def h0 : Head :=
  { qp := 65535, srcQp := 65535, srcNode := 16383, srcDomain := 63, relayTenant := some 4095, tag := 4095, rowTag := 65535, model := 63,
    handle := 4294967295, oBf16 := true, fence := true, bodyLen := 4294967295, ns := 4095 }

theorem test_head_wf : h0.wf = true ∧ ([{ h0 with qp := 65536 }, { h0 with srcQp := 65536 }, { h0 with srcNode := 16384 }, { h0 with srcDomain := 64 },
    { h0 with relayTenant := some 4096 }, { h0 with tag := 4096 }, { h0 with rowTag := 65536 }, { h0 with model := 64 },
    { h0 with handle := 4294967296 }, { h0 with bodyLen := 4294967296 }, { h0 with ns := 4096 }] : List Head).all
    (fun h => !h.wf) = true := by decide +kernel

def ob0 : OpenBody :=
  { format := 15, mirrored := false, pinned := false, library := false, d := 65535, layers := 65535, kvHeads := 255,
    buddy := 16383, forkPosition := 33554431 }

theorem test_open_body_wf : ob0.wf = true ∧ ([{ ob0 with format := 16 }, { ob0 with d := 65536 }, { ob0 with layers := 65536 },
    { ob0 with kvHeads := 256 }, { ob0 with buddy := 16384 }, { ob0 with forkPosition := 33554432 }] : List OpenBody).all
    (fun b => !b.wf) = true := by decide +kernel

def ab0 : AppendBody := { layer := 255, head := 63, inFormat := 15, first := 16777215, count := 131071, payload := [] }

theorem test_append_body_wf : ab0.wf = true ∧ ([{ ab0 with layer := 256 }, { ab0 with head := 64 }, { ab0 with inFormat := 16 },
    { ab0 with first := 16777216 }, { ab0 with count := 131072 }] : List AppendBody).all (fun b => !b.wf) = true := by
  decide +kernel

def at0 : AttnBody :=
  { layer := 255, head := 63, qheads := 255, qFormat := 15, firstBlock := 65535, qcount := 65535, blockCount := 131071,
    doFormat := 15, gradFactor := 0, destKey := 4294967295, destOffset := 18446744073709551615, destBase := 16777215,
    payload := [] }

theorem test_attn_body_wf : at0.wf = true ∧ ([{ at0 with layer := 256 }, { at0 with head := 64 }, { at0 with qheads := 256 },
    { at0 with qFormat := 16 }, { at0 with firstBlock := 65536 }, { at0 with qcount := 65536 }, { at0 with blockCount := 131072 },
    { at0 with doFormat := 16 }, { at0 with destKey := 4294967296 }, { at0 with destOffset := 18446744073709551616 },
    { at0 with destBase := 16777216 }] : List AttnBody).all (fun b => !b.wf) = true := by decide +kernel

def mb0 : MergeBody := { inputs := 255, qheads := 255, d := 65535, mode := 255, payload := [] }

theorem test_merge_body_wf : mb0.wf = true ∧ ([{ mb0 with inputs := 256 }, { mb0 with qheads := 256 }, { mb0 with d := 65536 },
    { mb0 with mode := 256 }] : List MergeBody).all (fun b => !b.wf) = true := by decide +kernel

def cb0 : ChainBody := { banks := 65535, priority := 255, count := 255, firstBlock := 65535, words := [18446744073709551615] }

theorem test_chain_body_wf : cb0.wf = true ∧ ([{ cb0 with banks := 65536 }, { cb0 with priority := 256 },
    { cb0 with count := 256 }, { cb0 with firstBlock := 65536 }, { cb0 with words := [18446744073709551616] }] :
    List ChainBody).all (fun b => !b.wf) = true := by decide +kernel

def rb0 : RangeBody :=
  { firstLayer := 255, lastLayer := 255, firstHead := 63, lastHead := 63, firstPos := 33554431, endPos := 33554431, tier := 3,
    lender := 16383 }

theorem test_range_body_wf : rb0.wf = true ∧ ([{ rb0 with firstLayer := 256 }, { rb0 with lastLayer := 256 },
    { rb0 with firstHead := 64 }, { rb0 with lastHead := 64 }, { rb0 with firstPos := 33554432 }, { rb0 with endPos := 33554432 },
    { rb0 with tier := 4 }, { rb0 with lender := 16384 }] : List RangeBody).all (fun b => !b.wf) = true := by decide +kernel

def raw0 : RawBody :=
  { key := 4294967295, length := 4294967295, offset := 17592186044415, op0 := 18446744073709551615,
    op1 := 18446744073709551615, data := [] }

theorem test_raw_body_wf : raw0.wf = true ∧ ([{ raw0 with key := 4294967296 }, { raw0 with length := 4294967296 },
    { raw0 with offset := 17592186044416 }, { raw0 with op0 := 18446744073709551616 },
    { raw0 with op1 := 18446744073709551616 }] : List RawBody).all (fun b => !b.wf) = true := by decide +kernel

def cm0 : CmMsg :=
  { qp := 65535, srcNode := 16383, srcDomain := 63, tag := 65535, senderQp := 65535, cls := 3, shared := false, compat := false,
    relay := false, rights := 31, tenant := 4095, process := some 4095, key := 4294967295, psn := 16777215,
    offset := 17592186044415, length := 18446744073709551615, processOffset := 17592186044415, ticket := 0 }

theorem test_cm_wf : cm0.wf = true ∧ ([{ cm0 with qp := 65536 }, { cm0 with srcNode := 16384 }, { cm0 with srcDomain := 64 },
    { cm0 with tag := 65536 }, { cm0 with senderQp := 65536 }, { cm0 with cls := 4 }, { cm0 with rights := 32 },
    { cm0 with tenant := 4096 }, { cm0 with process := some 4096 }, { cm0 with key := 4294967296 }, { cm0 with psn := 16777216 },
    { cm0 with offset := 17592186044416 }, { cm0 with length := 18446744073709551616 },
    { cm0 with processOffset := 17592186044416 }] : List CmMsg).all (fun m => !m.wf) = true := by decide +kernel

def lm0 : LoanMsg :=
  { qp := 65535, srcQp := 65535, src := 16383, result := 255, loanSlot := 65535, borrowerHandle := 4294967295, lenderHandle := 4294967295,
    layer := 255, head := 63, half := 1, block := 65535, model := 63, format := 15, d := 65535, layers := 255, kvHeads := 255,
    origin := 4095, crc := 0, data := [] }

theorem test_loan_wf : lm0.wf = true ∧ ([{ lm0 with qp := 65536 }, { lm0 with srcQp := 65536 }, { lm0 with src := 16384 }, { lm0 with result := 256 },
    { lm0 with loanSlot := 65536 }, { lm0 with borrowerHandle := 4294967296 }, { lm0 with lenderHandle := 4294967296 },
    { lm0 with layer := 256 }, { lm0 with head := 64 }, { lm0 with half := 2 }, { lm0 with block := 65536 },
    { lm0 with model := 64 }, { lm0 with format := 16 }, { lm0 with d := 65536 }, { lm0 with layers := 256 }, { lm0 with kvHeads := 256 }, { lm0 with origin := 4096 }] : List LoanMsg).all
    (fun m => !m.wf) = true := by decide +kernel

def fr0 : Frame :=
  { decoded := true, fcsOk := true, codewords := 0, corrected := [(8, 1)], secured := false, icvOk := true, pn := 1, tags := 0, dei := false, etherType := 65535, length := 64,
    kind := 15, version := 15, tc := 7, srcNode := 16383, dstNode := 16383, srcDomain := 63, dstDomain := 63, dstQp := 65535,
    srcQp := 65535, psn := 16777215, first := true, last := true, pathSeq := 65535, srcPort := 7, dstPort := 7, pathIndex := 7,
    payloadLen := 65535, reserved := [], hdrCrc := 0, ns := 4095 }

theorem test_frame_wf : fr0.wf = true ∧ ([{ fr0 with corrected := [(9, 1)] },
    { fr0 with pn := 18446744073709551616 }, { fr0 with reserved := List.replicate 29 0 }, { fr0 with etherType := 65536 }, { fr0 with kind := 16 }, { fr0 with version := 16 },
    { fr0 with tc := 8 }, { fr0 with srcNode := 16384 }, { fr0 with dstNode := 16384 }, { fr0 with srcDomain := 64 },
    { fr0 with dstDomain := 64 }, { fr0 with dstQp := 65536 }, { fr0 with srcQp := 65536 }, { fr0 with psn := 16777216 },
    { fr0 with pathSeq := 65536 }, { fr0 with srcPort := 8 }, { fr0 with dstPort := 8 }, { fr0 with pathIndex := 8 },
    { fr0 with payloadLen := 65536 }, { fr0 with ns := 4096 }] : List Frame).all (fun f => !f.wf) = true := by decide +kernel

def pk0 : Packet :=
  { kind := 15, tc := 7, srcNode := 16383, srcDomain := 63, dstQp := 65535, srcQp := 65535, psn := 16777215, first := true,
    last := true, pathSeq := 65535, srcPort := 7, dstPort := 7, pathIndex := 7, payload := [] }

theorem test_packet_wf : pk0.wf = true ∧ ([{ pk0 with kind := 16 }, { pk0 with tc := 8 }, { pk0 with srcNode := 16384 },
    { pk0 with srcDomain := 64 }, { pk0 with dstQp := 65536 }, { pk0 with srcQp := 65536 }, { pk0 with psn := 16777216 },
    { pk0 with pathSeq := 65536 }, { pk0 with srcPort := 8 }, { pk0 with dstPort := 8 }, { pk0 with pathIndex := 8 },
    { pk0 with payload := List.replicate 8193 0 }] : List Packet).all (fun k => !k.wf) = true := by decide +kernel

def lw0 : LaneWord :=
  { seq := 255, node := 16383, port := 7, actSeq := 255, failed := 511, map := 4294967295, domain := 63, reserved := [], crc := 0 }

theorem test_lane_word_wf : lw0.wf = true ∧ ([{ lw0 with seq := 256 }, { lw0 with node := 16384 }, { lw0 with port := 8 },
    { lw0 with actSeq := 256 }, { lw0 with failed := 512 }, { lw0 with map := 4294967296 }, { lw0 with domain := 64 },
    { lw0 with reserved := List.replicate 15 0 }] :
    List LaneWord).all (fun w => !w.wf) = true := by decide +kernel

def mm0 : MgmtMsg := { kind := 1, count := 1, tag := 65535, length := 24, entries := [⟨1, 17592186044415, 0⟩] }

theorem test_mgmt_wf : mm0.wf = true ∧ ([{ mm0 with kind := 256 }, { mm0 with count := 256 }, { mm0 with tag := 65536 },
    { mm0 with entries := [⟨4, 0, 0⟩] }, { mm0 with entries := [⟨0, 17592186044416, 0⟩] }] : List MgmtMsg).all
    (fun m => !m.wf) = true := by decide +kernel

def of0 : OobFrame :=
  { mac := 281474976710655, etherType := 65535, dstNode := 16383, dstDomain := 255, srcId := 65535, body := .mgmt mm0 }

theorem test_oob_wf : of0.wf = true ∧ ([{ of0 with mac := 281474976710656 }, { of0 with etherType := 65536 },
    { of0 with dstNode := 16384 }, { of0 with dstDomain := 256 }, { of0 with srcId := 65536 },
    { of0 with body := .mgmt { mm0 with kind := 256 } }] : List OobFrame).all (fun f => !f.wf) = true := by decide +kernel

def bk0 : BulkRecord :=
  { kind := 255, srcDomain := 63, srcNode := 16383, dstDomain := 63, cls := 3, dstNode := 16383, tenant := 4095, srcQp := 65535,
    message := [] }

theorem test_bulk_wf : bk0.wf = true ∧ ([{ bk0 with kind := 256 }, { bk0 with srcDomain := 64 }, { bk0 with srcNode := 16384 },
    { bk0 with dstDomain := 64 }, { bk0 with cls := 4 }, { bk0 with dstNode := 16384 }, { bk0 with tenant := 4096 },
    { bk0 with srcQp := 65536 }] : List BulkRecord).all (fun r => !r.wf) = true := by decide +kernel

/-- A row's samples at room temperature. -/
def rs0 : RowSample :=
  { offset := none, ptp := false, rowsync := false, dieTemps := List.replicate 20 25, stackTemps := List.replicate 12 25,
    prbs := [⟨7, 8, 100, 1⟩] }

theorem test_instruction_wf : ([.rep 0 256 64, .sli 0 15 131071, .sli 0 8 (-131072), .sadd 0 15 15 15, .azero 0 7 8,
    .kdot 0 15 8 7 false true true 15, .accv 0 15 8 7 false false 7, .sscl 0 15 8 7 false 3, .sbias 0 15 8 0 true 3,
    .smax 0 31 15 8 7 false 3, .sexp 0 31 15 8 7 false 3, .rmax 0 31 8, .vset 0 31 8 2, .mset 0 3 3 15 7 false, .mand 0 3 3 3,
    .mor 0 3 3 3, .emit 0 31 15 8 true 7] : List Instr).all Instr.wf = true := by decide +kernel

theorem test_instruction_refused : ([.rep 0 0 1, .rep 0 257 1, .rep 0 1 0, .rep 0 1 65, .sli 0 7 0, .sli 0 16 0,
    .sli 0 8 131072, .sli 0 8 (-131073), .sadd 0 7 0 0, .sadd 0 16 0 0, .ssub 0 8 16 0, .ssub 0 8 0 16, .azero 0 8 1,
    .azero 0 0 0, .azero 0 0 9, .kdot 0 16 1 0 false false false 0, .kdot 0 0 0 0 false false false 0,
    .kdot 0 0 1 8 false false false 0, .kdot 0 0 1 1 true false false 0, .kdot 0 0 1 0 false false false 16,
    .accv 0 16 1 0 false false 0, .accv 0 0 1 0 false false 8, .sscl 0 16 1 0 false 0, .sbias 0 0 1 0 false 4,
    .smax 0 32 0 1 0 false 0, .sexp 0 0 16 1 0 false 0, .smax 0 0 0 1 0 false 4, .rmax 0 32 1, .vset 0 32 1 0, .vset 0 0 1 3,
    .mset 0 4 0 0 0 false, .mset 0 0 4 0 0 false, .mset 0 0 0 16 0 false, .mand 0 4 0 0, .mor 0 0 4 0, .mor 0 0 0 4,
    .emit 0 32 0 1 false 0, .emit 0 0 16 1 false 0, .emit 0 0 0 1 false 8] : List Instr).all (fun i => !i.wf) = true := by
  decide +kernel

theorem test_step_refused : ([.openSeq { h0 with ns := 4096 } ob0, .openSeq h0 { ob0 with format := 16 },
    .completionSend 0 4096, .l8CommandStart 4096, .lenderPartialsReceive 0 16384 0 0 .ok 0 [] [],
    .lenderPartialsReceive 0 0 17 0 .ok 0 [] [], .lenderPartialsReceive 0 0 0 0 .ok 16 [] [], .stitchRoundStart 12 0,
    .pauseResume 0 4096, .tileIssue 4096, .tileEnd 192 0, .tileAbandon 192, .appendLineWrite ⟨4, 0⟩, .appendLineWrite ⟨0, 4096⟩,
    .rowStart { rs0 with dieTemps := [] }, .rowStart { rs0 with stackTemps := [] }, .rowStart { rs0 with prbs := [⟨8, 0, 0, 0⟩] },
    .rowStart { rs0 with prbs := [⟨0, 9, 0, 0⟩] }, .gateListSwitch 8,
    .ptpEventMessage 8 0 false, .nbuStop 12 0 1, .nbuStop 0 256 1, .nbuStop 0 0 0,
    .nbuStop 0 0 4, .nbuPauseAckTimeout 0 256, .cellStop 4 0 0 1, .cellStop 0 48 0 1, .cellStop 0 0 68 1, .cellStop 0 0 0 4,
    .stitchSliceFault 0 136, .walkerFault 16, .spareTakeover (.nbu 12 0), .spareTakeover (.nbu 0 16),
    .spareTakeover (.cell 4 0), .spareTakeover (.array 0 48), .dramCorrectedError 0 0 4 0 0, .dramUncorrectableError
    17592186044416 .patrol, .dramRowRepair 0 256 0 0 none, .patrolRead 12 0 0, .lenderPassOverExpiry 16384,
    .sequenceClosed 1048576, .indexEntryRelease 1048576, .camBankRebuild 16, .lend { lm0 with half := 2 },
    .poolDeviceFence 16, .cxlDeviceEvent 16 true, .annexLinkDown 4, .annexLinkUp 4] : List Instr).all (fun i => !i.wf) = true := by
  decide +kernel

theorem test_network_refused : ([.frameReceive 8 fr0, .frameReceive 0 { fr0 with tc := 8 }, .frameTransmit 8 0,
    .frameTransmit 0 32768, .dataPacketReceive { pk0 with tc := 8 }, .ackSend 65536, .ackReceive 0 ⟨16384, 0⟩ 0 0,
    .ackReceive 0 ⟨0, 65536⟩ 0 0, .ackReceive 0 ⟨0, 0⟩ 16777216 0, .nakReceive 16448 0 0 0, .nakReceive 0 8 0 0, .nakReceive 0 0 65536 0, .ackTimeout 0 ⟨0, 0⟩ ⟨16777216, 0⟩, .ackTimeout 0 ⟨0, 0⟩ ⟨0, 4096⟩,
    .pathHoldDownExpiry 16448 0, .pathHoldDownExpiry 0 64, .peerUnreachable 0 64, .connect { cm0 with cls := 4 },
    .keyRevoking 1048576, .qpClosingDone 65536, .envelopeMessage 0 ⟨0, 0⟩ 64 0 [], .envelopeMessage 0 ⟨0, 65536⟩ 0 0 [], .bulkWaitExpiry ⟨64, 0⟩, .bulkWaitExpiry ⟨0, 4096⟩,
    .bulkMessage 0 [{ bk0 with cls := 4 }], .policerWrite .fm 16383 0 0, .routeEntryWrite .fm 16448 0 0,
    .laneControlWordSend 8, .statusWord 8 lw0, .testWord 0 { lw0 with failed := 512 }, .laneFailed 0 9, .retrainDone 0 512,
    .linkUp 0 0 8 0, .linkUp 0 0 0 64, .mkaFrame 8 [], .saKeyInstall 0 4, .portRetrain .fm 8, .portSwapLane .fm 0 8,
    .prbsCtlWrite .fm 0 9 0] : List Instr).all (fun i => !i.wf) = true := by decide +kernel

theorem test_register_refused : ([.patSwitchArm .fm 281474976710656, .gateSwitchArm .fm 8 0, .gateSwitchCancel .fm 8,
    .patternWindowWrite .fm 524288 0, .nbuSpareMap .keeper 0 256, .cellSpareMap .keeper 4 0, .arraySpareMap .keeper 0 48,
    .indexRemove .fm 1048576, .indexFlush .fm 16, .bankScopeWrite .fm 16 true 0, .bankScopeWrite .fm 0 true 4096,
    .qpInspectRead .keeper 65536, .eventTailWrite .fm 4096, .powerCfgWrite .fm 8, .registerWrite .fm 4096 0 0,
    .registerWrite .fm 0 1048576 0, .managementRequest 16384 mm0, .oobFrame { of0 with etherType := 65536 },
    .i3cAccess 17592186044416 none, .flashErase .fm 134217728, .flashProgram .fm 134217728, .tenantAdmit .fm 4096 true,
    .setKey 0 4096 0 0, .setConsent 0 0 8, .readLog none 4294967296, .stopClock .keeper 256, .fatalError 256,
    .keeperShedRaise 16384, .keeperCoreFault 3, .railOutOfRange 13, .thermalAlert (.die 20) 0, .thermalClear (.stack 12),
    .thermalCapRise 12, .endpointAccess ⟨17592186044416, 0, none⟩, .endpointAccess ⟨0, 1, some []⟩] : List Instr).all
    (fun i => !i.wf) = true := by decide +kernel

/-! ## A small node in Serving -/

/-- A test of a next state. -/
def nx (o : Out) (p : State → Bool) : Bool :=
  match o with
  | .next t => p t
  | _ => false

/-- A connection of tenant 7 with node 20, or what replaces its fields. -/
def cn0 : Conn :=
  { state := .ready, cls := 1, tenant := 7, peerNode := 20, peerDomain := 1, peerQp := 9, shared := false, compat := false,
    relay := false, cause := 0, since := 0, peerGone := false, nextPsn := 0, buffered := [], assembling := [], sendPsn := 0,
    ackDue := [] }

def md0 : Model :=
  { maskMode := 0, defaultProgram := 0, scoreScale := fone, window := 0, sinks := 0, slopes := [], digest := 0 }

def pg0 : Program :=
  { qheadsMax := 16, customer := false, split := false, modes := 255, costs := [⟨1, 64, 64, 64, 64, 64⟩],
    words := [], digest := 0 }

/-- Sequence 3: one layer, one KV head, BF16, D 64, of tenant 7. -/
def sq0 : Seq :=
  { state := .opened, model := 2, generation := 1, tenant := 7, mirrored := false, pinned := false, split := false, format := 1,
    d := 64, layers := 1, kvHeads := 1, length := 256, headDir := 0, buddy := 0, lastUse := 0, openRow := 0, damaged := false,
    loanSeq := false }

/-- Block 0 of sequence 3: four granules from granule 0, sealed. -/
def cd0 : Card :=
  { handle := 3 * 4096 + 1, owner := 7, origin := 7, model := 2, layer := 0, head := 0, half := 0, block := 0, state := .sealed,
    valid := 256, format := 1, d := 64, loc := .stack 0, scale := none, refs := 1, pinned := false, mirrored := false,
    published := false, openSet := false, link := none, lastUse := 0, annexGranules := 0, crc := 0, chain := 0 }

/-- A key of tenant 7 over bytes 0x4000 to 0x4FFF, of no leaf. -/
def ky0 : Key :=
  { state := .valid, generation := 0, tenant := 7, rights := 7, span := false, base := 0x4000, length := 4096, process := none,
    revokeDue := none, revoker := none, inFlight := 0 }

def tn0 : Tenant :=
  { state := .keyed, auth := 0, isSealed := false, key := some 5, keyDue := none, ticket := none, consent := 0,
    consentDue := none }

/-- The pattern: row entry 0 with one slot, requester 20, class L2, model 2; it opens L8. -/
def pat0 : List Host.Cell :=
  Mem.write (Mem.write (Mem.write [] 0 (leBytes 4 1 ++ leBytes 2 1)) 0x10000
    (leBytes 2 0 ++ leBytes 1 1 ++ leBytes 1 1 ++ leBytes 2 1536 ++ leBytes 1 192)) 0x20000
    (leBytes 2 20 ++ leBytes 1 2 ++ leBytes 1 255 ++ leBytes 3 65535 ++ leBytes 1 0 ++ leBytes 2 0 ++ leBytes 2 65535)

def en0 : RowEntry := patEntryAt pat0 0

/-- Queue pairs 4 (SCHED), 5 (BEST), 6 (LOAN, node 30) and 7 (DATA). -/
def cns0 : Tbl Conn :=
  [(4 * 4096, { cn0 with cls := 0 }), (5 * 4096, cn0), (6 * 4096, { cn0 with cls := 2, tenant := 0, peerNode := 30 }),
   (7 * 4096, { cn0 with cls := 3 })]

/-- The node in row 100 of Serving, Locked, with sequence 3 and key 0. -/
def sv : State :=
  let r := State.reset
  let s : State := { r with
    clock := ⟨100, 0⟩
    node := { r.node with state := .serving, committed := true, served := true, restDone := true,
                          models := [(2, md0)], library := [(0, pg0)], resident := [0] }
    sync := { r.sync with state := .locked, ptp := true }
    pat := { r.pat with active := pat0, entry := some en0, exec := some en0 }
    cat := { r.cat with seqs := [(3, sq0)], leaves := [(leafKey 3 0 0 0 0, 0)], cards := [(0, cd0)], granules := runOf 0 4 }
    xport := { r.xport with conns := cns0, keys := [(0, ky0)] }
    vault := { r.vault with tenants := [(7, tn0)] } }
  ((((s.setFld rNodeIdNode 5).setFld rNodeIdDomain 1).setFld rBootStatusImage 1).setFld rBootStatusLocked 1).setFld
    (rFmNodesEntries 0) 0x8009

/-- A header of node 20 on queue pair 5. -/
def hd0 : Head :=
  { qp := 5, srcQp := 9, srcNode := 20, srcDomain := 1, relayTenant := none, tag := 1, rowTag := 0, model := 2, handle := 3 * 4096 + 1,
    oBf16 := false, fence := false, bodyLen := 0, ns := 10 }

/-- The same on the SCHED queue pair 4, for row 100. -/
def hs0 : Head := { hd0 with qp := 4, rowTag := 100 }

/-- A state in canonical form, as a test. -/
def canon (s : State) : Bool :=
  Mem.wf s.mem && Tbl.wf s.regs && Tbl.wf s.cat.seqs && Tbl.wf s.cat.leaves && Tbl.wf s.cat.cards && Tbl.wf s.work.cmds &&
    Tbl.wf s.mover.moves && s.work.cmds.all (fun p => p.1 < s.work.next) && s.mover.moves.all fun p => p.1 < s.mover.next

theorem canon_iff (s : State) (h : canon s = true) : Canonical s := by
  simp only [canon, Bool.and_eq_true, List.all_eq_true, decide_eq_true_eq] at h
  obtain ⟨⟨⟨⟨⟨⟨⟨⟨h1, h2⟩, h3⟩, h4⟩, h5⟩, h6⟩, h7⟩, h8⟩, h9⟩ := h
  exact ⟨h1, h2, h3, h4, h5, h6, h7, h8, h9⟩

theorem test_sv_canonical : Canonical sv := canon_iff sv (by decide +kernel)

/-- `Reaches` as a test. -/
def gets (i : Instr) (op : Nat) (h : Head) (k : Nat) (c : Conn) (s : State) : Bool :=
  (cacheCommand i = some (op, h) : Bool) && (s.sender h = some (k, c) : Bool) && (c.state = .ready : Bool) &&
    (c.cls ≠ 2 : Bool) && (s.arrivalFail op h (s.scheduled op h c) = none : Bool) && !s.fenced h &&
    (handledRow (s.scheduled op h c) h s.row = s.row : Bool)

theorem reaches_of {i : Instr} {op : Nat} {h : Head} {k : Nat} {c : Conn} {s : State} (g : gets i op h k c s = true) :
    Reaches i op h k c s := by
  simp only [gets, Bool.and_eq_true, decide_eq_true_eq, Bool.not_eq_true'] at g
  obtain ⟨⟨⟨⟨⟨⟨h1, h2⟩, h3⟩, h4⟩, h5⟩, h6⟩, h7⟩ := g
  exact ⟨h1, h2, h3, h4, h5, h6, h7⟩

/-- The BEST connection of tenant 7, and the SCHED one. -/
abbrev k5 : Nat := 5 * 4096
abbrev k4 : Nat := 4 * 4096
abbrev c4 : Conn := { cn0 with cls := 0 }

/-! ## Step, reset, cache commands: witnesses and single steps -/

theorem witness_step : { sv with pending := [.nop 0] }.pending = .nop 0 :: [] ∧ sv.pending = [] := by decide +kernel

theorem witness_canonical : Canonical sv ∧ ∃ t, step sv = .next t := ⟨test_sv_canonical, sv, rfl⟩

theorem witness_queue : nx (exec (.nop 0) sv) (fun t => t.pending = sv.pending) = true := by decide +kernel

/-- The rows of R44 about row 100: 99, 100, 101 and 102, and a last byte after 3,328 ns. -/
theorem witness_ScheduledReceipt (i : Instr) (hi : i = .attend { hs0 with rowTag := 99 } at0 ∨ i = .attend { hs0 with rowTag := 100 } at0 ∨
    i = .attend { hs0 with rowTag := 101 } at0 ∨ i = .attend { hs0 with rowTag := 102 } at0) :
    ∃ h, cacheCommand i = some (opAttend, h) ∧ sv.sender h = some (k4, c4) ∧
    c4.state = .ready ∧ sv.scheduled opAttend h c4 = true ∧ sv.refusesState opAttend = false ∧ sv.fenced h = false ∧ h.ns ≤ 3328 ∧
    (sv.inFlight.any fun g => sameSender g h && g.tag = h.tag) = false ∧ sv.inFlight.length < 4096 ∧
    (intendedRow h.rowTag sv.row < sv.row ∨ intendedRow h.rowTag sv.row = sv.row ∨ intendedRow h.rowTag sv.row = sv.row + 1 ∨
      (sv.row : Int) + 2 ≤ intendedRow h.rowTag sv.row) := by
  rcases hi with rfl | rfl | rfl | rfl <;> refine ⟨_, rfl, ?_⟩ <;> decide +kernel

/-- A last byte at 3,329 ns. -/
def hlate (tag : Nat) : Head := { hs0 with rowTag := tag, ns := 3329 }

theorem witness_LateReceipt : sv.sender (hlate 102) = some (k4, c4) ∧ sv.scheduled opAttend (hlate 102) c4 = true ∧
    sv.fenced (hlate 102) = false ∧ 3328 < (hlate 102).ns ∧ intendedRow (hlate 102).rowTag (sv.row + 1) = (sv.row : Int) + 2 := by
  decide +kernel

/-- The same commands held for row 100: handled, too late, too early. -/
def svheld (i : Instr) : State := { sv with work := { sv.work with held := [⟨100, i⟩, ⟨101, i⟩] } }

theorem witness_HeldReceipt (i : Instr) (hi : i = .attend { hs0 with rowTag := 99 } at0 ∨ i = .attend { hs0 with rowTag := 100 } at0 ∨
    i = .attend { hs0 with rowTag := 102 } at0) :
    ∃ h, cacheCommand i = some (opAttend, h) ∧ (svheld i).sender h = some (k4, c4) ∧ (svheld i).scheduled opAttend h c4 = true ∧
    (svheld i).refusesState opAttend = false ∧
    (svheld i).work.held.filter (fun w => w.row ≤ (svheld i).row) = [⟨(svheld i).row, i⟩] ∧
    (intendedRow h.rowTag (svheld i).row < (svheld i).row ∨ intendedRow h.rowTag (svheld i).row = (svheld i).row ∨
      ((svheld i).row : Int) + 2 ≤ intendedRow h.rowTag (svheld i).row) := by
  rcases hi with rfl | rfl | rfl <;> refine ⟨_, rfl, ?_⟩ <;> decide +kernel

theorem test_late_receipt : nx (exec (.attend (hlate 100) at0) sv) (fun t => t.work.held = [⟨101, .attend (hlate 100) at0⟩] && t.out = []) = true ∧
    nx (exec (.attend (hlate 102) at0) sv) (fun t => t.work.held = [⟨102, .attend (hlate 102) at0⟩]) = true := by decide +kernel

theorem test_receipt_rows : nx (exec (.attend { hs0 with rowTag := 99 } at0) sv) (fun t =>
      t.out = [.completion 4 20 9 1 opAttend 100 (Outcome.tooLate { hs0 with rowTag := 99 } .arrival)]) = true ∧
    nx (exec (.attend { hs0 with rowTag := 101 } at0) sv) (fun t =>
      t.work.held = [⟨101, .attend { hs0 with rowTag := 101 } at0⟩] && t.out = []) = true ∧
    nx (exec (.attend { hs0 with rowTag := 102 } at0) sv) (fun t =>
      t.out = [.completion 4 20 9 1 opAttend 100 (Outcome.noRes { hs0 with rowTag := 102 } 5)]) = true := by decide +kernel

/-- A choice finds a number where one passes, and what it finds passes. -/
theorem choose_some (s : State) (m k : Nat) (ok : Nat → Bool) (hk : k < m) (h : ok k = true) :
    ∃ j, s.choose m ok = (some j, { s with fresh := s.fresh + 1 }) ∧ ok j = true := by
  obtain ⟨j, e⟩ := firstFrom_finds (Config.freeNat s.fresh) hk h
  exact ⟨j, by simp [State.choose, e], (firstFrom_some (by omega) e).1⟩

/-- Where no page is taken, pages are found. -/
theorem grabPages_ok (s : State) (n : Nat) (h0 : 0 < n) (hn : n ≤ tablePages) (hp : s.cat.pages = []) :
    ∃ j, s.grabPages n = some ((List.range n).map (j + ·),
      { s with fresh := s.fresh + 1, cat := { s.cat with pages := (List.range n).map (j + ·) } }) := by
  obtain ⟨j, e, _⟩ := choose_some s tablePages 0 (pagesFree s.cat.pages n) (by decide) (by simp [hp, pagesFree, hn])
  have h : n ≠ 0 := by omega
  exact ⟨j, by
    unfold State.grabPages
    rw [if_neg h, e]
    simp [hp]⟩

theorem takePages_one (s : State) (o : Nat) (hp : s.cat.pages = []) :
    ∃ u, s.takePages o 1 = some u ∧ u.cat.cards = s.cat.cards ∧ u.cat.pages.length = 1 := by
  obtain ⟨j, e⟩ := grabPages_ok s 1 (by decide) (by decide) hp
  simp [State.takePages, e, State.inShadow]

/-- A slot is found where slot `a` is Closed. -/
theorem takeSlot_ok (s : State) (a : Nat) (ha : a < seqSlots) (hs : (s.seqAt a).state = .closed) (hp : s.cat.pages = []) :
    ∃ slot u, s.takeSlot 1 1 = .ok (slot, u) ∧ u.cat.cards = s.cat.cards ∧ u.cat.pages.length = 1 := by
  simp only [State.takeSlot]
  obtain ⟨k, hk, _⟩ := choose_some s seqSlots a (fun k => (s.seqAt k).state = .closed) ha (by simp [hs])
  rw [hk]
  obtain ⟨u, hu, h⟩ := takePages_one { s with fresh := s.fresh + 1 } (dirKey k) hp
  refine ⟨k, u, ?_, h⟩
  have e : dirPagesFor 1 1 = 1 := by decide
  simp only [e, hu]

def ob1 : OpenBody :=
  { format := 1, mirrored := false, pinned := false, library := false, d := 64, layers := 1, kvHeads := 1, buddy := 5,
    forkPosition := 256 }

def ho1 : Head := { hd0 with handle := 0, bodyLen := 16 }

/-- The node with every slot Closed and nothing taken. -/
def sv1 : State := { sv with cat := State.reset.cat }

theorem witness_OpenCompletes : Reaches (.openSeq ho1 ob1) opOpen ho1 k5 cn0 sv1 ∧ openFail (arrived sv1 ho1) cn0 ho1 ob1 = none ∧
    sv1.work.l8 = [] ∧ (∃ x < seqSlots, (sv1.seqAt x).state = .closed) ∧
    ∃ p, pagesFree sv1.cat.pages (dirPagesFor ob1.layers ob1.kvHeads) p = true :=
  ⟨reaches_of (by decide +kernel), by decide +kernel, rfl, ⟨0, by decide, rfl⟩, 0, by decide +kernel⟩

theorem witness_CloseCompletes : Reaches (.closeSeq hd0) opClose hd0 k5 cn0 sv ∧ closeFail (arrived sv hd0) cn0 hd0 = none ∧
    sv.work.l8 = [] :=
  ⟨reaches_of (by decide +kernel), by decide +kernel, rfl⟩

theorem test_close : nx (exec (.closeSeq hd0) sv) (fun t => (t.seqAt 3).state = .closing && t.cat.cards = sv.cat.cards) = true := by
  decide +kernel

theorem test_open_refused : nx (exec (.openSeq ho1 { ob1 with d := 65 }) sv1) (fun t =>
    t.out = [.completion 5 20 9 1 opOpen 100 (Outcome.shape ho1 3)] && t.cat = sv1.cat) = true := by decide +kernel

def hf0 : Head := { hd0 with bodyLen := 16 }

theorem forkInto_one (s : State) (slot handle tenant fp l hd b c : Nat) (q : Seq) (x : Card) (hb : (b + 1) * 256 ≤ fp)
    (hc : s.card c = some x) (hs : x.sharable = true) (hr : x.refs < 65535) :
    ∃ t, s.forkInto slot handle tenant fp q [(l, hd, b, [c])] = .ok t := by
  have e : s.takeRef handle [c] = .ok ([c], [c].foldl State.share s) := by simp [State.takeRef, hc, hr, hs]
  exact ⟨([c].foldl State.share s).putCards slot l hd b [c], by simp [State.forkInto, hb, e]⟩

/-- The state after the walk of the FORK. -/
def sfw : State := (arrived sv hf0).forkWalk 3 256

theorem fork_ok : ((arrived sv hf0).doFork hf0 7 ob1).1.status = .ok := by
  obtain ⟨slot, u, h, hc, hp⟩ := takeSlot_ok sfw 0 (by decide) (by decide +kernel) rfl
  have e1 : sfw.forkBlocks (handleSlot hf0.handle) ob1.forkPosition = [(0, 0, 0, [0])] := by decide +kernel
  have e3 : sfw.forkPages (handleSlot hf0.handle) ob1.forkPosition = 0 := by decide +kernel
  have e4 : ((arrived sv hf0).seqAt (handleSlot hf0.handle)) = sq0 := by decide +kernel
  have e5 : sfw.forkBeyond (handleSlot hf0.handle) ob1.forkPosition = false := by decide +kernel
  have e6 : (sfw.namesWhere [(0, 0, 0, [0])] fun c => c.state = .lost || c.loc.invalid sfw.nodeId sfw.mover.size) = [] := by
    decide +kernel
  have e0 : (arrived sv hf0).forkWalk (handleSlot hf0.handle) ob1.forkPosition = sfw := rfl
  have h' : sfw.takeSlot sq0.layers sq0.kvHeads = .ok (slot, u) := h
  unfold State.doFork
  simp only [e0, e1, e3, e4, e5, e6, h', Bool.false_eq_true, if_false]
  rw [if_neg (by simp [State.freePages, hp, tablePages])]
  have e7 : decide (ob1.forkPosition < (0 + 1) * 256) = false := by decide
  have e9 (slot n handle tenant : Nat) (q : Seq) : ∃ t, (u.setSeq n q).forkInto slot handle tenant ob1.forkPosition q [(0, 0, 0, [0])] = .ok t :=
    forkInto_one _ slot handle tenant _ 0 0 0 0 q cd0 (by decide) (by show Tbl.get u.cat.cards 0 = _; rw [hc]; decide +kernel) rfl
      (by decide)
  simp only [List.filter_cons, List.filter_nil, e7, Bool.false_and, Bool.false_eq_true, if_false, List.contains_nil, Bool.not_false,
    Bool.true_and, e6, decide_true, if_true]
  split
  · rename_i he
    exact absurd (he.symm.trans (e9 _ _ _ _ _).choose_spec) (by simp)
  · simp only [ne_eq, not_true_eq_false, if_false]
    split
    · rfl
    · rename_i he
      exact absurd (he.symm.trans (e9 _ _ _ _ _).choose_spec) (by simp)

/-- A scheduled APPEND of one position at the tail of the sequence. -/
def sv2 : State := { sv with cat := { sv.cat with cards := [(0, { cd0 with state := .filling, valid := 255 })],
                                                    seqs := [(3, { sq0 with length := 255 })] } }

def ap1 : AppendBody := { layer := 0, head := 0, inFormat := 1, first := 255, count := 1, payload := List.replicate 256 0 }
def ha1 : Head := { hs0 with bodyLen := 272 }

theorem witness_AppendIsAdmitted : Reaches (.append ha1 ap1) opAppend ha1 k4 c4 sv2 ∧
    (arrived sv2 ha1).grant opAppend ha1 c4 sv2.row = .ok (some (0, patSlotAt pat0 0)) ∧
    appendFail (arrived sv2 ha1) c4 ha1 ap1 (some (0, patSlotAt pat0 0)) sv2.row = none ∧
    (arrived sv2 ha1).allocateBlocks (handleSlot ha1.handle) ap1.layer ap1.head ha1 ((blockSpan ap1.first ap1.count).filter fun x =>
      ((arrived sv2 ha1).cardsAt (handleSlot ha1.handle) ap1.layer ap1.head x).isNone) = .ok (arrived sv2 ha1) ∧
    appendLast (arrived sv2 ha1) ha1 ap1 = none :=
  ⟨reaches_of (by decide +kernel), by decide +kernel, by decide +kernel, rfl, by decide +kernel⟩

theorem test_append : nx (exec (.append ha1 ap1) sv2) (fun t => t.work.appends.length = 1 && t.out = [] &&
    (t.work.appends.flatMap AppendJob.acts).length = 5 && t.mem = sv2.mem) = true := by decide +kernel

/-- One query over block 0: one head, BF16. -/
def at1 : AttnBody :=
  { layer := 0, head := 0, qheads := 1, qFormat := 1, firstBlock := 0, qcount := 1, blockCount := 1, doFormat := 1,
    gradFactor := 0, destKey := 0, destOffset := 0, destBase := 0, payload := List.replicate 132 0 }
def hq1 : Head := { hs0 with bodyLen := 148 }
def hq2 : Head := { hd0 with bodyLen := 148, tag := 2 }
def pl1 : AttnPlan := { program := 0, blocks := [0], spans := [0], leaves := 1, key := none }

/-- An ATTEND of class L2, and an ATTEND_MULTI of class L8. -/
theorem witness_AttentionIsAdmitted :
    (Reaches (.attend hq1 at1) opAttend hq1 k4 c4 sv ∧
      (arrived sv hq1).grant opAttend hq1 c4 sv.row = .ok (some (0, patSlotAt pat0 0)) ∧
      attnCheck (arrived sv hq1) c4 opAttend hq1 at1 (some (0, patSlotAt pat0 0)) sv.row = .ok pl1 ∧
      (sv.seqAt (handleSlot hq1.handle)).damaged = false ∧
      sv.walkStatus hq1 0 0 (sv.visits (handleSlot hq1.handle) 0 0 pl1.blocks) true = none) ∧
    Reaches (.attendMulti hq2 at1) opAttendMulti hq2 k5 cn0 sv ∧
      (arrived sv hq2).grant opAttendMulti hq2 cn0 sv.row = .ok none ∧
      attnCheck (arrived sv hq2) cn0 opAttendMulti hq2 at1 none sv.row = .ok pl1 ∧
      (sv.seqAt (handleSlot hq2.handle)).damaged = false ∧ sv.changeWaits (handleSlot hq2.handle) = false ∧
      sv.walkStatus hq2 0 0 (sv.visits (handleSlot hq2.handle) 0 0 pl1.blocks) false = none :=
  ⟨⟨reaches_of (by decide +kernel), by decide +kernel, by decide +kernel, by decide +kernel, by decide +kernel⟩,
    reaches_of (by decide +kernel), by decide +kernel, by decide +kernel, by decide +kernel, by decide +kernel, by decide +kernel⟩

theorem test_attend : nx (exec (.attend hq1 at1) sv) (fun t => t.out = [] && t.work.l8 = [] &&
    (t.cmd 0).map (fun c => (c.cls, c.work, c.visits.map fun v => (v.block, v.valid))) = some (.l2, 1, [(0, 256)])) = true ∧
    nx (exec (.attendMulti hq2 at1) sv) (fun t => t.work.l8 = [0]) = true := by decide +kernel

theorem test_attend_refused : nx (exec (.attend hq1 { at1 with qheads := 0 }) sv) (fun t =>
    t.out = [.completion 4 20 9 1 opAttend 100 (Outcome.shape hq1 2)]) = true := by decide +kernel

/-- GRAD into bytes 0x4000000 and on, which lie in no leaf. -/
def kyg : Key := { ky0 with base := 0x4000000, length := 131072 }
def svg : State := { sv with xport := { sv.xport with keys := [(0, kyg)] } }
def hg1 : Head := { hs0 with bodyLen := 320 }
def gd1 : AttnBody := { at1 with payload := List.replicate 272 0 }
def plg : AttnPlan := { pl1 with key := some (0, kyg, 0x4000000) }

theorem witness_GradIsAdmitted : Reaches (.grad hg1 gd1) opGrad hg1 k4 c4 svg ∧
    (arrived svg hg1).grant opGrad hg1 c4 svg.row = .ok (some (0, patSlotAt pat0 0)) ∧
    attnCheck (arrived svg hg1) c4 opGrad hg1 gd1 (some (0, patSlotAt pat0 0)) svg.row = .ok plg ∧
    (svg.seqAt (handleSlot hg1.handle)).damaged = false ∧
    svg.walkStatus hg1 0 0 (svg.visits (handleSlot hg1.handle) 0 0 plg.blocks) true = none :=
  ⟨reaches_of (by decide +kernel), by decide +kernel, by decide +kernel, by decide +kernel, by decide +kernel⟩

theorem test_grad : nx (exec (.grad hg1 gd1) svg) (fun t =>
    (t.cmd 0).map (fun c => (c.opcode, c.key, c.work)) = some (opGrad, some 0, 1) && t.work.gradBytes = 131072 &&
      (Tbl.get t.xport.keys 0).map Key.inFlight = some 1) = true := by decide +kernel

/-- Two partials for one head at D 64, both empty of values. -/
def mb1 : MergeBody := { inputs := 2, qheads := 1, d := 64, mode := 0, payload := List.replicate (2 * (16 + 256)) 0 }
def hm1 : Head := { hs0 with bodyLen := 560 }

theorem witness_MergeIsAdmitted : Reaches (.merge hm1 mb1) opMerge hm1 k4 c4 sv ∧
    (arrived sv hm1).grant opMerge hm1 c4 sv.row = .ok (some (0, patSlotAt pat0 0)) ∧
    mergeFail (arrived sv hm1) c4 hm1 mb1 (some (0, patSlotAt pat0 0)) sv.row = none :=
  ⟨reaches_of (by decide +kernel), by decide +kernel, by decide +kernel⟩

theorem test_merge : nx (exec (.merge hm1 mb1) sv) (fun t => t.out = [] && (t.cmd 0).map Cmd.mergeIn = some (some mb1)) = true := by
  decide +kernel

/-- Prefix commands: bank set 1 admits every tenant; the sequence holds no block for a find. -/
def cb1 : ChainBody := { banks := 2, priority := 0, count := 1, firstBlock := 0, words := [77] }
def hc1 : Head := { hd0 with bodyLen := 24 }
def svi : State := (sv.setFld (rBankScopeEnable 1) 1).setFld (rBankScopeTenant 1) 0xFFF
def svf : State := { svi with cat := { svi.cat with leaves := [], cards := [], granules := [] } }

theorem witness_FindCompletes : Reaches (.prefixFind hc1 cb1) opPrefixFind hc1 k5 cn0 svf ∧
    findFail (arrived svf hc1) cn0 hc1 cb1 = none ∧
    svf.work.l8 = [] ∧
    (chainWalked svf hc1 cb1).attachWords (fun x => (findSets cb1).contains x) (handleSlot hc1.handle) hc1.handle
      (svf.seqAt (handleSlot hc1.handle)) cb1.firstBlock (cb1.words.take cb1.count) [] = (.done [], chainWalked svf hc1 cb1) :=
  ⟨reaches_of (by decide +kernel), by decide +kernel, rfl, rfl⟩

theorem test_find_nothing : nx (exec (.prefixFind hc1 cb1) svf) (fun t =>
    t.out = [.completion 5 20 9 1 opPrefixFind 100 (Outcome.good hc1 (.matched 0))]) = true := by decide +kernel

theorem reserve_one (s : State) (hp : s.cat.pages = []) : ∃ pss u, s.reserveRecords sq0 1 = some (pss, u) := by
  obtain ⟨j, e⟩ := grabPages_ok s 1 (by decide) (by decide) hp
  have r : recordSize sq0 = 1 := by decide
  simp [State.reserveRecords, r, e]

def cb2 : ChainBody := { cb1 with banks := 1 }

theorem witness_PublishCompletes : Reaches (.prefixPublish hc1 cb2) opPrefixPublish hc1 k5 cn0 svi ∧
    publishFail (arrived svi hc1) cn0 hc1 cb2 = none ∧ svi.work.l8 = [] ∧ (svi.seqAt (handleSlot hc1.handle)).damaged = false ∧
    (∃ pss u, (chainWalked svi hc1 cb2).reserveRecords (svi.seqAt (handleSlot hc1.handle)) cb2.count = some (pss, u)) ∧
    ∀ (u : State) pss, ∃ rs v, u.publishAll (svi.seqAt (handleSlot hc1.handle)) (handleSlot hc1.handle) hc1.handle 7 1 0 0
      (cb2.words.take cb2.count) pss = (rs, v) :=
  ⟨reaches_of (by decide +kernel), by decide +kernel, rfl, by decide +kernel, reserve_one _ rfl, fun _ _ => ⟨_, _, rfl⟩⟩

/-- A find that meets an entry attaches its leaf and marks it found. -/
def ent1 : Entry :=
  { chain := 77, priority := 0, set := 1, valid := true, model := 2, format := 1, d := 64, layers := 1, kvHeads := 1,
    tenant := 7, block := 0, handle := 0, record := 0, publishRow := 0, lastFind := 0, crc := 0 }
def svf1 : State := { svf with
  cat := { svf.cat with cards := [(0, { cd0 with refs := 1, published := true, openSet := true })], granules := runOf 0 4 }
  index := { svf.index with entries := [(65536, ent1.sealed)], copies := [(65536, ent1.sealed)], records := [(65536, [0])] } }

theorem test_find_one : nx (exec (.prefixFind hc1 cb1) svf1) (fun t =>
    t.out = [.completion 5 20 9 1 opPrefixFind 100 (Outcome.good hc1 (.matched 1))] && t.leafAt 3 0 0 0 0 = some 0 &&
    (t.card 0).map Card.refs = some 2 && (Tbl.get t.index.entries 65536).map Entry.lastFind = some 100) = true := by
  decide +kernel

/-! ## Ranges and raw commands -/

def rb1 : RangeBody :=
  { firstLayer := 0, lastLayer := 0, firstHead := 0, lastHead := 0, firstPos := 0, endPos := 256, tier := 1, lender := 0 }

theorem witness_PinAndUnpin : Reaches (.pin hf0 rb1) opPin hf0 k5 cn0 sv ∧ rangeFail (arrived sv hf0) opPin cn0 hf0 rb1 = none ∧
    sv.pinnedGranules + sv.pinAdds 7 (sv.rangeCards 3 rb1) ≤ pinnedLimit ∧ Reaches (.unpin hf0 rb1) opUnpin hf0 k5 cn0 sv ∧
    rangeFail (arrived sv hf0) opUnpin cn0 hf0 rb1 = none ∧ (sv.rangeCards 3 rb1).flatten = [0] ∧ sv.card 0 = some cd0 ∧
    pinnable cd0 7 = true ∧ sv.work.l8 = [] ∧ cd0.inStacks = true ∧ sv.leavingStacks 0 = false ∧ sv.runningMove 0 = none :=
  ⟨reaches_of (by decide +kernel), by decide +kernel, by decide +kernel, reaches_of (by decide +kernel), by decide +kernel,
    by decide +kernel, by decide +kernel, by decide +kernel, rfl, rfl, by decide +kernel, by decide +kernel⟩

/-- The leaf is PINNED and on its way into the annex. -/
def svpm : State := { sv with
  cat := { sv.cat with cards := [(0, { cd0 with pinned := true, state := .moving false })] }
  mover := { sv.mover with next := 1, moves := [(0, { Move.request [0] .privileged .annex 90 with started := some 90 })] } }

theorem witness_UnpinWaits : Reaches (.unpin hf0 rb1) opUnpin hf0 k5 cn0 svpm ∧ svpm.work.l8 = [] ∧
    rangeFail (arrived svpm hf0) opUnpin cn0 hf0 rb1 = none ∧ (svpm.rangeCards 3 rb1).flatten = [0] ∧
    svpm.card 0 = some { cd0 with pinned := true, state := .moving false } ∧
    pinnable { cd0 with pinned := true, state := .moving false } 7 = true ∧ svpm.runningMove 0 = some 0 :=
  ⟨reaches_of (by decide +kernel), rfl, by decide +kernel, by decide +kernel, by decide +kernel, by decide +kernel, by decide +kernel⟩

theorem test_unpin_waits : nx (exec (.unpin hf0 rb1) svpm) (fun t => t.out = [] && (t.card 0).map Card.pinned = some true &&
    (t.cmd 0).map (fun c => (c.moves, c.unpins)) = some ([0], [(0, 0)])) = true := by decide +kernel

theorem test_pin : nx (exec (.pin hf0 rb1) sv) (fun t => (t.card 0).map Card.pinned = some true) = true ∧
    nx (exec (.unpin hf0 rb1) sv) (fun t => (t.card 0).map Card.pinned = some false) = true := by decide +kernel

/-- An ALLOC region of 558 GiB fills the pinned limit. -/
def svpin : State := { sv with xport := { sv.xport with keys := [(0, ky0), (1, { ky0 with length := pinnedLimit * 16384 })] } }

theorem witness_PinPastTheLimit : Reaches (.pin hf0 rb1) opPin hf0 k5 cn0 svpin ∧
    rangeFail (arrived svpin hf0) opPin cn0 hf0 rb1 = none ∧ svpin.work.l8 = [] ∧
    pinnedLimit < svpin.pinnedGranules + svpin.pinAdds 7 (svpin.rangeCards 3 rb1) :=
  ⟨reaches_of (by decide +kernel), by decide +kernel, rfl, by decide +kernel⟩

theorem test_pin_no_space : nx (exec (.pin hf0 rb1) svpin) (fun t => t.cat.cards = svpin.cat.cards &&
    t.out = [.completion 5 20 9 1 opPin 100 (rangeOutcome hf0 0 0 true)]) = true := by decide +kernel

/-- A DEMOTE takes the sealed leaf; a PROMOTE of a leaf in the stacks takes none; a MIGRATE lends it. -/
theorem witness_RangesMove : Canonical sv ∧ sv.work.l8 = [] ∧ sv.forkPending 3 = false ∧ (sv.rangeCards 3 rb1).flatten = [0] ∧ Reaches (.demote hf0 rb1) opDemote hf0 k5 cn0 sv ∧
    rangeFail (arrived sv hf0) opDemote cn0 hf0 rb1 = none ∧ sv.movable cd0 (some 7) .annex = true ∧
    Reaches (.promote hf0 rb1) opPromote hf0 k5 cn0 sv ∧ rangeFail (arrived sv hf0) opPromote cn0 hf0 rb1 = none ∧
    sv.movable cd0 none .stack = false ∧
    Reaches (.migrate hf0 { rb1 with tier := 2, lender := 30 }) opMigrate hf0 k5 cn0 sv ∧
    rangeFail (arrived sv hf0) opMigrate cn0 hf0 { rb1 with tier := 2, lender := 30 } = none ∧
    sv.movable cd0 (some 7) (targetOf { rb1 with tier := 2, lender := 30 }) = true :=
  ⟨test_sv_canonical, rfl, by decide +kernel, by decide +kernel, reaches_of (by decide +kernel), by decide +kernel, by decide +kernel, reaches_of (by decide +kernel),
    by decide +kernel, by decide +kernel, reaches_of (by decide +kernel), by decide +kernel, by decide +kernel⟩

theorem test_demote : nx (exec (.demote hf0 rb1) sv) (fun t => t.out = [] &&
    t.mover.moves.map (fun p => (p.2.cards, p.2.dest)) = [([0], .annex)]) = true ∧
    nx (exec (.promote hf0 rb1) sv) (fun t => t.out = [.completion 5 20 9 1 opPromote 100 (rangeOutcome hf0 0 1 false)] &&
      t.mover.moves = []) = true ∧
    nx (exec (.migrate hf0 { rb1 with tier := 2, lender := 30 }) sv) (fun t =>
      t.mover.moves.map (fun p => p.2.dest) = [.loan 30]) = true := by decide +kernel

theorem witness_FreeRange : Reaches (.freeRange hf0 rb1) opFreeRange hf0 k5 cn0 sv ∧
    rangeFail (arrived sv hf0) opFreeRange cn0 hf0 rb1 = none ∧ sv.rangeBlocks 3 rb1 (isInside rb1) = [(0, 0, 0)] ∧
    Canonical sv ∧ sv.work.l8 = [] ∧ sv.forkPending 3 = false ∧
    Canonical svf ∧ svf.work.l8 = [] ∧ svf.forkPending 3 = false ∧ Reaches (.freeRange hf0 rb1) opFreeRange hf0 k5 cn0 svf ∧
    rangeFail (arrived svf hf0) opFreeRange cn0 hf0 rb1 = none ∧ svf.rangeBlocks 3 rb1 (isInside rb1) = [] :=
  ⟨reaches_of (by decide +kernel), by decide +kernel, by decide +kernel, test_sv_canonical, rfl, by decide +kernel,
    canon_iff svf (by decide +kernel), rfl, by decide +kernel, reaches_of (by decide +kernel), by decide +kernel, by decide +kernel⟩

theorem test_free_range : nx (exec (.freeRange hf0 rb1) sv) (fun t => t.leafAt 3 0 0 0 0 = none) = true ∧
    nx (exec (.freeRange hf0 rb1) svf) (fun t => t.out.any fun m => match m with
      | .completion 5 20 9 1 _ 100 o => o.status = .alreadyFree
      | _ => false) = true := by decide +kernel

/-- Raw commands on key 0, whose region begins at 0x4000. -/
def rw1 : RawBody := { key := 0, length := 8, offset := 4088, op0 := 3, op1 := 9, data := [1, 2, 3, 4, 5, 6, 7, 8] }
def hr1 : Head := { hd0 with bodyLen := 16 }
def hw1 : Head := { hd0 with bodyLen := 24 }
def hx1 : Head := { hd0 with bodyLen := 32 }

/-- Nothing holds up a raw operation of at most 8 bytes at 0x4FF8. -/
theorem clear_of {s : State} (h : s.work.l8 = [] ∧ s.work.raws = [] ∧ (regionsOf 0x4FF8 8).all (fun r => !s.inRound r.1 r.2) = true) :
    RawClear s 0x4FF8 8 :=
  ⟨h.1, h.2.1, fun r hr => by simpa using List.all_eq_true.1 h.2.2 r hr⟩

theorem witness_Read : Reaches (.readMem hr1 rw1) opRead hr1 k5 cn0 sv ∧
    rawCheck opRead (arrived sv hr1) cn0 hr1 rw1 = .ok (0, 0x4FF8) ∧ 0x4FF8 + rw1.length ≤ stackBytes ∧ 1 ≤ rw1.length ∧
    sv.poisoned 0x4FF8 rw1.length = false ∧
    (∀ x, 0x4FF8 ≤ x → x < 0x4FF8 + rw1.length → granIsLeaf (x / 16384) = true ∧
      ∀ p ∈ sv.cat.cards, p.2.undefinedAt x = false) ∧
    ({ sv with poison := [0x13F] } : State).poisoned 0x4FF8 rw1.length = true ∧
    Reaches (.readMem hr1 rw1) opRead hr1 k5 cn0 { sv with poison := [0x13F] } ∧ RawClear sv 0x4FF8 8 ∧
    RawClear { sv with poison := [0x13F] } 0x4FF8 8 := by
  refine ⟨reaches_of (by decide +kernel), by decide +kernel, by decide +kernel, by decide, by decide +kernel, ?_, by decide +kernel,
    reaches_of (by decide +kernel), clear_of (by decide +kernel), clear_of (by decide +kernel)⟩
  intro x h1 h2
  have h2' : x < 0x4FF8 + 8 := h2
  have h : ∀ i < 8, granIsLeaf ((0x4FF8 + i) / 16384) = true ∧ ∀ p ∈ sv.cat.cards, p.2.undefinedAt (0x4FF8 + i) = false := by
    decide +kernel
  have := h (x - 0x4FF8) (by omega)
  rwa [show 0x4FF8 + (x - 0x4FF8) = x by omega] at this

theorem test_read_past_the_key : nx (exec (.readMem hr1 { rw1 with offset := 4089 }) sv) (fun t =>
    t.out = [.completion 5 20 9 1 opRead 100 (Outcome.bare hr1 .keyInvalid 0)]) = true ∧
    nx (exec (.readMem hr1 rw1) { sv with poison := [0x13F] }) (fun t =>
      t.out = [.completion 5 20 9 1 opRead 100 (Outcome.poison hr1 1)]) = true := by decide +kernel

theorem witness_Write : Reaches (.writeMem hw1 rw1) opWrite hw1 k5 cn0 sv ∧
    rawCheck opWrite (arrived sv hw1) cn0 hw1 rw1 = .ok (0, 0x4FF8) ∧ Canonical sv ∧ RawClear sv 0x4FF8 8 ∧
    0x4FF8 + rw1.length ≤ stackBytes ∧ 1 ≤ rw1.length ∧ rw1.data.length = rw1.length ∧ sv.edgePoison 0x4FF8 rw1.length = false :=
  ⟨reaches_of (by decide +kernel), by decide +kernel, test_sv_canonical, clear_of (by decide +kernel), by decide, by decide, by decide,
    by decide +kernel⟩

theorem test_write : nx (exec (.writeMem hw1 rw1) sv) (fun t => t.load 0x4FF8 8 = [1, 2, 3, 4, 5, 6, 7, 8] &&
    t.mem.length = 8 && t.out = [.completion 5 20 9 1 opWrite 100 (Outcome.good hw1 .none)]) = true := by decide +kernel

/-- Eight bytes that hold 5. -/
def svm : State := { sv with mem := [(0x4FF8, 5)] }

theorem witness_Atomics : Reaches (.fetchAdd hw1 rw1) opFetchAdd hw1 k5 cn0 svm ∧
    rawCheck opFetchAdd (arrived svm hw1) cn0 hw1 rw1 = .ok (0, 0x4FF8) ∧ Canonical svm ∧ RawClear svm 0x4FF8 8 ∧
    svm.poisoned 0x4FF8 8 = false ∧ Reaches (.cmpSwap hx1 rw1) opCmpSwap hx1 k5 cn0 svm ∧
    rawCheck opCmpSwap (arrived svm hx1) cn0 hx1 rw1 = .ok (0, 0x4FF8) ∧ rw1.op0 < 2 ^ 64 ∧ rw1.op1 < 2 ^ 64 :=
  ⟨reaches_of (by decide +kernel), by decide +kernel, canon_iff svm (by decide +kernel), clear_of (by decide +kernel), by decide +kernel,
    reaches_of (by decide +kernel), by decide +kernel, by decide, by decide⟩

theorem test_atomics : nx (exec (.fetchAdd hw1 rw1) svm) (fun t => t.load 0x4FF8 8 = leBytes 8 8) = true ∧
    nx (exec (.fetchAdd hw1 { rw1 with op0 := 2 ^ 64 - 1 }) svm) (fun t => t.load 0x4FF8 8 = leBytes 8 4 &&
      t.out = [.completion 5 20 9 1 opFetchAdd 100 (Outcome.good hw1 (.data (leBytes 8 5)))]) = true ∧
    nx (exec (.cmpSwap hx1 rw1) svm) (fun t => t.load 0x4FF8 8 = leBytes 8 5) = true ∧
    nx (exec (.cmpSwap hx1 { rw1 with op0 := 5 }) svm) (fun t => t.load 0x4FF8 8 = leBytes 8 9) = true ∧
    nx (exec (.fetchAdd hw1 { rw1 with offset := 4 }) svm) (fun t =>
      t.out = [.completion 5 20 9 1 opFetchAdd 100 (Outcome.shape hw1 7)]) = true := by decide +kernel

/-- 1.0 in memory; adding 2.0, and adding the greatest finite number twice over. -/
def svv : State := { sv with mem := Mem.write [] 0x4FF8 (leBytes 4 0x3F800000 ++ leBytes 4 0x7F7FFFFF) }
def rv1 : RawBody := { rw1 with length := 2, data := leBytes 4 0x40000000 ++ leBytes 4 0 }
def rv2 : RawBody := { rw1 with length := 2, data := leBytes 4 0x40000000 ++ leBytes 4 0x7F7FFFFF }

theorem witness_VecAdd : Reaches (.vecAdd hw1 rv1) opVecAdd hw1 k5 cn0 svv ∧
    rawCheck opVecAdd (arrived svv hw1) cn0 hw1 rv1 = .ok (0, 0x4FF8) ∧ Canonical svv ∧ RawClear svv 0x4FF8 8 ∧
    svv.poisoned 0x4FF8 8 = false ∧
    (List.zipWith fadd (floats (svv.readBytes 0x4FF8 8) 2) (floats rv1.data 2)).all ffinite = true ∧
    Reaches (.vecAdd hw1 rv2) opVecAdd hw1 k5 cn0 svv ∧
    rawCheck opVecAdd (arrived svv hw1) cn0 hw1 rv2 = .ok (0, 0x4FF8) ∧
    (List.zipWith fadd (floats (svv.readBytes 0x4FF8 8) 2) (floats rv2.data 2)).all ffinite = false :=
  ⟨reaches_of (by decide +kernel), by decide +kernel, canon_iff svv (by decide +kernel), clear_of (by decide +kernel), by decide +kernel, by decide +kernel,
    reaches_of (by decide +kernel), by decide +kernel, by decide +kernel⟩

theorem test_vec_add : nx (exec (.vecAdd hw1 rv1) svv) (fun t => t.load 0x4FF8 8 = leBytes 4 0x40400000 ++ leBytes 4 0x7F7FFFFF) = true ∧
    nx (exec (.vecAdd hw1 rv2) svv) (fun t => t.mem = svv.mem &&
      t.out = [.completion 5 20 9 1 opVecAdd 100 (Outcome.poison hw1 4)]) = true := by decide +kernel

theorem witness_RefusedRaw : Reaches (.readMem hr1 { rw1 with length := 0 }) opRead hr1 k5 cn0 sv ∧
    rawCheck opRead (arrived sv hr1) cn0 hr1 { rw1 with length := 0 } = .error (Outcome.shape hr1 5) :=
  ⟨reaches_of (by decide +kernel), by decide +kernel⟩

/-! ## The life of a command -/

/-- A scheduled command of class L2 admitted in row 98, and others made from it. -/
def cm1 : Cmd := { Cmd.start opAttend hq1 7 (some (0, patSlotAt pat0 0)) 0 98 3 with stage := .walked, attn := some at1, visits :=
  [⟨0, [0], [0], [none], 256, none, false⟩] }

/-- The node with commands in flight. -/
def withCmds (s : State) (l : Tbl Cmd) : State := { s with work := { s.work with cmds := l, next := 9 } }

theorem canon_withCmds (l : Tbl Cmd) (h : canon (withCmds sv l) = true) : Canonical (withCmds sv l) := canon_iff _ h

def ok1 : Outcome := Outcome.good hq1 .none
def svd : State := withCmds sv [(0, { cm1 with result := some ok1, stage := .sent }), (1, { cm1 with row := 99, result := some ok1, stage := .sent })]

/-- Row 100: the result of row 98 leaves, the one of row 99 waits. -/
theorem witness_CompletionLeavesOnce : Canonical svd ∧ (svd.cmd 0).bind Cmd.result = some ok1 ∧
    (svd.cmd 0).map Cmd.stage = some .sent ∧ Reachable svd hq1 ∧ 98 + 2 ≤ svd.row ∧ svd.row < 99 + 2 ∧ ok1.status.good = true :=
  ⟨canon_withCmds _ (by decide +kernel), by decide +kernel, by decide +kernel,
    ⟨by decide +kernel, by decide +kernel, by decide +kernel⟩, by decide +kernel, by decide +kernel, by decide +kernel⟩

theorem test_completion : nx (exec (.completionSend 0 256) svd) (fun t => t.cmd 0 = none && (t.cmd 1).isSome &&
      t.out = [.completion 4 20 9 1 opAttend 100 ok1]) = true ∧
    nx (exec (.completionSend 1 256) svd) (fun t => t.out = [] && (t.cmd 1).isSome) = true := by decide +kernel

def sub1 : SubCmd := { lender := 30, handle := 0x5001, level := 0, group := 0, isSent := true, status := none, report := [] }
def svl : State := { withCmds sv [(0, { cm1 with row := 100, stage := .walking }), (1, { cm1 with row := 99 }),
  (2, { cm1 with cls := .l3, row := 97, subs := [sub1] }), (3, { cm1 with cls := .l8, row := 100 })] with clock := ⟨100, 0⟩ }
def svl8 : State := { svl with work := { svl.work with l8 := [3] }, clock := ⟨4196, 0⟩ }

theorem witness_MissedCheckpoints : Canonical svl ∧ (svl.cmd 0).map (fun c => (c.stage, c.row, c.result)) = some (.walking, 100, none) ∧
    (svl.cmd 1).map (fun c => (c.cls, c.row)) = some (.l2, 99) ∧ (svl.cmd 2).map (fun c => (c.cls, c.row)) = some (.l3, 97) ∧
    sub1.status = none ∧ Canonical svl8 ∧ 3 ∈ svl8.work.l8 ∧ 100 + 4096 ≤ svl8.row ∧ Reachable svl8 hq1 :=
  ⟨canon_iff _ (by decide +kernel), by decide +kernel, by decide +kernel, by decide +kernel, by decide +kernel,
    canon_iff _ (by decide +kernel), by decide +kernel, by decide +kernel, ⟨by decide +kernel, by decide +kernel, by decide +kernel⟩⟩

theorem test_deadlines : nx (exec .walkDeadline svl) (fun t => (t.cmd 0).bind Cmd.result = some (Outcome.tooLate hq1 .walk) &&
      ((t.cmd 1).bind Cmd.result).isNone) = true ∧
    nx (exec .computeDeadline svl) (fun t => (t.cmd 1).bind Cmd.result = some (Outcome.tooLate hq1 .compute) &&
      ((t.cmd 2).bind Cmd.result).isNone) = true ∧
    nx (exec .lenderDeadline svl) (fun t => (t.cmd 2).bind Cmd.result = some (Outcome.tooLate hq1 .lender)) = true ∧
    nx (exec (.l8AgeExpiry 3) svl8) (fun t => t.cmd 3 = none && t.work.l8 = [] && t.out.length = 1) = true := by decide +kernel

/-- Held in row 99 for row 100. -/
def svh : State := { sv with work := { sv.work with held := [⟨100, .attend hq1 at1⟩] } }

def svhr (tag : Nat) : State := { sv with work := { sv.work with held := [⟨100, .attend { hq1 with rowTag := tag } at1⟩] } }

theorem witness_Held : cacheCommand (.attend hq1 at1) = some (opAttend, hq1) ∧ svh.refusesState opAttend = false ∧
    svh.work.held.filter (fun w => w.row ≤ svh.row) = [⟨svh.row, .attend hq1 at1⟩] ∧
    (svhr 99).work.held.filter (fun w => w.row ≤ (svhr 99).row) = [⟨(svhr 99).row, .attend { hq1 with rowTag := 99 } at1⟩] ∧
    intendedRow 99 (svhr 99).row < (svhr 99).row ∧ ((svhr 102).row : Int) + 2 ≤ intendedRow 102 (svhr 102).row ∧
    ((svhr 99).sender { hq1 with rowTag := 99 }).isSome = true := by decide +kernel

theorem test_held_late : nx (exec .earlyCommandRelease (svhr 99)) (fun t =>
      t.out = [.completion hq1.qp hq1.srcNode hq1.srcQp hq1.tag opAttend 100 (Outcome.tooLate { hq1 with rowTag := 99 } .arrival)]) = true ∧
    nx (exec .earlyCommandRelease (svhr 102)) (fun t =>
      t.out = [.completion hq1.qp hq1.srcNode hq1.srcQp hq1.tag opAttend 100 (Outcome.noRes { hq1 with rowTag := 102 } 5)]) = true := by decide +kernel

theorem test_release : nx (exec .earlyCommandRelease svh) (fun t => t.work.held = [] && (t.cmd 0).map Cmd.row = some 100) = true := by
  decide +kernel

def sub0 : SubCmd := { sub1 with isSent := false }
def svc : State := { withCmds sv [(0, { cm1 with cls := .l3, row := 99, subs := [sub0] }), (1, { cm1 with cls := .l3, row := 97, subs := [sub1] }),
    (2, { cm1 with stage := .walking }), (3, { cm1 with cls := .l8, work := 1 })] with
  work := { (withCmds sv [(0, { cm1 with cls := .l3, row := 99, subs := [sub0] }), (1, { cm1 with cls := .l3, row := 97, subs := [sub1] }),
    (2, { cm1 with stage := .walking }), (3, { cm1 with cls := .l8, work := 1 })]).work with l8 := [3] } }
def pt1 : Partial := { m := fone, l := fone, empty := false, oBf16 := false, level := 0, group := 0, o := List.replicate 64 fone }

theorem witness_CommandsProgress : Canonical svc ∧ (svc.cmd 0).map (fun c => (c.cls, c.stage, c.row + 1)) = some (.l3, .walked, svc.row) ∧
    (svc.cmd 1).map (fun c => (c.cls, c.attn, c.subs, c.row + 3)) = some (.l3, some at1, [sub1], svc.row) ∧ sub1.isSent = true ∧
    Status.ok.good = true ∧ [pt1].length = at1.pairs.length ∧ (svc.cmd 2).map (fun c => (c.stage, c.seqSlot)) = some (.walking, 3) ∧
    svc.walkerStopped 3 = false ∧ svc.pat.exec = some en0 ∧ en0.l8Open = true ∧ svc.work.l8 = [3] ∧ svc.work.waiting = [] ∧
    svc.work.raws = [] ∧ (svc.cmd 3).map (fun c => (c.stage, c.deferred)) = some (.walked, none) :=
  ⟨canon_iff _ (by decide +kernel), by decide +kernel⟩

theorem test_progress : nx (exec (.l3Forward 0) svc) (fun t => t.out = [.subCommand ⟨30, 0, 0, 0, 100, true, opAttend, 2, 0x5001, at1⟩]) = true ∧
    nx (exec (.lenderPartialsReceive 1 30 0 0 .ok 0 [] [pt1]) svc) (fun t =>
      (t.cmd 1).map (fun c => c.parts.map NodePartial.value) = some [pt1]) = true ∧
    nx (exec (.walkComplete 2) svc) (fun t => (t.cmd 2).map Cmd.stage = some .walked) = true ∧
    nx (exec (.l8CommandStart 300) svc) (fun t => t.work.l8 = [] && t.work.items.length = 1 && t.clock.ns = 300) = true := by
  decide +kernel

/-- Its one partial is in, and a MERGE with two. -/
def svq : State := withCmds sv [(0, { cm1 with row := 99, parts := [⟨0, 0, 0, 0, pt1⟩] }),
  (1, { cm1 with row := 99, opcode := opMerge, attn := none, mergeIn := some mb1, seqSlot := noSeq })]

theorem witness_PartialsAreMerged : Canonical svq ∧ (svq.cmd 0).map (fun c => (svq.partsReady 0 c, c.cls, c.mergeIn, c.attn)) =
    some (true, .l2, none, some at1) ∧ opAttend ≠ opGrad ∧
    (svq.cmd 1).map (fun c => (svq.partsReady 1 c, c.cls, c.mergeIn)) = some (true, .l2, some mb1) :=
  ⟨canon_iff _ (by decide +kernel), by decide +kernel⟩

theorem test_partials : nx (exec (.partialsMerge 0) svq) (fun t => ((t.cmd 0).bind Cmd.result).map Outcome.body = some (.partials [pt1])) = true ∧
    nx (exec (.partialsMerge 1) svq) (fun t => ((t.cmd 1).bind Cmd.result).map Outcome.status = some .ok) = true := by decide +kernel

/-! ## Stitch instructions -/

def cx0 : Ctx :=
  { cmd := 0, item := 0, visit := 0, pos := 0, word := 10, index := 0, rep := none,
    s := [0, 0, 256, 0, 0, 0, 1, 64, 5, 7, 0, 0, 0, 0, 0, 0], v := [], acc := [], m := [0xF0F0F0F0, 0xFF, 0, 0], sb := [],
    query := List.replicate 1 (List.replicate 64 fone), emitted := [], poison := none, ended := false, turn := 0, steps := 3 }

def it0 : Item :=
  { cmd := 0, stack := 0, region := 0, visits := [0], scheduled := true, order := 0, path := 0, program := 0,
    cost := ⟨1, 64, 64, 64, 64, 64⟩, onArray := false, fallback := false, issued := true }

def rd0 : Round := { program := 0, scheduled := true, startNs := 300, length := 100, paused := false, items := [0] }

/-- An instruction word, by its opcode (bits 31..26) and the rest, and by the fields of Table 5-3. -/
def wd (op rest : Nat) : BitVec 32 := BitVec.ofNat 32 (op * 2 ^ 26 + rest)
def wf5 (op vr row n c ci rest : Nat) : BitVec 32 := wd op (vr * 2 ^ 21 + row * 2 ^ 17 + (n - 1) * 2 ^ 14 + c * 2 ^ 11 + ci * 2 ^ 10 + rest)

/-- Context 0 runs over block 0 in a round of stack 0, and the word its program has next is `w`; the first key and value of the
leaf are 1.0 throughout. -/
def svxw (w : BitVec 32) (c : Ctx) : State :=
  let s := withCmds sv [(0, { cm1 with row := 99, work := 1 })]
  { s with
    node := { s.node with library := [(0, { pg0 with words := List.replicate c.word 0 ++ [w] })] }
    work := { s.work with items := [(0, it0)], ctxs := [(0, c)] }
    stackUnits := setAt s.stackUnits 0 fun k => { k with round := some rd0 }
    mem := Mem.write (Mem.write [] 0 (List.replicate 64 [0x80, 0x3F]).flatten) 0x60000 (List.replicate 64 [0x80, 0x3F]).flatten }

/-- The same with a NOP. -/
def svx (c : Ctx) : State := svxw 0 c

/-- `Running` as a test: the leaf, parameters and block are found. -/
theorem running_of {s : State} {x : Nat} {c : Ctx} (h1 : Tbl.get s.work.ctxs x = some c) (h2 : c.ended = false)
    (h3 : (((s.cmd c.cmd).bind fun k => (k.visits[c.visit]?).bind fun v => s.visitEnv k v).isSome) = true) :
    ∃ l par block, Running s x c l par block := by
  obtain ⟨e, he⟩ := Option.isSome_iff_exists.mp h3
  exact ⟨e.1, e.2.1, e.2.2, h1, h2, he⟩

theorem witness_Running : ∃ l par block, Running (svx cx0) 0 cx0 l par block :=
  running_of (by decide +kernel) (by decide +kernel) (by decide +kernel)

theorem witness_ScalarRegisters : (8 < cx0.s.length ∧ 15 < cx0.s.length) ∧ 3 < cx0.m.length := by decide

/-- One field of context 0 after an instruction. -/
def after (w : BitVec 32) (i : Instr) (c : Ctx) (p : Ctx → Bool) : Bool :=
  nx (exec i (svxw w c)) fun t => match Tbl.get t.work.ctxs 0 with
    | some c => p c
    | none => false

theorem test_sli : after (wd 4 63045632) (.sli 0 15 (-131072)) cx0 (fun c => c.s.getD 15 0 = 0xFFFE0000 && c.word = 11) = true ∧
    after (wd 4 33685503) (.sli 0 8 131071) cx0 (fun c => c.s.getD 8 0 = 0x1FFFF) = true := by decide +kernel

theorem test_sadd : after (wd 5 39993344) (.sadd 0 9 8 9) cx0 (fun c => c.s.getD 9 0 = 12 && c.s.getD 8 0 = 5) = true ∧
    after (wd 5 39993344) (.sadd 0 9 8 9) { cx0 with s := cx0.s.set 8 0xFFFFFFFF } (fun c => c.s.getD 9 0 = 6) = true := by decide +kernel

theorem test_ssub : after (wd 6 44187648) (.ssub 0 10 8 9) cx0 (fun c => c.s.getD 10 0 = 0xFFFFFFFE) = true := by decide +kernel

theorem test_nop : after (wd 0 0) (.nop 0) cx0 (fun c => c.word = 11 && c.s = cx0.s) = true := by decide +kernel

theorem test_rep : after (wd 1 67104768) (.rep 0 256 64) cx0 (fun c => c.rep = some ⟨11, 64, 255⟩ && c.index = 0 && c.word = 11) = true := by
  decide +kernel

/-- The last word of a body of two, with an iteration left and with none. -/
theorem witness_Repeat : (∃ l par block, Running (svx { cx0 with rep := some ⟨9, 2, 1⟩ }) 0 { cx0 with rep := some ⟨9, 2, 1⟩ } l par block) ∧
    cx0.word + 1 = 9 + 2 ∧ Tbl.get (svx cx0).work.items cx0.item = some it0 ∧
    ((svx cx0).stackUnits[it0.stack]?).bind Stack.round = some rd0 ∧ rd0.paused = false :=
  ⟨running_of (by decide +kernel) (by decide +kernel) (by decide +kernel), by decide +kernel⟩

theorem test_repeat : after (wd 0 0) (.nop 0) { cx0 with rep := some ⟨9, 2, 1⟩ } (fun c => c.word = 9 && c.index = 1 && c.rep = some ⟨9, 2, 0⟩) = true ∧
    after (wd 0 0) (.nop 0) { cx0 with rep := some ⟨9, 2, 0⟩ } (fun c => c.word = 11 && c.rep = none) = true := by decide +kernel

theorem witness_MayRun : ([(wd 0 0, .nop), (wd 1 67104768, .rep 256 64), (wd 2 0, .endOp), (wd 3 0, .gmark),
    (wd 4 63045632, .sli 15 (-131072)), (wd 5 39993344, .sadd 9 8 9), (wd 6 44187648, .ssub 10 8 9), (wd 0x29 51380224, .mand 3 0 1),
    (wd 0x2A 51380224, .mor 3 0 1), (wd 0x28 33685504, .mset 2 0 8 0 false), (wf5 0x25 30 0 2 0 0 32, .vset 30 2 2),
    (wf5 0x23 4 0 1 0 0 0, .rmax 4 1), (wf5 0x10 0 0 2 0 0 1, .azero 1 2), (wf5 0x11 0 3 1 0 0 0, .kdot 3 1 0 false false false 0),
    (wf5 0x22 6 3 1 0 0 0, .smax 6 3 1 0 false 0), (wf5 0x20 0 3 1 0 0 0, .sscl 3 1 0 false 0),
    (wf5 0x21 0 3 1 0 0 0, .sbias 3 1 0 false 0), (wf5 0x24 6 3 1 0 0 0, .sexp 6 3 1 0 false 0),
    (wf5 0x12 0 3 1 0 0 2, .accv 3 1 0 false false 2), (wf5 0x30 6 0 1 0 0 2, .emit 6 0 1 false 2)] :
    List (BitVec 32 × SOp)).all (fun x => (svxw x.1 cx0).mayRun cx0 x.2) = true := by decide +kernel

/-- A second NBU of the round, which has executed one instruction less, or as many. -/
def svx2 (w : BitVec 32) (c : Ctx) (steps : Nat) : State :=
  let s := svxw w c
  { s with
    work := { s.work with items := [(0, it0), (1, { it0 with region := 1 })], ctxs := [(0, c), (1, { c with item := 1, steps := steps })] }
    stackUnits := setAt s.stackUnits 0 fun k => { k with round := some { rd0 with items := [0, 1] } } }

/-- The other NBU is to execute this GMARK yet; it has executed it; an instruction waits for one that is behind. -/
theorem witness_Gmark : Tbl.wf (svx2 (wd 3 0) cx0 3).work.ctxs = true ∧
    (svx2 (wd 3 0) cx0 3).ctxRound cx0 = some (0, { rd0 with items := [0, 1] }) ∧ (svx2 (wd 3 0) cx0 3).mayRun cx0 .gmark = true ∧
    (∃ y ∈ (svx2 (wd 3 0) cx0 3).work.ctxs, y.1 ≠ 0 ∧ ([0, 1] : List Nat).contains y.2.item = true ∧ y.2.turn ≤ cx0.turn ∧
      y.2.steps ≤ cx0.steps) ∧
    (svx2 (wd 3 0) cx0 4).mayRun cx0 .gmark = true ∧
    (∀ y ∈ (svx2 (wd 3 0) cx0 4).work.ctxs, y.1 ≠ 0 → ([0, 1] : List Nat).contains y.2.item = true →
      cx0.turn < y.2.turn ∨ cx0.steps < y.2.steps) ∧
    (svx2 (wd 3 0) cx0 2).mayRun cx0 .gmark = false := by decide +kernel

theorem witness_NoAccess : NoAccess (svx2 (wd 3 0) cx0 4) 0 ∧ NoAccess (svx2 (wd 2 0) cx0 3) 0 :=
  ⟨⟨_, rfl, by decide +kernel, by decide +kernel⟩, ⟨_, rfl, by decide +kernel, by decide +kernel⟩⟩

theorem test_lockstep : nx (exec (.gmark 0) (svx2 (wd 3 0) cx0 3)) (fun t => (t.stackUnits[0]?).bind Stack.round = some { rd0 with items := [0, 1] }) = true ∧
    nx (exec (.gmark 0) (svx2 (wd 3 0) cx0 4)) (fun t => (t.stackUnits[0]?).bind Stack.round = some { rd0 with items := [0, 1], paused := true }) = true ∧
    nx (exec (.gmark 0) (svx2 (wd 3 0) cx0 2)) (fun t => t.work.ctxs = (svx2 (wd 3 0) cx0 2).work.ctxs) = true := by decide +kernel

theorem test_gmark : nx (exec (.gmark 0) (svxw (wd 3 0) cx0)) (fun t => (t.stackUnits[0]?).bind Stack.round = some { rd0 with paused := true }) = true := by
  decide +kernel

theorem test_masks : after (wd 0x29 51380224) (.mand 0 3 0 1) cx0 (fun c => c.m.getD 3 0 = 0xF0 && c.m.getD 0 0 = 0xF0F0F0F0) = true ∧
    after (wd 0x2A 51380224) (.mor 0 3 0 1) cx0 (fun c => c.m.getD 3 0 = 0xF0F0F0FF) = true := by decide +kernel

/-- S1 + 32 c + i is below S8 = 5 in lanes 0 to 4 of chunk 0, and in none of chunk 1. -/
theorem test_mset : after (wd 0x28 33685504) (.mset 0 2 0 8 0 false) cx0 (fun c => c.m.getD 2 0 = 0x1F) = true ∧
    after (wd 0x28 33687552) (.mset 0 2 0 8 1 false) cx0 (fun c => c.m.getD 2 0 = 0) = true := by decide +kernel

theorem test_vset : after (wf5 0x25 30 0 2 0 0 32) (.vset 0 30 2 2) cx0 (fun c => c.lane 30 0 = fone && c.lane 31 31 = fone && c.lane 29 0 = fzero) = true := by
  decide +kernel

theorem test_rmax : after (wf5 0x23 4 0 1 0 0 0) (.rmax 0 4 1) { cx0 with v := [(32 * 4 + 7, fone)] } (fun c => c.lane 4 0 = fone && c.lane 4 31 = fone &&
    c.lane 5 0 = fzero) = true := by decide +kernel

theorem test_azero : after (wf5 0x10 0 0 2 0 0 1) (.azero 0 1 2) { cx0 with acc := [(256, ⟨[], fone⟩), (1023, ⟨[], fone⟩)] } (fun c =>
    c.acc.map Prod.fst = [1023]) = true := by decide +kernel

/-- The key of position 0 is 64 ones, as is the query: their product is 64; other keys are +0; positions above S2 give +0. -/
theorem test_kdot : after (wf5 0x11 0 3 1 0 0 0) (.kdot 0 3 1 0 false false false 0) cx0 (fun c => (c.score 3 0).value = 0x42800000 &&
      (c.score 3 1).value = 0 && (c.score 4 0).value = 0) = true ∧
    after (wf5 0x11 0 3 1 0 0 0) (.kdot 0 3 1 0 false false false 0) { cx0 with s := cx0.s.set 2 0 } (fun c => (c.score 3 0).value = 0) = true := by
  decide +kernel

/-- Entries 0 and 4 of row 3 hold 1.0; the mask 0 of `cx0` takes in lane 4 and not lane 0. -/
def cx1 : Ctx := { cx0 with sb := [(768, ⟨fone, true, none⟩), (772, ⟨fone, true, none⟩)] }

theorem witness_ScoreInstructions : (∃ l par block, Running (svx cx1) 0 cx1 l par block) ∧ cx1.chunk 0 false < 8 ∧ cx1.chunk 7 false < 8 ∧
    InRows 3 1 (cx1.chunk 0 false) 0 4 ∧ InRows 15 1 (cx1.chunk 7 false) 0 31 ∧ (cx1.score 3 4).visible = true ∧
    ((4 : Nat) : Int) < cx1.scalar 2 :=
  ⟨running_of (by decide +kernel) (by decide +kernel) (by decide +kernel), by decide +kernel, by decide +kernel,
    ⟨by decide +kernel, by decide, by decide, by decide⟩, ⟨by decide +kernel, by decide, by decide, by decide⟩, by decide +kernel,
    by decide +kernel⟩

theorem test_smax : after (wf5 0x22 6 3 1 0 0 0) (.smax 0 6 3 1 0 false 0) cx1 (fun c => c.lane 6 4 = fone && c.lane 6 0 = fzero) = true := by
  decide +kernel

theorem test_sscl : after (wf5 0x20 0 3 1 0 0 0) (.sscl 0 3 1 0 false 0) cx1 (fun c => (c.score 3 4).value = fone && (c.score 3 0) = ⟨fone, true, none⟩) = true := by
  decide +kernel

theorem test_sbias : after (wf5 0x21 0 3 1 0 0 0) (.sbias 0 3 1 0 false 0) cx1 (fun c => (c.score 3 4).value = fone && (c.score 3 0).value = fone) = true := by
  decide +kernel

/-- 2 to the power 1 - 2 in the masked lane; the others of the chunk are cleared. -/
theorem test_sexp : after (wf5 0x24 6 3 1 0 0 0) (.sexp 0 6 3 1 0 false 0) { cx1 with v := [(192, 0x40000000)] } (fun c =>
    c.score 3 4 = ⟨0x3F000000, true, none⟩ && c.score 3 0 = ⟨fzero, false, none⟩ && c.poison = none) = true ∧
    after (wf5 0x24 6 3 1 0 0 0) (.sexp 0 6 3 1 0 false 0) cx1 (fun c => c.poison = some 4) = true := by decide +kernel

/-- The value of position 0 is 64 ones: weighted by 1.0 it stands in slot 0, with the probability. -/
theorem test_accv : after (wf5 0x12 0 3 1 0 0 2) (.accv 0 3 1 0 false false 2) cx1 (fun c => (slotOf c 2 0).map (fun x => (x.lanes.take 2, x.p)) =
      some ([fone, fone], fone) && (slotOf c 2 1).isNone) = true := by decide +kernel

theorem test_emit : after (wf5 0x30 6 0 1 0 0 2) (.emit 0 6 0 1 false 2) { cx1 with acc := [(512, ⟨List.replicate 64 fone, fone⟩)], v := [(192, fone)] }
    (fun c => c.emitted.map (fun e => (e.1, e.2.l, e.2.m, e.2.o.take 1)) = [(0, fone, fone, [fone])]) = true := by decide +kernel

def cx2 : Ctx := { cx1 with emitted := [(0, pt1)] }

theorem witness_End : (svxw (wd 2 0) cx2).poison = [] ∧ ((svxw (wd 2 0) cx2).cmd cx2.cmd).map Cmd.work = some 1 ∧
    Canonical (svxw (wd 2 0) cx2) ∧ Tbl.wf (svxw (wd 2 0) cx2).work.ctxs = true ∧ (svxw (wd 2 0) cx2).mayRun cx2 .endOp = true ∧
    (svxw (wd 2 0) cx2).ctxRound cx2 = some (0, rd0) ∧
    (∀ y ∈ (svxw (wd 2 0) cx2).work.ctxs, rd0.items.contains y.2.item = true → y.1 = 0) ∧
    (svx2 (wd 2 0) cx2 3).mayRun cx2 .endOp = true ∧ Canonical (svx2 (wd 2 0) cx2 3) ∧
    (svx2 (wd 2 0) cx2 3).ctxRound cx2 = some (0, { rd0 with items := [0, 1] }) ∧
    (∃ y ∈ (svx2 (wd 2 0) cx2 3).work.ctxs, y.1 ≠ 0 ∧ ([0, 1] : List Nat).contains y.2.item = true) :=
  ⟨by decide +kernel, by decide +kernel, canon_iff _ (by decide +kernel), by decide +kernel, by decide +kernel, by decide +kernel,
    by decide +kernel, by decide +kernel, canon_iff _ (by decide +kernel), by decide +kernel, by decide +kernel⟩

theorem test_end : nx (exec (.endOp 0) (svxw (wd 2 0) cx2)) (fun t => t.work.ctxs = [] &&
    (t.cmd 0).map (fun c => (c.work, c.parts.map NodePartial.value)) = some (0, [pt1])) = true := by decide +kernel

/-! ## Rounds, tiles and writes -/

/-- Stack 0 with the item of `it0` to issue, EFFECTIVE_CAP 1. -/
def svr : State :=
  let s := svx cx0
  ({ s with work := { s.work with items := [(0, { it0 with issued := false })], ctxs := [] },
            stackUnits := State.reset.stackUnits }).setFld (rCapNowEffectiveCap 0) 1

def svrL : State := { svr with work := { svr.work with items := [(0, { it0 with issued := false, scheduled := false })] } }

/-- 3,711 + 128 ns is 3,839: a round of 64 + 64 cycles still fits; one nanosecond later it does not. -/
theorem witness_RoundsStart : svr.stackUnits[0]? = some Stack.reset ∧ Stack.reset.conflicts = [] ∧ Stack.reset.held = [] ∧ svr.pat.exec = some en0 ∧ svr.roundBusy 0 = false ∧
    Stack.reset.noSched = false ∧
    nextRound (((svr.tick 3711).endRound 0).roundCap 0) (((svr.tick 3711).endRound 0).openItems 0 true) = [(0, { it0 with issued := false })] ∧
    ((svr.tick 3711).endRound 0).itemsWait [(0, { it0 with issued := false })] = false ∧
    3711 + roundNs [(0, { it0 with issued := false })] = 3839 ∧ 3839 < 3712 + ((svr.tick 3712).endRound 0).itemsWaitNs [(0, { it0 with issued := false })] + roundNs [(0, { it0 with issued := false })] ∧
    ((svrL.tick 300).endRound 0).openItems 0 true = [] ∧ en0.l8Open = true ∧
    nextRound (((svrL.tick 300).endRound 0).roundCap 0) (((svrL.tick 300).endRound 0).openItems 0 false) ≠ [] := by decide +kernel

theorem test_round : nx (exec (.stitchRoundStart 0 3711) svr) (fun t => ((t.stackUnits[0]?).bind Stack.round).map (fun r => (r.scheduled, r.startNs, r.length, r.items)) =
      some (true, 3711, 128, [0]) && t.work.ctxs.length = 1) = true ∧
    nx (exec (.stitchRoundStart 0 3712) svr) (fun t => (t.stackUnits[0]?).bind Stack.round = none &&
      ((t.cmd 0).bind Cmd.result) = some (Outcome.tooLate hq1 .compute)) = true ∧
    nx (exec (.stitchRoundStart 0 300) svrL) (fun t => ((t.stackUnits[0]?).bind Stack.round).map Round.scheduled = some false) = true := by
  decide +kernel

/-- A paused round whose context has nothing left of its program. -/
def svpz : State := { svx cx0 with node := sv.node, stackUnits := setAt State.reset.stackUnits 0 fun k => { k with round := some { rd0 with paused := true } } }

theorem witness_Pause : (svpz.stackUnits[0]?).map (fun k => (k.conflicts, k.held)) = some ([], []) ∧ ((svpz.stackUnits[0]?).bind Stack.round) = some { rd0 with paused := true } ∧ svpz.roundBusy 0 = true ∧
    3839 + svpz.roundLeft { rd0 with paused := true } ≤ 3839 ∧ 3839 < 3840 + svpz.roundLeft { rd0 with paused := true } := by
  decide +kernel

theorem test_pause : nx (exec (.pauseResume 0 3839) svpz) (fun t => ((t.stackUnits[0]?).bind Stack.round) = some rd0) = true ∧
    nx (exec (.pauseResume 0 3840) svpz) (fun t => ((t.stackUnits[0]?).bind Stack.round) = none && t.work.ctxs = [] &&
      (t.cmd 0).bind Cmd.result = some (Outcome.tooLate hq1 .compute)) = true := by decide +kernel

def tl0 : Tile := { kind := .position, cmd := 0, scheduled := true, order := 0, visits := [0], first := 0, count := 1, items := [],
                    array := 0, startNs := 0, endNs := 0, left := none, staged := none }

/-- A tile due, array clocks at 1,792 MHz. -/
def svt : State :=
  let s := withCmds sv [(0, { cm1 with row := 99, work := 1 })]
  { s with arrays := { s.arrays with due := [tl0] } }.setFld (rAclkNowMhz 0) 1792

def tlen : Nat := svt.tileSpan tl0 1792

theorem witness_Tiles : svt.pat.exec = some en0 ∧ svt.arrays.noSched = false ∧ svt.arrayItems (fun x => x.scheduled && x.path = 1) = [] ∧
    firstTile (svt.arrays.due.filter fun t => t.scheduled) = some tl0 ∧ svt.freeArray = some 0 ∧ svt.scheduledArrays < en0.arrayCap ∧
    svt.aclk (0 / 48) = 1792 ∧ 0 < tlen ∧ tlen ≤ 3839 - 256 := by decide +kernel

theorem test_tile_issue : nx (exec (.tileIssue (3839 - tlen)) svt) (fun t => t.arrays.due = [] && t.arrays.running.map Tile.endNs = [3839]) = true ∧
    nx (exec (.tileIssue (3840 - tlen)) svt) (fun t => t.arrays.due = [] && t.arrays.running = [] &&
      (t.cmd 0).bind Cmd.result = some (Outcome.tooLate hq1 .compute)) = true := by decide +kernel

def tls : Tile := { tl0 with left := some 0, staged := some ([], []) }
def svte : State := { svt with arrays := { svt.arrays with due := [], running := [tls] } }

theorem witness_TileEnd : svte.arrays.running.find? (fun x => x.array = 0) = some tls ∧ tls.kind = .position ∧ tls.staged = some ([], []) ∧
    (svte.cmd tls.cmd).bind Cmd.attn = some at1 ∧ svte.tileCmds tls = [0] ∧ (svte.cmd 0).map (fun c => (c.cls, c.result)) = some (.l2, none) := by
  decide +kernel

/-- The program has no word, so the cell gives no partial; the position counts as done. -/
theorem test_tile_end : nx (exec (.tileEnd 0 3839) svte) (fun t => t.arrays.running = [] && (t.cmd 0).map Cmd.work = some 0) = true ∧
    nx (exec (.tileEnd 0 3840) svte) (fun t => (t.cmd 0).bind Cmd.result = some (Outcome.tooLate hq1 .compute)) = true ∧
    nx (exec (.tileAbandon 0) svte) (fun t => t.arrays.running = [] && ((t.cmd 0).bind Cmd.result).isSome) = true := by decide +kernel

/-- The lines of the APPEND of `ap1` with ones, one row later. -/
def apo : AppendBody := { ap1 with payload := List.replicate 256 1 }
def svw : State :=
  match exec (.append ha1 apo) sv2 with
  | .next t => { t with clock := ⟨101, 300⟩ }
  | _ => sv2

def job0 : AppendJob := svw.work.appends.headD ⟨0, 0, false, 0, 0, 0, 0, 0, 0, 0, 0, false, false, []⟩

theorem witness_LinesLand : svw.nextAppend 0 = some job0 ∧
    (match job0.acts with | .line l cells _ :: _ => !svw.lineRefused l cells && cells.length = 64 | _ => false) = true ∧
    (∀ p ∈ svw.work.cmds, p.2.forkIn = none) ∧
    (regionsOf (12 * 16384 + 16256) 64).all (fun r => !svw.inRound r.1 r.2) = true ∧ (svw.cmd job0.cmd).map (fun c => (c.cls, c.result)) = some (.l2, none) := by
  decide +kernel

/-- The first key line of position 255 begins at byte 255 x 128 of the leaf: granule 12, byte 16,256. -/
theorem test_line : nx (exec (.appendLineWrite ⟨0, 300⟩) svw) (fun t => t.mem.length = 64 && t.load (12 * 16384 + 16256) 2 = [1, 1] &&
    (t.work.appends.flatMap AppendJob.acts).length = 4) = true := by decide +kernel

/-- Its region is in a round. -/
def svwr : State := { svw with
  work := { svw.work with items := [(0, { it0 with stack := 0 })], ctxs := [(0, cx0)] }
  stackUnits := setAt svw.stackUnits 0 fun k => { k with round := some rd0 } }

theorem witness_LineWaits : (regionsOf (12 * 16384 + 16256) 64).any (fun r => svwr.inRound r.1 r.2) = true ∧
    svwr.nextAppend 0 = some job0 ∧ (∀ p ∈ svwr.work.cmds, p.2.forkIn = none) := by decide +kernel

theorem test_line_waits : nx (exec (.appendLineWrite ⟨0, 300⟩) svwr) (fun t => t.mem = [] && t.work.appends.map AppendJob.waits = [true] &&
    t.stackUnits.head?.map (fun k => k.conflicts.map (fun q => q.2.map Access.who)) = some [[.line 0]]) = true := by decide +kernel

/-- At D 96 in a four-bit format a vector is 48 bytes, so its line is written in part: it is refused where it is poisoned. -/
def svwp : State := { svw with poison := [3326], work := { svw.work with appends := [{ job0 with acts := [.line 3326 [(212864, 1)] [0]] }] } }

theorem witness_LineRefused : svwp.lineRefused 3326 [(212864, 1)] = true ∧
    (svwp.nextAppend 0).map AppendJob.acts = some [.line 3326 [(212864, 1)] [0]] := by decide +kernel

theorem test_line_refused : nx (exec (.appendLineWrite ⟨0, 300⟩) svwp) (fun t => t.mem = svwp.mem && t.poison = [3326] &&
    (t.cmd 0).bind Cmd.result = some (Outcome.poison ha1 1)) = true := by decide +kernel

/-- A GRAD decided in its merge, with its sums still to add; with its key Valid and Revoking. -/
def ok2 : Outcome := Outcome.good hg1 (.partials [])
def cmg : Cmd := { Cmd.start opGrad hg1 7 (some (0, patSlotAt pat0 0)) 0 98 3 with stage := .walked, attn := some gd1, key := some 0,
                                                                                    result := some ok2 }
def svga : State := { withCmds svg [(0, cmg)] with xport := { svg.xport with keys := [(0, { kyg with inFlight := 1 })] } }
def svgr : State := { svga with xport := { svga.xport with keys := [(0, { kyg with state := .revoking, inFlight := 1 })] } }

theorem witness_GradAdd : svga.cmd 0 = some cmg ∧ cmg.opcode = opGrad ∧ cmg.attn = some gd1 ∧ cmg.stage ≠ .sent ∧ cmg.cls ≠ .l8 ∧
    cmg.row + 2 ≤ svga.row ∧ ok2.status.good = true ∧ kyg.isRevoking svga.row = false ∧
    (svga.addGrad cmg gd1 64 (svga.gradBase cmg kyg) cmg.sumPositions).isSome = true ∧ (svga.seqAt cmg.seqSlot).d = 64 ∧
    (∀ p ∈ svga.work.cmds, p.1 < 0 → p.2.opcode = opGrad → p.2.seqSlot = cmg.seqSlot → p.2.key = none) ∧
    (Tbl.get svgr.xport.keys 0).map Key.state = some .revoking ∧
    ({ kyg with revokeDue := some 99 } : Key).isRevoking svga.row = true := by decide +kernel

theorem test_grad_add : nx (exec (.gradAddPhase 0) svga) (fun t => (t.cmd 0).map (fun c => (c.result, c.stage)) = some (some ok2, .sent) &&
      (Tbl.get t.xport.keys 0).map Key.inFlight = some 0) = true ∧
    nx (exec (.gradAddPhase 0) svgr) (fun t => (t.cmd 0).bind Cmd.result = some (Outcome.bare hg1 .revoked 0) && t.mem = svgr.mem) = true := by
  decide +kernel

/-- The sums of position 0 are added to ones, and to infinities, to which nothing can be added. -/
def cmgp : Cmd := { cmg with sums := [⟨0, 0, List.replicate 128 fone⟩] }
def svgo (x : F32) : State :=
  { svga with work := { svga.work with cmds := [(0, cmgp)] }, mem := Mem.write [] 0x4000000 (leBytes 4 x.toNat) }

theorem witness_GradAddFails : ((svgo fone).addGrad cmgp gd1 64 ((svgo fone).gradBase cmgp kyg) cmgp.sumPositions).isSome = true ∧
    ((svgo 0x7F800000).addGrad cmgp gd1 64 ((svgo 0x7F800000).gradBase cmgp kyg) cmgp.sumPositions).isNone = true := by decide +kernel

theorem test_grad_sums : nx (exec (.gradAddPhase 0) (svgo fone)) (fun t => t.load 0x4000000 8 = leBytes 4 0x40000000 ++ leBytes 4 0x3F800000) = true ∧
    nx (exec (.gradAddPhase 0) (svgo 0x7F800000)) (fun t => (t.cmd 0).bind Cmd.result = some (Outcome.poison hg1 4) &&
      t.load 0x4000000 4 = leBytes 4 0x7F800000) = true := by decide +kernel

/-! ## The row clock, units and memory -/

theorem witness_Rows : Whole sv ∧ sv.work.raws = [] ∧ sv.work.appends = [] ∧ (∀ p ∈ sv.work.cmds, p.2.opcode ≠ opGrad) ∧ sv.runs = true ∧ sv.node.state = .serving ∧ sv.fld rPowerStatusLevel ≤ 4 ∧
    sv.pat.exec = some en0 ∧ en0.swatch = false := ⟨by unfold Whole; decide +kernel, by decide +kernel⟩

theorem test_row_start : nx (exec (.rowStart rs0) sv) (fun t => t.clock = ⟨101, 0⟩ && t.pat.entry = some en0 && t.fld (rCapNowEffectiveCap 11) =
    min (t.fld (rCapNowPatternCap 11)) (min (t.fld (rCapNowGovernorCap 11)) (t.fld (rCapNowThermalCap 11)))) = true ∧
    nx (exec .housekeepingStart sv) (fun t => t.clock = ⟨100, 3840⟩ && t.health.swatch = sv.health.swatch) = true := by decide +kernel

/-- 1,500 W lies between 1,477 W and 1,478 W times 1.015. -/
theorem test_row_end : nx (exec (.rowEnd 1478 0) sv) (fun t => t.fld rPowerStatusBudget = 488272) = true ∧
    nx (exec (.rowEnd 1477 0) (sv.setFld rPowerStatusBudget 7)) (fun t => t.fld rPowerStatusBudget = 8) = true ∧
    nx (exec (.rowEnd 1478 0) (sv.setFld rPowerStatusBudget 7)) (fun t => t.fld rPowerStatusBudget = 0) = true := by decide +kernel

/-- Synchronisation: unlocked after 64 rows in range; Locked after 8 out of it; Holdover for 4,096 rows. -/
def syU : State := { sv with sync := { sv.sync with state := .unlocked, inRange := 64 } }
def syL : State := { sv with sync := { sv.sync with outRange := 8, ptp := false } }
def syH : State := { sv with sync := { sv.sync with state := .holdover, holdSince := 4 }, clock := ⟨4100, 0⟩ }

theorem witness_Sync : syU.sync.state = .unlocked ∧ 64 ≤ syU.sync.inRange ∧ Canonical syL ∧ syL.sync.state = .locked ∧ 8 ≤ syL.sync.outRange ∧
    Canonical syH ∧ syH.sync.state = .holdover ∧ syH.sync.holdSince + 4096 ≤ syH.row ∧ within 41 = false ∧ within 40 = true ∧
    within (-40) = true ∧ syL.sync.ptp = false ∧ syL.sync.rowsync = false ∧ sv.rackMaster = false ∧ sv.sync.ptp = true ∧
    syL.node.state = .serving :=
  ⟨by decide +kernel, by decide +kernel, canon_iff _ (by decide +kernel), by decide +kernel, by decide +kernel, canon_iff _ (by decide +kernel),
    by decide +kernel⟩

theorem test_sync : nx (exec (.syncLock (some 28677)) syU) (fun t => t.sync.state = .locked && t.clock = ⟨7, 5⟩ && t.pat.entry = some en0) = true ∧
    nx (exec .syncUnlock syL) (fun t => t.sync.state = .unlocked && t.node.state = .castOn) = true ∧
    nx (exec .holdoverExpiry syH) (fun t => t.sync.state = .unlocked && t.node.state = .castOn) = true ∧
    nx (exec (.holdoverRelock 41) syH) (fun t => t.sync.state = .unlocked) = true ∧
    nx (exec (.holdoverRelock 40) syH) (fun t => t.sync.state = .locked && t.sync.offset = 40) = true ∧
    nx (exec .holdoverEntry syL) (fun t => t.sync.state = .holdover && t.sync.holdSince = 100) = true := by decide +kernel

/-- A pulse 40 ns and one 41 ns from PTP; a PPS edge. -/
theorem test_rowsync : nx (exec (.rowsyncInPulse 40 0) sv) (fun t => t.sync.rowsync && t.sync.offset = 40 && t.fld rSyncStatusRowsyncFault = 0) = true ∧
    nx (exec (.rowsyncInPulse 41 0) sv) (fun t => !t.sync.rowsync && t.sync.offset = 0 && t.fld rSyncStatusRowsyncFault = 1) = true ∧
    nx (exec (.ppsInEdge 9) sv) (fun t => t.sync.ppsStamp = 9) = true := by decide +kernel

/-- Stack 11, region 255, with an item open there; a running round. -/
def svu : State :=
  let s := svx cx0
  { s with
    work := { s.work with items := [(0, { it0 with issued := false, stack := 11, region := 255 })], served := [(nbuUnit 11 255, 0)] }
    stackUnits := setAt State.reset.stackUnits 11 fun k => { k with round := some rd0 } }

theorem witness_NbuStop : (nbuUnit 11 255, 0) ∈ svu.work.served ∧ (svu.cmd 0).map (fun c => (c.cls, c.result)) = some (.l2, none) ∧ (svu.stackUnits[11]?).map Stack.fallNext = some [] ∧ svu.fld (fallbackBit 11 255) = 0 ∧
    ((svu.stackUnits[11]?).bind fun k => k.spares[255 / 16]?) = some .free ∧ svu.fld (rNbuFaultValid 11) = 0 ∧
    (svu.openItems 11 true).map (fun x => x.2.region) = [255] ∧ (svu.stackUnits[11]?).bind Stack.round = some rd0 ∧ rd0.paused = false := by
  decide +kernel

theorem test_nbu_stop : nx (exec (.nbuStop 11 255 1) svu) (fun t => (t.stackUnits[11]?).map Stack.fallNext = some [255] &&
      ((t.stackUnits[11]?).bind fun k => k.spares[15]?) = some (.testing 255 100) && t.fld (rNbuFaultRegion 11) = 255 &&
      t.fld (rNbuFaultCause 11) = 1 && (t.cmd 0).bind Cmd.result = some (Outcome.tooLate hq1 .compute)) = true ∧
    nx (exec (.nbuStop 11 255 3) svu) (fun t => (t.cmd 0).bind Cmd.result = none) = true := by decide +kernel

/-- A pause that an NBU of the round does not acknowledge. -/
def svua : State := { svu with work := { svu.work with items := [(0, { it0 with stack := 11, region := 255 })] },
                               stackUnits := setAt State.reset.stackUnits 11 fun k => { k with round := some { rd0 with paused := true } } }

theorem witness_NbuPauseAck : svua.inRound 11 255 = true ∧ (svua.stackUnits[11]?).bind Stack.round = some { rd0 with paused := true } := by
  decide +kernel

theorem test_nbu_pause_ack : nx (exec (.nbuPauseAckTimeout 11 255) svua) (fun t => (t.stackUnits[11]?).map Stack.fallNext = some [255] &&
    t.fld (rNbuFaultCause 11) = 2) = true := by decide +kernel

/-- A running tile on array 47 of die 3. -/
def svcs : State := { svte with arrays := { svte.arrays with running := [{ tl0 with array := 191 }] } }

theorem witness_CellStop : (svcs.fld (rOutMapArrays 3)).testBit 47 = false ∧ 191 ∉ svcs.arrays.outNext ∧ svcs.arrays.testsFor 3 47 = false ∧
    svcs.freeCells 3 47 ≠ 0 ∧ svcs.fld (rArrayFaultValid 3) = 0 ∧
    (arrayUnit 191, 0) ∈ ({ svcs with work := { svcs.work with served := [(arrayUnit 191, 0)] } } : State).work.served ∧
    (svcs.cmd 0).map (fun c => (c.cls, c.result)) = some (.l2, none) := by decide +kernel

theorem test_cell_stop : nx (exec (.cellStop 3 47 67 1) svcs) (fun t => t.arrays.outNext = [191] && t.arrays.running = [] &&
    t.arrays.testing = [(.cell 3 47, 100)] && t.fld (rArrayFaultCell 3) = 67 && t.health.faults = [100]) = true := by decide +kernel

theorem witness_Slices : (svu.stackUnits[11]?).map (fun k => k.slicesFailed) = some 0 ∧ svu.roundBusy 11 = true ∧
    NoAccess svu 11 := ⟨by decide +kernel, by decide +kernel, _, rfl, by decide +kernel, by decide +kernel⟩

theorem test_slice_fault : nx (exec (.stitchSliceFault 11 135) svu) (fun t => (t.stackUnits[11]?).map (fun k => (k.slicesFailed, k.round)) =
    some (1, none)) = true := by decide +kernel

theorem test_walker_fault : nx (exec (.walkerFault 15) sv) (fun t => t.cat.walkerDown = [15] && t.health.faults = [100]) = true := by decide +kernel

/-- Spares under test since row 95. -/
def svsp : State :=
  { sv with
    stackUnits := setAt sv.stackUnits 0 fun k => { k with spares := setAt k.spares 15 fun _ => .testing 255 95 }
    arrays := { sv.arrays with testing := [(.cell 3 47, 95), (.array 0 0, 95)] } }

theorem witness_Spares : ((svsp.stackUnits[0]?).bind fun k => k.spares[15]?) = some (.testing 255 95) ∧ svsp.row = 95 + 5 ∧
    svsp.testRow (.cell 3 47) = some 95 ∧ svsp.testRow (.array 0 0) = some 95 ∧ Tbl.num svsp.arrays.spareArrays 0 < 4 ∧ svsp.runs = true ∧
    svsp.fld rBootStatusImage ≠ 0 ∧ ((svsp.stackUnits[0]?).bind fun k => k.spares[0]?) = some .free ∧ svsp.freeCells 3 47 ≠ 0 ∧
    svsp.freeSpareArrays 3 ≠ 0 := by decide +kernel

theorem test_spares : nx (exec (.spareTakeover (.nbu 0 15)) svsp) (fun t => ((t.stackUnits[0]?).bind fun k => k.spares[15]?) = some (.used 255)) = true ∧
    nx (exec (.spareTakeover (.cell 3 47)) svsp) (fun t => Tbl.num t.arrays.spareCells (svsp.physicalArray 3 47) = 1) = true ∧
    nx (exec (.spareTakeover (.array 0 0)) svsp) (fun t => t.fld (rArrayInfoPhysical 0 0) = 48 && Tbl.num t.arrays.spareArrays 0 = 1) = true := by
  decide +kernel

def svsf : State := { sv with stackUnits := setAt sv.stackUnits 0 fun k => { k with spares := setAt k.spares 0 fun _ => .failed } }

theorem witness_NoSpare : ((svsf.stackUnits[0]?).bind fun k => k.spares[0]?) = some .failed ∧ Spare.failed ≠ .free ∧
    (∀ f, Spare.failed ≠ .testing 0 f) ∧ (∀ f, Spare.testing 1 95 ≠ .testing 0 f) := by
  refine ⟨by decide +kernel, by decide, ?_, ?_⟩ <;> intro f <;> simp

theorem test_spare_ctl : nx (exec (.nbuSpareMap .keeper 11 255) sv) (fun t => t.fld (rSpareCtlResult 11) = 1 &&
      ((t.stackUnits[11]?).bind fun k => k.spares[15]?) = some (.testing 255 100)) = true ∧
    nx (exec (.nbuSpareMap .keeper 0 0) svsf) (fun t => t.fld (rSpareCtlResult 0) = 3) = true ∧
    nx (exec (.nbuSpareMap .keeper 0 255) svsp) (fun t => t.fld (rSpareCtlResult 0) = 1) = true ∧
    nx (exec (.nbuSpareMap .keeper 0 254) svsp) (fun t => t.fld (rSpareCtlResult 0) = 3) = true ∧
    nx (exec (.cellSpareMap .keeper 3 47) sv) (fun t => t.arrays.testing = [(.cell 3 47, 100)] && t.fld (rAttSpareCtlResult 3) = 1) = true ∧
    nx (exec (.arraySpareMap .keeper 0 0) sv) (fun t => t.arrays.testing = [(.array 0 0, 100)] && t.fld (rAttSpareCtlResult 0) = 1) = true := by
  decide +kernel

/-- A poisoned line of the leaf of sequence 3: line 0 of stack 0. -/
def svdr : State := { sv with poison := [0] }

theorem witness_Dram : svdr.card 0 = some cd0 ∧ stackLine 0 = (0, 0) ∧ svdr.cardMeets 0 cd0 0 64 = true ∧ Canonical svdr ∧ 0 < stackBytes ∧
    3 < seqSlots ∧ ((svdr.stackUnits[11]?).map fun k => Tbl.num k.rowSpares (255 * 4 + 3)) = some 0 :=
  ⟨by decide +kernel, by decide +kernel, by decide +kernel, canon_iff _ (by decide +kernel), by decide +kernel⟩

/-- No queue pair and no fabric manager, so that no message leaves; LAST_ERROR of stack 0 is held. -/
def svq0 : State := ({ sv with xport := { sv.xport with conns := [] } }.setFld (rFmNodesEntries 0) 0).setFld (rLastErrorValid 0) 1

theorem test_dram : nx (exec (.dramCorrectedError 11 255 3 0 0) sv) (fun t => t.fld (rEccCountsCorrected 11) = 1 && t.mem = sv.mem) = true ∧
    nx (exec (.dramUncorrectableError 65 (.card 0)) svq0) (fun t => t.poison = [1] && (t.card 0).map Card.state = some .lost) = true ∧
    nx (exec (.dramUncorrectableError 65 (.sequence 3)) svq0) (fun t => (t.seqAt 3).damaged) = true ∧
    nx (exec (.dramUncorrectableError 65 .command) sv) (fun t => t.poison = [1] && t.cat = sv.cat) = true := by decide +kernel

theorem test_patrol : nx (exec (.patrolRead 0 0 1) svdr) (fun t => (t.card 0).map Card.state = some .lost && t.poison = [0]) = true ∧
    nx (exec (.patrolRead 0 1 1) svdr) (fun t => (t.card 0).map Card.state = some .sealed) = true ∧
    nx (exec (.dramRowRepair 11 255 3 0 none) sv) (fun t =>
      ((t.stackUnits[11]?).map fun k => Tbl.num k.rowSpares (255 * 4 + 3)) = some 1) = true := by decide +kernel

/-! ## The states of the node -/

def svft : State := { sv with node := { sv.node with state := .fault } }
def svtr : State := { sv with node := { sv.node with state := .training } }

theorem witness_NodeStates : (∃ t, step sv = .next t) ∧ svft.node.state = .fault ∧ (∃ t, step svft = .next t) ∧ sv.node.state ≠ .off ∧
    sv.node.state ≠ .fault ∧ svtr.node.state = .training :=
  ⟨⟨sv, rfl⟩, rfl, ⟨svft, rfl⟩, by decide +kernel, by decide +kernel, rfl⟩

theorem test_fault : nx (exec (.fatalError 0x058) sv) (fun t => t.node.state = .fault && t.fld rGlobalStatusFaultCause = 4 && t.out = []) = true ∧
    nx (exec .refclkNet0Fail sv) (fun t => t.node.state = .fault && t.fld rGlobalStatusFaultCause = 4) = true ∧
    nx (exec .trainingFail svtr) (fun t => t.node.state = .fault && t.fld rGlobalStatusFaultCause = 3) = true ∧
    nx (exec .resetN svft) (fun t => t.node.state = .boot && t.cat = State.reset.cat) = true := by decide +kernel

/-! ## Moves -/

/-- A leaf in no MX format finds room in a region that holds nothing. -/
theorem placeFrom_ok (c : Cat) (out : Nat → Nat → Bool) (fmt d start q : Nat) (hg : c.granules = []) (hm : fmtIsMx fmt = false)
    (hl : leafGranules fmt d ≤ 15872) (ho : out (q % 12) (q / 12) = false) (n : Nat) :
    ∃ h j, c.placeFrom out fmt d 1 start q (n + 1) = some ([h], c.takeRun j (leafGranules fmt d)) := by
  obtain ⟨j, e⟩ := firstFrom_finds (m := 15872) (k := 0) (ok := fun k => decide (k + leafGranules fmt d ≤ 15872) &&
    (List.range (leafGranules fmt d)).all fun i => c.granFree (q % 12) (q / 12) (k + i)) start (by decide)
    (by simp [hl, Cat.granFree, hg])
  have f : c.findRun (q % 12) (q / 12) (leafGranules fmt d) start = some j := e
  exact ⟨⟨granAt (q % 12) (q / 12) j, none⟩, granAt (q % 12) (q / 12) j,
    by simp [Cat.placeFrom, ho, Cat.placeHalves, Cat.takeHalves, Cat.placeScales, Cat.placeScale, f, hm]⟩

theorem takeLeaf_ok (s : State) (p fmt d : Nat) (hg : s.cat.granules = []) (hm : fmtIsMx fmt = false) (hl : leafGranules fmt d ≤ 15872)
    (ho : s.inFallback (p % 3072 % 12) (p % 3072 / 12) = false) : ∃ h j, s.takeLeaf p fmt d 1 =
    (some [h], { s with fresh := s.fresh + 1, cat := s.cat.takeRun j (leafGranules fmt d) }) := by
  obtain ⟨h, j, e⟩ := placeFrom_ok s.cat s.inFallback fmt d (Config.freeNat s.fresh) (p % 3072) hg hm hl ho 3071
  have e' : s.cat.placeFrom (State.inFallback { s with fresh := s.fresh + 1 }) fmt d 1 (Config.freeNat s.fresh) (p % 3072) 3072 =
    some ([h], s.cat.takeRun j (leafGranules fmt d)) := e
  refine ⟨h, j, ?_⟩
  unfold State.takeLeaf
  simp only [e']

def cp0 : AnnexCopy := { form := .raw, k := 4, parity := false, first := 0, run := 4, bytes := [], touched := false, key := 5 }
def ca0 : Card := { cd0 with loc := .annex false 0, annexGranules := 4 }
def mv0 : Move :=
  { cards := [0], cls := .demand, dest := .stack, fallback := false, condense := false, queued := 36, started := none, channel := 0,
    granules := [], scales := [], recalled := [], acks := [], lentAt := none, returns := false, waits := false }

/-- The leaf of sequence 3 lies in the annex, and one move of it is queued. -/
def svmv (m : Move) : State :=
  { sv with
    cat := { sv.cat with cards := [(0, ca0)], granules := [] }
    mover := { sv.mover with next := 1, moves := [(0, m)], devices := 8, size := 1024, copies := [(0, cp0)], granules := [0, 1, 2, 3] } }

/-- The same, started 64 rows ago. -/
def mv1 : Move := { mv0 with started := some 36, granules := [[0, 12, 24, 36]], scales := [none] }

theorem witness_MoveStarts : Canonical (svmv mv0) ∧ Tbl.get (svmv mv0).mover.moves 0 = some mv0 ∧ (svmv mv0).moveCards mv0 = some [(0, ca0)] ∧
    (svmv mv0).freeChannel .demand = some 0 ∧ (svmv mv0).isMoving [0] = false ∧ (svmv mv0).inQueue 0 .demand = true ∧
    Tbl.get (svmv mv0).vault.blocks 0x060 = none ∧ (svmv mv0).moveDone mv0 [(0, ca0)] = false ∧
    (svmv mv0).turnOf mv0 [(0, ca0)] = some (svmv mv0) ∧
    ∃ h u, (svmv mv0).takeLeaf (placement (handleSlot ca0.handle) 0 0 0) ca0.format ca0.d 1 = (some [h], u) :=
  ⟨canon_iff _ (by decide +kernel), by decide +kernel, by decide +kernel, by decide +kernel, by decide +kernel, by decide +kernel,
    by decide +kernel, by decide +kernel, rfl, let ⟨h, _, e⟩ := takeLeaf_ok (svmv mv0) (placement 3 0 0 0) 1 64 rfl (by decide) (by decide) (by decide +kernel); ⟨h, _, e⟩⟩

/-- Channels 0 to 3 hold 16 moves each. -/
def svfull : State := { svmv mv0 with mover := { (svmv mv0).mover with
  next := 65
  moves := (0, mv0) :: (List.range 64).map fun i => (i + 1, { mv0 with cards := [], started := some 99, channel := i / 16 }) } }

theorem witness_NoChannel : svfull.freeChannel .demand = none ∧ Tbl.get svfull.mover.moves 0 = some mv0 ∧ Canonical svfull :=
  ⟨by decide +kernel, by decide +kernel, canon_iff _ (by decide +kernel)⟩

theorem witness_MoveLands : mv1.started ≠ none ∧ ca0.onLoan = false ∧ mv1.granules.length = 1 ∧ mv1.scales.length = 1 ∧
    ((svmv mv1).readSource mv1 [(0, ca0)]).1 = some [(0, ca0, [])] ∧ Canonical (svmv mv1) :=
  ⟨by decide, by decide +kernel, by decide, by decide, by decide +kernel, canon_iff _ (by decide +kernel)⟩

/-- Below LOW_WATER with the leaf in the stacks and node 31 the one lender. -/
def svdm : State :=
  (((sv.setFld rWaterLowWater 4294967295).setFld rWaterHighWater 4294967295).setFld (rLenderNode 0) 31).setFld (rLenderValid 0) 1

theorem mergeSort_one {α : Type} {l : List α} {x : α} {le : α → α → Bool} (h : l = [x]) : l.mergeSort le = [x] := by
  subst h
  simp

theorem victims_one : svdm.victims = [(0, cd0)] := mergeSort_one (by decide +kernel)

theorem witness_Demotion : svdm.freeGranules < svdm.fld rWaterLowWater ∧ svdm.freeGranules + svdm.outgoing < svdm.fld rWaterHighWater ∧
    svdm.lenders = [31] := by decide +kernel

theorem demote_one : ∃ u, svdm.demoteOne (0, cd0) = (true, u) := by
  unfold State.demoteOne
  simp only [mergeSort_one (show (0 : Nat) :: (svdm.partner 0).toList = [0] by decide +kernel)]
  exact ⟨_, Prod.ext (by decide +kernel) rfl⟩

theorem test_move_land : nx (exec (.moveLand 0) (svmv mv1)) (fun t => t.mover.moves = [] && t.mover.copies = [] &&
    (t.card 0).map (fun c => (c.state, c.loc)) = some (.sealed, .stack 0)) = true := by decide +kernel

/-- A LEND to node 16383, sent in row 36 and not answered; a fall-back victim goes on to node 31. -/
def mvl : Move := { mv1 with dest := .loan 16383, lentAt := some 36 }
def svnl : State :=
  (({ svmv { mvl with fallback := true } with cat := { (svmv mv1).cat with cards := [(0, { cd0 with state := .moving false })] } }.setFld
    (rLenderNode 0) 31).setFld (rLenderValid 0) 1)

theorem witness_NextLender : Canonical svnl ∧ Tbl.get svnl.mover.moves 0 = some { mvl with fallback := true } ∧
    svnl.moveCards { mvl with fallback := true } = some [(0, { cd0 with state := .moving false })] ∧ mvl.acks = [] ∧
    ({ svnl with mover := { svnl.mover with passed := Tbl.set svnl.mover.passed 16383 (svnl.row + 256) } } : State).nextLender
      [(0, { cd0 with state := .moving false })] = some 31 :=
  ⟨canon_iff _ (by decide +kernel), by decide +kernel, by decide +kernel, rfl, by decide +kernel⟩

theorem test_next_lender : nx (exec (.lenderAckTimeout 0) svnl) (fun t => t.mover.passed = [(16383, 356)] &&
    t.mover.moves.map (fun p => (p.2.dest, p.2.started)) = [(.loan 31, none)] && (t.card 0).map Card.state = some .sealed) = true := by
  decide +kernel

theorem witness_MovesFail : mv1.fallback = false ∧ mv1.started = some 36 ∧ 36 + 64 ≤ (svmv mv1).row ∧ mvl.lentAt = some 36 ∧
    mvl.returns = false ∧
    (svmv mv1).moveCards { mv1 with dest := .annex } = some [(0, ca0)] ∧ (svmv { mv0 with cls := .prefetch }).row = 36 + 64 ∧
    Tbl.get (svmv mvl).mover.moves 0 = some mvl ∧
    Tbl.get { sv.mover with passed := [(16383, 100)] }.passed 16383 = some 100 := by decide +kernel

theorem test_moves_fail : nx (exec (.moveFail 0 .destination) (svmv mv1)) (fun t => t.mover.moves = [] &&
      t.fld rMovesFailed = 1 && (t.card 0).map Card.state = some .sealed) = true ∧
    nx (exec (.moveFail 0 .crc) (svmv mv1)) (fun t => t.mover.moves = [] && (t.card 0).map Card.state = some .lost) = true ∧
    nx (exec (.prefetchDrop 0) (svmv { mv0 with cls := .prefetch })) (fun t => t.mover.moves = []) = true ∧
    nx (exec (.prefetchDrop 0) (svmv { mv0 with cls := .prefetch, queued := 37 })) (fun t => t.mover.moves.length = 1) = true ∧
    nx (exec (.lenderAckTimeout 0) (svmv mvl)) (fun t => t.mover.moves = [] &&
      t.mover.passed = [(16383, 356)]) = true ∧
    nx (exec (.moverEngineFault 0) (svmv mv1)) (fun t => t.mover.moves = [(0, { mv0 with started := none })]) = true ∧
    nx (exec (.lenderPassOverExpiry 16383) { sv with mover := { sv.mover with passed := [(16383, 100)] } }) (fun t =>
      t.mover.passed = []) = true := by decide +kernel

/-! ## Loans -/

def lm1 : LoanMsg :=
  { lm0 with qp := 6, srcQp := 9, src := 30, result := 0, loanSlot := 65535, borrowerHandle := 3 * 4096 + 1, lenderHandle := 77, layer := 0,
             head := 0, half := 0, block := 0, model := 2, format := 1, d := 64, layers := 0, kvHeads := 1, origin := 7 }

/-- The leaf of sequence 3 is lent to node 30 as loan slot 65535; sequence 3 is a loan sequence here. -/
def ln0 : Loan := { borrower := 30, borrowerHandle := 3 * 4096 + 1, slot := 3, card := 0, key := leafKey 3 0 0 0 0 }
def svln : State := { sv with cat := { sv.cat with lent := [(65535, ln0)], seqs := [(3, { sq0 with loanSeq := true })] } }

/-- The leaf of sequence 3 is on loan to node 30. -/
def svlo : State := { sv with cat := { sv.cat with cards := [(0, { cd0 with loc := .loan 30 65535 })], granules := [] } }

/-- The same with moves that run. -/
def svlm (d : Dest) (c : Card) : State :=
  { sv with cat := { sv.cat with cards := [(0, c)] }, mover := { sv.mover with next := 1, moves := [(0, { mv1 with dest := d })] } }
def cl0 : Card := { cd0 with loc := .loan 30 65535 }

theorem witness_OnLoan : OnLoan sv lm1 ∧ Tbl.wf sv.cat.lent = true ∧ sv.runs = true ∧ sv.node.state ≠ .fault :=
  ⟨⟨6 * 4096, { cn0 with cls := 2, tenant := 0, peerNode := 30 }, by decide +kernel⟩, by decide +kernel⟩

theorem witness_LoanMessages : (∃ e, sv.takeLoan lm1 = .error e) ∧ svln.loanNamed lm1 = some ln0 ∧ svln.card 0 = some cd0 ∧
    cd0.place = some ⟨0, none⟩ ∧ svln.leafPoisoned ⟨0, none⟩ 1 64 = false ∧ Tbl.get svln.cat.leaves ln0.key = some ln0.card ∧
    (∀ p ∈ svln.cat.lent, p.2.slot = ln0.slot → p.1 = 65535) :=
  ⟨⟨3, by rfl⟩, by decide +kernel⟩

theorem witness_LoanAnswers :
    (svlm (.loan 30) cd0).cardNamed lm1 (fun n _ => ((svlm (.loan 30) cd0).lendMove 30 n).isSome) = some (0, cd0) ∧
    (svlm (.loan 30) cd0).lendMove 30 0 = some (0, { mv1 with dest := .loan 30 }) ∧
    (svlm .stack cl0).cardNamed lm1 (fun n c => c.loc = .loan 30 65535 && (svlm .stack cl0).mover.moves.any fun p =>
      p.2.started.isSome && p.2.cards.contains n) = some (0, cl0) ∧
    svlo.cardNamed lm1 (fun _ c => c.loc = .loan 30 65535) = some (0, cl0) ∧ svlo.isReturned 0 = false ∧ svlo.partner 0 = none ∧
    svlo.fld rWaterLowWater ≤ svlo.freeGranules ∧
    Canonical (svlm .stack cl0) ∧ Canonical (svlm (.loan 30) cd0) ∧ Canonical svlo ∧ Canonical svln :=
  ⟨by decide +kernel, by decide +kernel, by decide +kernel, by decide +kernel, by decide +kernel, by decide +kernel,
    by decide +kernel, canon_iff _ (by decide +kernel), canon_iff _ (by decide +kernel),
    canon_iff _ (by decide +kernel), canon_iff _ (by decide +kernel)⟩

theorem test_loans : nx (exec (.lend lm1) sv) (fun t => t.out = [.loan .lendAck 30 (loanAnswer lm1 loanDisabled 0 77)] && t.cat = sv.cat) = true ∧
    nx (exec (.release lm1) svln) (fun t => t.cat.lent = [] && t.cat.leaves = [] && (t.seqAt 3).state = .closing) = true ∧
    nx (exec (.lendAck lm1) (svlm (.loan 30) cd0)) (fun t => (t.card 0).map Card.loc = some (.loan 30 65535) && t.mover.moves = []) = true ∧
    nx (exec (.lendAck { lm1 with result := 2 }) (svlm (.loan 30) cd0)) (fun t => (t.card 0).map Card.loc = some (.stack 0) &&
      t.mover.passed = [(30, 356)]) = true ∧
    nx (exec (.recallData { lm1 with data := [1, 2] }) (svlm .stack cl0)) (fun t =>
      (Tbl.get t.mover.moves 0).map (fun m => m.recalled.map Prod.fst) = some [0]) = true := by decide +kernel

theorem choose_not_none {s u : State} {m k : Nat} {ok : Nat → Bool} (hk : k < m) (h : ok k = true) (e : s.choose m ok = (none, u)) :
    False := by
  obtain ⟨j, f, _⟩ := choose_some s m k ok hk h
  rw [f] at e
  cases e

/-- A LEND into a loan sequence that stands is taken where its leaf finds room. -/
theorem takeLoan_ok (s : State) (m : LoanMsg) (slot k a : Nat) (he : s.fld rLoanCtlLendEnable ≠ 0) (hs : s.cat.lent.length < loanSlots)
    (hq : s.lentGranules + leafGranules m.format m.d ≤ s.fld rLoanCtlQuota)
    (hw : leafGranules m.format m.d ≤ s.freeGranules) (h0 : s.fld rWaterHighWater = 0) (hd : m.d ≤ 256)
    (hc : m.crc = crc32c (slice m.data 0 (elemBytes m.format m.d))) (hm : fmtIsMx m.format = false)
    (e0 : s.loanSeqOf m.src m.borrowerHandle = some slot) (e2 : (s.leafAt slot m.layer m.head m.half m.block).isSome = false)
    (e3 : s.leafAt slot m.layer m.head (1 - m.half) m.block = none) (hg : s.cat.granules = []) (hl : leafGranules m.format m.d ≤ 15872)
    (ho : s.inFallback (placement slot m.layer m.head m.block % 3072 % 12) (placement slot m.layer m.head m.block % 3072 / 12) = false)
    (hp : s.pagesLacking slot m.layer m.head m.half [m.block] ≤ s.freePages) (hk : k < cardCount) (hkf : s.cardFree k = true)
    (ha : a < loanSlots) (haf : Tbl.get s.cat.lent a = none) : ∃ k h u, s.takeLoan m = .ok (k, h, u) := by
  obtain ⟨h, j, e4⟩ := takeLeaf_ok s (placement slot m.layer m.head m.block) m.format m.d hg hm hl ho
  have hd' : (if 256 < m.d then m.d / 2 else m.d) = m.d := if_neg (by omega)
  have e5 : s.takeLoanPlace slot m m.d = some (h, { s with fresh := s.fresh + 1, cat := s.cat.takeRun j (leafGranules m.format m.d) }) := by
    unfold State.takeLoanPlace
    rw [e3]
    show (match s.takeLeaf (placement slot m.layer m.head m.block) m.format m.d 1 with
      | (some (l :: _), s) => some (l, s)
      | _ => none) = _
    rw [e4]
  have e1 : s.openLoanSeq m = some (slot, s) := by simp [State.openLoanSeq, e0]
  unfold State.takeLoan
  simp only [hd', hm]
  rw [if_neg he, if_neg (by omega), if_neg (by omega), if_neg (by simp [hc]), e1]
  simp only [e2, Bool.false_eq_true, if_false]
  rw [e5]
  simp only []
  rw [if_neg (by show ¬ _ < s.fld rWaterHighWater; omega)]
  obtain ⟨n, hn, _⟩ := choose_some { s with fresh := s.fresh + 1, cat := s.cat.takeRun j (leafGranules m.format m.d) } cardCount k
    s.cardFree hk hkf
  unfold State.takeCard
  rw [show State.choose { s with fresh := s.fresh + 1, cat := s.cat.takeRun j (leafGranules m.format m.d) } cardCount
    (State.cardFree { s with fresh := s.fresh + 1, cat := s.cat.takeRun j (leafGranules m.format m.d) }) = _ from hn]
  simp only []
  rw [if_neg (by show ¬ s.freePages < s.pagesLacking slot m.layer m.head m.half [m.block]; omega)]
  split
  · rename_i u e
    exact (choose_not_none ha (by show (Tbl.get s.cat.lent a).isNone = true; simp [haf]) e).elim
  · exact ⟨_, _, _, rfl⟩

theorem mergeSort_pair {l : List Nat} {a b : Nat} (h : l = [a, b]) (hab : a ≤ b) : l.mergeSort = [a, b] := by
  subst h
  simp [List.mergeSort, List.MergeSort.Internal.splitInTwo, hab]

def lm2 : LoanMsg := { lm1 with block := 1, crc := crc32c (slice [] 0 65536) }

/-- LEND is enabled, and the loan sequence of the borrower's handle stands. -/
def svl1 : State :=
  let s := { svln with cat := { svln.cat with granules := [] } }
  ((s.setFld rLoanCtlLendEnable 1).setFld rLoanCtlQuota 100).setFld rWaterHighWater 0

theorem witness_Lend : OnLoan svl1 lm2 ∧ Canonical svl1 ∧ ∃ k h u, svl1.takeLoan lm2 = .ok (k, h, u) :=
  ⟨⟨6 * 4096, { cn0 with cls := 2, tenant := 0, peerNode := 30 }, by decide +kernel⟩, canon_iff _ (by decide +kernel),
    takeLoan_ok svl1 lm2 3 1 0 (by decide +kernel) (by decide +kernel) (by decide +kernel) (by decide +kernel) (by decide +kernel)
      (by decide) (show crc32c (slice [] 0 65536) = _ from rfl) (by decide +kernel) (by decide +kernel) (by decide +kernel) (by decide +kernel) (by decide +kernel) (by decide +kernel)
      (by decide +kernel) (by
        unfold State.pagesLacking
        rw [mergeSort_pair (show _ = [0, 1] by decide +kernel) (by decide)]
        decide +kernel) (by decide) (by decide +kernel) (by decide) (by decide +kernel)⟩

/-! ## The annex -/

/-- Sixteen pool devices; the leaf of sequence 3 in the annex with one copy, and the copy's move queued or not. -/
def sva : State := { svmv mv0 with mover := { (svmv mv0).mover with moves := [], devices := 16, poisonRows := [(15, List.replicate 16 99)],
                                                                     linkDown := [(3, 0)] } }
def svad : State := { sva with clock := ⟨4096, 0⟩ }
def svaf : State := (sva.setFld ⟨0x060, 0x060, 48, 48⟩ 1).setFld (rFmNodesEntries 0) 0

/-- A0 is an endpoint, up, and key 0 is its key. -/
def sve : State :=
  let s := { sv with mover := { sv.mover with endpointUp := true, perstHigh := true }
                     xport := { sv.xport with keys := [(0, { ky0 with rights := 15 })] } }
  ((s.setFld (rAnnexCfgEndpoint 0) 1).setFld (rAnnexLinkLink 0) 3).setFld (rAnnexCfgHdmGib 0) 1
def svet : State := { sve with node := { sve.node with state := .training } }
def er1 : EndpointAccess := ⟨0, 4, none⟩
def ew1 : EndpointAccess := ⟨0xFFC, 4, some [1, 2, 3, 4]⟩

theorem witness_Annex : 15 < sva.mover.devices ∧ svad.linkLost = true ∧ 16 ≤ sva.recentPoison 15 ∧
    (svaf.fld rPoolStatusFenced).testBit 0 = true ∧ cp0.parity = false ∧ svaf.copyTouches cp0 0 = true ∧ svaf.card 0 = some ca0 ∧
    sva.fld (rAnnexLinkLink 3) < 2 ∧ Tbl.get sva.vault.blocks 0x06B = none ∧ (sva.isEndpoint 3 = true → sva.mover.perstHigh = true) ∧
    sve.isEndpoint 0 = true := by decide +kernel

/-- Nothing holds up an access of four bytes. -/
theorem clear4 {s : State} {a : Nat} (h : s.work.l8 = [] ∧ s.work.raws = [] ∧ (regionsOf a 4).all (fun r => !s.inRound r.1 r.2) = true) :
    RawClear s a 4 := ⟨h.1, h.2.1, fun r hr => by simpa using List.all_eq_true.1 h.2.2 r hr⟩

/-- A poisoned line under both accesses; an access past the key. -/
def svep : State := { sve with poison := [0x100, 0x13F] }
def ex1 : EndpointAccess := ⟨0xFFD, 4, none⟩

theorem witness_EndpointPoison : svep.readsPoison 0x4000 4 = true ∧ svep.edgePoison 0x4FFC 4 = true ∧ Canonical svep ∧
    RawClear svep 0x4000 4 ∧ RawClear svep 0x4FFC 4 ∧ RawClear sve 0x4000 4 ∧ RawClear sve 0x4FFC 4 ∧ sve.endpointTarget ex1 = none :=
  ⟨by decide +kernel, by decide +kernel, canon_iff _ (by decide +kernel), clear4 (by decide +kernel), clear4 (by decide +kernel),
    clear4 (by decide +kernel), clear4 (by decide +kernel), by decide +kernel⟩

theorem test_endpoint_poison : nx (exec (.endpointAccess er1) svep) (fun t => t.out = [.endpointData [] true]) = true ∧
    nx (exec (.endpointAccess ew1) svep) (fun t => t.mem = [] && t.out = []) = true ∧
    nx (exec (.endpointAccess ex1) sve) (fun t => t.out = [.endpointData [] true] && t.fld rPoolEventsEndpointDenied = 1) = true := by
  decide +kernel

theorem witness_Endpoint : sve.mover.endpointUp = true ∧ sve.node.state = .serving ∧ sve.endpointTarget er1 = some 0x4000 ∧
    sve.readsPoison 0x4000 4 = false ∧ sve.endpointTarget ew1 = some 0x4FFC ∧ sve.edgePoison 0x4FFC 4 = false ∧
    0x4FFC + 4 ≤ stackBytes ∧ svet.node.state ≠ .serving ∧ svet.node.state ≠ .draining ∧ Canonical sve :=
  ⟨by decide +kernel, by decide +kernel, by decide +kernel, by decide +kernel, by decide +kernel, by decide +kernel, by decide +kernel,
    by decide +kernel, by decide +kernel, canon_iff _ (by decide +kernel)⟩

theorem test_fences : ([.poolDeviceFence 15, .poolPoisonLimit 15, .cxlDeviceEvent 15 true] : List Instr).all (fun i =>
      nx (exec i { sva with xport := sv1.xport }) fun t => (t.fld rPoolStatusFenced).testBit 15) = true ∧
    nx (exec (.poolLinkRetrainTimeout 15) svad) (fun t => (t.fld rPoolStatusFenced).testBit 15) = true ∧
    nx (exec (.poolLinkRetrainTimeout 15) sva) (fun t => t.fld rPoolStatusFenced = 0) = true ∧
    nx (exec (.fenceSweep 0) svaf) (fun t => (t.card 0).map Card.state = some .lost) = true := by decide +kernel

theorem test_annex_links : nx (exec (.annexPerstInput false) sve) (fun t => t.fld (rAnnexLinkLink 0) = 0 && !t.mover.endpointUp) = true ∧
    nx (exec (.annexLinkDown 0) sve) (fun t => t.fld (rAnnexLinkLink 0) = 0 && !t.mover.endpointUp) = true := by decide +kernel

theorem test_endpoint : nx (exec (.endpointAccess er1) sve) (fun t => t.out = [.endpointData [0, 0, 0, 0] false]) = true ∧
    nx (exec (.endpointAccess ew1) sve) (fun t => t.mem = [(0x4FFC, 1), (0x4FFD, 2), (0x4FFE, 3), (0x4FFF, 4)]) = true ∧
    nx (exec (.endpointAccess ew1) svet) (fun t => t.mem = [] && t.fld rPoolEventsEndpointDenied = 1) = true := by decide +kernel

/-- An evacuation runs. -/
def svop : State := { sva with mover := { sva.mover with op := some (.evacuate 15) } }

theorem witness_AnnexOps : sva.runs = true ∧ sva.fld rBootStatusImage ≠ 0 ∧ sva.mover.op = none ∧ 8 ≤ sva.mover.devices ∧
    svop.mover.op ≠ none ∧ (∀ p ∈ svop.mover.moves, p.2.dest ≠ .annexRewrite) ∧
    svop.headsFor 15 = false := by decide +kernel

theorem test_annex_ops : nx (exec (.moverEvacuate 3) sva) (fun t => t.fld rMoverCtlResult = 1 && t.mover.moves.length = 1 &&
      (t.fld rPoolStatusEvacuating).testBit 3) = true ∧
    nx (exec .moverRebuild svop) (fun t => t.fld rMoverCtlResult = 3) = true ∧
    nx (exec .evacuationComplete svop) (fun t => t.fld rMoverCtlResult = 2 && t.mover.op = none) = true := by decide +kernel

/-! ## The catalogue and the Index in the background -/

def rl0 : Released := { row := 99, granules := [0], annex := [3], scale := none, card := some 1, pages := [5], zero := false }

/-- Sequence 3 is Closing, the next one at its last generation, and a leaf is to be released. -/
def svcl : State := { sv with mover := { sv.mover with granules := [2, 3] }, cat := { sv.cat with
  seqs := [(3, { sq0 with state := .closing }), (4, { sq0 with state := .closing, generation := 0xFFF })],
  releasing := [rl0, { rl0 with granules := [12], annex := [], zero := true, card := none, pages := [] }],
  pages := [5] } }

theorem witness_Background : Canonical svcl ∧ rl0 ∈ svcl.cat.releasing ∧ (∀ p ∈ svcl.work.cmds, p.2.walks = true → rl0.row < p.2.row) ∧
    (svcl.seqAt 3).state = .closing ∧ svcl.seqInFlight 3 = 0 ∧ (svcl.seqAt 4).generation = 0xFFF ∧ svcl.seqInFlight 4 = 0 :=
  ⟨canon_iff _ (by decide +kernel), by decide +kernel⟩

theorem test_background : nx (exec (.sequenceClosed 3) svcl) (fun t => (t.seqAt 3).state = .closed && (t.seqAt 3).generation = 2 &&
      t.cat.leaves = []) = true ∧
    nx (exec (.sequenceClosed 4) svcl) (fun t => (t.seqAt 4).state = .retired) = true ∧
    nx (exec .resourceRelease svcl) (fun t => t.cat.releasing = [] && t.cat.granules = [24, 36] && t.cat.pages = [] &&
      t.mover.granules = [2]) = true := by
  decide +kernel

/-- Free table pages are below THRESHOLD; a compaction runs. -/
def svcp : State := sv.setFld rCompactThreshold 4294967295
def shw0 : Shadow := { pages := [0], dirPages := [(dirKey 3, [0])], heads := [], records := [] }
def svcq : State := { sv.setFld rCompactPhase 2 with cat := { sv.cat with shadow := some shw0 } }

theorem witness_Compaction : svcp.freePages < svcp.fld rCompactThreshold ∧ svcp.fld rCompactPhase = 0 ∧ svcp.cat.swapRow = none ∧
    svcq.cat.shadow = some shw0 ∧ svcq.fld rCompactPhase = 2 ∧ svcq.clock.ns = 0 ∧
    svcp.reaches .fm true 0x050 0x048 = true := by decide +kernel

theorem test_compaction : nx (exec .compactionAutoStart svcp) (fun t => t.fld rCompactPhase = 1 && t.cat.shadow.isSome) = true ∧
    nx (exec (.compactStart .oob) svcp) (fun t => t.fld rCompactPhase = 1) = true ∧
    nx (exec .compactionSwap svcq) (fun t => t.fld rCompactPhase = 0 && t.cat.pages = [0] && t.cat.shadow.isNone && (t.seqAt 3).headDir = 0) = true := by decide +kernel

theorem witness_Index : Tbl.wf svf1.index.entries = true ∧ Tbl.wf svf1.index.copies = true ∧ svf1.reaches .fm true 0x058 0x028 = true ∧
    Tbl.get svf1.index.entries 65536 = some ent1.sealed ∧ ent1.sealed.valid = true ∧ svf1.index.spareUsed = false ∧
    svf1.index.rebuild = none ∧ Tbl.get svf1.index.copies 65536 = some ent1.sealed ∧ 65536 / setSize = 1 ∧
    crc32c ent1.sealed.bytes = ent1.sealed.crc := by decide +kernel

/-- The spare bank for set 1 is built, without the entry whose copy failed. -/
def svrb : State :=
  { svf1.setFld rScrubStatusRebuild 2 with
    index := { svf1.index with entries := [(0, ent1.sealed), (65536, ent1.sealed)], rebuild := some ⟨1, 99, []⟩ } }

theorem witness_Swap : svrb.index.rebuild = some ⟨1, 99, []⟩ ∧ Tbl.wf ([] : Tbl Entry) = true ∧ svrb.clock.ns = 0 ∧
    svrb.fld rScrubStatusRebuild = 2 ∧ Tbl.wf svrb.index.entries = true ∧ Tbl.wf svrb.index.copies = true := by decide +kernel

theorem test_index : nx (exec (.indexRemove .fm 65536) svf1) (fun t => t.index.entries = [] && t.fld rIndexCtlResult = 2 &&
      t.index.departing.map Departing.entry = [65536]) = true ∧
    nx (exec (.indexRemove .fm 65537) svf1) (fun t => t.index.entries.length = 1 && t.fld rIndexCtlResult = 3) = true ∧
    nx (exec (.indexFlush .fm 1) svf1) (fun t => t.index.entries = []) = true ∧
    nx (exec (.indexFlush .fm 0) svf1) (fun t => t.index.entries.length = 1) = true ∧
    nx (exec (.camBankRebuild 1) svf1) (fun t => t.index.rebuild.map Rebuild.entries = some [(65536, ent1.sealed)] && t.fld rScrubStatusRebuild = 1) = true ∧
    nx (exec .camRebuildSwap svrb) (fun t => t.index.entries = [(0, ent1.sealed)] && t.index.spareUsed &&
      t.fld rScrubStatusRebuild = 0) = true := by decide +kernel

/-! ## Transport -/

def k6 : Nat := 6 * 4096
def k7 : Nat := 7 * 4096

/-- A READ of 64 bytes as its message holds it, TAG 5, at a line's edge. -/
def ms0 : List Byte := leBytes 1 opRead ++ [0] ++ leBytes 2 5 ++ leBytes 12 0 ++ leBytes 4 0 ++ leBytes 4 64 ++ leBytes 8 64

/-- The next packet of queue pair 7, a READ, and one whose opcode is not assigned. -/
def pk1 : Packet := { pk0 with kind := 0, tc := 0, srcNode := 20, srcDomain := 1, dstQp := 7, srcQp := 9, psn := 0, payload := ms0 }
def ms1 : List Byte := [0x7F] ++ ms0.drop 1
def c7 : Conn := { cn0 with cls := 3 }

theorem witness_Packets : Talks sv ∧ sv.conn 7 20 1 9 = some (k7, c7) ∧ Tbl.get sv.xport.conns k7 = some c7 ∧ sv.classOk c7 pk1 = true ∧
    pk1.psn = c7.nextPsn ∧ sv.poolUsed + ms0.length ≤ poolLimit ∧ (sv.xport.issued.any fun i => i.conn = k7) = false ∧
    c7.malformed pk1 ms0 = false ∧ c7.malformed pk1 ms1 = false ∧ opRead ∈ assignedOps ∧ sv.refusesState opRead = false ∧
    sv.enveloped c7 = false ∧ num ms1 0 1 ∉ assignedOps ∧ sv.refusesState (num ms1 0 1) = false ∧
    2 ^ 23 ≤ psnAhead 0 (2 ^ 24 - 1) ∧ sv.classOk c7 { pk1 with psn := 2 ^ 24 - 1 } = true ∧ 512 < psnAhead 0 513 ∧
    psnAhead 0 513 < 2 ^ 23 := by
  refine ⟨⟨by decide +kernel, by decide +kernel⟩, ?_⟩
  decide +kernel

theorem witness_GoesOn : GoesOn sv c7 pk1 (num ms0 0 1) := by
  refine Or.inr (Or.inr (Or.inr ⟨?_, ?_⟩)) <;> decide +kernel

theorem test_packets : nx (exec (.dataPacketReceive pk1) sv) (fun t => t.xport.inbox = [(k7, ms0)] && t.out = [.ack k7 0 1 0]) = true ∧
    nx (exec (.dataPacketReceive { pk1 with payload := ms1 }) sv) (fun t => t.xport.inbox = [] && t.out.length = 2) = true ∧
    nx (exec (.dataPacketReceive { pk1 with psn := 2 ^ 24 - 1 }) sv) (fun t => t.xport.inbox = [] &&
      (Tbl.get t.xport.conns k7).map Conn.ackDue = some [0]) = true ∧
    nx (exec (.dataPacketReceive { pk1 with psn := 513 }) sv) (fun t => t.xport.inbox = [] &&
      (Tbl.get t.xport.conns k7).map (fun c => (c.state, c.cause)) = some (.error, 1)) = true ∧
    nx (exec (.dataPacketReceive { pk1 with psn := 512 }) sv) (fun t => t.xport.inbox = [] &&
      (Tbl.get t.xport.conns k7).map (fun c => (c.state, c.buffered.length)) = some (.ready, 1)) = true := by decide +kernel

/-- A packet sent on local port 0 to remote port 0 of node 20, not acknowledged. -/
def ua0 : Unacked :=
  { conn := k7, psn := 5, kind := 0, first := true, last := true, entry := 20, generation := 0, used := [0], path := 0, index := 0,
    pathSeq := 65535, tc := 0, length := 8, tries := 1, sent := 0, resend := false }
def ua2 : Unacked := { ua0 with psn := 7, path := 9, index := 1 }

/-- Packets 5 to 7 of queue pair 7 are out, 6 of them only now; node 20 is reached over the ports 0, which is Up; path 1 is held
down. -/
def svp : State :=
  { sv with
    ports := setAt sv.ports 0 fun q => { q with link := .up, lanes := 8, spraying := true }
    xport := { sv.xport with
      conns := [(5 * 4096, cn0), (k7, { c7 with ackDue := [0, 5] })]
      unacked := [ua0, { ua0 with psn := 6, pathSeq := 0, sent := 409600 }, ua2]
      timeouts := [(pathKey 20 0, [100, 100])]
      held := [(pathKey 20 1, 100), (pathKey 20 2, 101)] } }.setStored 0x038 (routeOffset 20) 0x80

theorem witness_Acks : Talks svp ∧ (svp.xport.conns.filter fun p => connQp p.1 = 7) = [(k7, { c7 with ackDue := [0, 5] })] ∧
    svp.connTo 7 20 9 = some k7 ∧ (svp.xport.unacked.filter fun u => u.entry = 20 && u.index = 0 && 0 < u.tries && !u.resend &&
      (u.pathSeq + 65536 - 65535) % 65536 < 1) = [ua0] ∧ svp.weightedPaths (svp.usablePaths 20) ≠ [] ∧
    Tbl.get svp.xport.conns k7 ≠ none ∧
    (svp.xport.unacked.all fun u => !(u.conn = k7 && u.psn = 6) ||
      (svp.tick 9).now < u.sent + svp.fld rTimersAckTimeout) = true ∧
    (svp.xport.unacked.find? fun u => u.conn = k7 && u.psn = 5 && 0 < u.tries && !u.resend &&
      u.sent + svp.fld rTimersAckTimeout ≤ (svp.tick 9).now) = some ua0 ∧
    Tbl.get svp.xport.held (pathKey ua0.entry ua0.path) = none ∧
    (((Tbl.get svp.xport.timeouts (pathKey ua0.entry ua0.path)).getD []).filter (· = svp.row)).length = 2 ∧
    (svp.xport.unacked.find? fun u => u.conn = k7 && u.psn = 7 && 0 < u.tries && !u.resend &&
      u.sent + svp.fld rTimersAckTimeout ≤ (svp.tick 9).now) = some ua2 ∧
    (((Tbl.get svp.xport.timeouts (pathKey ua2.entry ua2.path)).getD []).filter (· = svp.row)).length < 2 ∧
    Tbl.get svp.xport.held (pathKey 20 1) = some 100 ∧ Tbl.get svp.xport.held (pathKey 20 2) = some 101 ∧
    sv.lostPeer 20 1 = true ∧ svp.lostPeer 20 1 = false := by
  refine ⟨⟨by decide +kernel, by decide +kernel⟩, ?_⟩
  decide +kernel

theorem test_acks : nx (exec (.ackReceive 7 ⟨20, 9⟩ 6 0) svp) (fun t => t.xport.unacked.map Unacked.psn = [6, 7]) = true ∧
    nx (exec (.ackReceive 7 ⟨20, 9⟩ 5 1) svp) (fun t => t.xport.unacked.map Unacked.psn = [5, 7]) = true ∧
    nx (exec (.ackSend 7) { svp with ports := sv.ports }) (fun t => t.out = [.ack k7 0 0 0, .ack k7 5 0 0]) = true ∧
    nx (exec (.pathHoldDownExpiry 20 1) svp) (fun t => t.xport.held = [(pathKey 20 2, 101)]) = true ∧
    nx (exec (.pathHoldDownExpiry 20 2) svp) (fun t => t.xport.held.length = 2) = true ∧
    nx (exec (.peerUnreachable 20 1) { sv with xport := { sv.xport with conns := [(k7, c7)] } }) (fun t =>
      (Tbl.get t.xport.conns k7).map (fun c => (c.state, c.cause, c.since)) = some (.error, 3, 100)) = true := by decide +kernel

/-- Nothing of node 20 has been acknowledged for PEER_TIMEOUT, over three paths. -/
def svpto : State := { svp with
  clock := ⟨100000, 0⟩
  xport := { svp.xport with unacked := [{ ua0 with used := [0, 8, 16] }, { ua2 with used := [0, 8, 16] }] } }

theorem test_peer_timeout : svpto.lostPeer 20 1 = true ∧
    State.lostPeer { svpto with xport := { svpto.xport with ackRows := [(20, 99999)] } } 20 1 = false ∧
    State.lostPeer { svpto with xport := { svpto.xport with unacked := [{ ua0 with used := [0, 8] }] } } 20 1 = false := by
  decide +kernel

/-! ## Queue pairs and keys -/

/-- A CONNECT of the fabric manager for TENANT 0, and one of node 20. -/
def cm1' : CmMsg :=
  { cm0 with qp := 1, srcNode := 9, srcDomain := 1, tag := 3, senderQp := 8, cls := 3, rights := 0, tenant := 0, process := none,
             key := 0, offset := 0, length := 0, processOffset := 0 }

/-- No queue pair is free. -/
def svfq : State := sv.setFld rSharedReserveCount 65528

theorem witness_Connect : Talks sv ∧ Tbl.wf sv.xport.conns = true ∧ sv.admits cm1' = true ∧ sv.takesConnect cm1' = true ∧
    sv.newKey cm1' = some (8 * 4096) ∧ sv.admits { cm1' with srcNode := 20 } = false ∧ svfq.admits cm1' = true ∧
    svfq.newKey cm1' = none ∧ sv.newKey { cm1' with shared := true } = some (8 * 4096) := by
  refine ⟨⟨by decide +kernel, by decide +kernel⟩, ?_⟩
  decide +kernel

theorem test_connect : nx (exec (.connect { cm1' with srcNode := 20 }) sv) (fun t => t.out = [.cmReply .accept 0 20 1 8 3 Status.deniedSecure.code 0 0 0] &&
      t.xport.conns = sv.xport.conns) = true ∧
    nx (exec (.connect cm1') svfq) (fun t => t.out = [.cmReply .accept 0 9 1 8 3 Status.noResource.code 0 0 0]) = true := by
  decide +kernel

/-- Queue pairs 5 Closing, 6 in Error since row 0, 7 in Error whose peer will go, 8 in Quarantine since row 36. -/
def svqp : State := { sv with
  clock := ⟨4096, 0⟩
  xport := { sv.xport with conns := [(5 * 4096, { cn0 with state := .closing }), (k6, { cn0 with state := .error }),
    (k7, { c7 with state := .error, since := 4000 }), (8 * 4096, { cn0 with state := .quarantine, since := 4032 })] } }
def cmd7 : CmMsg := { cm1' with qp := 7, srcNode := 20, senderQp := 9 }

/-- Queue pair 7 is in Error and a packet of it is not acknowledged. -/
def svqo : State := { svqp with xport := { svqp.xport with unacked := [ua0] } }

theorem witness_QpStates : Talks svqp ∧ Tbl.wf svqp.xport.conns = true ∧ svqp.conn 7 20 1 9 = some (k7, { c7 with state := .error, since := 4000 }) ∧
    svqp.drained k7 = true ∧ sv.conn 7 20 1 9 = some (k7, c7) ∧ connQp (5 * 4096) = 5 ∧ svqp.commandsOn (5 * 4096) = 0 ∧
    svqp.drained (5 * 4096) = true ∧ connQp k6 = 6 ∧ svqp.commandsOn k7 = 0 ∧ svqo.drained k7 = false ∧
    Tbl.get svqp.xport.conns k7 = some { c7 with state := .error, since := 4000 } ∧
    svqo.conn 7 20 1 9 = some (k7, { c7 with state := .error, since := 4000 }) := by
  refine ⟨⟨by decide +kernel, by decide +kernel⟩, ?_⟩
  decide +kernel

theorem test_qps : nx (exec (.disconnect cmd7) sv) (fun t => (Tbl.get t.xport.conns k7).map Conn.state = some .closing) = true ∧
    nx (exec (.disconnect cmd7) svqp) (fun t => (Tbl.get t.xport.conns k7).map Conn.state = some .quarantine) = true ∧
    nx (exec (.disconnect cmd7) svqo) (fun t => (Tbl.get t.xport.conns k7).map (fun c => (c.state, c.peerGone)) = some (.error, true)) = true ∧
    nx (exec (.qpClosingDone 5) svqp) (fun t => (Tbl.get t.xport.conns (5 * 4096)).map Conn.state = some .quarantine) = true ∧
    nx (exec (.qpErrorExpiry 6) svqp) (fun t => (Tbl.get t.xport.conns k6).map Conn.state = some .quarantine) = true ∧
    nx (exec (.qpErrorExpiry 7) svqp) (fun t => (Tbl.get t.xport.conns k7).map Conn.state = some .error) = true ∧
    nx (exec (.quarantineExpiry 8) svqp) (fun t => t.xport.conns.length = 3) = true := by decide +kernel

/-- A REGISTER of 16,384 bytes from offset 0x8000 by tenant 7 with SPAN, and one that takes memory. -/
def cmr : CmMsg := { cmd7 with rights := 0x17, offset := 0x8000, length := 16384 }
def cmra : CmMsg := { cmr with rights := 0x7 }

theorem alloc_one (s : State) (hp : s.pinnedGranules + 1 ≤ pinnedLimit) (hg : s.cat.granules = []) :
    ∃ base u, s.takeAlloc 16384 = .ok (base, u) := by
  unfold State.takeAlloc State.allocRun
  obtain ⟨j, e, _⟩ := choose_some s (12 * 256 * 16384) 0 (fun g => (List.range 1).all fun i => granIsLeaf (g + i) &&
    !s.cat.granules.contains (g + i)) (by decide) (by simp [hg]; decide)
  rw [if_neg (by show ¬ pinnedLimit < s.pinnedGranules + 1; omega)]
  rw [show s.choose (12 * 256 * 16384) (fun g => (List.range (16384 / 16384)).all fun i => granIsLeaf (g + i) &&
    !s.cat.granules.contains (g + i)) = _ from e]
  exact ⟨_, _, rfl⟩

theorem witness_Register : Talks sv1 ∧ sv1.conn 7 20 1 9 = some (k7, c7) ∧ sv1.registerFail c7 cmr = none ∧
    firstFrom sv1.keyFree 0 keyCount keyCount = some 1 ∧ cmr.rights.testBit 4 = true ∧ sv1.registerFail c7 cmra = none ∧
    cmra.rights.testBit 4 = false ∧ ∃ base u, sv1.takeAlloc cmra.length = .ok (base, u) := by
  refine ⟨⟨by decide +kernel, by decide +kernel⟩, by decide +kernel, by decide +kernel, by decide +kernel, by decide +kernel,
    by decide +kernel, by decide +kernel, alloc_one _ (by decide +kernel) rfl⟩

/-- Key 0 is Revoking at its last generation, key 1 waits for its revocation, key 2 is Revoking. -/
def svky : State := { sv with xport := { sv.xport with keys := [(0, { ky0 with state := .revoking, generation := 0xFFF }),
  (1, { ky0 with revokeDue := some 99 }), (2, { ky0 with state := .revoking, revoker := some cmd7 }),
  (3, { ky0 with state := .revoking, inFlight := 1 }), (4, { ky0 with revokeDue := some 100 }),
  (5, { ky0 with process := some (9, 0) })] } }

/-- Queue pair 7 takes process keys. -/
def svkc : State := { svky with xport := { svky.xport with conns := [(k7, { c7 with compat := true })] } }

theorem witness_Keys : Talks svky ∧ Tbl.get sv.xport.keys (cmd7.key / 4096) = some ky0 ∧ ky0.generation = cmd7.key % 4096 ∧
    ky0.tenant = c7.tenant ∧ Tbl.get svky.xport.keys 1 = some { ky0 with revokeDue := some 99 } ∧ 99 < svky.row ∧
    Tbl.get svky.xport.keys 4 = some { ky0 with revokeDue := some 100 } ∧ svky.row ≤ 100 ∧ ky0.revokeDue = none ∧
    Tbl.get svky.xport.keys 2 = some { ky0 with state := .revoking, revoker := some cmd7 } ∧
    (svky.xport.keys.all fun p => p.1 = 2 || !(p.2.live && p.2.revoker = some cmd7)) = true ∧
    svkc.conn 7 20 1 9 = some (k7, { c7 with compat := true }) ∧
    Tbl.get svkc.xport.keys 5 = some { ky0 with process := some (9, 0) } := by
  refine ⟨⟨by decide +kernel, by decide +kernel⟩, ?_⟩
  decide +kernel

theorem test_keys : nx (exec (.register cmr) sv1) (fun t => (Tbl.get t.xport.keys 1).map (fun k => (k.state, k.base, k.length, k.rights, k.span)) =
      some (.valid, 0x8000, 16384, 7, true) && t.out = [.cmReply .registered 7 20 1 9 3 0 0 4096 0x8000]) = true ∧
    nx (exec (.deregister cmd7) sv) (fun t => (Tbl.get t.xport.keys 0).map Key.revokeDue = some (some 100) && t.out = []) = true ∧
    nx (exec (.keyRevoking 1) svky) (fun t => (Tbl.get t.xport.keys 1).map Key.state = some .revoking) = true ∧
    nx (exec (.keyRevoking 4) svky) (fun t => (Tbl.get t.xport.keys 4).map Key.state = some .valid) = true ∧
    nx (exec (.deregister { cmd7 with key := 9 }) svkc) (fun t => (Tbl.get t.xport.keys 5).map Key.revokeDue = some (some 100) && t.out = []) = true ∧
    nx (exec (.deregister { cmd7 with key := 4096 }) svkc) (fun t =>
      t.out = [.cmReply .deregistered 7 20 1 9 3 Status.keyInvalid.code 0 4096 0]) = true ∧
    nx (exec (.revocationComplete 0) svky) (fun t => (Tbl.get t.xport.keys 0).map Key.state = some .retired) = true ∧
    nx (exec (.revocationComplete 2) svky) (fun t => (Tbl.get t.xport.keys 2).map (fun k => (k.state, k.generation)) = some (.free, 1) &&
      t.out = [.cmReply .deregistered 7 20 1 9 3 0 0 0 0]) = true ∧
    nx (exec (.revocationComplete 3) svky) (fun t => (Tbl.get t.xport.keys 3).map Key.state = some .revoking) = true := by
  decide +kernel

/-! ## Gateways -/

def br0 : BulkRecord :=
  { kind := 1, srcDomain := 1, srcNode := 20, dstDomain := 2, cls := 3, dstNode := 50, tenant := 7, srcQp := 7, message := ms0 }
def rx0 : Relayed := { domain := 2, conn := k7, qp := 7, node := 20, opcode := opRead, tags := [(5, 64)] }

/-- The node serves domain 2, whose gateway is node 60; queue pair 8 is its trunk to it, and queue pair 9 its relay queue pair to
node 21. -/
def svgn : State := (sv.setFld rGatewayDomainsDomains 4).setStored 0x038 (routeOffset (16384 + 2) + 8) (60 * 65536)
def trk : Conn := { cn0 with cls := 3, peerDomain := 2, peerNode := 60, tenant := 0 }
def svgw : State :=
  { svgn with xport := { svgn.xport with
      conns := svgn.xport.conns ++ [(8 * 4096, trk), (9 * 4096, { c7 with relay := true, peerNode := 21, tenant := 0 })] } }
def blk (opened : Nat) : Bulk := { records := [br0], bytes := bulkSize br0, opened := opened }
def svgb : State := { svgw with xport := { svgw.xport with bulk := [(2, blk 0)], relayed := [rx0] } }

/-- No trunk is open yet. -/
def svgo' : State := { svgb with xport := { svgb.xport with conns := svgn.xport.conns } }
def svge : State := { svgb with xport := { svgb.xport with conns := [(7 * 4096, c7), (8 * 4096, { trk with state := .error })] } }
def bin : BulkRecord := { br0 with srcDomain := 2, srcNode := 50, dstDomain := 1, dstNode := 21, srcQp := 70 }
def ban : BulkRecord := { br0 with kind := 2, srcDomain := 1, dstDomain := 2 }
def bev : BulkRecord := { br0 with kind := 3 }

theorem witness_Gateways : Talks svgw ∧ svgw.conn 7 20 svgw.domain 9 = some (k7, c7) ∧ Tbl.get svgw.xport.conns k7 = some c7 ∧
    svgw.isGateway 2 = true ∧ 2 ≠ svgw.domain ∧
    16 ≤ ms0.length ∧ bulkSize br0 < bulkMax ∧ Tbl.get svgw.xport.bulk 2 = none ∧
    svgw.conn 4 20 svgw.domain 9 = some (k4, c4) ∧ Tbl.get svgw.xport.conns k4 = some c4 ∧
    Tbl.get svgb.xport.bulk 2 = some (blk 0) ∧ 0 + svgb.fld rTimersBulkWait ≤ (svgb.tick 9).now ∧
    (svgb.tick 9).now < 409600 + svgb.fld rTimersBulkWait ∧
    (svgb.xport.conns.find? fun p => svgb.isTrunk 2 p.2) = some (8 * 4096, trk) ∧
    (svgo'.xport.conns.find? fun p => svgo'.isTrunk 2 p.2) = none ∧ svgo'.gatewayOf 2 = some 60 ∧ svgo'.lowestQp = some 8 ∧
    (svgw.findConn fun k c => connQp k = 8 && c.state = .ready) = some (8 * 4096) ∧ Tbl.get svgw.xport.conns (8 * 4096) = some trk ∧
    (svgw.findConn fun _ c => c.relay && c.peerNode = bin.dstNode && c.peerDomain = svgw.domain && c.cls = bin.cls && c.state = .ready) =
      some (9 * 4096) ∧
    firstFrom (fun t => !((svgw.xport.issued.filter fun i => i.conn = 9 * 4096).map Issued.tag).contains t) 0 4096 4096 = some 0 ∧
    svgb.xport.relayed.find? (fun x => x.isFor ban.dstDomain ban) = some rx0 ∧ rx0.tags.length ≤ 1 ∧
    (svgw.findConn fun k c => connQp k = 7 && c.peerNode = 20 && c.peerDomain = svgw.domain) = some k7 ∧ svge.trunkDown 2 = true ∧
    rx0 ∈ svge.xport.relayed := by
  refine ⟨⟨by decide +kernel, by decide +kernel⟩, ?_⟩
  decide +kernel

theorem test_gateways : nx (exec (.envelopeMessage 7 ⟨20, 9⟩ 2 50 ms0) svgw) (fun t => t.xport.bulk = [(2, { blk 409600 with bytes := 48 })] &&
      t.xport.relayed = [rx0]) = true ∧
    nx (exec (.envelopeMessage 4 ⟨20, 9⟩ 2 50 ms0) svgw) (fun t => (Tbl.get t.xport.conns k4).map (fun c => (c.state, c.cause)) = some (.error, 1)) = true ∧
    nx (exec (.bulkWaitExpiry ⟨2, 9⟩) svgb) (fun t => t.xport.bulk = [] && t.out = [.bulk (8 * 4096) 2 [br0]]) = true ∧
    nx (exec (.bulkWaitExpiry ⟨2, 9⟩) svgo') (fun t => t.xport.bulk = [] && t.out = [.bulk (8 * 4096) 2 [br0]]) = true ∧
    nx (exec (.bulkMessage 8 [bin]) svgw) (fun t => t.out = [.relayed (9 * 4096) 9 21 (leBytes 2 7 ++ leBytes 1 2 ++ [0] ++ leBytes 2 50 ++
      leBytes 2 0 ++ setTag ms0 0)] && t.xport.issued.map Issued.original = [5]) = true ∧
    nx (exec (.bulkMessage 8 [ban]) svgb) (fun t => t.out = [.relayed k7 7 20 ms0] && t.xport.relayed = []) = true ∧
    nx (exec (.bulkMessage 8 [bev]) svgb) (fun t => t.out = [.relayed k7 7 20 ms0]) = true ∧
    nx (exec (.trunkErrorFlush 2) svge) (fun t => t.out = [.relayed k7 7 20 (flushedMessage opRead 5 100)] && t.xport.relayed = []) = true := by
  decide +kernel

/-! ## Frames and queues -/

/-- A port that is Up on eight lanes. -/
def up0 (q : Port) : Port :=
  { q with link := .up, lanes := 8, txMap := plainMap, rxMap := plainMap, spraying := true, partnerNode := 20, partnerPort := 0,
           partnerDomain := 1 }

/-- Port 7 is Up, direct; its MODE is 2. -/
def svn : State := { sv with ports := setAt sv.ports 7 up0 }.setFld (rPortCfgMode 7) 2
def q7 : Port := up0 ((State.reset.ports[7]?).getD ((State.reset.ports[0]?).get (by decide +kernel)))

/-- A TC0 frame of node 20 for this node. -/
def fr1 : Frame :=
  let f : Frame := { fr0 with corrected := [], kind := 0, version := 1, tc := 0, srcNode := 20, dstNode := 5, srcDomain := 1, dstDomain := 1, dstQp := 7,
                              srcQp := 9, psn := 0, pathSeq := 0, payloadLen := 0, ns := 200, length := 64,
                              etherType := svn.fld rFabricEthertypeEthertype }
  { f with hdrCrc := crc32c (headerBytes f) }
def frp : Frame := { fr1 with etherType := 0x88F7 }

/-- Node 20 has a policer that lets nothing pass for TC0. -/
def svpo : State := (svn.setStored 0x040 (policerOffset 20) 0).setStored 0x040 (policerOffset 20 + 8) 0x0000010100000000

/-- Port 7 after FEC has counted a frame's codewords. -/
def ticked (s : State) : State := (s.tick 200).countFec 7 fr1.codewords []

theorem witness_Frames : PortUp svn 7 q7 ∧ svn.fld (rPortCfgOutOfRack 7) = 0 ∧ WholeFrame (ticked svn) 7 fr1 ∧
    (ticked svn).fld (rPortCfgOutOfRack 7) = 0 ∧ (ticked svn).classify { fr1 with tags := 2 } = none ∧
    (ticked svn).isFabric fr1 = true ∧ (ticked svn).headerOk { fr1 with hdrCrc := fr1.hdrCrc + 1 } = false ∧ (ticked svn).isFabric frp = false ∧
    (ticked svn).tm.mgmt[7]? = some [] ∧ (ticked svn).classify fr1 = some (0, false) ∧ (ticked svn).headerOk fr1 = true ∧
    ((ticked svn).policer 20).bypass 0 fr1 = true ∧ (ticked svn).tm.shared[1]? = some [] ∧ (ticked svn).node.state ≠ .boundOff := by
  refine ⟨⟨by decide +kernel, by decide +kernel, by decide +kernel, by decide +kernel⟩, by decide +kernel,
    ⟨by decide +kernel, by decide +kernel, by decide +kernel, by decide +kernel⟩, ?_⟩
  decide +kernel

/-- Port 7 is in standard mode, where a frame has at most 9,216 bytes. -/
def svn1 : State := svn.setFld (rPortCfgMode 7) 1

theorem witness_Long : PortUp svn1 7 q7 ∧ (ticked svn1).portMode 7 = 1 ∧ frameMax < { fr1 with length := 9217 }.length ∧
    WholeFrame (ticked svn1) 7 { fr1 with length := 9216 } := by
  refine ⟨⟨by decide +kernel, by decide +kernel, by decide +kernel, by decide +kernel⟩, by decide +kernel, by decide +kernel,
    ⟨by decide +kernel, by decide +kernel, by decide +kernel, by decide +kernel⟩⟩

theorem witness_Red : ((ticked svpo).policer 20).bypass 0 { fr1 with length := 9000 } = false ∧
    (meter ((ticked svpo).policer 20) ((ticked svpo).bucketsAt 20 ((ticked svpo).policer 20)) false 9000).1 = .red := by decide +kernel

theorem test_frames : nx (exec (.frameReceive 7 fr1) svn) (fun t => t.tm.shared[1]? = some [⟨100 * 4096 + 200, 64⟩] && t.tm.shared[0]? = some []) = true ∧
    nx (exec (.frameReceive 7 frp) svn) (fun t => t.tm.mgmt[7]? = some [⟨100 * 4096 + 200, 64⟩]) = true ∧
    nx (exec (.frameReceive 7 { fr1 with tags := 2 }) svn) (fun t => t.fld rClassDropsUnclassified = 1 && t.tm = svn.tm) = true ∧
    nx (exec (.frameReceive 7 { fr1 with decoded := false }) svn) (fun t => t.fld (rFecCountsUncorrected 7) = 1) = true ∧
    nx (exec (.frameReceive 7 { fr1 with fcsOk := false, codewords := 3 }) svn) (fun t => t.fld (rFecCountsUncorrected 7) = 0 &&
      t.fld (rFecCountsCorrected 7) = 3 && t.tm = svn.tm) = true ∧
    nx (exec (.frameReceive 7 { fr1 with length := 9217 }) svn1) (fun t => t.tm = svn1.tm) = true ∧
    nx (exec (.frameReceive 7 { fr1 with hdrCrc := fr1.hdrCrc + 1 }) svn) (fun t => t.xport.headerDrops = 1 && t.tm = svn.tm) = true ∧
    nx (exec (.frameReceive 7 { fr1 with length := 9000 }) svpo) (fun t => t.fld rLastRedNode = 20 && t.fld rPoliceCountsRed = 1 &&
      t.tm.shared[1]? = some []) = true := by decide +kernel

/-- The header of a packet to node 20. -/
def tx0 : TxHeader :=
  { kind := 0, tc := 0, dstNode := 20, dstDomain := 1, dstQp := 9, srcQp := 7, psn := 5, first := true, last := true, pathSeq := 3,
    srcPort := 7, dstPort := 0, pathIndex := 0, payload := 8, generation := 0 }
def qd (n : Nat) : Queued := { length := n, header := tx0, waited := none }

/-- A frame waits in TC0 and one in TC5 of port 7. -/
def svtx : State := { svn with tm := { svn.tm with queues := [(classKey 7 0, [qd 64]), (classKey 7 5, [qd 1000])] } }
def svt0 : State := { svn with tm := { svn.tm with queues := [(classKey 7 0, [qd 64])] } }

theorem witness_Transmit : PortUp svtx 7 q7 ∧ svtx.fld (rPortCfgOutOfRack 7) = 0 ∧ q7.spraying = true ∧ Talks svtx ∧
    Tbl.num svtx.tm.busyUntil 7 ≤ svtx.row * 32768 + 2048 ∧
    svtx.pickClass 7 q7.lanes 2048 = some (5, svtx.tm.deficits) ∧ Tbl.get svtx.tm.queues (classKey 7 5) = some (qd 1000 :: []) ∧
    (svt0.pickClass 7 q7.lanes 2048).map Prod.fst = some 0 ∧ ([7, 6, 5].find? fun c => svtx.eligible 7 q7.lanes c 2048) = some 5 ∧
    svtx.pickClass 7 q7.lanes 1000 = none := by
  refine ⟨⟨by decide +kernel, by decide +kernel, by decide +kernel, by decide +kernel⟩, by decide +kernel, by decide +kernel,
    ⟨by decide +kernel, by decide +kernel⟩, ?_⟩
  decide +kernel

/-- The addresses are 02-51-kk-hh-ll-0p of the two ports (R303). -/
theorem test_transmit : nx (exec (.frameTransmit 7 2048) svtx) (fun t => t.out = [.frame 7 5 1000 2048
      0x025101001400 0x025101000507 tx0] &&
      t.tm.busyUntil = [(7, 100 * 32768 + 2048 + 41)]) = true ∧
    nx (exec (.frameTransmit 7 2048) svt0) (fun t => t.out.length = 1 && t.tm.queues = []) = true ∧
    nx (exec (.frameTransmit 7 1000) svt0) (fun t => t.out = []) = true := by decide +kernel

theorem witness_WindowWrites : sv.reaches .fm true 0x040 (policerOffset 16382) = true ∧ sv.reaches .fm true 0x038 (routeOffset 16382) = true := by
  decide +kernel

theorem test_window_writes : nx (exec (.policerWrite .fm 16382 0xFFFFFFFFFFFFFFFF 0) sv) (fun t =>
      t.stored 0x040 (policerOffset 16382) = 0x001FFFFF001FFFFF && bits (t.stored 0x040 (policerOffset 16382 + 8)) 63 48 = 1) = true ∧
    nx (exec (.routeEntryWrite .fm 16382 0xFFFFFFFFFFFFFFFF 0) sv) (fun t =>
      t.stored 0x038 (routeOffset 16382) = 0xBFBFBFBFBFBFBFBF && bits (t.stored 0x038 (routeOffset 16382 + 8)) 15 0 = 1) = true := by
  decide +kernel

/-! ## Lanes and ports -/

/-- A good word of node 20, port 0, under ACT_SEQ 9 for a map. -/
def goodWord (k : LaneType) (map : Nat) : LaneWord :=
  let w : LaneWord := { seq := 3, node := 20, port := 0, actSeq := 9, failed := 0, map := map, domain := 1, reserved := [], crc := 0 }
  { w with crc := crc16 (laneBytes k w) }
def badWord : LaneWord := { goodWord .status 0 with crc := (goodWord .status 0).crc + 1 }

/-- Port 7 after a change of its fields, with its own MODE. -/
def svpt (f : Port → Port) : State := { svn with ports := setAt svn.ports 7 f }
def swapMap : Nat := moveLane plainMap 0 8
def chg : LaneChange := ⟨.swapRequest, swapMap, 4, none, false, false⟩
/-- A word of node 3, which leads. -/
def leadWord (k : LaneType) (map : Nat) : LaneWord :=
  let w : LaneWord := { goodWord k map with node := 3, crc := 0 }
  { w with crc := crc16 (laneBytes k w) }

theorem witness_Lanes : svn.ports[7]? = some q7 ∧ svn.portMode 7 = 2 ∧ svn.portHeld 7 = false ∧ q7.link ≠ .down ∧ Talks svn ∧ q7.due = none ∧
    q7.change = none ∧ q7.link = .up ∧ q7.failed = [] ∧ (svpt fun q => { q with due := some ⟨.swapRequest, swapMap, 4⟩ }).ports[7]? =
      some { q7 with due := some ⟨.swapRequest, swapMap, 4⟩ } ∧ swapMap ≠ 0 ∧
    ([.status, .swapRequest, .swapAck, .narrowRequest, .narrowAck, .retrain, .test] : List LaneType).all (fun k =>
      laneGood k (goodWord k swapMap) && laneGood k (leadWord k swapMap) && !laneGood k badWord) = true ∧
    lanesIn (goodWord .status swapMap).failed = [] ∧ chg.map = (goodWord .swapAck swapMap).map ∧ chg.remaps = true ∧
    (svpt fun q => { q with change := some chg, link := .swapping }).ports[7]? = some { q7 with change := some chg, link := .swapping } ∧
    (svpt fun q => { q with change := some { chg with kind := .narrowRequest } }).ports[7]? =
      some { q7 with change := some { chg with kind := .narrowRequest } } := by
  refine ⟨by decide +kernel, by decide +kernel, by decide +kernel, by decide +kernel, ⟨by decide +kernel, by decide +kernel⟩, ?_⟩
  decide +kernel

theorem witness_Crossing : WordLeads svn 7 (leadWord .narrowRequest swapMap) ∧ ¬ WordLeads svn 7 (goodWord .narrowRequest swapMap) := by
  refine ⟨Or.inl (by decide +kernel), ?_⟩
  rintro (h | ⟨h, _⟩)
  · exact absurd h (by decide +kernel)
  · exact absurd h (by decide +kernel)

/-- A word whose reserved bits are set is good where its CRC covers them (R6). -/
theorem test_reserved_bits :
    let w : LaneWord := { goodWord .status 0 with reserved := List.replicate 14 255 }
    laneGood .status w = false ∧
    laneGood .status { w with crc := crc16 (withReserved laneReserved w.reserved (laneBytes .status w)) } = true := by decide +kernel

def statusBytes : List Byte := [0, 0, 5, 0, 7, 0, 0, 0, 0x10, 0x32, 0x54, 0x76, 1, 0]

theorem test_lane_words : nx (exec (.laneControlWordSend 7) svn) (fun t => t.out = [.laneWord 7 .status
      { seq := 0, node := 5, port := 7, actSeq := 0, failed := 0, map := plainMap, domain := 1, reserved := [], crc := crc16 statusBytes }]) = true ∧
    nx (exec (.swapRequest 7 (goodWord .swapRequest swapMap)) svn) (fun t => (t.ports[7]?).map (fun q => (q.link, q.due)) =
      some (.swapping, some ⟨.swapAck, swapMap, 2⟩)) = true ∧
    nx (exec (.statusWord 7 (goodWord .status plainMap)) svn) (fun t => (t.ports[7]?).map (fun q => (q.met, q.partnerNode)) = some (true, 20)) = true ∧
    nx (exec (.swapAcknowledge 7 (goodWord .swapAck swapMap)) (svpt fun q => { q with change := some chg })) (fun t =>
      (t.ports[7]?).map Port.change = some (some { chg with partnerSeq := some 9, acked := true })) = true ∧
    nx (exec (.narrowRequest 7 (goodWord .narrowRequest swapMap)) svn) (fun t => (t.ports[7]?).map Port.link = some .narrowing) = true ∧
    nx (exec (.retrainWord 7 (goodWord .retrain 0)) svn) (fun t => (t.ports[7]?).map Port.link = some .training) = true ∧
    nx (exec (.testWord 7 (goodWord .test 0)) svn) (fun t => (t.ports[7]?).map Port.link = some .test) = true ∧
    nx (exec (.narrowRequest 7 (leadWord .narrowRequest swapMap)) ((svpt fun q => { q with link := .swapping, change := some { chg with fromCtl := true } }).setFld (rPortCtlResult 7) 1)) (fun t => (t.ports[7]?).map Port.link = some .narrowing &&
        t.fld (rPortCtlResult 7) = 5) = true ∧
    nx (exec (.narrowRequest 7 (goodWord .narrowRequest swapMap)) (svpt fun q => { q with change := some chg, link := .swapping })) (fun t =>
        (t.ports[7]?).map Port.link = some .swapping) = true ∧
    nx (exec (.testWord 7 badWord) svn) (fun t => (t.ports[7]?).map Port.link = some .up) = true := by decide +kernel

/-- Port 7 has trained: its partner's word has come in the domain of the node. -/
def svtd : State := svpt fun q => { q with link := .training, met := true, downSince := 0 }
def qtr : Port := { q7 with link := .training, met := true, downSince := 0 }
def frc : Frame := { fr1 with corrected := [(8, 100000)], codewords := 1 }

/-- The node leads port 7's link. -/
theorem witness_Ports : svn.leads 7 q7 = true ∧ q7.bad = [] ∧ q7.spareIdle = true ∧ laneAt q7.txMap 7 = 7 ∧ (∀ j, j < 7 → laneAt q7.txMap j ≠ 7) ∧
    7 < svn.laneCount 7 ∧ 7 ∉ q7.failed ∧ 8 ∉ q7.bad ∧ svn1.portMode 7 = 1 ∧ svn1.portHeld 7 = false ∧ 7 < svn1.laneCount 7 ∧
    svn1.ports[7]? = some q7 ∧
    q7.link.receives = true ∧ svn.fld (rSwapLimitSymbols 7) < 100000 + (if q7.symbolsUs = (svn.tick 200).now / 1000 then Tbl.num q7.symbols 8 else 0) ∧
    { q7 with change := some { chg with map := plainMap } }.moved = true ∧ q7.moved = false ∧
    widthOf (lanesIn 0x1FF).length = 8 ∧ widthOf (lanesIn 0x100).length = 0 ∧
    svtd.ports[7]? = some qtr ∧ 0 + 4096 ≤ ({ svtd with clock := ⟨4096, 0⟩ } : State).row ∧ svtd.row < 0 + 4096 ∧
    svtd.domain = 1 ∧ svtd.directReady qtr = true ∧ svtd.directReady { qtr with met := false } = false ∧
    (svn.setFld (rPortCfgOutOfRack 7) 1).fld (rPortCfgOutOfRack 7) = 1 ∧
    (svn.setFld (rPortCfgOutOfRack 7) 1).lastPn 7 ≤ 2 ^ 64 ∧ svn.reaches .fm true 0x037 0x038 = true ∧
    svn.reaches .keeper true 0x037 (0x1000 * 9 + 8) = true := by decide +kernel

/-- Out of rack. -/
def rackOut (s : State) : State := s.setFld (rPortCfgOutOfRack 7) 1

theorem test_ports : nx (exec (.laneFailed 7 7) svn) (fun t => (t.ports[7]?).map (fun q => (q.link, q.failed, q.change)) =
      some (.swapping, [7], some ⟨.swapRequest, moveLane plainMap 7 8, 4, none, false, false⟩)) = true ∧
    nx (exec (.laneFailed 7 7) svn1) (fun t => (t.ports[7]?).map (fun q => (q.link, q.downSince)) = some (.down, 100)) = true ∧
    nx (exec (.frameReceive 7 frc) svn) (fun t => (t.ports[7]?).map Port.failed = some [8]) = true ∧
    nx (exec (.swapDeskewDone 7) (svpt fun q => { q with link := .swapping, change := some { chg with map := plainMap } })) (fun t =>
      (t.ports[7]?).map (fun q => (q.link, q.change)) = some (.up, none)) = true ∧
    nx (exec (.retrainDone 7 0x1FE) { svtd with clock := ⟨4096, 0⟩ }) (fun t => (t.ports[7]?).map (fun q => (q.lanes, q.txMap, q.failed)) =
      some (8, 0x87654321, [0])) = true ∧
    nx (exec (.retrainDone 7 0x100) { svtd with clock := ⟨4096, 0⟩ }) (fun t => (t.ports[7]?).map Port.link = some .down) = true ∧
    nx (exec (.retrainDone 7 0x1FE) { svtd with clock := ⟨4095, 0⟩ }) (fun t => (t.ports[7]?).map Port.failed = some []) = true := by
  decide +kernel

theorem test_links : nx (exec (.linkDown 7) svn) (fun t => (t.ports[7]?).map (fun q => (q.link, q.downSince)) = some (.down, 100)) = true ∧
    nx (exec (.linkUp 7 20 0 1) svtd) (fun t => (t.ports[7]?).map Port.link = some .up) = true ∧
    nx (exec (.linkUp 7 20 0 2) svtd) (fun t => (t.ports[7]?).map Port.link = some .training) = true ∧
    nx (exec (.linkUp 7 20 0 1) (svpt fun _ => { qtr with met := false })) (fun t => (t.ports[7]?).map Port.link = some .training) = true ∧
    nx (exec (.linkUp 7 20 0 1) (rackOut svtd)) (fun t => (t.ports[7]?).map Port.link = some .awaitSecure) = true ∧
    nx (exec (.linkRetrainRetry 7) { (svpt fun q => { q with link := .down, downSince := 100 }) with clock := ⟨4196, 0⟩ }) (fun t =>
      (t.ports[7]?).map Port.link = some .training) = true := by decide +kernel

theorem test_secure : nx (exec (.saKeyInstall 7 3) (rackOut (svpt fun q => { q with link := .awaitSecure }))) (fun t =>
      (t.ports[7]?).map (fun q => (q.link, q.association, q.packetNumber)) = some (.up, 3, 1)) = true ∧
    nx (exec (.pnExhausted 7) (rackOut (svpt fun q => { q with packetNumber := 2 ^ 64 }))) (fun t =>
      (t.ports[7]?).map Port.spraying = some false) = true ∧
    nx (exec (.ptpEventMessage 7 77 true) svn) (fun t => (t.ports[7]?).map (fun q => q.stamps.map Prod.snd) = some [false]) = true ∧
    nx (exec (.ptpEventMessage 7 77 true) (svpt fun q => { q with stamps := List.replicate 64 (0, true) })) (fun t =>
      bits (t.stored 0x037 0x010) 3 3 = 1) = true := by decide +kernel

theorem test_port_ctl : nx (exec (.portRetrain .fm 7) svn) (fun t => (t.ports[7]?).map Port.link = some .training && t.fld (rPortCtlResult 7) = 1) = true ∧
    nx (exec (.portEnterTest .fm 7) svn) (fun t => (t.ports[7]?).map Port.testNext = some true) = true ∧
    nx (exec (.portLeaveTest .fm 7) svn) (fun t => t.fld (rPortCtlResult 7) = 3) = true ∧
    nx (exec (.portLeaveTest .fm 7) (svpt fun q => { q with link := .test })) (fun t => (t.ports[7]?).map Port.link = some .training) = true ∧
    nx (exec (.portSwapLane .fm 7 0) svn) (fun t => (t.ports[7]?).map Port.change = some (some { chg with fromCtl := true })) = true ∧
    nx (exec (.prbsCtlWrite .fm 7 8 1) svn) (fun t => t.stored 0x037 0x9008 = 0 && bits (t.stored 0x037 0x010) 1 1 = 1) = true ∧
    nx (exec (.prbsCtlWrite .fm 7 8 0x20) (svpt fun q => { q with link := .test })) (fun t => t.stored 0x037 0x9008 = 0x20) = true := by
  decide +kernel

/-! ## Switches and registers -/

def ga0 : Gate := { active := [], pending := [], armed := none, protect := none }
/-- A gate list with one entry, every gate open. -/
def gl0 : List Host.Cell := Mem.write (Mem.write [] 0 (leBytes 4 1 ++ leBytes 1 1)) 8 (leBytes 2 0 ++ leBytes 1 255)

/-- The pending bank is the active one; port 0's pending list is gl0. -/
def svsw : State := { sv with pat := { sv.pat with pending := pat0 }, tm := { sv.tm with gates := setAt sv.tm.gates 0 fun g => { g with pending := gl0 } } }
def svar (a : Nat) : State := { svsw with
  pat := { svsw.pat with armed := some a }
  tm := { svsw.tm with gates := setAt svsw.tm.gates 0 fun g => { g with armed := some a } } }

theorem witness_Switches : svsw.reaches .fm true 0x070 0x030 = true ∧ svsw.pat.armed = none ∧ svsw.row + 16 ≤ 116 ∧ svsw.bankOk 116 = true ∧
    sv.bankOk 116 = false ∧ svsw.tm.gates[0]? = some { ga0 with pending := gl0 } ∧ svsw.reaches .oob true 0x040 0x10000 = true ∧
    gateListOk gl0 = true ∧ (svar 100).sync.stepped = false ∧ (svar 100).tm.gates[0]? = some { ga0 with pending := gl0, armed := some 100 } ∧
    sv.patByte (0x80000 + 0) = some 0 ∧ sv.fld rPatWindowBank ≠ 1 ∧ sv.reaches .fm true 0x070 0x80000 = true ∧ sv.pat.protect = none := by
  decide +kernel

/-- The former bank is protected until row 102. -/
def svpr : State := { svsw with pat := { svsw.pat with protect := some 102 } }

theorem witness_Protected : (svar 116).pat.armed = some 116 ∧ (svar 116).row + 16 ≤ 116 ∧ (svar 116).bankOk 117 = true ∧
    (svar 100).pat.armed = some 100 ∧ svpr.pat.protect ≠ none ∧ svpr.runs = true ∧ svpr.clock.row + 1 < 102 := by decide +kernel

theorem test_protected : nx (exec (.patternWindowWrite .fm 0 1) svpr) (fun t => t.pat = svpr.pat && bits (t.stored 0x070 0x010) 1 1 = 1) = true ∧
    nx (exec (.patSwitchArm .fm 117) (svar 116)) (fun t => t.pat.armed = some 117) = true ∧
    nx (exec .patternSwitch (svar 100)) (fun t => t.pat.protect = some 102) = true := by decide +kernel

theorem test_switches : nx (exec (.patSwitchArm .fm 116) svsw) (fun t => t.pat.armed = some 116 && t.fld rPatSwitchResult = 1) = true ∧
    nx (exec (.patSwitchArm .fm 115) svsw) (fun t => t.pat.armed = none && t.fld rPatSwitchResult = 3) = true ∧
    nx (exec (.patSwitchArm .fm 116) sv) (fun t => t.fld rPatSwitchResult = 4) = true ∧
    nx (exec (.patSwitchCancel .fm) (svar 115)) (fun t => t.fld rPatSwitchResult = 5 && t.pat.armed = some 115) = true ∧
    nx (exec (.patSwitchCancel .fm) (svar 116)) (fun t => t.fld rPatSwitchResult = 0 && t.pat.armed = none) = true ∧
    nx (exec (.gateSwitchArm .oob 0 116) svsw) (fun t => (t.tm.gates[0]?).map Gate.armed = some (some 116)) = true ∧
    nx (exec (.gateSwitchArm .oob 0 115) svsw) (fun t => t.fld (rGateSwitchResult 0) = 3) = true ∧
    nx (exec (.gateSwitchCancel .oob 0) (svar 116)) (fun t => (t.tm.gates[0]?).map Gate.armed = some none) = true ∧
    nx (exec .patternSwitch (svar 101)) (fun t => t.pat.armed = some 101) = true ∧
    nx (exec .patternSwitch (svar 100)) (fun t => t.pat.armed = none && t.fld rPatSwitchResult = 2) = true ∧
    nx (exec (.gateListSwitch 0) (svar 100)) (fun t => (t.tm.gates[0]?).map Gate.active = some gl0) = true ∧
    nx (exec (.patternWindowWrite .fm 0 0x0102) sv) (fun t => t.pat.pending = [(0, 2), (1, 1)]) = true ∧
    nx (exec (.patternWindowWrite .fm 0 0x0102) (svar 116)) (fun t => t.pat = (svar 116).pat && bits (t.stored 0x070 0x010) 1 1 = 1) = true := by
  decide +kernel

/-- A request to read GLOBAL_STATUS, and its out-of-band frame. -/
def mr1 : MgmtMsg := { kind := 1, count := 1, tag := 4, length := 24, entries := [⟨0, regBase + 0x08000020, 0⟩] }
def ofr : OobFrame := { of0 with mac := 0x025101000508, etherType := 0x88B5, dstNode := 5, dstDomain := 1, srcId := 12, body := .mgmt mr1 }
def kp0 : Kept := { srcId := 12, tag := 4, request := mr1, reply := [⟨0, regBase + 0x08000020, 0, 77⟩], row := 3 }
def svkp : State := { sv with mgmt := { sv.mgmt with kept := [kp0] } }
def due0 : DueWrite := ⟨99, 0x058, 0x040, 0x80000007⟩

theorem witness_Registers : State.reset.reaches .fm true 0x080 0x0D0 = false ∧ sv.reaches .fm true 0x080 0x0FFFF8 = true ∧
    (0x0FFFF8 % 8 = 0 ∧ 0x0FFFF8 < 0x100000) ∧ fieldsAt 0x080 0x0FFFF8 = [] ∧ gateWindow 0x080 0x0FFFF8 = none ∧
    inPatWindow 0x080 0x0FFFF8 = false ∧ inRing 0x080 0x0FFFF8 = false ∧ (blockAt 0x080).isSome = true ∧
    sv.reaches .fm true 0x0F0 0x020 = true ∧ keeperOnly 0x0F0 0x020 = false ∧ isRol 0x0F0 0x020 = true ∧ sv.locked = true ∧
    sv.reaches .fm true 0x080 0x0D0 = true ∧ sv.reaches .fm true 0x058 (0x040 + 8 * 15) = true ∧ due0.block = 0x058 ∧ due0.row < sv.row ∧
    sv.reaches .keeper true 0x038 0x060 = true ∧ connQp k7 = 7 ∧ sv.reaches .fm true 0x0F0 0x080 = true ∧ sv.mgmt.due = [] ∧
    sv.reaches .fm true 0x0F0 0x090 = true ∧ sv.emergency = false := by decide +kernel

theorem witness_Management : Talks sv ∧ sv.attested = true ∧ wellFormedRequest mr1 = true ∧ sv.managers.contains 9 = true ∧
    sv.managers.contains 20 = false ∧ sv.present 0x080 0x020 = true ∧ sv.oobMacs.contains ofr.mac = true ∧ ofr.mac ≠ broadcastMac ∧
    State.reset.powered = true ∧ sv.powered = true ∧ { sv with node := { sv.node with state := .off } }.powered = false ∧
    (svkp.mgmt.kept.find? fun k => k.srcId = 12 && k.tag = 4 && k.request = mr1) = some kp0 ∧
    sv.reaches .oob false 0x080 0x020 = true ∧ i3cPart 0x080 0x020 = true := by
  refine ⟨⟨by decide +kernel, by decide +kernel⟩, ?_⟩
  decide +kernel

theorem test_registers : nx (exec (.registerWrite .fm 0x080 0x0FFFF8 1) sv) (fun t => bits (t.stored 0x080 0x010) 2 2 = 1) = true ∧
    nx (exec (.registerWrite .fm 0x0F0 0x020 7) sv) (fun t => t.fld rNodeIdNode = 5 && bits (t.stored 0x0F0 0x010) 0 0 = 1) = true ∧
    nx (exec (.bankScopeWrite .fm 15 true 7) sv) (fun t => t.mgmt.due = [⟨100, 0x058, 0x0B8, 0x80000007⟩] && t.regs = sv.regs) = true ∧
    nx (exec .nextRowWriteEffect { sv with mgmt := { sv.mgmt with due := [due0] } }) (fun t => t.stored 0x058 0x040 = 0x80000007 && t.mgmt.due = []) = true ∧
    nx (exec .nextRowWriteEffect { sv with mgmt := { sv.mgmt with due := [{ due0 with row := 100 }] } }) (fun t => t.stored 0x058 0x040 = 0) = true ∧
    nx (exec (.qpInspectRead .keeper 7) sv) (fun t => t.fld rQpStateState = 1 && t.fld rQpStateClass = 3 && t.fld rQpStatePeerNode = 20) = true ∧
    nx (exec (.qpInspectClose .keeper 7) { sv with xport := { sv.xport with conns := [(k7, c7)] } }) (fun t =>
      (Tbl.get t.xport.conns k7).map (fun c => (c.state, c.cause)) = some (.error, 5)) = true ∧
    nx (exec (.eventTailWrite .fm 4095) sv) (fun t => t.fld rEventPtrTail = 4095) = true ∧
    nx (exec (.powerCfgWrite .fm 7) sv) (fun t => t.fld rPowerCfgFloorLevel = 4) = true := by decide +kernel

theorem test_management : nx (exec (.managementRequest 9 mr1) sv) (fun t => t.out = [.mgmtReply .fm 9 4 100
      [⟨0, regBase + 0x08000020, 0, sv.readWord 0x080 0x020⟩]]) = true ∧
    nx (exec (.managementRequest 20 mr1) sv) (fun t => t.out = []) = true ∧
    nx (exec (.oobFrame ofr) svkp) (fun t => t.out = [.mgmtReply .oob 12 4 3 [⟨0, regBase + 0x08000020, 0, 77⟩]]) = true ∧
    nx (exec (.oobFrame ofr) sv) (fun t => t.out = [.mgmtReply .oob 12 4 100 [⟨0, regBase + 0x08000020, 0, sv.readWord 0x080 0x020⟩]]) = true ∧
    nx (exec (.i3cAccess (regBase + 0x08000020) none) sv) (fun t => t.out = [.i3cReply (sv.readWord 0x080 0x020)]) = true := by decide +kernel

/-! ## Boot and reset -/

/-- The node in another state. -/
def inState (n : NodeState) : State := { sv with node := { sv.node with state := n } }

/-- Erased flash with the fuses' algorithm set: no image passes. -/
def svbo : State := { inState .boot with node := { (inState .boot).node with fuseAlg := 1 } }
def svtc : State := { inState .training with node := { (inState .training).node with restDone := false } }
def svco : State := { inState .castOn with node := { (inState .castOn).node with committed := true } }

theorem pick_none (s : State) (ha : s.tryImage s.firstImage ≠ .passed)
    (hb : (s.setCause s.firstImage (s.tryImage s.firstImage)).tryImage s.firstImage.other ≠ .passed) : ∃ u, s.pickImage = (none, u) := by
  unfold State.pickImage
  simp only
  exact ⟨_, rfl⟩

theorem witness_Boot : sv.node.state ≠ .off ∧ sv.runs = true ∧ sv.reaches .keeper true 0x080 0x030 = true ∧ svbo.node.porstLow = false ∧
    svbo.node.fuseAlg = 1 ∧ svbo.tryImage svbo.firstImage = .header ∧
    (svbo.setCause svbo.firstImage .header).tryImage svbo.firstImage.other = .header ∧
    svtc.node.restDone = false ∧ svtc.node.portTimeout = false ∧ sv.reaches .fm true 0x080 0x038 = true ∧
    svco.clock.ns = 0 ∧ svco.sync.state = .locked ∧ patId svco.pat.active ≠ 0 ∧ svco.node.committed = true ∧
    (inState .attested).reaches .fm true 0x080 0x038 = true ∧ sv.reaches .fm true 0x0F0 0x088 = true ∧ sv.fld rFlashCtlResult ≠ 1 := by
  decide +kernel

theorem test_boot : nx (exec .bootComplete svbo) (fun t => t.node.state = .fault && t.fld rGlobalStatusFaultCause = 2 &&
      t.fld rBootStatusCauseA = 2 && t.fld rBootStatusCauseB = 2) = true ∧
    ([.resetN, .fullReset .keeper, .vaultWatchdogExpiry, .faultHandlerWatchdogExpiry] : List Instr).all (fun i =>
      nx (exec i sv) fun t => t.node.state = .boot && t.cat.cards = [] && t.xport.conns = [] && t.clock.row = 0) = true ∧
    nx (exec .porstNAssert sv) (fun t => t.node.state = .boot && t.node.porstLow && t.regs = []) = true ∧
    nx (exec .powerRemoved sv) (fun t => t.node.state = .off) = true := by decide +kernel

theorem test_training : nx (exec (.trainingComplete 20 1) svtc) (fun t => t.node.state = .attested && t.mover.devices = 16) = true ∧
    nx (exec (.trainingComplete 20 1) (svtc.setFld (rPortCfgMode 0) 1)) (fun t => t.node.state = .training) = true ∧
    nx (exec .portTrainingTimeout (inState .training)) (fun t => t.node.state = .attested) = true ∧
    nx (exec .portTrainingTimeout svtc) (fun t => t.node.state = .training && t.node.portTimeout) = true ∧
    nx (exec (.castonAdmit .fm) (inState .attested)) (fun t => t.node.state = .castOn && t.fld rCastonCtlResult = 1) = true ∧
    nx (exec (.castonAdmit .fm) sv) (fun t => t.node.state = .serving && t.fld rCastonCtlResult = 3) = true ∧
    nx (exec (.castonCommit .fm) (inState .castOn)) (fun t => t.node.committed && t.fld rCastonCtlResult = 2) = true ∧
    nx (exec .castOnToServing svco) (fun t => t.node.state = .serving) = true ∧
    nx (exec .castOnToServing { svco with node := { svco.node with drainHeld := true } }) (fun t => t.node.state = .draining) = true := by
  decide +kernel

/-- The node booted from image A: its header gives no length here. -/
def svfb : State := sv.setFld rBootStatusImage 2

theorem witness_Flash : 65536 % 65536 = 0 ∧ svfb.inBooted 0 65536 = false ∧ svfb.inBooted 0 256 = false := by decide +kernel

/-- An erase, or a program of the page of sixteen zeros, that is done. -/
def svfe : State := { sv with node := { sv.node with flashErase := some 65536, flash := [(65535, 1), (65536, 2), (131072, 3)] } }.setFld rFlashCtlResult 1
def svfp : State := { sv with node := { sv.node with flashProgram := some (0, [0x0F]), flash := [(0, 0x3C)] } }.setFld rFlashCtlResult 1

theorem test_flash : nx (exec (.flashErase .fm 1) svfb) (fun t => t.fld rFlashCtlResult = 4) = true ∧
    nx (exec (.flashErase .fm 0) svfb) (fun t => t.node.flashErase = some 0 && t.fld rFlashCtlResult = 1) = true ∧
    nx (exec (.flashProgram .fm 256) svfb) (fun t => (t.node.flashProgram).map Prod.fst = some 256) = true ∧
    nx (exec .flashOpDone svfe) (fun t => t.node.flash = [(65535, 1), (131072, 3)] && t.fld rFlashCtlResult = 2) = true ∧
    nx (exec .flashOpDone svfp) (fun t => t.node.flash = [(0, 0x0C)]) = true := by decide +kernel

/-! ## Tenants and the vault -/

/-- Tenant 7 is Withdrawing with nothing left. -/
def svwd : State :=
  { sv with
    cat := State.reset.cat
    xport := { sv.xport with keys := [] }
    vault := { sv.vault with tenants := [(7, { tn0 with state := .withdrawing })] } }

theorem witness_Tenants : sv.reaches .fm true 0x080 0x048 = true ∧ sv.fld rTenantCtlResult ≠ 1 ∧ ownTenant 0xFFF = true ∧ ownTenant 8 = false ∧
    (sv.tenantAt 8).state = .free ∧ (sv.tenantAt 7).state = .keyed ∧ sv.vault.log.length < 65536 ∧ sv.vault.claimed = false ∧
    (svwd.tenantAt 7).state = .withdrawing ∧ svwd.tenantLeft 7 = false ∧ State.reset.vaultOnline = false ∧ sv.vaultOnline = true ∧
    sv.vault.sessions.length < 64 := by decide +kernel

theorem test_tenants : nx (exec (.tenantAdmit .fm 0 true) sv) (fun t => t.fld rTenantCtlResult = 4) = true ∧
    nx (exec (.tenantAdmit .fm 7 true) sv) (fun t => t.fld rTenantCtlResult = 3) = true ∧
    nx (exec (.tenantAdmit .fm 8 true) sv) (fun t => (t.tenantAt 8).state = .admitted && (t.tenantAt 8).isSealed &&
      t.vault.claimsDue.isSome && t.fld rTenantCtlResult = 2) = true ∧
    nx (exec (.tenantRead .fm 7) sv) (fun t => t.fld rTenantCtlResult = 2 && t.stored 0x080 0x080 = sv.tenantInfo 7) = true ∧
    nx (exec (.withdrawalComplete 7) sv) (fun t => (t.tenantAt 7).state = .keyed) = true := by decide +kernel

theorem test_withdraw : nx (exec (.tenantWithdraw .fm 7) { sv with xport := { sv.xport with conns := [] } }) (fun t =>
      (t.tenantAt 7).state = .withdrawing && (t.tenantAt 7).key = none && t.fld rTenantCtlResult = 1 && (t.seqAt 3).state = .closing &&
      (Tbl.get t.xport.keys 0).map Key.revokeDue = some (some 100)) = true ∧
    nx (exec (.withdrawalComplete 7) svwd) (fun t => (t.tenantAt 7).state = .free) = true := by decide +kernel

/-- Session 1 authenticates for whoever holds the digest of tenant 7. -/
def se0 : Session := { leaf := some 1, beat := 0 }
def svse : State :=
  { sv with vault := { sv.vault with
      tenants := [(7, { tn0 with auth := 1, key := none, state := .admitted }), (9, { tn0 with auth := 1 }), (11, tn0)]
      sessions := [(1, se0)] } }

theorem witness_Vault : svse.vaultUp = true ∧ Tbl.get svse.vault.sessions 1 = some se0 ∧ svse.speaksFor se0 7 = true ∧ svse.speaksFor se0 11 = false ∧
    (svse.tenantAt 7).isIn = true ∧ (svse.tenantAt 7).key = none ∧ (svse.tenantAt 7).keyDue = none ∧ (svse.tenantAt 9).state = .keyed ∧
    svse.speaksFor se0 9 = true ∧ ownTenant 9 = false ∧ Tbl.wf svse.vault.tenants = true ∧ svse.row < se0.beat + 1953125 ∧
    { svse with clock := ⟨1953125, 0⟩ }.row = se0.beat + 1953125 := by decide +kernel

/-- A change of a key, and one of the claims, that is due. -/
def svkd : State := { sv with vault := { sv.vault with tenants := [(7, { tn0 with keyDue := some (99, none) })] } }
def svcm (b : Bool) : State := { sv with vault := { sv.vault with claimsDue := some (99, b) } }

theorem test_vault : nx (exec (.setKey 1 7 1 1) svse) (fun t => t.out = [.vault (some 1) 1 3 [] []]) = true ∧
    nx (exec (.setKey 1 7 1 2) svse) (fun t => t.out = [.vault (some 1) 1 0 [] []] && (t.tenantAt 7).keyDue.isSome) = true ∧
    nx (exec (.setKey 1 11 1 2) svse) (fun t => t.out = [.vault (some 1) 1 4 [] []]) = true ∧
    nx (exec (.setTicket 1 7 5) svse) (fun t => (t.tenantAt 7).ticket = some 5) = true ∧
    nx (exec (.setConsent 1 7 5) svse) (fun t => (t.tenantAt 7).consentDue = some 5) = true ∧
    nx (exec (.clearKey 1 9) svse) (fun t => (t.tenantAt 9).keyDue = some (100, none)) = true ∧
    nx (exec (.clearKey 1 7) svse) (fun t => t.out = [.vault (some 1) 4 2 [] []]) = true ∧
    nx (exec (.clearTicket 1 9) svse) (fun t => t.out = [.vault (some 1) 5 0 [] []]) = true ∧
    nx (exec (.readLog (some 1) 0) svse) (fun t => t.out = [.vault (some 1) 6 0 [] []]) = true ∧
    nx (exec (.spdmRequest none .keyExchange) svse) (fun t => t.vault.sessions.length = 2) = true ∧
    nx (exec (.spdmHeartbeatTimeout 1) { svse with clock := ⟨1953125, 0⟩ }) (fun t => t.vault.sessions = []) = true := by decide +kernel

theorem test_due : nx (exec .keySlotEffect svkd) (fun t => (t.tenantAt 7).state = .admitted && (t.tenantAt 7).key = none) = true ∧
    nx (exec .claimsEffect (svcm true)) (fun t => t.vault.claimed) = true ∧
    nx (exec .claimsRelease { svcm false with vault := { (svcm false).vault with claimed := true } }) (fun t => !t.vault.claimed) = true := by
  decide +kernel

/-! ## Blocks, health, power -/

/-- Block b is held so. -/
def svbl (b : Nat) (h : BlockHold) : State := { sv with vault := { sv.vault with blocks := [(b, h)], claimed := true } }
def svb : State := { sv with vault := { sv.vault with claimed := true, deferred := some (true, 0x060), tenants := [(7, { tn0 with isSealed := true })] } }

theorem witness_Blocks : sv.runs = true ∧ sv.fld rBootStatusImage ≠ 0 ∧ noSuchBlock 0x060 = false ∧ sv.isClaimed 0x060 = false ∧
    Tbl.get sv.vault.blocks 0x060 ≠ some .cut ∧ svb.isClaimed 0x060 = true ∧ Tbl.get (svbl 0x060 .stopped).vault.blocks 0x060 = some .stopped ∧
    Tbl.get (svbl 0x060 .cut).vault.blocks 0x060 = some .cut ∧ svb.debugConsent = false := by decide +kernel

theorem test_blocks : nx (exec (.stopClock .keeper 0x060) sv) (fun t => t.vault.blocks = [(0x060, .stopped)] && t.fld rBlockReqResult = 1) = true ∧
    nx (exec (.gatePower .keeper 0x060) svb) (fun t => t.vault.blocks = [] && t.fld rBlockReqResult = 2 && t.fld rSecureEventsDenied = 1) = true ∧
    nx (exec (.restore .keeper 0x060) (svbl 0x060 .gated)) (fun t => t.vault.blocks = []) = true ∧
    nx (exec (.restore .keeper 0x060) (svbl 0x060 .cut)) (fun t => t.fld rBlockReqResult = 4) = true ∧
    nx (exec (.capture .keeper 0x060) sv) (fun t => t.fld rSecureEventsCaptures = 1) = true ∧
    nx (exec (.capture .keeper 0x060) svb) (fun t => t.fld rBlockReqResult = 3) = true ∧
    nx (exec (.cancel .keeper) svb) (fun t => t.vault.deferred = none && t.fld rBlockReqResult = 5) = true := by decide +kernel

/-- A bind-off is due at row 100, or was four rows ago. -/
def svbf (r : Nat) : State := { inState .draining with node := { (inState .draining).node with bindoff := some r } }

theorem witness_Health : sv.fld rShedLevel < 3 ∧ 3 ≤ (sv.setFld rShedLevel 3).fld rShedLevel ∧ sv.reaches .fm true 0x080 0x0F0 = true ∧
    sv.node.state = .serving ∧ sv.bindable = true ∧ sv.orderOk sv.orderBytes = false ∧ (inState .castOn).bindable = false ∧
    (inState .castOn).reaches .fm true 0x080 0x0F0 = true ∧ 96 + 4 ≤ sv.row ∧ (svbf 96).node.state = .draining := by decide +kernel

theorem test_health : nx (exec (.keeperShedRaise 91) sv) (fun t => t.fld rShedLevel = 1 && t.fld rShedLoadPct = 91) = true ∧
    nx (exec (.keeperShedLower 69) (sv.setFld rShedLevel 2)) (fun t => t.fld rShedLevel = 1) = true ∧
    nx (exec (.keeperCoreFault 1) sv) (fun t => t.health.cores = [0, 2] && t.health.faults = [100]) = true ∧
    nx (exec .gaugeEpochEnd { sv with health := { sv.health with counts := [(gaugeKey 2 5, 800)] } }) (fun t => t.health.counts = [] &&
      (Tbl.get t.health.gauges (gaugeKey 2 5)).map Gauge.value = some (Gauge.scored ⟨0, 0⟩ 800).value) = true ∧
    nx (exec (.drain .fm) sv) (fun t => t.node.state = .draining && t.fld rBindoffCtlResult = 2) = true ∧
    nx (exec (.drain .fm) (inState .castOn)) (fun t => t.node.state = .castOn && t.fld rBindoffCtlResult = 4) = true ∧
    nx (exec (.submit .fm) sv) (fun t => t.node.state = .serving) = true ∧
    nx (exec .bindoffTargetRow (svbf 101)) (fun t => t.work = sv.work) = true ∧
    nx (exec .boundOff { svbf 96 with xport := { sv.xport with conns := [] } }) (fun t => t.node.state = .boundOff && t.xport.keys = [] &&
      t.cat.cards = []) = true ∧
    nx (exec .boundOff (svbf 97)) (fun t => t.node.state = .draining) = true := by decide +kernel

/-- Die 18 is cut and cool; the rails 5 and 8 are out or cut. -/
def tc0 : Temp := { value := 25, r88 := 256, r93 := 256, r94 := 4096, r98 := 256, r103 := 256, alert := true, emergency := true, isCut := true }
def svcool : State := { svbl 0x060 .cut with power := { sv.power with
  dieTemps := setAt sv.power.dieTemps 18 fun _ => tc0
  railOut := [5], railCut := [8], railBack := [(8, 36)] } }

/-- Stack 11 is cool under a cap of 64. -/
def svcap : State := { sv with
  power := { sv.power with stackTemps := setAt sv.power.stackTemps 11 fun _ => tc0 }
  stackUnits := setAt sv.stackUnits 11 fun k => { k with thermalCap := 64 } }

theorem witness_Heat : (sv.tempAt (.die 18)).isSome = true ∧ (sv.tempAt (.die 19)).isSome = true ∧ sv.runs = true ∧
    svcool.tempAt (.die 18) = some tc0 ∧ (svcool.setTemp (.die 18) fun t => { t with isCut := false }).stillCut 0x060 = true ∧
    ({ svcool with power := { svcool.power with railCut := [] } }.setTemp (.die 18) fun t => { t with isCut := false }).stillCut 0x060 = false ∧
    (sv.power.stackTemps[11]?).isSome = true ∧ (sv.stackUnits[11]?).isSome = true ∧ 5 ∈ svcool.power.railOut ∧ 8 ∉ svcool.power.railOut ∧
    8 ∈ svcool.power.railCut ∧ Tbl.num svcool.power.railBack 8 + 64 ≤ svcool.row := by decide +kernel

theorem test_heat : nx (exec (.thermalAlert (.die 18) 99) sv) (fun t => t.power = sv.power) = true ∧
    nx (exec (.thermalAlert (.die 18) 100) sv) (fun t => (t.tempAt (.die 18)).map Temp.alert = some true) = true ∧
    nx (exec (.thermalEmergency (.die 18) 105) sv) (fun t => t.vault.blocks.map Prod.fst = [0x060, 0x068, 0x069, 0x06A, 0x06B]) = true ∧
    nx (exec (.thermalEmergency (.die 19) 105) sv) (fun t => t.node.state = .boot && t.cat.cards = []) = true ∧
    nx (exec (.thermalTrip (.stack 0) 115) sv) (fun t => t.node.tripped) = true ∧
    nx (exec (.thermalClear (.die 18)) svcool) (fun t => t.tempAt (.die 18) = some { tc0 with alert := false, emergency := false }) = true ∧
    nx (exec (.cutBlockReturn (.die 18)) { svcool with power := { svcool.power with railCut := [] } }) (fun t => t.vault.blocks = []) = true ∧
    nx (exec (.cutBlockReturn (.die 18)) svcool) (fun t => t.vault.blocks = [(0x060, .cut)]) = true ∧
    nx (exec (.thermalCapRise 11) svcap) (fun t => (t.stackUnits[11]?).map Stack.thermalCap = some 96) = true := by
  decide +kernel

theorem test_rails : nx (exec (.railOutOfRange 12) sv) (fun t => t.power.railOut = [12] && bits (t.stored 0x0F0 0x0A8) 28 28 = 1) = true ∧
    nx (exec (.railAbsoluteExcursion 5) sv) (fun t => t.vault.blocks.map Prod.fst = [0x020, 0x021, 0x022, 0x023] && t.power.railCut = [5]) = true ∧
    nx (exec (.railAbsoluteExcursion 1) sv) (fun t => t.node.state = .fault) = true ∧
    nx (exec (.railAbsoluteExcursion 0) sv) (fun t => t.node.state = .boot) = true ∧
    nx (exec (.railRecovery 5) svcool) (fun t => t.power.railOut = [] && Tbl.get t.power.railBack 5 = some 100) = true ∧
    nx (exec (.railRecovery 8) svcool) (fun t => t.power.railCut = [] && t.vault.blocks = [(0x060, .cut)]) = true := by decide +kernel

/-- No host access of a stack is queued or held. -/
theorem witness_Quiet (n : Nat) (k : Stack) (h : sv.stackUnits[n]? = some k) : k.conflicts = [] ∧ k.held = [] := by
  have ha : sv.stackUnits.all (fun k => k.conflicts.isEmpty && k.held.isEmpty) = true := by decide +kernel
  have := List.all_eq_true.mp ha k (List.mem_of_getElem? h)
  simpa using this

end Sys2Proof.Tests
end

section
/-! SUPPORT. What sending leaves of the connections, and what Error does to them (Table 12-5). -/

namespace Sys2Proof.Machine

/-- What the table has at a connection but for its next PSN: all that sending changes of a connection. -/
def State.connView (s : State) (k : Nat) : Option Conn := (Tbl.get s.xport.conns k).map fun c => { c with sendPsn := 0 }

/-- `t` has the connections of `s`, but for their next PSN. -/
abbrev SameConns (s t : State) : Prop := t.connView = s.connView

theorem SameConns.foldl {α : Type} (f : State → α → State) (h : ∀ s x, SameConns s (f s x)) (l : List α) (s : State) :
    SameConns s (l.foldl f s) := by
  induction l generalizing s with
  | nil => rfl
  | cons x l ih => exact (ih _).trans (h s x)

theorem SameConns.ite {s t u : State} {c : Prop} [Decidable c] (a : SameConns s t) (b : SameConns s u) :
    SameConns s (if c then t else u) := by
  split
  · exact a
  · exact b

@[simp] theorem State.setStored_connView (s : State) (b o : Nat) (w : Word) : (s.setStored b o w).connView = s.connView := rfl

@[simp] theorem State.setFld_connView (s : State) (f : Field) (v : Nat) : (s.setFld f v).connView = s.connView :=
  State.setStored_connView _ _ _ _

@[simp] theorem State.count_connView (s : State) (f : Field) (n : Nat) : (s.count f n).connView = s.connView :=
  State.setFld_connView _ _ _

@[simp] theorem State.sampleInto_connView (s : State) (k : Nat) (v : Int) : (s.sampleInto k v).connView = s.connView := by
  simp only [State.sampleInto, State.count_connView]
  exact (SameConns.ite (State.setFld_connView _ _ _) rfl).trans (SameConns.ite (State.setFld_connView _ _ _) rfl)

@[simp] theorem State.sample_connView (s : State) (k : Nat) (l : List Nat) (v : Int) : (s.sample k l v).connView = s.connView :=
  SameConns.foldl _ (fun s k => SameConns.ite (State.sampleInto_connView s k v) rfl) _ s

/-- The spray's choice of a path changes no register and no connection. -/
theorem State.pickPath_keeps (s : State) (entry : Nat) (avoid : Option Nat) :
    (s.pickPath entry avoid).2.regs = s.regs ∧ (s.pickPath entry avoid).2.connView = s.connView := by
  unfold State.pickPath
  dsimp only
  split <;> exact ⟨rfl, rfl⟩

@[simp] theorem State.enqueue_connView (s : State) (h : TxHeader) (front : Bool) : (s.enqueue h front).connView = s.connView := rfl

@[simp] theorem State.setUnacked_connView (s : State) (k psn : Nat) (f : Unacked → Unacked) :
    (s.setUnacked k psn f).connView = s.connView := rfl

/-- A single packet changes no register and no connection. -/
theorem State.datagram_keeps (s : State) (x : TxHeader) :
    (s.datagram x).regs = s.regs ∧ (s.datagram x).connView = s.connView := by
  have h := State.pickPath_keeps s (s.entryOf x.dstNode x.dstDomain) none
  unfold State.datagram
  dsimp only
  split <;> rename_i e <;> rw [e] at h
  · exact h
  · exact h

@[simp] theorem State.dispatch_connView (s : State) (u : Unacked) (avoid : Option Nat) (front : Bool) :
    (s.dispatch u avoid front).connView = s.connView := by
  have h := (State.pickPath_keeps s u.entry avoid).2
  unfold State.dispatch
  split
  · rename_i e
    rw [e] at h
    rw [State.enqueue_connView, State.setUnacked_connView, h]
  · rename_i e _
    rw [e] at h
    rw [State.setUnacked_connView, h]

@[simp] theorem State.pump_connView (s : State) (k : Nat) : (s.pump k).connView = s.connView :=
  SameConns.foldl _ (fun s u => SameConns.ite (State.dispatch_connView s u none false) rfl) _ s

@[simp] theorem State.packets_connView (s : State) (k kind tc n : Nat) : (s.packets k kind tc n).connView = s.connView := by
  unfold State.packets
  split
  · rfl
  · rename_i c e
    rw [State.pump_connView]
    funext j
    simp only [State.connView, Tbl.get_set]
    split
    · rename_i h
      simp [h, e]
    · rfl

@[simp] theorem State.packetsOn_connView (s : State) (p : Nat → Conn → Bool) (kind tc n : Nat) :
    (s.packetsOn p kind tc n).connView = s.connView := by
  unfold State.packetsOn
  split
  · exact State.packets_connView _ _ _ _ _
  · rfl

@[simp] theorem State.wire_connView (s : State) (m : Sent) : (s.wire m).connView = s.connView := by
  cases m
  case completion | eventMsg | loan | subCommand => exact State.packetsOn_connView _ _ _ _ _
  case bulk | relayed => exact State.packets_connView _ _ _ _ _
  case fmEvent | nak => exact (State.datagram_keeps _ _).2
  case cmReply kind _ _ _ _ _ _ _ _ _ =>
    cases kind
    case accept | qpError => exact (State.datagram_keeps _ _).2
    all_goals exact State.packetsOn_connView _ _ _ _ _
  case mgmtReply path _ _ _ _ =>
    cases path
    case fm => exact (State.datagram_keeps _ _).2
    all_goals rfl
  case ack k _ _ _ =>
    unfold State.wire
    dsimp only
    split
    · exact (State.datagram_keeps _ _).2
    · rfl
  all_goals rfl

@[simp] theorem State.send_connView (s : State) (m : Sent) : (s.send m).connView = s.connView :=
  SameConns.ite (State.wire_connView _ m) rfl

@[simp] theorem State.reply_connView (s : State) (op : Nat) (h : Head) (o : Outcome) :
    (s.reply op h o).connView = s.connView := by
  unfold State.reply
  split
  · rfl
  · exact (State.send_connView _ _).trans (State.sample_connView _ _ _ _)

@[simp] theorem State.dropWaiting_connView (s : State) (f : Head → Outcome) (ws : List Waiting) :
    (s.dropWaiting f ws).connView = s.connView := by
  refine SameConns.foldl _ (fun s w => ?_) _ _
  split
  · exact State.reply_connView _ _ _ _
  · rfl

/-- A connection can enter Error: it is Ready or Closing. -/
abbrev Conn.isOpen (c : Conn) : Prop := c.state = .ready ∨ c.state = .closing

/-- Table 12-5: a connection that is Ready or Closing enters Error with the cause. -/
theorem State.qpError_connView_self {s : State} {k cause : Nat} {c : Conn} (h : s.connView k = some c) (ho : c.isOpen) :
    (s.qpError k cause).connView k = some { c with state := .error, cause := cause, since := s.row } := by
  obtain ⟨d, hd, rfl⟩ := Option.map_eq_some_iff.mp h
  have hd' : d.state = .ready ∨ d.state = .closing := ho
  simp only [State.qpError, hd, if_pos hd', State.dropWaiting_connView]
  refine (congrFun (State.send_connView _ _) k).trans ?_
  simp [State.connView, State.setConn, hd]

/-- Any other connection stays. -/
theorem State.qpError_connView_ne {s : State} {k j cause : Nat} (h : j ≠ k) :
    (s.qpError k cause).connView j = s.connView j := by
  unfold State.qpError
  split
  · rfl
  · split
    · rw [State.dropWaiting_connView]
      refine (congrFun (State.send_connView _ _) j).trans ?_
      simp [State.connView, State.setConn, h]
    · rfl

/-- A connection that is neither Ready nor Closing stays too. -/
theorem State.qpError_of_not_open {s : State} {k cause : Nat} {c : Conn} (h : s.connView k = some c) (ho : ¬ c.isOpen) :
    s.qpError k cause = s := by
  obtain ⟨d, hd, rfl⟩ := Option.map_eq_some_iff.mp h
  have hd' : ¬ (d.state = .ready ∨ d.state = .closing) := ho
  simp [State.qpError, hd, hd']

/-- A connection in Error keeps its cause while others enter Error. -/
theorem State.foldl_qpError_stays {k cause : Nat} {c : Conn} (hc : c.state = .error) (ks : List Nat) :
    ∀ s : State, s.connView k = some c → (ks.foldl (fun s j => s.qpError j cause) s).connView k = some c := by
  induction ks with
  | nil => exact fun s h => h
  | cons j ks ih =>
    intro s h
    refine ih _ ?_
    by_cases e : k = j
    · subst e
      exact (congrArg (State.connView · k) (State.qpError_of_not_open h (by simp [Conn.isOpen, hc]))).trans h
    · exact (State.qpError_connView_ne e).trans h

/-- Every open connection of a list enters Error with the cause. -/
theorem State.foldl_qpError_enters {k cause : Nat} {c : Conn} (ho : c.isOpen) (ks : List Nat) (hk : k ∈ ks) :
    ∀ s : State, s.connView k = some c → ∃ c', (ks.foldl (fun s j => s.qpError j cause) s).connView k = some c' ∧
      c'.state = .error ∧ c'.cause = cause := by
  induction ks with
  | nil => cases hk
  | cons j ks ih =>
    intro s h
    by_cases e : k = j
    · subst e
      exact ⟨_, State.foldl_qpError_stays rfl ks _ (State.qpError_connView_self h ho), rfl, rfl⟩
    · exact ih ((List.mem_cons.mp hk).resolve_left e) _ ((State.qpError_connView_ne e).trans h)

end Sys2Proof.Machine
end

section
/-! SUPPORT. What a write of a register does: where it is turned away, and where it is accepted (R8, R409, R413, R416). -/

namespace Sys2Proof.Machine

/-! ## Error records -/

/-- Setting a field leaves every other register. -/
theorem State.stored_setFld_ne (s : State) (f : Field) (v b o : Nat) (h : regKey b o ≠ regKey f.block f.offset) :
    (s.setFld f v).stored b o = s.stored b o := State.stored_setStored_ne _ _ _ _ _ _ h

/-- An event recorded in a block is set in its ERROR_SUMMARY (Table 17-2). -/
theorem State.mark_sets_bit (s : State) {b k : Nat} (hk : k < 16) : bits ((s.mark b k).stored b 0x010) k k = 1 := by
  have hbit : (s.setFld ⟨b, 0x010, k, k⟩ 1).fld ⟨b, 0x010, k, k⟩ = 1 := by
    rw [State.fld_setFld_self _ _ _ (le_refl k) (show k < 64 by omega)]
    simp
  exact (State.fld_setFld_disjoint _ (rErrorSummaryCount b) ⟨b, 0x010, k, k⟩ _ rfl rfl (show 16 ≤ 31 by decide)
    (show 31 < 64 by decide) (.inl hk)).trans hbit

/-- An access event recorded in a block is set in its ERROR_SUMMARY (Table 17-2). -/
theorem State.markAccess_sets_bit (s : State) {b k : Nat} (o : Nat) (hk : k < 16) :
    bits ((s.markAccess b k o).stored b 0x010) k k = 1 :=
  (State.fld_setFld_disjoint _ (rErrorSummaryLastOffset b) ⟨b, 0x010, k, k⟩ _ rfl rfl (show 32 ≤ 51 by decide)
    (show 51 < 64 by decide) (.inl (show k < 32 by omega))).trans (s.mark_sets_bit hk)

/-- A recorded event changes no other register. -/
theorem State.stored_mark_ne (s : State) (b k b' o' : Nat) (h : regKey b' o' ≠ regKey b 0x010) :
    (s.mark b k).stored b' o' = s.stored b' o' :=
  (State.stored_setFld_ne _ (rErrorSummaryCount b) _ _ _ h).trans (State.stored_setFld_ne _ _ _ _ _ h)

/-- A recorded access event changes no other register. -/
theorem State.stored_markAccess_ne (s : State) (b k o b' o' : Nat) (h : regKey b' o' ≠ regKey b 0x010) :
    (s.markAccess b k o).stored b' o' = s.stored b' o' :=
  (State.stored_setFld_ne _ (rErrorSummaryLastOffset b) _ _ _ h).trans (State.stored_mark_ne _ _ _ _ _ h)

/-! ## Writes that change no register but an error record -/

variable {s : State} {path : Path} {b o : Nat}

/-- A register that the path does not reach is not written (R413, R416). -/
theorem State.regWrite_unreached (v : Word) (h : s.reaches path true b o = false) : s.regWrite path b o v = s := by
  simp [State.regWrite, State.writeReg, h]

/-- A write to an offset of a block with no register records BAD_ACCESS (R409). -/
theorem State.regWrite_no_register (v : Word) (hr : s.reaches path true b o = true) (ha : o % 8 = 0) (ho : o < 0x100000)
    (hf : fieldsAt b o = []) (hg : gateWindow b o = none) (hp : inPatWindow b o = false) (he : inRing b o = false)
    (hb : (blockAt b).isSome = true) : s.regWrite path b o v = s.markAccess b 2 o := by
  simp [State.regWrite, State.writeReg, State.badAccess, hr, ha, Nat.not_le.mpr ho, hf, hg, hp, he, hb]

/-- A register with fields lies within its block. -/
theorem lt_of_fieldsAt_ne_nil (h : fieldsAt b o ≠ []) : o < 0x100000 := by
  by_contra hc
  exact h (by simp [fieldsAt, Nat.not_lt.mp hc])

/-- A ROL register has fields. -/
theorem fieldsAt_ne_nil_of_isRol (h : isRol b o = true) : fieldsAt b o ≠ [] := by
  rintro e
  simp [isRol, e] at h

/-- ERROR_SUMMARY has no ROL field. -/
theorem isRol_errorSummary (b : Nat) : isRol b 0x010 = false := by
  unfold isRol fieldsAt
  cases blockAt b <;> rfl

/-- A write to a ROL register while LOCKED records LOCKED_WRITE and nothing else (Table 0-3). -/
theorem State.regWrite_locked (v : Word) (hr : s.reaches path true b o = true) (hk : keeperOnly b o = false)
    (hl : isRol b o = true) (h : s.locked = true) (ha : o % 8 = 0) (hg : gateWindow b o = none) (hp : inPatWindow b o = false)
    (he : inRing b o = false) : s.regWrite path b o v = s.markAccess b 0 o := by
  have hf := fieldsAt_ne_nil_of_isRol hl
  simp [State.regWrite, State.writeReg, hr, ha, Nat.not_le.mpr (lt_of_fieldsAt_ne_nil hf), hf, hg, hp, he, hk, hl, h]

/-! ## Writes that are accepted -/

/-- A register that is no window, has no ROL field and is not ROW_EPOCH: nothing but its path and a protection turns a write
away. -/
def plainReg (b o : Nat) : Bool :=
  o % 8 = 0 && o < 0x100000 && !inRing b o && (gateWindow b o).isNone && !inPatWindow b o && !(fieldsAt b o).isEmpty &&
    !isRol b o && !(b = 0x080 && o = 0x040)

/-- A write to a plain register that is reached and not protected is accepted. -/
theorem State.regWrite_accepted (v : Word) (h : plainReg b o = true) (hr : s.reaches path true b o = true)
    (hk : keeperOnly b o = false ∨ path = .keeper) (hp : s.protectedNow b o = false) :
    s.regWrite path b o v = s.acceptWrite path b o v := by
  simp only [plainReg, Bool.and_eq_true, Bool.not_eq_true', decide_eq_true_eq, Option.isNone_iff_eq_none, List.isEmpty_eq_false_iff,
    Bool.and_eq_false_imp, decide_eq_false_iff_not] at h
  obtain ⟨⟨⟨⟨⟨⟨⟨ha, ho⟩, he⟩, hg⟩, hw⟩, hf⟩, hl⟩, hne⟩ := h
  have hk' : ¬ (keeperOnly b o = true ∧ path ≠ .keeper) := by
    rintro ⟨hk1, hk2⟩
    exact hk.elim (fun e => by simp [e] at hk1) hk2
  have hne' : ¬ (b = 0x080 ∧ o = 0x040 ∧ s.node.state ≠ .castOn) := fun ⟨x, y, _⟩ => hne x y
  simp only [State.regWrite, State.writeReg, hr, ha, he, hg, hw, hl, hp, hk', hne', Nat.not_le.mpr ho, List.isEmpty_iff, hf]
  simp

end Sys2Proof.Machine
end

section
/-! SUPPORT. The single registers, the writes of the next row and the management messages (R334, R412, R414, R415, R417, R420,
R425). -/

namespace Sys2Proof.Machine

variable {s : State} {path : Path}

/-! ## Writes of single registers -/

/-- GAUGE_SEL takes what is written at once, and has no operation. -/
theorem State.regWrite_gaugeSel (v : Word) (h : s.reaches path true 0x080 0x0D0 = true) :
    s.regWrite path 0x080 0x0D0 v = s.putFields 0x080 0x0D0 v :=
  State.regWrite_accepted v (by decide) h (.inl (by decide)) rfl

/-- EVENT_PTR takes what is written at once, and has no operation. -/
theorem State.regWrite_eventPtr (v : Word) (h : s.reaches path true 0x0F0 0x080 = true) :
    s.regWrite path 0x0F0 0x080 v = s.putFields 0x0F0 0x080 v :=
  State.regWrite_accepted v (by decide) h (.inl (by decide)) rfl

/-- POWER_CFG takes what is written at once where no emergency holds (R425). -/
theorem State.regWrite_powerCfg (v : Word) (h : s.reaches path true 0x0F0 0x090 = true) (he : s.emergency = false) :
    s.regWrite path 0x0F0 0x090 v = s.putFloor v :=
  State.regWrite_accepted v (by decide) h (.inl (by decide)) (by simpa [State.protectedNow, blockAt] using he)

/-- A bank scope is kept until the next row (R237). -/
theorem State.regWrite_bankScope (v : Word) {set : Nat} (hs : set < 16) (h : s.reaches path true 0x058 (0x040 + 8 * set) = true) :
    s.regWrite path 0x058 (0x040 + 8 * set) v =
      { s with mgmt := { s.mgmt with due := s.mgmt.due ++ [⟨s.row, 0x058, 0x040 + 8 * set, v⟩] } } := by
  have hplain : ∀ k < 16, plainReg 0x058 (0x040 + 8 * k) = true := by decide
  have hnext : nextRowWrite 0x058 (0x040 + 8 * set) = true := by
    simp [nextRowWrite, blockAt]
    omega
  rw [State.regWrite_accepted v (hplain set hs) h (.inl rfl) rfl]
  simp [State.acceptWrite, hnext, State.operate, blockAt]
  omega

/-- QP_INSPECT takes what the Keeper writes, and then does its operation. -/
theorem State.regWrite_qpInspect (v : Word) (h : s.reaches .keeper true 0x038 0x060 = true) :
    s.regWrite .keeper 0x038 0x060 v = (s.putFields 0x038 0x060 v).operate .keeper 0x038 0x060 v :=
  State.regWrite_accepted v (by decide) h (.inr rfl) rfl

/-- The operations of QP_INSPECT (R334). -/
theorem State.operate_qpInspect (v : Word) : s.operate path 0x038 0x060 v =
    if bits v 63 62 = 1 then s.inspectQp (bits v 15 0) else if bits v 63 62 = 2 then s.closeQp (bits v 15 0) else s := rfl

/-- The stored bits of a register that has been written. -/
@[simp] theorem State.stored_putFields_self (s : State) (b o : Nat) (v : Word) :
    (s.putFields b o v).stored b o = writeWord (fieldsAt b o) s.locked (s.stored b o) v := State.stored_setStored_self _ _ _ _

@[simp] theorem State.putFields_node (s : State) (b o : Nat) (v : Word) : (s.putFields b o v).node = s.node :=
  State.setStored_node _ _ _ _

@[simp] theorem State.putFields_mem (s : State) (b o : Nat) (v : Word) : (s.putFields b o v).mem = s.mem :=
  State.setStored_mem _ _ _ _

@[simp] theorem State.putFields_work (s : State) (b o : Nat) (v : Word) : (s.putFields b o v).work = s.work :=
  State.setStored_work _ _ _ _

@[simp] theorem State.putFields_xport (s : State) (b o : Nat) (v : Word) : (s.putFields b o v).xport = s.xport :=
  State.setStored_xport _ _ _ _

@[simp] theorem State.putFields_mgmt (s : State) (b o : Nat) (v : Word) : (s.putFields b o v).mgmt = s.mgmt :=
  State.setStored_mgmt _ _ _ _

@[simp] theorem State.putFields_out (s : State) (b o : Nat) (v : Word) : (s.putFields b o v).out = s.out :=
  State.setStored_out _ _ _ _

/-- R420: TAIL of EVENT_PTR takes the value written to it. -/
theorem State.fld_eventTail_putFields (s : State) (v : Word) : (s.putFields 0x0F0 0x080 v).fld rEventPtrTail = bits v 43 32 := by
  show bits ((s.putFields 0x0F0 0x080 v).stored 0x0F0 0x080) 43 32 = _
  rw [State.stored_putFields_self]
  exact (bits_setBits_self _ _ (by decide) (by decide)).trans (by simp [bits])

/-- R420: HEAD of EVENT_PTR is the hardware's. -/
theorem State.fld_eventHead_putFields (s : State) (v : Word) :
    (s.putFields 0x0F0 0x080 v).fld rEventPtrHead = s.fld rEventPtrHead := by
  show bits ((s.putFields 0x0F0 0x080 v).stored 0x0F0 0x080) 11 0 = _
  rw [State.stored_putFields_self]
  exact (bits_setBits_disjoint _ _ (by decide) (by decide) (.inl (by decide))).trans
    (bits_setBits_disjoint _ _ (by decide) (by decide) (.inl (by decide)))

/-- R425: FLOOR_LEVEL takes the value, at most 4. -/
theorem State.fld_powerCfg_putFloor (s : State) (v : Word) : (s.putFloor v).fld rPowerCfgFloorLevel = min 4 (bits v 2 0) := by
  have hlt : bits v 2 0 < 8 := Nat.mod_lt _ (by decide)
  unfold State.putFloor
  split
  · rename_i h
    refine (congrArg (bits · 2 0) (State.stored_mark_ne _ 0x0F0 4 0x0F0 0x090 (by decide))).trans ?_
    exact (State.fld_setFld_self s rPowerCfgFloorLevel 4 (by decide) (by decide)).trans (Nat.min_eq_left h.le).symm
  · rename_i h
    rw [State.fld_setFld_self _ _ _ (by decide) (by decide), Nat.min_eq_right (Nat.not_lt.mp h)]
    exact Nat.mod_eq_of_lt hlt

@[simp] theorem State.putFloor_mem (s : State) (v : Word) : (s.putFloor v).mem = s.mem := by
  unfold State.putFloor
  split <;> simp

/-! ## QP_INSPECT (R334) -/

/-- QP_STATE is made of connections and commands, not of registers. -/
theorem State.qpWord_congr {s t : State} (hx : t.xport = s.xport) (hw : t.work = s.work) (qp : Nat) :
    t.qpWord qp = s.qpWord qp := by
  have hc : t.commandsOn = s.commandsOn := by
    funext k
    simp only [State.commandsOn, State.inFlight, State.sender, State.conn, hx, hw]
  simp only [State.qpWord, hx, hc]

/-- The operand of a write that holds OP in bits [63:62]. -/
theorem bits_opWord (w : Word) {op v : Nat} (ho : op < 4) (hv : v < 65536) :
    bits (setBits (setBits w 63 62 op) 15 0 v) 63 62 = op ∧ bits (setBits (setBits w 63 62 op) 15 0 v) 15 0 = v := by
  constructor
  · rw [bits_setBits_disjoint _ _ (by decide) (by decide) (.inr (by decide)), bits_setBits_self _ _ (by decide) (by decide)]
    exact Nat.mod_eq_of_lt ho
  · rw [bits_setBits_self _ _ (by decide) (by decide)]
    exact Nat.mod_eq_of_lt hv

/-- An OP written to QP_INSPECT is done on the state that holds the written register. -/
theorem State.opWrite_qpInspect {op qp : Nat} (h : s.reaches .keeper true 0x038 0x060 = true) (ho : op < 4) (hq : qp < 65536) :
    ∃ v, s.opWrite .keeper 0x038 0x060 op 15 0 qp =
      if op = 1 then (s.putFields 0x038 0x060 v).inspectQp qp
      else if op = 2 then (s.putFields 0x038 0x060 v).closeQp qp else s.putFields 0x038 0x060 v := by
  obtain ⟨hop, hv⟩ := bits_opWord (s.written 0x038 0x060) ho hq
  refine ⟨setBits (s.opWord 0x038 0x060 63 62 op) 15 0 qp, (State.regWrite_qpInspect _ h).trans ?_⟩
  rw [State.operate_qpInspect, State.opWord, hop, hv]

/-- QP_INSPECT shows the state of a queue pair that is not one of the fixed ones. -/
theorem State.inspectQp_shows (s : State) {qp : Nat} (h : 4 ≤ qp) :
    (s.inspectQp qp).stored 0x038 0x068 = s.qpWord qp ∧ (s.inspectQp qp).fld rQpInspectResult = 2 ∧
      (s.inspectQp qp).xport = s.xport ∧ (s.inspectQp qp).mem = s.mem := by
  rw [State.inspectQp, if_neg (Nat.not_lt.mpr h)]
  refine ⟨?_, State.fld_setFld_self _ _ _ (by decide) (by decide), by simp, by simp⟩
  rw [State.stored_setFld_ne _ _ _ _ _ (by decide), State.stored_setStored_self]

/-- QP_INSPECT refuses the fixed queue pairs. -/
theorem State.inspectQp_refuses (s : State) {qp : Nat} (h : qp < 4) :
    (s.inspectQp qp).fld rQpInspectResult = 3 ∧ (s.inspectQp qp).xport = s.xport := by
  rw [State.inspectQp, if_pos h]
  exact ⟨State.fld_setFld_self _ _ _ (by decide) (by decide), by simp⟩

/-- QP_INSPECT close: every Ready or Closing connection of the queue pair is in Error, cause 0x5. -/
theorem State.closeQp_closes (s : State) {qp : Nat} (h : 4 ≤ qp) :
    (s.closeQp qp).fld rQpInspectResult = 2 ∧
      ∀ k c, connQp k = qp → Tbl.get s.xport.conns k = some c → c.isOpen →
        ∃ c', Tbl.get (s.closeQp qp).xport.conns k = some c' ∧ c'.state = .error ∧ c'.cause = 5 := by
  rw [State.closeQp, if_neg (Nat.not_lt.mpr h)]
  refine ⟨State.fld_setFld_self _ _ _ (by decide) (by decide), fun k c hk hc ho => ?_⟩
  have hmem : k ∈ (s.xport.conns.filter fun p => connQp p.1 = qp).map Prod.fst :=
    List.mem_map.mpr ⟨(k, c), List.mem_filter.mpr ⟨Tbl.mem_of_get hc, by simpa using hk⟩, rfl⟩
  obtain ⟨c', hc', hstate, hcause⟩ := State.foldl_qpError_enters (cause := 5) (c := { c with sendPsn := 0 }) ho _ hmem s
    (by simp [State.connView, hc])
  obtain ⟨d, hd, rfl⟩ := Option.map_eq_some_iff.mp hc'
  exact ⟨d, by simpa using hd, hstate, hcause⟩

/-! ## Writes at the next row (R412) -/

/-- Two registers of the same place in the list of registers, with the same Reset value, hold the same bits. -/
theorem State.stored_congr (s : State) {b o b' o' : Nat} (hk : regKey b o = regKey b' o') (hr : resetWord b o = resetWord b' o') :
    s.stored b o = s.stored b' o' := by
  simp [State.stored, hk, hr]

/-- A write into the Index block leaves LOAN_CTL: an offset past the block names no register. -/
theorem State.loanQuota_putFields_index (s : State) (o : Nat) (v : Word) :
    (s.putFields 0x058 o v).fld rLoanCtlQuota = s.fld rLoanCtlQuota := by
  by_cases hk : regKey 0x060 0x070 = regKey 0x058 o
  · obtain rfl : o = 0x800070 := by
      simp only [regKey] at hk
      omega
    have hsame (t : State) : t.stored 0x060 0x070 = t.stored 0x058 0x800070 := t.stored_congr (by decide) (by decide)
    show bits ((s.putFields 0x058 0x800070 v).stored 0x060 0x070) 25 0 = bits (s.stored 0x060 0x070) 25 0
    rw [hsame, hsame, State.stored_putFields_self]
    rfl
  · exact congrArg (bits · 25 0) (State.stored_setStored_ne _ _ _ _ _ _ hk)

/-- A write into the Index block takes effect with no other. -/
theorem State.applyWrite_index (s : State) {d : DueWrite} (h : d.block = 0x058) :
    s.applyWrite d = s.putFields 0x058 d.offset d.value := by
  have hput : s.putWord 0x058 d.offset d.value = s.putFields 0x058 d.offset d.value := rfl
  rw [State.applyWrite, h, hput, if_neg (by rw [State.loanQuota_putFields_index]; exact Nat.lt_irrefl _)]

/-- A write that was accepted in this row, or is due later, waits. -/
theorem State.applyDue_waits {d : DueWrite} (hd : s.mgmt.due = [d]) (h : s.row ≤ d.row) : s.applyDue = s := by
  simp only [State.applyDue, hd, List.filter_cons, decide_eq_true h, Nat.not_lt.mpr h]
  simp [← hd]

/-- A write into the Index block that was accepted in an earlier row takes effect. -/
theorem State.applyDue_index {d : DueWrite} (hd : s.mgmt.due = [d]) (hb : d.block = 0x058) (h : d.row < s.row) :
    s.applyDue = ({ s with mgmt := { s.mgmt with due := [] } } : State).putFields 0x058 d.offset d.value := by
  simp [State.applyDue, hd, h, Nat.not_le.mpr h, State.applyWrite_index _ hb]

/-! ## Reads by offset and messages (R413 to R417) -/

/-- A read of a register that is reached and present returns its value and changes nothing. -/
theorem State.access_read {a : Nat} (ha : a < 0x10000000) (hr : s.reaches path false (a / 0x100000) (a % 0x100000) = true)
    (hp : s.present (a / 0x100000) (a % 0x100000) = true) :
    s.access path (regBase + a) none = (0, s.readWord (a / 0x100000) (a % 0x100000), s) := by
  have hin : ¬ (regBase + a < regBase ∨ regTop ≤ regBase + a) := by
    simp only [regBase, regTop]
    omega
  simp only [State.access, if_neg hin, Nat.add_sub_cancel_left, hr, hp]
  rfl

/-- A message of one such read is answered with the value and changes nothing. -/
theorem State.entries_read {a : Nat} (ha : a < 0x10000000) (hr : s.reaches path false (a / 0x100000) (a % 0x100000) = true)
    (hp : s.present (a / 0x100000) (a % 0x100000) = true) :
    s.entries path [] [⟨0, regBase + a, 0⟩] =
      (some [⟨0, regBase + a, 0, s.readWord (a / 0x100000) (a % 0x100000)⟩], s) := by
  simp [State.entries, State.access_read ha hr hp, State.resetSince]

/-- A reply to a fabric manager changes no register. -/
theorem State.send_mgmtReply_regs (s : State) (dst tag row : Nat) (es : List ReplyEntry) :
    (s.send (.mgmtReply .fm dst tag row es)).regs = s.regs := by
  unfold State.send
  split
  · exact (State.datagram_keeps _ _).1
  · rfl

/-- A request from a node that is not a fabric manager has no effect. -/
theorem State.manage_stranger {src : Nat} (m : MgmtMsg) (h : s.managers.contains src = false) : s.manage src m = s := by
  have hsrc : src ∉ s.managers := by simpa using h
  simp [State.manage, hsrc]

/-- A read from a fabric manager is answered. -/
theorem State.manage_read {src a : Nat} {m : MgmtMsg} (hs : s.runs = true) (hat : s.attested = true)
    (hsrc : s.managers.contains src = true) (hw : wellFormedRequest m = true) (he : m.entries = [⟨0, regBase + a, 0⟩])
    (ha : a < 0x10000000) (hp : s.present (a / 0x100000) (a % 0x100000) = true) :
    s.manage src m =
      s.send (.mgmtReply .fm src m.tag s.replyRow [⟨0, regBase + a, 0, s.readWord (a / 0x100000) (a % 0x100000)⟩]) := by
  have hr : s.reaches .fm false (a / 0x100000) (a % 0x100000) = true := by simp [State.reaches, hs, hat]
  simp only [State.manage, hs, hat, hsrc, hw, he, State.entries_read ha hr hp]
  rfl

/-- A frame of the out-of-band port has no effect without power. -/
theorem State.oob_unpowered (f : OobFrame) (h : s.powered = false) : s.oob f = s := by simp [State.oob, h]

/-- A well-formed management message to an address of the node is acted on. -/
theorem State.oob_mgmt {f : OobFrame} {m : MgmtMsg} (hf : f.body = .mgmt m) (ht : f.etherType = 0x88B5)
    (hm : s.oobMacs.contains f.mac = true) (hb : f.mac ≠ broadcastMac) (hp : s.powered = true) :
    s.oob f = s.oobManage f.srcId false m := by
  have hmem : f.mac ∈ s.oobMacs := by simpa using hm
  simp [State.oob, hf, ht, hmem, hb, hp]

/-- A message that has been answered is answered again with the reply that was kept (R415). -/
theorem State.oobManage_again {srcId : Nat} {m : MgmtMsg} {k : Kept} (hw : wellFormedRequest m = true)
    (hk : (s.mgmt.kept.find? fun k => k.srcId = srcId && k.tag = m.tag && k.request = m) = some k) :
    s.oobManage srcId false m = s.sendAside (.mgmtReply .oob srcId m.tag k.row k.reply) := by
  simp [State.oobManage, hw, hk]

/-- A read that has not been answered is answered, and the reply kept. -/
theorem State.oobManage_read {srcId a : Nat} {m : MgmtMsg} (hw : wellFormedRequest m = true)
    (hk : (s.mgmt.kept.find? fun k => k.srcId = srcId && k.tag = m.tag && k.request = m) = none)
    (he : m.entries = [⟨0, regBase + a, 0⟩]) (ha : a < 0x10000000)
    (hr : s.reaches .oob false (a / 0x100000) (a % 0x100000) = true) (hp : s.present (a / 0x100000) (a % 0x100000) = true) :
    ∃ kept, s.oobManage srcId false m = ({ s with mgmt := { s.mgmt with kept := kept } } : State).sendAside
      (.mgmtReply .oob srcId m.tag s.replyRow [⟨0, regBase + a, 0, s.readWord (a / 0x100000) (a % 0x100000)⟩]) := by
  simp only [State.oobManage, hw, hk, he, State.entries_read ha hr hp]
  exact ⟨_, rfl⟩

/-- R417: I3C reads what it reaches. -/
theorem State.i3c_read {a : Nat} (hpow : s.powered = true) (ha : a < 0x10000000)
    (hi : i3cPart (a / 0x100000) (a % 0x100000) = true) (hp : s.present (a / 0x100000) (a % 0x100000) = true) :
    s.i3c (regBase + a) none = s.sendAside (.i3cReply (s.readWord (a / 0x100000) (a % 0x100000))) := by
  have hr : s.reaches .i3c false (a / 0x100000) (a % 0x100000) = true := by simp [State.reaches, hpow, hi]
  simp [State.i3c, hpow, State.access_read ha hr hp]

end Sys2Proof.Machine
end

section
/-! The obligations O2 and O55. `exec` answers `.next` of what a command of O55 does, by definition: an equation about that is one
about the answer. -/

namespace Sys2Proof.Machine

/-- Settles O2: at reset every list is empty, and a register that is not listed holds its Reset value. -/
theorem resetHoldsResetValues : Obligations.ResetHoldsResetValues :=
  ⟨⟨rfl, rfl, rfl, rfl, rfl, rfl, rfl, List.forall_mem_nil _, List.forall_mem_nil _⟩, rfl, rfl, fun _ => rfl,
    fun _ _ => rfl⟩

variable (s : State)

/-! ## The parts of O55 -/

/-- R8, R409, R412, R413, R416: what a write does where its path does not reach the register, where there is none, and where
it is locked. -/
theorem registerWrite_reached (path : Path) (b o : Nat) (v : Word) :
    (s.reaches path true b o = false → exec (.registerWrite path b o v) s = .next s) ∧
    (s.reaches path true b o = true → o % 8 = 0 → o < 0x100000 → fieldsAt b o = [] → gateWindow b o = none →
      inPatWindow b o = false → inRing b o = false → (blockAt b).isSome = true →
      ∃ t, exec (.registerWrite path b o v) s = .next t ∧ bits (t.stored b 0x010) 2 2 = 1 ∧ t.mem = s.mem ∧ t.out = s.out) ∧
    (s.reaches path true b o = true → keeperOnly b o = false → isRol b o = true → s.locked = true → o % 8 = 0 →
      gateWindow b o = none → inPatWindow b o = false → inRing b o = false →
      ∃ t, exec (.registerWrite path b o v) s = .next t ∧ t.stored b o = s.stored b o ∧
        bits (t.stored b 0x010) 0 0 = 1 ∧ t.mem = s.mem ∧ t.out = s.out) := by
  refine ⟨fun h => ?_, fun hr ha ho hf hg hp he hb => ?_, fun hr hk hl h ha hg hp he => ?_⟩
  · exact congrArg Host.Outcome.next (State.regWrite_unreached v h)
  · exact ⟨_, congrArg Host.Outcome.next (State.regWrite_no_register v hr ha ho hf hg hp he hb),
      s.markAccess_sets_bit o (by decide), s.markAccess_mem _ _ _, s.markAccess_out _ _ _⟩
  · have hne : regKey b o ≠ regKey b 0x010 := by
      intro e
      obtain rfl : o = 0x010 := Nat.add_left_cancel e
      simp [isRol_errorSummary] at hl
    exact ⟨_, congrArg Host.Outcome.next (State.regWrite_locked v hr hk hl h ha hg hp he), s.stored_markAccess_ne _ _ _ _ _ hne,
      s.markAccess_sets_bit o (by decide), s.markAccess_mem _ _ _, s.markAccess_out _ _ _⟩

/-- GAUGE_SEL is written under its access types. -/
theorem registerWrite_gaugeSel (path : Path) (v : Word) (h : s.reaches path true 0x080 0x0D0 = true) :
    ∃ t, exec (.registerWrite path 0x080 0x0D0 v) s = .next t ∧
      t.stored 0x080 0x0D0 = writeWord (fieldsAt 0x080 0x0D0) s.locked (s.stored 0x080 0x0D0) v ∧ t.mem = s.mem ∧
      t.out = s.out ∧ t.node = s.node :=
  ⟨_, congrArg Host.Outcome.next (State.regWrite_gaugeSel v h), State.stored_putFields_self _ _ _ _,
    State.putFields_mem _ _ _ _, State.putFields_out _ _ _ _, State.putFields_node _ _ _ _⟩

/-- R237: the write of a bank scope is due at the next row. -/
theorem bankScopeWrite_due (path : Path) (set : Nat) (enable : Bool) (tenant : Nat) (hs : set < 16)
    (h : s.reaches path true 0x058 (0x040 + 8 * set) = true) :
    ∃ t d, exec (.bankScopeWrite path set enable tenant) s = .next t ∧ t.regs = s.regs ∧ t.mem = s.mem ∧
      t.mgmt.due = s.mgmt.due ++ [d] ∧ d.row = s.row ∧ d.block = 0x058 ∧ d.offset = 0x040 + 8 * set ∧
      bits d.value 31 31 = bit enable ∧ bits d.value 11 0 = tenant % 4096 := by
  refine ⟨_, _, congrArg Host.Outcome.next (State.regWrite_bankScope _ hs h), rfl, rfl, rfl, rfl, rfl, rfl, ?_, ?_⟩
  · rw [bits_setBits_disjoint _ _ (by decide) (by decide) (.inr (by decide)), bits_setBits_self _ _ (by decide) (by decide)]
    cases enable <;> rfl
  · exact bits_setBits_self _ _ (by decide) (by decide)

/-- R412: a write into the Index block takes effect in the row after the one it was accepted in. -/
theorem nextRowWriteEffect_index (d : DueWrite) (hd : s.mgmt.due = [d]) (hb : d.block = 0x058) :
    (s.row ≤ d.row → exec .nextRowWriteEffect s = .next s) ∧
    (d.row < s.row → ∃ t, exec .nextRowWriteEffect s = .next t ∧ t.mgmt.due = [] ∧ t.mem = s.mem ∧
      t.stored d.block d.offset = writeWord (fieldsAt d.block d.offset) s.locked (s.stored d.block d.offset) d.value) := by
  refine ⟨fun h => congrArg Host.Outcome.next (State.applyDue_waits hd h), fun h => ?_⟩
  refine ⟨_, congrArg Host.Outcome.next (State.applyDue_index hd hb h), ?_, ?_, ?_⟩
  · rw [State.putFields_mgmt]
  · rw [State.putFields_mem]
  · rw [hb, State.stored_putFields_self]
    rfl

/-- R334: QP_INSPECT shows or closes a queue pair, and refuses the fixed ones. -/
theorem qpInspect_shows_and_closes (qp : Nat) (h : s.reaches .keeper true 0x038 0x060 = true) (hq : qp < 65536) :
    (4 ≤ qp → ∃ t, exec (.qpInspectRead .keeper qp) s = .next t ∧ t.stored 0x038 0x068 = s.qpWord qp ∧
      t.fld rQpInspectResult = 2 ∧ t.xport = s.xport ∧ t.mem = s.mem) ∧
    (qp < 4 → ∃ t, exec (.qpInspectRead .keeper qp) s = .next t ∧ t.fld rQpInspectResult = 3 ∧ t.xport = s.xport) ∧
    (4 ≤ qp → ∃ t, exec (.qpInspectClose .keeper qp) s = .next t ∧ t.fld rQpInspectResult = 2 ∧
      ∀ k c, connQp k = qp → Tbl.get s.xport.conns k = some c → c.state = .ready ∨ c.state = .closing →
        ∃ c', Tbl.get t.xport.conns k = some c' ∧ c'.state = .error ∧ c'.cause = 5) := by
  obtain ⟨v, hread⟩ := State.opWrite_qpInspect h (show 1 < 4 by decide) hq
  obtain ⟨v', hclose⟩ := State.opWrite_qpInspect h (show 2 < 4 by decide) hq
  rw [if_pos rfl] at hread
  rw [if_neg (by decide), if_pos rfl] at hclose
  refine ⟨fun hqp => ?_, fun hqp => ?_, fun hqp => ?_⟩
  · obtain ⟨hword, hresult, hxport, hmem⟩ := (s.putFields 0x038 0x060 v).inspectQp_shows hqp
    have hsame := State.qpWord_congr (State.putFields_xport s 0x038 0x060 v) (State.putFields_work s 0x038 0x060 v) qp
    exact ⟨_, congrArg Host.Outcome.next hread, hword.trans hsame, hresult,
      hxport.trans (State.putFields_xport _ _ _ _), hmem.trans (State.putFields_mem _ _ _ _)⟩
  · obtain ⟨hresult, hxport⟩ := (s.putFields 0x038 0x060 v).inspectQp_refuses hqp
    exact ⟨_, congrArg Host.Outcome.next hread, hresult, hxport.trans (State.putFields_xport _ _ _ _)⟩
  · have hcloses := (s.putFields 0x038 0x060 v').closeQp_closes hqp
    rw [State.putFields_xport] at hcloses
    exact ⟨_, congrArg Host.Outcome.next hclose, hcloses⟩

/-- R420: TAIL takes what is written, HEAD stays. -/
theorem eventTailWrite_tail (path : Path) (tail : Nat) (h : s.reaches path true 0x0F0 0x080 = true) :
    ∃ t, exec (.eventTailWrite path tail) s = .next t ∧ t.fld rEventPtrTail = tail % 4096 ∧
      t.fld rEventPtrHead = s.fld rEventPtrHead ∧ t.mgmt = s.mgmt ∧ t.mem = s.mem :=
  ⟨_, congrArg Host.Outcome.next (State.regWrite_eventPtr _ h),
    (State.fld_eventTail_putFields s _).trans (bits_setBits_self _ _ (by decide) (by decide)),
    State.fld_eventHead_putFields s _, State.putFields_mgmt _ _ _ _, State.putFields_mem _ _ _ _⟩

/-- R425: FLOOR_LEVEL takes what is written, at most 4. -/
theorem powerCfgWrite_floor (path : Path) (value : Nat) (h : s.reaches path true 0x0F0 0x090 = true) (he : s.emergency = false)
    (hv : value < 8) :
    ∃ t, exec (.powerCfgWrite path value) s = .next t ∧ t.fld rPowerCfgFloorLevel = min 4 value ∧ t.mem = s.mem := by
  refine ⟨_, congrArg Host.Outcome.next (State.regWrite_powerCfg _ h he), ?_, State.putFloor_mem _ _⟩
  rw [State.fld_powerCfg_putFloor, bits_setBits_self _ _ (by decide) (by decide)]
  exact congrArg (min 4) (Nat.mod_eq_of_lt hv)

/-- R414: a management request is answered to a fabric manager only. -/
theorem managementRequest_answers (src : Nat) (m : MgmtMsg) (a : Nat) (ht : Talks s) (hat : s.attested = true)
    (hw : wellFormedRequest m = true) (he : m.entries = [⟨0, regBase + a, 0⟩]) (ha : a < 0x10000000) :
    (s.managers.contains src = false → exec (.managementRequest src m) s = .next s) ∧
    (s.managers.contains src = true → s.present (a / 0x100000) (a % 0x100000) = true →
      ∃ t, exec (.managementRequest src m) s = .next t ∧ t.mem = s.mem ∧ t.regs = s.regs ∧ t.out = s.out ++
        [.mgmtReply .fm src m.tag s.replyRow [⟨0, regBase + a, 0, s.readWord (a / 0x100000) (a % 0x100000)⟩]]) := by
  refine ⟨fun h => congrArg Host.Outcome.next (State.manage_stranger m h), fun h hp => ?_⟩
  refine ⟨_, congrArg Host.Outcome.next (State.manage_read ht.1 hat h hw he ha hp), State.send_mem _ _,
    State.send_mgmtReply_regs _ _ _ _ _, ?_⟩
  exact (State.send_out _ _).trans (if_pos ht)

/-- R415: the out-of-band port answers a management message, and again with the same reply. -/
theorem oobFrame_answers (f : OobFrame) (m : MgmtMsg) (a : Nat) (hf : f.body = .mgmt m) (ht : f.etherType = 0x88B5)
    (hm : s.oobMacs.contains f.mac = true) (hb : f.mac ≠ broadcastMac) (hw : wellFormedRequest m = true) :
    (s.powered = false → exec (.oobFrame f) s = .next s) ∧
    (s.powered = true → ∀ k, (s.mgmt.kept.find? fun k => k.srcId = f.srcId && k.tag = m.tag && k.request = m) = some k →
      exec (.oobFrame f) s = .next (s.sendAside (.mgmtReply .oob f.srcId m.tag k.row k.reply))) ∧
    (s.powered = true → (s.mgmt.kept.find? fun k => k.srcId = f.srcId && k.tag = m.tag && k.request = m) = none →
      m.entries = [⟨0, regBase + a, 0⟩] → a < 0x10000000 →
      s.reaches .oob false (a / 0x100000) (a % 0x100000) = true → s.present (a / 0x100000) (a % 0x100000) = true →
      ∃ t, exec (.oobFrame f) s = .next t ∧ t.mem = s.mem ∧ t.regs = s.regs ∧ t.out = s.out ++
        [.mgmtReply .oob f.srcId m.tag s.replyRow [⟨0, regBase + a, 0, s.readWord (a / 0x100000) (a % 0x100000)⟩]]) := by
  refine ⟨fun h => congrArg Host.Outcome.next (State.oob_unpowered f h), fun h k hk => ?_, fun h hk he ha hr hp => ?_⟩
  · exact congrArg Host.Outcome.next ((State.oob_mgmt hf ht hm hb h).trans (State.oobManage_again hw hk))
  · obtain ⟨kept, hreply⟩ := State.oobManage_read hw hk he ha hr hp
    exact ⟨_, congrArg Host.Outcome.next ((State.oob_mgmt hf ht hm hb h).trans hreply), rfl, rfl, rfl⟩

/-- Settles O55: each part follows from what the register's write, or the message, does. -/
theorem registersAreReachedAndWritten : Obligations.RegistersAreReachedAndWritten := by
  intro s
  exact ⟨registerWrite_reached s, registerWrite_gaugeSel s, bankScopeWrite_due s, nextRowWriteEffect_index s,
    qpInspect_shows_and_closes s, fun path tail h _ => eventTailWrite_tail s path tail h, powerCfgWrite_floor s,
    managementRequest_answers s, oobFrame_answers s,
    fun _ hpow ha hi hp => congrArg Host.Outcome.next (State.i3c_read hpow ha hi hp)⟩

end Sys2Proof.Machine
end

section
/-! SUPPORT. How a scheduled command is received and admitted, and how it is answered (R43, R44, R195). -/

namespace Sys2Proof.Machine

/-! ## Answers -/

/-- What only sends, records or samples leaves what the node holds. -/
theorem OnlyOut.holdsSame {s t : State} (h : OnlyOut s t) : HoldsSame s t :=
  ⟨(congrArg Cat.seqs h.cat :), (congrArg Cat.leaves h.cat :), (congrArg Cat.cards h.cat :), h.mem, h.poison, h.keys⟩

/-- A node that serves a command runs, and is not in Fault. -/
theorem State.serves_of_refusesState {s : State} {op : Nat} (h : s.refusesState op = false) :
    s.runs = true ∧ s.node.state ≠ .fault := by
  cases e : s.node.state <;> simp [State.refusesState, e] at h ⊢
  case serving => exact h.2
  case draining => exact h.1.1.2

theorem holdsSame_refl (s : State) : HoldsSame s s := ⟨rfl, rfl, rfl, rfl, rfl, rfl⟩

theorem holdsSame_trans {s t u : State} (a : HoldsSame s t) (b : HoldsSame t u) : HoldsSame s u := by
  obtain ⟨aseqs, aleaves, acards, amem, apoison, akeys⟩ := a
  obtain ⟨bseqs, bleaves, bcards, bmem, bpoison, bkeys⟩ := b
  exact ⟨bseqs.trans aseqs, bleaves.trans aleaves, bcards.trans acards, bmem.trans amem, bpoison.trans apoison, bkeys.trans akeys⟩

/-- A completion is the one message sent, on a connection that lives, while the node serves the command (R195). -/
theorem State.reply_answers {s u : State} {op : Nat} {h : Head} {o : Outcome} (hs : (s.sender h).isSome)
    (hst : s.refusesState op = false) (hout : u.out = s.out) (hrow : u.row = s.row) (hnode : u.node = s.node)
    (hsend : u.sender h = s.sender h) (hsame : HoldsSame s u) :
    Answers s (u.reply op h o) op h o ∧ HoldsSame s (u.reply op h o) := by
  obtain ⟨hruns, hfault⟩ := s.serves_of_refusesState hst
  refine ⟨?_, holdsSame_trans hsame (OnlyOut.reply _ _ _ _).holdsSame⟩
  rw [← hsend] at hs
  rw [State.runs, ← hnode] at hruns
  rw [← hnode] at hfault
  rw [Answers, State.reply_out, if_pos ⟨hs, hruns, hfault⟩, hout, hrow]

/-! ## Receipt and admission -/

variable {i : Instr} {op k : Nat} {h : Head} {c : Conn}

/-- Every cache command goes through the receipt and then its own admission. -/
theorem exec_cacheCommand (s : State) (hi : cacheCommand i = some (op, h)) :
    exec i s = .next (s.receive i (admitCommand i)) := by
  cases i <;> cases hi <;> rfl

/-- A scheduled command is one of those of R43, on a SCHED queue pair. -/
theorem State.of_scheduled {s : State} (h' : s.scheduled op h c = true) : mayBeScheduled op = true ∧ c.cls = 0 := by
  simp only [State.scheduled, Bool.and_eq_true, decide_eq_true_eq] at h'
  obtain ⟨⟨⟨⟨hm, hc⟩, _⟩, _⟩, _⟩ := h'
  exact ⟨hm, hc⟩

/-- The commands that may be scheduled (R43). -/
theorem cacheCommand_mayBeScheduled (hi : cacheCommand i = some (op, h)) (hm : mayBeScheduled op = true) :
    (∃ b, i = .append h b ∧ op = opAppend) ∨ (∃ b, i = .merge h b ∧ op = opMerge) ∨ (∃ b, i = .attend h b ∧ op = opAttend) ∨
      (∃ b, i = .attendMulti h b ∧ op = opAttendMulti) ∨ ∃ b, i = .grad h b ∧ op = opGrad := by
  cases i <;> cases hi <;> first | exact absurd hm (by decide) | simp

/-- An attention command that has no slot completes with why. -/
theorem admitAttn_of_grant_error {s : State} {o : Outcome} (b : AttnBody) (r : Nat) (hs : s.sender h = some (k, c))
    (hg : s.grant op h c r = .error o) : admitAttn op h b r s = s.reply op h o := by
  simp [admitAttn, hs, hg]

/-- A command that may be scheduled and has no slot completes with why (R45: the slot comes first). -/
theorem admitCommand_of_grant_error {s : State} {o : Outcome} (r : Nat) (hi : cacheCommand i = some (op, h))
    (hm : mayBeScheduled op = true) (hs : s.sender h = some (k, c)) (hg : s.grant op h c r = .error o) : admitCommand i r s = s.reply op h o := by
  obtain ⟨b, rfl, rfl⟩ | ⟨b, rfl, rfl⟩ | ⟨b, rfl, rfl⟩ | ⟨b, rfl, rfl⟩ | ⟨b, rfl, rfl⟩ := cacheCommand_mayBeScheduled hi hm
  · simp [admitCommand, admitAppend, hs, hg]
  · simp [admitCommand, admitMerge, hs, hg]
  · exact admitAttn_of_grant_error b r hs hg
  · exact admitAttn_of_grant_error b r hs hg
  · exact admitAttn_of_grant_error b r hs hg

/-- After its intended row a scheduled command has no slot: LATE, cause ARRIVAL. -/
theorem State.grant_late {s : State} {r : Nat} (hsch : s.scheduled op h c = true) (hr : intendedRow h.rowTag r < r) :
    s.grant op h c r = .error (Outcome.tooLate h .arrival) := by
  simp [State.grant, hsch, hr]

/-- Before its intended row it has none either: NO_RESOURCE, DETAIL 0x5 (R198). -/
theorem State.grant_early {s : State} {r : Nat} (hsch : s.scheduled op h c = true) (hr : (r : Int) + 2 ≤ intendedRow h.rowTag r) :
    s.grant op h c r = .error (Outcome.noRes h 0x5) := by
  simp [State.grant, hsch, show ¬ intendedRow h.rowTag r < r by omega, show intendedRow h.rowTag r ≠ r by omega]

/-! ## Arrival -/

/-- The two conditions of R194 hold: the TAG is free and fewer than 4,096 commands are in flight. -/
def State.hasRoom (s : State) (h : Head) : Prop :=
  (s.inFlight.any fun g => sameSender g h && g.tag = h.tag) = false ∧ s.inFlight.length < 4096

/-- A late command is answered so, before any other check but the node's state (log entry 14). -/
theorem State.arrivalFail_late {s : State} (hst : s.refusesState op = false) (hns : h.ns ≤ 3328)
    (hr : intendedRow h.rowTag s.row < s.row) : s.arrivalFail op h true = some (Outcome.tooLate h .arrival) := by
  simp [State.arrivalFail, firstFail, comesLate, hst, hns, Nat.not_lt.mpr hns, hr]

/-- A command that is not late where its last byte counts in this row passes the checks at arrival. -/
theorem State.arrivalFail_none {s : State} (hst : s.refusesState op = false) (hroom : s.hasRoom h)
    (hr : h.ns ≤ 3328 → (s.row : Int) ≤ intendedRow h.rowTag s.row) : s.arrivalFail op h true = none := by
  obtain ⟨htag, hlen⟩ := hroom
  simp only [State.arrivalFail, firstFail, hst, htag, Nat.not_le.mpr hlen, decide_false, Bool.and_false]
  by_cases hns : h.ns ≤ 3328
  · simp [comesLate, Nat.not_lt.mpr hns, hr hns]
  · simp [hns]

/-- The row of a command whose last byte counts in this row (R44). -/
theorem handledRow_of_le (row : Nat) (hns : h.ns ≤ 3328) :
    handledRow true h row = if intendedRow h.rowTag row = row + 1 then row + 1 else row := by
  simp [handledRow, Nat.not_lt.mpr hns]

/-- The row of a command whose last byte counts in the next row: it waits there, or for the row after (log entry 24). -/
theorem handledRow_of_lt (row : Nat) (hns : 3328 < h.ns) :
    handledRow true h row = if intendedRow h.rowTag (row + 1) = (row : Int) + 2 then row + 2 else row + 1 := by
  simp [handledRow, hns, show ((row : Int) + 1 + 1) = row + 2 by omega]

/-! ## Release -/

/-- The node without the commands held for its row. -/
def State.afterHeld (s : State) : State := { s with work := { s.work with held := s.work.held.filter fun w => s.row < w.row } }

/-- The one command held for this row is resumed in it. -/
theorem State.releaseHeld_one {s : State} {w : Waiting} (hw : s.work.held.filter (fun w => w.row ≤ s.row) = [w]) :
    s.releaseHeld = s.afterHeld.resume w := by
  simp [State.releaseHeld, State.afterHeld, hw]

/-- A command that waited is admitted while the node serves it. -/
theorem State.resume_admits {s : State} (r : Nat) (hi : cacheCommand i = some (op, h)) (hst : s.refusesState op = false) :
    s.resume ⟨r, i⟩ = admitCommand i r s := by
  simp [State.resume, hi, hst]

end Sys2Proof.Machine
end

section
/-! The obligation O5 (R44). -/

namespace Sys2Proof.Machine

variable {i : Instr} {op k : Nat} {h : Head} {c : Conn}

/-- R44: a command on a Ready queue pair that no FENCE holds, and that meets R194. -/
theorem scheduled_received {s : State} (hi : cacheCommand i = some (op, h)) (hs : s.sender h = some (k, c))
    (hsch : s.scheduled op h c = true) (hst : s.refusesState op = false) (hready : c.state = .ready)
    (hfence : s.fenced h = false) (hroom : s.hasRoom h) :
    (h.ns ≤ 3328 →
      (intendedRow h.rowTag s.row < s.row →
        ∃ t, exec i s = .next t ∧ Answers s t op h (Outcome.tooLate h .arrival) ∧ HoldsSame s t) ∧
      (intendedRow h.rowTag s.row = s.row → exec i s = .next (admitCommand i s.row (arrived s h))) ∧
      (intendedRow h.rowTag s.row = s.row + 1 →
        exec i s = .next { arrived s h with
          work := { s.work with held := s.work.held ++ [⟨s.row + 1, i⟩] } }) ∧
      ((s.row : Int) + 2 ≤ intendedRow h.rowTag s.row →
        ∃ t, exec i s = .next t ∧ Answers s t op h (Outcome.noRes h 0x5) ∧ HoldsSame s t)) ∧
    (3328 < h.ns →
      exec i s = .next { arrived s h with
        work := { s.work with held := s.work.held ++
          [⟨if intendedRow h.rowTag (s.row + 1) = (s.row : Int) + 2 then s.row + 2 else s.row + 1, i⟩] } }) := by
  obtain ⟨hm, hcls⟩ := s.of_scheduled hsch
  have hloan : c.cls ≠ 2 := by omega
  have hsome : (s.sender h).isSome := Option.isSome_iff_exists.mpr ⟨_, hs⟩
  rw [exec_cacheCommand s hi]
  have hadmits (hns : h.ns ≤ 3328) (hr : (s.row : Int) ≤ intendedRow h.rowTag s.row)
      (hn : intendedRow h.rowTag s.row ≠ s.row + 1) :
      s.receive i (admitCommand i) = admitCommand i s.row (arrived s h) :=
    State.receive_admits _ hi hs hready hloan (by rw [hsch]; exact s.arrivalFail_none hst hroom fun _ => hr) hfence
      (by rw [hsch, handledRow_of_le _ hns, if_neg hn])
  refine ⟨fun hns => ⟨fun hr => ?_, fun hr => ?_, fun hr => ?_, fun hr => ?_⟩, fun hns => ?_⟩
  case _ =>
    rw [State.receive_fails _ hi hs hready hloan (by rw [hsch]; exact s.arrivalFail_late hst hns hr)]
    exact ⟨_, rfl, State.reply_answers hsome hst rfl rfl rfl rfl (holdsSame_refl s)⟩
  case _ => rw [hadmits hns (by omega) (by omega)]
  case _ =>
    have hrow : handledRow (s.scheduled op h c) h s.row = s.row + 1 := by rw [hsch, handledRow_of_le _ hns, if_pos hr]
    rw [State.receive_held _ hi hs hready hloan (by rw [hsch]; exact s.arrivalFail_none hst hroom fun _ => by omega) hfence
      (by omega), hrow]
  case _ =>
    rw [hadmits hns (by omega) (by omega), admitCommand_of_grant_error (s := arrived s h) _ hi hm hs (State.grant_early hsch hr)]
    exact ⟨_, rfl, State.reply_answers hsome hst rfl rfl rfl rfl (holdsSame_refl s)⟩
  case _ =>
    have hrow := handledRow_of_lt s.row hns
    rw [← hsch] at hrow
    rw [State.receive_held _ hi hs hready hloan (by rw [hsch]; exact s.arrivalFail_none hst hroom fun _ => by omega) hfence
      (by rw [hrow]; split <;> omega), hrow]

/-- R44: the one command held for this row is received in it. -/
theorem scheduled_released {s : State} (hi : cacheCommand i = some (op, h)) (hs : s.sender h = some (k, c))
    (hsch : s.scheduled op h c = true) (hst : s.refusesState op = false)
    (hw : s.work.held.filter (fun w => w.row ≤ s.row) = [⟨s.row, i⟩]) :
    exec .earlyCommandRelease s = .next (admitCommand i s.row
      { s with work := { s.work with held := s.work.held.filter fun w => s.row < w.row } }) ∧
    (intendedRow h.rowTag s.row < s.row →
      ∃ t, exec .earlyCommandRelease s = .next t ∧ Answers s t op h (Outcome.tooLate h .arrival) ∧ HoldsSame s t) ∧
    ((s.row : Int) + 2 ≤ intendedRow h.rowTag s.row →
      ∃ t, exec .earlyCommandRelease s = .next t ∧ Answers s t op h (Outcome.noRes h 0x5) ∧ HoldsSame s t) := by
  obtain ⟨hm, _⟩ := s.of_scheduled hsch
  have hsome : (s.sender h).isSome := Option.isSome_iff_exists.mpr ⟨_, hs⟩
  have hadmit : exec .earlyCommandRelease s = .next (admitCommand i s.row s.afterHeld) :=
    congrArg Host.Outcome.next ((State.releaseHeld_one hw).trans (State.resume_admits _ hi hst))
  refine ⟨hadmit, fun hr => ?_, fun hr => ?_⟩
  · rw [hadmit, admitCommand_of_grant_error (s := s.afterHeld) _ hi hm hs (State.grant_late hsch hr)]
    exact ⟨_, rfl, State.reply_answers hsome hst rfl rfl rfl rfl (holdsSame_refl s)⟩
  · rw [hadmit, admitCommand_of_grant_error (s := s.afterHeld) _ hi hm hs (State.grant_early hsch hr)]
    exact ⟨_, rfl, State.reply_answers hsome hst rfl rfl rfl rfl (holdsSame_refl s)⟩

/-- Settles O5: each way the receipt of a scheduled command ends follows from the row its last byte counts in. -/
theorem scheduledReceipt : Obligations.ScheduledReceipt := by
  intro i op h k c s hi hs hsch hst
  exact ⟨fun hready hfence htag hlen => scheduled_received hi hs hsch hst hready hfence ⟨htag, hlen⟩,
    scheduled_released hi hs hsch hst⟩

end Sys2Proof.Machine
end

section
/-! SUPPORT. What the catalogue's books leave of the run: freeing leaves, ending moves and taking back APPENDs change no clock,
synchronisation, node state, pattern or memory, and of the commands in flight only what walks and moves have noted in them. -/

namespace Sys2Proof.Machine

/-! ## The course of the node -/

/-- `t` has the clock, node state, synchronisation, pattern and memory of `s`. -/
structure SameCourse (s t : State) : Prop where
  clock : t.clock = s.clock
  node : t.node = s.node
  sync : t.sync = s.sync
  pat : t.pat = s.pat
  mem : t.mem = s.mem
  poison : t.poison = s.poison

namespace SameCourse

theorem refl (s : State) : SameCourse s s := ⟨rfl, rfl, rfl, rfl, rfl, rfl⟩

theorem trans {s t u : State} (a : SameCourse s t) (b : SameCourse t u) : SameCourse s u :=
  ⟨b.clock.trans a.clock, b.node.trans a.node, b.sync.trans a.sync, b.pat.trans a.pat, b.mem.trans a.mem,
    b.poison.trans a.poison⟩

theorem foldl {α : Type} (f : State → α → State) (h : ∀ s x, SameCourse s (f s x)) (l : List α) (s : State) :
    SameCourse s (l.foldl f s) := by
  induction l generalizing s with
  | nil => exact refl s
  | cons x l ih => exact (h s x).trans (ih _)

end SameCourse

theorem OnlyOut.sameCourse {s t : State} (h : OnlyOut s t) : SameCourse s t :=
  ⟨h.clock, h.node, h.sync, h.pat, h.mem, h.poison⟩

/-! ## The commands in flight -/

/-- A command without what its walk and its moves have noted in it. -/
def Cmd.face (c : Cmd) : Cmd :=
  { c with visits := [], moves := [], unpins := [], affected := 0, skipped := 0, noSpace := false }

/-- `t` has the course of `s`, and its commands in flight but for what walks and moves note in them. -/
structure SameRun (s t : State) : Prop extends SameCourse s t where
  cmds : ∃ f : Nat → Cmd → Cmd, (∀ n c, (f n c).face = c.face) ∧ t.work.cmds = Tbl.mapVals s.work.cmds f

/-- A table is itself where every record stays. -/
theorem mapVals_id {α : Type} (t : Tbl α) : Tbl.mapVals t (fun _ x => x) = t := List.map_id t

namespace SameRun

/-- The same course and the same commands. -/
theorem of_cmds {s t : State} (h : SameCourse s t) (hc : t.work.cmds = s.work.cmds) : SameRun s t :=
  ⟨h, fun _ c => c, fun _ _ => rfl, hc.trans (mapVals_id _).symm⟩

theorem refl (s : State) : SameRun s s := of_cmds (.refl s) rfl

theorem trans {s t u : State} (a : SameRun s t) (b : SameRun t u) : SameRun s u := by
  obtain ⟨f, hf, hft⟩ := a.cmds
  obtain ⟨g, hg, hgt⟩ := b.cmds
  refine ⟨a.toSameCourse.trans b.toSameCourse, fun n c => g n (f n c), fun n c => (hg _ _).trans (hf _ _), ?_⟩
  rw [hgt, hft]
  simp [Tbl.mapVals]

theorem foldl {α : Type} (f : State → α → State) (h : ∀ s x, SameRun s (f s x)) (l : List α) (s : State) :
    SameRun s (l.foldl f s) := by
  induction l generalizing s with
  | nil => exact refl s
  | cons x l ih => exact (h s x).trans (ih _)

theorem ite {s t u : State} {c : Prop} [Decidable c] (a : SameRun s t) (b : SameRun s u) : SameRun s (if c then t else u) := by
  split
  · exact a
  · exact b

/-- What sends, records or samples keeps the run. -/
theorem of_onlyOut {s t : State} (h : OnlyOut s t) : SameRun s t := of_cmds h.sameCourse (congrArg Work.cmds h.work)

/-- A change that reaches neither course nor commands. -/
theorem quiet {s t : State} (hclock : t.clock = s.clock := by rfl) (hnode : t.node = s.node := by rfl)
    (hsync : t.sync = s.sync := by rfl) (hpat : t.pat = s.pat := by rfl) (hmem : t.mem = s.mem := by rfl)
    (hpoison : t.poison = s.poison := by rfl) (hcmds : t.work.cmds = s.work.cmds := by rfl) : SameRun s t :=
  of_cmds ⟨hclock, hnode, hsync, hpat, hmem, hpoison⟩ hcmds

/-- A command in flight stays, but for what its walk and its moves have noted. -/
theorem cmd {s t : State} (h : SameRun s t) {n : Nat} {c : Cmd} (hc : s.cmd n = some c) :
    ∃ m, t.cmd n = some m ∧ m.face = c.face := by
  obtain ⟨f, hf, ht⟩ := h.cmds
  have hc' : Tbl.get s.work.cmds n = some c := hc
  exact ⟨f n c, by rw [State.cmd, ht, Tbl.get_mapVals, hc']; rfl, hf n c⟩

/-- Every command in flight was there before. -/
theorem of_mem {s t : State} (h : SameRun s t) {p : Nat × Cmd} (hp : p ∈ t.work.cmds) :
    ∃ q ∈ s.work.cmds, q.1 = p.1 ∧ q.2.face = p.2.face := by
  obtain ⟨f, hf, ht⟩ := h.cmds
  rw [ht] at hp
  obtain ⟨q, hq, rfl⟩ := List.mem_map.mp hp
  exact ⟨q, hq, rfl, (hf _ _).symm⟩

/-! ## The books -/

theorem changeCard (s : State) (n : Nat) (f : Card → Card) : SameRun s (s.changeCard n f) := by
  unfold State.changeCard
  split
  · exact ite quiet quiet
  · exact refl s

theorem sendRelease (s : State) (l slot n : Nat) (c : Card) : SameRun s (s.sendRelease l slot n c) :=
  (of_onlyOut (OnlyOut.send s _)).trans (ite (refl _) quiet)

theorem unreserve (s : State) (m : Move) : SameRun s (s.unreserve m) := by
  unfold State.unreserve
  split
  · exact foldl _ (fun _ _ => quiet) _ _
  · exact quiet

theorem releaseAcks (s : State) (m : Move) : SameRun s (s.releaseAcks m) := by
  unfold State.releaseAcks
  split
  · refine foldl _ (fun s a => ?_) _ _
    split
    · exact sendRelease _ _ _ _ _
    · exact refl s
  · exact refl s

/-- The commands that wait for a move note how it has ended. -/
theorem noteMoves (s : State) (f : Nat → Cmd → Cmd) (hf : ∀ n c, (f n c).face = c.face) :
    SameRun s { s with work := { s.work with cmds := Tbl.mapVals s.work.cmds f } } :=
  ⟨⟨rfl, rfl, rfl, rfl, rfl, rfl⟩, f, hf, rfl⟩

theorem endMove (s : State) (m : Nat) (how : MoveEnd) : SameRun s (s.endMove m how) := by
  unfold State.endMove
  split
  · exact refl s
  · refine trans (trans quiet (foldl _ (fun _ _ => quiet) _ _)) (noteMoves _ _ fun _ c => ?_)
    split
    · rfl
    · cases how
      case acted => rfl
      all_goals
        dsimp only
        split <;> rfl

theorem abandonMoves (s : State) (card : Nat) : SameRun s (s.abandonMoves card) :=
  foldl _ (fun s (p : Nat × Move) => (((endMove s p.1 .passed).trans (unreserve _ p.2)).trans (releaseAcks _ p.2)).trans
    (foldl _ (fun s n => changeCard s n Card.settle) _ _)) _ s

theorem dropAnnexCopy (s : State) (card : Nat) : SameRun s (s.dropAnnexCopy card) := by
  unfold State.dropAnnexCopy
  split
  · exact refl s
  · exact quiet

theorem freeLeaf (s : State) (n : Nat) : SameRun s (s.freeLeaf n) := by
  unfold State.freeLeaf
  split
  · exact refl s
  · extract_lets s1 s2 s3
    have h3 : SameRun s2 s3 := by
      simp only [s3]
      split
      · exact sendRelease _ _ _ _ _
      · exact refl _
    exact (((abandonMoves s n).trans (dropAnnexCopy _ n)).trans h3).trans quiet

theorem dropRef (s : State) (n : Nat) : SameRun s (s.dropRef n) := by
  unfold State.dropRef
  split
  · exact refl s
  · exact ite (changeCard _ _ _) (freeLeaf _ _)

theorem dropLeafAt (s : State) (slot layer head half block : Nat) : SameRun s (s.dropLeafAt slot layer head half block) := by
  unfold State.dropLeafAt
  split
  · exact refl s
  · exact trans quiet (dropRef _ _)

/-! ## An APPEND taken back (R199) -/

theorem clipVisits (s : State) (cards : List Nat) (valid : Nat) : SameRun s (s.clipVisits cards valid) :=
  noteMoves s _ fun _ _ => rfl

theorem rollBlock (s : State) (a : AppendJob) (block : Nat) : SameRun s (s.rollBlock a block) := by
  unfold State.rollBlock
  split
  · exact refl s
  · exact (clipVisits s _ _).trans (ite (refl _) (ite (foldl _ (fun _ _ => dropLeafAt _ _ _ _ _ _) _ _)
      (foldl _ (fun _ _ => quiet) _ _)))

theorem rollBack (s : State) (a : AppendJob) : SameRun s (s.rollBack a) :=
  (foldl _ (fun s k => rollBlock s a k) _ s).trans quiet

theorem dropJobs (s : State) (js : List AppendJob) : SameRun s (s.dropJobs js) :=
  trans quiet (foldl _ rollBack _ _)

end SameRun

end Sys2Proof.Machine
end

section
/-! SUPPORT. How a command in flight ends: leaving its key, being decided, and completing (R49, R195, R212). -/

namespace Sys2Proof.Machine

/-! ## Leaving a key -/

theorem State.dropKey_cmd (s : State) (n m : Nat) :
    (s.dropKey n).cmd m = if m = n then (s.cmd n).map fun c => { c with key := none } else s.cmd m := by
  cases hc : s.cmd n with
  | none => by_cases e : m = n <;> simp [State.dropKey, hc, e]
  | some c =>
    cases hk : c.key with
    | none =>
      rw [State.dropKey_of_none s n hc hk]
      split
      · rename_i e
        rw [e, hc, ← hk]
        rfl
      · rfl
    | some i =>
      have hd : (s.dropKey n).cmd m = (s.setCmd n fun c => { c with key := none }).cmd m := by
        simp only [State.dropKey, hc, hk]
        rfl
      rw [hd, State.cmd_setCmd, hc]

theorem SameCourse.dropKey (s : State) (n : Nat) : SameCourse s (s.dropKey n) := by
  obtain h | ⟨i, h⟩ := s.dropKey_cases n
  · rw [h]
    exact .refl s
  · rw [h]
    exact ⟨rfl, rfl, rfl, rfl, rfl, rfl⟩

theorem State.dropKey_out (s : State) (n : Nat) : (s.dropKey n).out = s.out := by
  obtain h | ⟨i, h⟩ := s.dropKey_cases n <;> rw [h]
  rfl

theorem State.dropKey_sender (s : State) (n : Nat) (h : Head) : (s.dropKey n).sender h = s.sender h := by
  obtain e | ⟨i, e⟩ := s.dropKey_cases n <;> rw [e]
  rfl

/-! ## Completing -/

theorem State.reply_cmd (s : State) (op : Nat) (h : Head) (o : Outcome) (m : Nat) : (s.reply op h o).cmd m = s.cmd m := by
  rw [State.cmd, State.reply_work]
  rfl

/-- A command that completes is no longer in flight; every other one stays. -/
theorem State.complete_cmd (s : State) (n : Nat) (o : Outcome) (m : Nat) :
    (s.complete n o).cmd m = if m = n then none else s.cmd m := by
  cases hc : s.cmd n with
  | none =>
    rw [State.complete_of_none s n o hc]
    split
    · rename_i e
      rw [e, hc]
    · rfl
  | some c =>
    rw [State.complete_eq s n o hc, State.reply_cmd, State.cmd_leave, State.dropKey_cmd]
    split
    · rfl
    · rfl

/-- R195: a completion is one message. -/
theorem State.complete_out {s : State} {n : Nat} {c : Cmd} (o : Outcome) (hc : s.cmd n = some c) (hr : Reachable s c.head) :
    (s.complete n o).out =
      s.out ++ [.completion c.head.qp c.head.srcNode c.head.srcQp c.head.tag c.opcode (s.row % 65536) o] := by
  obtain ⟨hruns, hfault, hsender⟩ := hr
  have course := SameCourse.dropKey s n
  have hsend : (((s.dropKey n).leave n).sender c.head).isSome = true := by
    rw [show ((s.dropKey n).leave n).sender c.head = (s.dropKey n).sender c.head from rfl, s.dropKey_sender, hsender]
  have hruns' : ((s.dropKey n).leave n).runs = true := by rw [State.runs, State.leave_node, course.node, ← State.runs, hruns]
  have hfault' : ((s.dropKey n).leave n).node.state ≠ .fault := by rwa [State.leave_node, course.node]
  rw [State.complete_eq s n o hc, State.reply_out, if_pos ⟨hsend, hruns', hfault'⟩, State.leave_out, s.dropKey_out, State.row,
    State.leave_clock, course.clock, ← State.row]

theorem SameCourse.leave (s : State) (n : Nat) : SameCourse s (s.leave n) := ⟨rfl, rfl, rfl, rfl, rfl, rfl⟩

theorem SameCourse.complete (s : State) (n : Nat) (o : Outcome) : SameCourse s (s.complete n o) := by
  unfold State.complete
  split
  · exact .refl s
  · exact ((SameCourse.dropKey s n).trans (.leave _ n)).trans (OnlyOut.reply _ _ _ _).sameCourse

/-! ## Being decided -/

/-- A scheduled command without an outcome takes the one it is given (R49). -/
theorem State.decide_cmd_self {s : State} {n : Nat} {c : Cmd} (o : Outcome) (hc : s.cmd n = some c) (hr : c.result = none)
    (hcls : c.cls ≠ .l8) : (s.decide n o).cmd n = some { c with key := none, result := some o, stage := .sent } := by
  rw [State.decide_scheduled s n o hc hr hcls]
  show ((s.dropKey n).setCmd n fun c => { c with result := some o, stage := .sent }).cmd n = _
  rw [State.cmd_setCmd, if_pos rfl, State.dropKey_cmd, if_pos rfl, hc]
  rfl

/-- No other command is touched. -/
theorem State.decide_cmd_ne (s : State) {n m : Nat} (o : Outcome) (h : m ≠ n) : (s.decide n o).cmd m = s.cmd m := by
  cases hc : s.cmd n with
  | none => simp [State.decide, hc]
  | some c =>
    cases hr : c.result with
    | some x => rw [State.decide_decided s n o hc (by simp [hr])]
    | none =>
      by_cases hcls : c.cls = .l8
      · rw [State.decide_l8 s n o hc hr hcls, State.complete_cmd, if_neg h]
      · rw [State.decide_scheduled s n o hc hr hcls]
        show ((s.dropKey n).setCmd n _).cmd m = _
        rw [State.cmd_setCmd, if_neg h, State.dropKey_cmd, if_neg h]

theorem SameCourse.decide (s : State) (n : Nat) (o : Outcome) : SameCourse s (s.decide n o) := by
  unfold State.decide
  split
  · exact .refl s
  · split
    · exact .refl s
    · split
      · exact SameCourse.complete s n o
      · exact (SameCourse.dropKey s n).trans ⟨rfl, rfl, rfl, rfl, rfl, rfl⟩

/-! ## An APPEND that fails, and those behind it (R199) -/

/-- Decide a command, where it is in flight, with an outcome for its header. -/
def State.decideFor (s : State) (n : Nat) (o : Head → Outcome) : State :=
  match s.cmd n with
  | some c => s.decide n (o c.head)
  | none => s

/-- The jobs of an APPEND and of those behind it are dropped, and those behind it are decided. -/
theorem State.abandonAppend_cases (s : State) (n : Nat) (o : Head → Outcome) : s.abandonAppend n o = s ∨
    ∃ js later : List AppendJob, s.abandonAppend n o = later.foldl (fun s b => s.decideFor b.cmd o) (s.dropJobs js) := by
  unfold State.abandonAppend
  split
  · exact .inl rfl
  · rename_i a _
    exact .inr ⟨a :: s.laterAppends a, s.laterAppends a, rfl⟩

theorem SameCourse.decideFor (s : State) (n : Nat) (o : Head → Outcome) : SameCourse s (s.decideFor n o) := by
  unfold State.decideFor
  split
  · exact SameCourse.decide _ _ _
  · exact .refl s

theorem SameCourse.abandonAppend (s : State) (n : Nat) (o : Head → Outcome) : SameCourse s (s.abandonAppend n o) := by
  obtain h | ⟨js, later, h⟩ := s.abandonAppend_cases n o
  · rw [h]
    exact .refl s
  · rw [h]
    exact (SameRun.dropJobs s js).toSameCourse.trans (SameCourse.foldl _ (fun s _ => SameCourse.decideFor s _ _) _ _)

/-! ## What becomes of one command while others are decided -/

/-- The scheduled command `n` with header `h` is in flight without an outcome. -/
def Undecided (s : State) (n : Nat) (h : Head) : Prop :=
  ∃ c, s.cmd n = some c ∧ c.head = h ∧ c.cls ≠ .l8 ∧ c.result = none

/-- It is without an outcome, or has the one that `o` gives its header. -/
def Takes (o : Head → Outcome) (s : State) (n : Nat) (h : Head) : Prop := Undecided s n h ∨ Decided s n (o h)

variable {s t : State} {n k : Nat} {h : Head} {o : Head → Outcome} {x : Outcome}

theorem SameRun.decided (r : SameRun s t) (d : Decided s n x) : Decided t n x := by
  obtain ⟨c, hc, hres, hst⟩ := d
  obtain ⟨m, hm, hf⟩ := r.cmd hc
  exact ⟨m, hm, (congrArg Cmd.result hf).trans hres, (congrArg Cmd.stage hf).trans hst⟩

theorem SameRun.undecided (r : SameRun s t) (d : Undecided s n h) : Undecided t n h := by
  obtain ⟨c, hc, hh, hcls, hres⟩ := d
  obtain ⟨m, hm, hf⟩ := r.cmd hc
  have hcls' : m.cls = c.cls := (congrArg Cmd.cls hf :)
  exact ⟨m, hm, (congrArg Cmd.head hf).trans hh, hcls' ▸ hcls, (congrArg Cmd.result hf).trans hres⟩

/-- The first decision stands, whatever is decided after it. -/
theorem decided_decide (d : Decided s n x) (k : Nat) (y : Outcome) : Decided (s.decide k y) n x := by
  obtain ⟨c, hc, hres, hst⟩ := d
  by_cases e : n = k
  · subst e
    rw [State.decide_decided s n y hc (by simp [hres])]
    exact ⟨c, hc, hres, hst⟩
  · exact ⟨c, (s.decide_cmd_ne y e).trans hc, hres, hst⟩

/-- The decision of a command that has none gives it that outcome. -/
theorem Undecided.decide_self (d : Undecided s n h) (y : Outcome) : Decided (s.decide n y) n y := by
  obtain ⟨c, hc, _, hcls, hres⟩ := d
  exact ⟨_, State.decide_cmd_self y hc hres hcls, rfl, rfl⟩

theorem Undecided.decide_ne (d : Undecided s n h) (hk : n ≠ k) (y : Outcome) : Undecided (s.decide k y) n h := by
  obtain ⟨c, hc, hrest⟩ := d
  exact ⟨c, (s.decide_cmd_ne y hk).trans hc, hrest⟩

theorem decided_decideFor (d : Decided s n x) (k : Nat) (o : Head → Outcome) : Decided (s.decideFor k o) n x := by
  unfold State.decideFor
  split
  · exact decided_decide d _ _
  · exact d

theorem Takes.decideFor (d : Takes o s n h) (k : Nat) : Takes o (s.decideFor k o) n h := by
  obtain u | d := d
  · obtain ⟨c, hc, hh, hrest⟩ := u
    by_cases e : n = k
    · subst e
      simp only [State.decideFor, hc, hh]
      exact .inr (Undecided.decide_self ⟨c, hc, hh, hrest⟩ _)
    · unfold State.decideFor
      split
      · exact .inl (Undecided.decide_ne ⟨c, hc, hh, hrest⟩ e _)
      · exact .inl ⟨c, hc, hh, hrest⟩
  · exact .inr (decided_decideFor d k o)

/-- What is kept by every step of a fold is kept by the fold. -/
theorem foldl_keeps {α : Type} {P : State → Prop} {f : State → α → State} (hf : ∀ s x, P s → P (f s x)) (l : List α) {s : State}
    (h : P s) : P (l.foldl f s) := by
  induction l generalizing s with
  | nil => exact h
  | cons x l ih => exact ih (hf s x h)

theorem decided_abandonAppend (d : Decided s n x) (k : Nat) (o : Head → Outcome) : Decided (s.abandonAppend k o) n x := by
  obtain e | ⟨js, later, e⟩ := s.abandonAppend_cases k o
  · rwa [e]
  · rw [e]
    exact foldl_keeps (P := (Decided · n x)) (fun _ _ d => decided_decideFor d _ _) _ ((SameRun.dropJobs s js).decided d)

theorem Takes.abandonAppend (d : Takes o s n h) (k : Nat) : Takes o (s.abandonAppend k o) n h := by
  obtain e | ⟨js, later, e⟩ := s.abandonAppend_cases k o
  · rwa [e]
  · rw [e]
    refine foldl_keeps (P := (Takes o · n h)) (fun _ _ d => d.decideFor _) _ ?_
    exact d.imp (SameRun.dropJobs s js).undecided (SameRun.dropJobs s js).decided

/-! ## Deadlines (R49) -/

/-- One command of a deadline: where it passes the test, it and the APPENDs behind it are LATE. -/
def State.lateOne (cause : Cause) (p : Cmd → Bool) (s : State) (x : Nat × Cmd) : State :=
  if x.2.result.isNone && p x.2 then
    (s.abandonAppend x.1 fun h => Outcome.tooLate h cause).decide x.1 (Outcome.tooLate x.2.head cause)
  else s

theorem State.lateAll_eq (s : State) (cause : Cause) (p : Cmd → Bool) :
    s.lateAll cause p = s.work.cmds.foldl (State.lateOne cause p) s := rfl

theorem SameCourse.lateOne (cause : Cause) (p : Cmd → Bool) (s : State) (x : Nat × Cmd) :
    SameCourse s (s.lateOne cause p x) := by
  unfold State.lateOne
  split
  · exact (SameCourse.abandonAppend _ _ _).trans (SameCourse.decide _ _ _)
  · exact .refl s

theorem decided_lateOne (d : Decided s n x) (cause : Cause) (p : Cmd → Bool) (y : Nat × Cmd) :
    Decided (s.lateOne cause p y) n x := by
  unfold State.lateOne
  split
  · exact decided_decide (decided_abandonAppend d _ _) _ _
  · exact d

/-- A command that is not yet decided, or decided so, stays so while another is made LATE with the same cause. -/
theorem Takes.lateOne_ne {cause : Cause} (d : Takes (Outcome.tooLate · cause) s n h) (p : Cmd → Bool) {y : Nat × Cmd}
    (hy : n ≠ y.1) : Takes (Outcome.tooLate · cause) (s.lateOne cause p y) n h := by
  unfold State.lateOne
  split
  · exact (d.abandonAppend y.1).imp (·.decide_ne hy _) (decided_decide · _ _)
  · exact d

/-- A command that passes the test is LATE with the cause. -/
theorem Takes.lateOne_self {cause : Cause} {p : Cmd → Bool} {c : Cmd} (d : Takes (Outcome.tooLate · cause) s n c.head)
    (hres : c.result = none) (hp : p c = true) : Decided (s.lateOne cause p (n, c)) n (Outcome.tooLate c.head cause) := by
  rw [State.lateOne, if_pos (by simp [hres, hp])]
  obtain u | d := d.abandonAppend n
  · exact u.decide_self _
  · exact decided_decide d _ _

/-- The commands of a list that holds a command once make it LATE where it passes the test. -/
theorem Takes.lateAll {cause : Cause} {p : Cmd → Bool} {c : Cmd} (hres : c.result = none) (hp : p c = true) (l : List (Nat × Cmd))
    (hl : (n, c) ∈ l) (hone : ∀ y ∈ l, y.1 = n → y.2 = c) :
    ∀ s, Takes (Outcome.tooLate · cause) s n c.head →
      Decided (l.foldl (State.lateOne cause p) s) n (Outcome.tooLate c.head cause) := by
  induction l with
  | nil => cases hl
  | cons y l ih =>
    intro s d
    by_cases hy : n = y.1
    · obtain rfl : y = (n, c) := Prod.ext hy.symm (hone y (by simp) hy.symm)
      exact foldl_keeps (P := (Decided · n _)) (fun _ z d => decided_lateOne d cause p z) l (d.lateOne_self hres hp)
    · refine ih ((List.mem_cons.mp hl).resolve_left fun e => hy (congrArg Prod.fst e)) (fun z hz => hone z (by simp [hz])) _ ?_
      exact d.lateOne_ne p hy

/-- R49: a scheduled command without an outcome that passes the test of a deadline is LATE with its cause. -/
theorem State.lateAll_decides {c : Cmd} (hwf : Tbl.wf s.work.cmds = true) (hc : s.cmd n = some c) (hres : c.result = none)
    (hcls : c.cls ≠ .l8) (cause : Cause) {p : Cmd → Bool} (hp : p c = true) :
    Decided (s.lateAll cause p) n (Outcome.tooLate c.head cause) := by
  refine Takes.lateAll hres hp _ (Tbl.mem_of_get hc) (fun y hy e => ?_) s (.inl ⟨c, hc, rfl, hcls, hres⟩)
  have hy' : s.cmd y.1 = some y.2 := Tbl.get_of_mem hwf hy
  rw [e, hc] at hy'
  exact (Option.some_inj.mp hy').symm

/-! ## Commands not yet admitted -/

/-- What has been sent stays sent while commands not yet admitted complete. -/
theorem State.dropWaiting_sent {m : Sent} (f : Head → Outcome) (ws : List Waiting) (h : m ∈ s.out) :
    m ∈ (s.dropWaiting f ws).out := by
  refine foldl_keeps (P := (m ∈ State.out ·)) (fun s w hs => ?_) ws h
  split
  · rw [State.reply_out]
    split
    · exact List.mem_append_left _ hs
    · exact hs
  · exact hs

end Sys2Proof.Machine
end

section
/-! The obligations O19 and O20 (R42, R49, R51, R53, R195). -/

namespace Sys2Proof.Machine

/-- Settles O19: COMPLETION_SEND completes a decided command once its result is due. -/
theorem completionLeavesOnce : Obligations.CompletionLeavesOnce := by
  intro n ns c o s _ hc hres hst hreach
  have hsend : s.sendCompletion n ns =
      if o.status.good = true ∧ s.row < c.row + (if c.cls = .l3 then 4 else 2) then s else (s.tick ns).complete n o := by
    simp [State.sendCompletion, hc, hres, hst, Cmd.dueRow]
  refine ⟨fun hdue => ?_, fun hgood hearly => ?_⟩
  · have hnot : ¬ (o.status.good = true ∧ s.row < c.row + (if c.cls = .l3 then 4 else 2)) := by
      rintro ⟨hgood, hearly⟩
      exact hdue.elim (by simp [hgood]) (Nat.not_le.mpr hearly)
    rw [if_neg hnot] at hsend
    refine ⟨_, congrArg Host.Outcome.next hsend, ?_, fun x hx => ?_, ?_, ?_⟩
    · rw [State.complete_cmd, if_pos rfl]
    · rw [State.complete_cmd, if_neg hx]
      rfl
    · exact State.complete_out (s := s.tick ns) o hc hreach
    · exact (SameCourse.complete (s.tick ns) n o).mem
  · exact congrArg Host.Outcome.next (hsend.trans (if_pos ⟨hgood, hearly⟩))

/-- R53: an L8 command that has waited its 4,096 rows completes with LATE, cause AGE. -/
theorem l8AgeExpiry_completes {n : Nat} {c : Cmd} {s : State} (hc : s.cmd n = some c) (hq : n ∈ s.work.l8)
    (hage : c.row + 4096 ≤ s.row) (hreach : Reachable s c.head) :
    ∃ t, exec (.l8AgeExpiry n) s = .next t ∧ t.cmd n = none ∧
      Sent.completion c.head.qp c.head.srcNode c.head.srcQp c.head.tag c.opcode (s.row % 65536) (Outcome.tooLate c.head .age) ∈
        t.out := by
  refine ⟨_, rfl, ?_, ?_⟩
  all_goals simp only [State.expireAged, hc, ageLimit, if_neg (Nat.not_lt.mpr hage), List.contains_iff_mem.mpr hq, if_true]
  · rw [State.cmd, (OnlyOut.dropWaiting _ _ _).work]
    exact (State.complete_cmd s n _ n).trans (if_pos rfl)
  · refine State.dropWaiting_sent _ _ ?_
    show _ ∈ (s.complete n _).out
    rw [State.complete_out _ hc hreach]
    exact List.mem_append_right _ (List.mem_singleton.mpr rfl)

/-- Settles O20: each deadline makes LATE what has missed its checkpoint, and an aged L8 command completes. -/
theorem missedCheckpointsAreLate : Obligations.MissedCheckpointsAreLate := by
  intro n c s hcan hc hres
  have late (cause : Cause) {p : Cmd → Bool} (hcls : c.cls ≠ .l8) (hp : p c = true) :
      Decided ((s.tick 4095).lateAll cause p) n (Outcome.tooLate c.head cause) :=
    State.lateAll_decides (s := s.tick 4095) hcan.cmds hc hres hcls cause hp
  refine ⟨fun hcls hst hrow => ⟨_, rfl, late _ hcls ?_⟩, fun hcls hrow hown => ⟨_, rfl, late _ hcls ?_⟩,
    fun hcls hrow hsub => ⟨_, rfl, late _ (by simp [hcls]) ?_⟩, l8AgeExpiry_completes hc⟩
  · simp [hcls, hst, hrow]
  · simpa [hcls, State.row, and_assoc, or_assoc] using ⟨hrow, hown⟩
  · obtain ⟨u, hu, hnone⟩ := hsub
    refine Bool.and_eq_true_iff.mpr ⟨by simp [hcls, hrow], List.any_eq_true.mpr ⟨u, hu, ?_⟩⟩
    rw [hnone]

end Sys2Proof.Machine
end


section
/-! SUPPORT. Sub-commands, and the forming of items and tiles (R46, R48, R145, R174). -/

namespace Sys2Proof.Machine

/-! ## Sub-commands -/

variable {s : State} {n : Nat} {c : Cmd} {b : AttnBody}

/-- The sub-commands of a list go out, one after the other. -/
def State.sendSubs (s : State) (n : Nat) (c : Cmd) (b : AttnBody) (scheduled : Bool) (us : List SubCmd) : State :=
  us.foldl (fun s u => s.send (.subCommand (subMsg n c b u s.row scheduled))) s

theorem OnlyOut.sendSubs (s : State) (n : Nat) (c : Cmd) (b : AttnBody) (scheduled : Bool) (us : List SubCmd) :
    OnlyOut s (s.sendSubs n c b scheduled us) := OnlyOut.foldl _ (fun s _ => OnlyOut.send s _) us s

theorem State.forwardSubs_eq (scheduled : Bool) (hc : s.cmd n = some c) (hb : c.attn = some b) :
    s.forwardSubs n scheduled = (s.sendSubs n c b scheduled (c.subs.filter fun u => !u.isSent)).setCmd n fun c =>
      { c with subs := c.subs.map fun u => { u with isSent := true } } := by
  simp only [State.forwardSubs, hc, hb, State.sendSubs]

theorem State.forwardSubs_none (scheduled : Bool) (hc : s.cmd n = some c) (hb : c.attn = none) : s.forwardSubs n scheduled = s := by
  simp only [State.forwardSubs, hc, hb]

/-- Sending adds to what has been sent. -/
theorem State.send_mem_out {m x : Sent} (h : x ∈ s.out) : x ∈ (s.send m).out := by
  rw [State.send_out]
  split
  · exact List.mem_append_left _ h
  · exact h

/-- Where the node sends at all, each of the sub-commands has gone out, with ROW_TAG of the row. -/
theorem State.mem_sendSubs_out (scheduled : Bool) {us : List SubCmd} {u : SubCmd} (hu : u ∈ us) :
    ∀ {s : State}, s.runs = true → s.node.state ≠ .fault →
      Sent.subCommand (subMsg n c b u s.row scheduled) ∈ (s.sendSubs n c b scheduled us).out := by
  induction us with
  | nil => cases hu
  | cons v us ih =>
    intro s hr hf
    have hout := OnlyOut.send s (.subCommand (subMsg n c b v s.row scheduled))
    show _ ∈ ((s.send (.subCommand (subMsg n c b v s.row scheduled))).sendSubs n c b scheduled us).out
    obtain rfl | hu := List.mem_cons.mp hu
    · refine foldl_keeps (P := fun t => _ ∈ State.out t) (fun t _ h => State.send_mem_out h) us ?_
      rw [State.send_out, if_pos ⟨hr, hf⟩]
      exact List.mem_append_right _ (List.mem_singleton.mpr rfl)
    · have hrow : (s.send (.subCommand (subMsg n c b v s.row scheduled))).row = s.row := congrArg Clock.row hout.clock
      have h := ih hu (s := s.send (.subCommand (subMsg n c b v s.row scheduled)))
        (by rw [State.runs, hout.node, ← State.runs, hr]) (by rwa [hout.node])
      rwa [hrow] at h

/-- R46: a command's sub-commands go out in row n+1. -/
theorem l3Forward_sends (hc : s.cmd n = some c) (hb : c.attn = some b) (hcls : c.cls = .l3) (hst : c.stage = .walked)
    (hrow : c.row + 1 = s.row) :
    ∃ t m, exec (.l3Forward n) s = .next t ∧ t.cmd n = some m ∧ m.subs = c.subs.map (fun u => { u with isSent := true }) ∧
      t.mem = s.mem ∧ (s.runs = true → s.node.state ≠ .fault → ∀ u ∈ c.subs, u.isSent = false →
        ∃ x, Sent.subCommand x ∈ t.out ∧ x.cmd = n ∧ x.lender = u.lender ∧ x.level = u.level ∧ x.group = u.group ∧
          x.rowTag = s.row % 65536 ∧ x.scheduled = true ∧ x.opcode = c.opcode ∧ x.model = c.head.model ∧ x.handle = u.handle ∧
          x.body = { b with firstBlock := u.group * 2 ^ u.level, blockCount := 2 ^ u.level }) := by
  have hsent := OnlyOut.sendSubs s n c b true (c.subs.filter fun u => !u.isSent)
  have hfwd : s.forwardL3 n = s.forwardSubs n true := by simp [State.forwardL3, hc, hcls, hst, hrow]
  refine ⟨_, { c with subs := c.subs.map fun u => { u with isSent := true } },
    congrArg Host.Outcome.next (hfwd.trans (State.forwardSubs_eq true hc hb)), ?_, rfl, hsent.mem,
    fun hr hf u hu hun => ?_⟩
  · rw [State.cmd_setCmd, if_pos rfl, State.cmd, hsent.work, show Tbl.get s.work.cmds n = some c from hc]
    rfl
  · exact ⟨_, State.mem_sendSubs_out true (List.mem_filter.mpr ⟨hu, by simp [hun]⟩) hr hf, rfl, rfl, rfl, rfl, rfl, rfl, rfl,
      rfl, rfl, rfl⟩

/-- A sub-command to a lender's group that has gone out and is not answered. -/
def SubCmd.awaits (u : SubCmd) (lender level group : Nat) : Bool :=
  u.lender = lender && u.level = level && u.group = group && u.isSent && u.status.isNone

/-- A command once a lender has answered one of its sub-commands in full. -/
def Cmd.answered (b : AttnBody) (lender level group : Nat) (st : Status) (detail : Nat) (report : List Nat) (ps : List Partial)
    (c : Cmd) : Cmd :=
  { c with
    subs := c.subs.map fun u => if u.awaits lender level group then { u with status := some (st, detail), report := report } else u
    parts := c.parts ++ lenderParts b level group ps }

/-- A full answer to a sub-command that awaits it is taken, by the end of row n+3 for an L3 command. -/
theorem State.lenderAnswer_full {lender level group : Nat} {st : Status} (detail : Nat) (report : List Nat) {ps : List Partial}
    (hc : s.cmd n = some c) (hb : c.attn = some b) (hany : c.subs.any (·.awaits lender level group) = true)
    (hrow : c.cls = .l3 → s.row ≤ c.row + 3) (hgood : st.good = true) (hlen : ps.length = b.pairs.length) :
    s.lenderAnswer n lender level group st detail report ps =
      s.setCmd n (Cmd.answered b lender level group st detail report ps) := by
  have hintime : ¬ (c.cls = .l3 ∧ c.row + 3 < s.row) := fun h => Nat.not_le.mpr h.2 (hrow h.1)
  have htaken : ¬ ((!c.subs.any (·.awaits lender level group)) = true ∨ (c.cls = .l3 ∧ c.row + 3 < s.row)) := by
    simp only [hany, Bool.not_true, Bool.false_eq_true, hintime, or_self, not_false_eq_true]
  simp only [State.lenderAnswer, hc, hb, hgood, hlen, decide_true, Bool.and_self, if_true]
  exact if_neg htaken

/-- R48, R117: the partials of a lender's answer stand at its group of the tree. -/
theorem lenderAnswer_takes {u : SubCmd} {st : Status} (detail : Nat) (report : List Nat) {ps : List Partial}
    (hc : s.cmd n = some c) (hb : c.attn = some b) (hu : u ∈ c.subs) (hsent : u.isSent = true) (hopen : u.status = none)
    (hrow : c.cls = .l3 → s.row ≤ c.row + 3) (hgood : st.good = true) (hlen : ps.length = b.pairs.length) :
    ∃ t m, exec (.lenderPartialsReceive n u.lender u.level u.group st detail report ps) s = .next t ∧ t.cmd n = some m ∧
      m.parts = c.parts ++ lenderParts b u.level u.group ps ∧ m.visits = c.visits ∧ m.result = c.result ∧
      { u with status := some (st, detail), report := report } ∈ m.subs ∧ t.mem = s.mem ∧ t.out = s.out := by
  have hawaits : u.awaits u.lender u.level u.group = true := by simp [SubCmd.awaits, hsent, hopen]
  have htake := s.lenderAnswer_full detail report hc hb (List.any_eq_true.mpr ⟨u, hu, hawaits⟩) hrow hgood hlen
  refine ⟨_, c.answered b u.lender u.level u.group st detail report ps, congrArg Host.Outcome.next htake, ?_, rfl, rfl, rfl, ?_,
    rfl, rfl⟩
  · rw [State.cmd_setCmd, if_pos rfl, hc]
    rfl
  · exact List.mem_map.mpr ⟨u, hu, if_pos hawaits⟩

/-! ## Walks -/

theorem OnlyOut.sampleWalk (s : State) (w : Nat) : OnlyOut s (s.sampleWalk w) := (OnlyOut.free s).trans (OnlyOut.sample _ _ _ _)

/-- R76: a walk that ends leaves its command walked. -/
theorem walkComplete_walked (hc : s.cmd n = some c) (hst : c.stage = .walking) (hw : s.walkerStopped c.seqSlot = false) :
    ∃ t m, exec (.walkComplete n) s = .next t ∧ t.cmd n = some m ∧ m.stage = .walked ∧ m.visits = c.visits ∧
      m.result = c.result ∧ HoldsSame s t := by
  have hdone : s.walkDone n = (s.setCmd n fun c => { c with stage := .walked }).sampleWalk (s.walkerOf c.seqSlot) := by
    simp [State.walkDone, hc, hst, hw]
  have hout := OnlyOut.sampleWalk (s.setCmd n fun c => { c with stage := .walked }) (s.walkerOf c.seqSlot)
  refine ⟨_, { c with stage := .walked }, congrArg Host.Outcome.next hdone, ?_, rfl, rfl, rfl,
    holdsSame_trans ⟨rfl, rfl, rfl, rfl, rfl, rfl⟩ hout.holdsSame⟩
  rw [State.cmd, hout.work, ← State.cmd, State.cmd_setCmd, if_pos rfl, hc]
  rfl

/-! ## Items and tiles -/

/-- `t` is `s` but for its items. -/
def OnlyItems (s t : State) : Prop := ∃ items, t = { s with work := { s.work with items := items } }

theorem OnlyItems.trans {s t u : State} (a : OnlyItems s t) (b : OnlyItems t u) : OnlyItems s u := by
  obtain ⟨i, rfl⟩ := a
  obtain ⟨j, rfl⟩ := b
  exact ⟨j, rfl⟩

theorem OnlyItems.foldl {α : Type} (f : State → α → State) (h : ∀ s x, OnlyItems s (f s x)) (l : List α) (s : State) :
    OnlyItems s (l.foldl f s) := foldl_keeps (P := OnlyItems s) (fun t x ht => ht.trans (h t x)) l ⟨s.work.items, rfl⟩

/-- Forming items changes the items only. -/
theorem OnlyItems.formItems (s : State) (n : Nat) : OnlyItems s (s.formItems n) := by
  unfold State.formItems
  split
  · exact ⟨_, rfl⟩
  · dsimp only
    split
    · exact ⟨_, rfl⟩
    · exact foldl _ (fun s _ => foldl _ (fun s _ => ⟨_, rfl⟩) _ s) _ s

/-- Forming tiles changes the tiles that are due only. -/
theorem State.formTiles_eq (s : State) (n : Nat) :
    ∃ due, s.formTiles n = { s with arrays := { s.arrays with due := due } } := by
  unfold State.formTiles
  split
  · exact ⟨_, rfl⟩
  · split
    · exact ⟨_, rfl⟩
    · exact ⟨_, rfl⟩

/-! ## The start of an L8 command -/

/-- Sending a command's sub-commands leaves the L8 queue, memory and the cards. -/
theorem State.forwardSubs_keeps (s : State) (n : Nat) (scheduled : Bool) :
    (s.forwardSubs n scheduled).work.l8 = s.work.l8 ∧ (s.forwardSubs n scheduled).mem = s.mem ∧
      (s.forwardSubs n scheduled).cat.cards = s.cat.cards := by
  cases hc : s.cmd n with
  | none => simp [State.forwardSubs, hc]
  | some c =>
    cases hb : c.attn with
    | none => simp [State.forwardSubs_none scheduled hc hb]
    | some b =>
      rw [State.forwardSubs_eq scheduled hc hb]
      have h := OnlyOut.sendSubs s n c b scheduled (c.subs.filter fun u => !u.isSent)
      exact ⟨(congrArg Work.l8 h.work :), h.mem, (congrArg Cat.cards h.cat :)⟩

/-- Starting an L8 command takes it out of the queue, and leaves memory and the cards. -/
theorem State.startL8_keeps (hc : s.cmd n = some c) :
    (s.startL8 n).work.l8 = s.work.l8.filter (· ≠ n) ∧ (s.startL8 n).mem = s.mem ∧ (s.startL8 n).cat.cards = s.cat.cards := by
  have h := State.forwardSubs_keeps { s with work := { s.work with l8 := s.work.l8.filter (· ≠ n) } } n false
  simp only [State.startL8, hc]
  split
  · obtain ⟨items, e⟩ := OnlyItems.formItems
      (State.forwardSubs { s with work := { s.work with l8 := s.work.l8.filter (· ≠ n) } } n false) n
    rw [e]
    exact h
  · split
    · obtain ⟨due, e⟩ := State.formTiles_eq
        (State.forwardSubs { s with work := { s.work with l8 := s.work.l8.filter (· ≠ n) } } n false) n
      rw [e]
      exact h
    · exact h

/-- R52: the first L8 command, its walk done, starts in a row whose execution entry has L8_OPEN. -/
theorem l8CommandStart_starts {e : RowEntry} {rest : List Nat} (ns : Nat) (hc : s.cmd n = some c) (he : s.pat.exec = some e)
    (hopen : e.l8Open = true) (hq : s.work.l8 = n :: rest) (hn : n ∉ rest) (hw : s.work.waiting = []) (hraws : s.work.raws = [])
    (hd : c.deferred = none) (hst : c.stage = .walked) :
    ∃ t, exec (.l8CommandStart ns) s = .next t ∧ t.work.l8 = rest ∧ t.mem = s.mem ∧ t.cat.cards = s.cat.cards := by
  have hstart : s.startNextL8 ns = (s.tick ns).startL8 n := by
    have hc' : (s.tick ns).cmd n = some c := hc
    simp [State.startNextL8, State.openFences, State.startFront, hw, hq, hc', hd, hraws, he, hopen, hst]
  obtain ⟨hl8, hmem, hcards⟩ := State.startL8_keeps (s := s.tick ns) hc
  refine ⟨_, congrArg Host.Outcome.next hstart, hl8.trans ?_, hmem, hcards⟩
  rw [State.tick_work, hq, List.filter_cons_of_neg (by simp), List.filter_eq_self.mpr]
  intro x hx
  simpa using fun e : x = n => hn (e ▸ hx)

end Sys2Proof.Machine
end

section
/-! The obligation O21 (R46, R48, R52, R76). -/

namespace Sys2Proof.Machine

/-- Settles O21: sub-commands, answers, the ends of walks and the starts of L8 commands. -/
theorem commandsProgress : Obligations.CommandsProgress := by
  intro n c s _ hc
  exact ⟨fun b hb hcls hst hrow => l3Forward_sends hc hb hcls hst hrow,
    fun b u st detail report ps hb hu hsent hopen hrow hgood hlen =>
      lenderAnswer_takes detail report hc hb hu hsent hopen hrow hgood hlen,
    walkComplete_walked hc,
    fun e rest ns he hopen hq hn hw hraws hd hst => l8CommandStart_starts ns hc he hopen hq hn hw hraws hd hst⟩

end Sys2Proof.Machine
end

section
/-! SUPPORT. Switches of patterns and of gate lists: what an arm, a cancel, the switch and a write of the pending bank do (R54, R56,
R57, R347, R423). -/

namespace Sys2Proof.Machine

variable {s : State} {path : Path}

/-! ## Results -/

/-- An OP written with an operand is read back, and so is the operand. -/
theorem bits_op_operand (w : Word) {op hi v : Nat} (ho : op < 4) (hhi : hi < 62) (hv : v < 2 ^ (hi + 1)) :
    bits (setBits (setBits w 63 62 op) hi 0 v) 63 62 = op ∧ bits (setBits (setBits w 63 62 op) hi 0 v) hi 0 = v := by
  constructor
  · rw [bits_setBits_disjoint _ _ (Nat.zero_le _) (by omega) (.inr hhi), bits_setBits_self _ _ (by decide) (by decide)]
    exact Nat.mod_eq_of_lt ho
  · rw [bits_setBits_self _ _ (Nat.zero_le _) (by omega)]
    exact Nat.mod_eq_of_lt hv

/-- An arm that replaces no switch that is too near succeeds 16 rows ahead with a list that passes its checks. -/
theorem armResult_ok {row target : Nat} {armed : Option Nat} {ok : Bool} (hfar : row + 16 ≤ target) (hok : ok = true)
    (harmed : ∀ a, armed = some a → row + 16 ≤ a) : armResult row armed target ok = 1 := by
  cases armed with
  | none => simp [armResult, Nat.not_lt.mpr hfar, hok]
  | some a => simp [armResult, Nat.not_lt.mpr hfar, Nat.not_lt.mpr (harmed a rfl), hok]

/-- An arm for a row that is too near is refused. -/
theorem armResult_near {row target : Nat} (ok : Bool) (hnear : target < row + 16) : armResult row none target ok = 3 := by
  simp [armResult, hnear]

/-- An arm of what does not pass its checks is refused. -/
theorem armResult_bad {row target : Nat} (hfar : row + 16 ≤ target) : armResult row none target false = 4 := by
  simp [armResult, Nat.not_lt.mpr hfar]

/-- A switch that is too near is not replaced. -/
theorem armResult_fixed {row a : Nat} (target : Nat) (ok : Bool) (hnear : a < row + 16) : armResult row (some a) target ok = 5 := by
  simp [armResult, hnear]

/-- A switch that is too near is not cancelled. -/
theorem cancelResult_fixed {row a : Nat} (hnear : a < row + 16) : cancelResult row (some a) = 5 := by
  simp [cancelResult, hnear]

theorem cancelResult_ok {row a : Nat} (hfar : row + 16 ≤ a) : cancelResult row (some a) = 0 := by
  simp [cancelResult, Nat.not_lt.mpr hfar]

/-! ## The pattern -/

@[simp] theorem State.putFields_pat (s : State) (b o : Nat) (v : Word) : (s.putFields b o v).pat = s.pat :=
  State.setStored_pat _ _ _ _

@[simp] theorem State.putFields_tm (s : State) (b o : Nat) (v : Word) : (s.putFields b o v).tm = s.tm :=
  State.setStored_tm _ _ _ _

@[simp] theorem State.putFields_row (s : State) (b o : Nat) (v : Word) : (s.putFields b o v).row = s.row :=
  congrArg Clock.row (State.setStored_clock _ _ _ _)

/-- The checks of a bank read no register. -/
@[simp] theorem State.putFields_bankOk (s : State) (b o : Nat) (v : Word) (r : Nat) :
    (s.putFields b o v).bankOk r = s.bankOk r := by
  have h (w : Word) : (s.setStored b o w).bankOk r = s.bankOk r := rfl
  exact h _

theorem State.mark_fld_patSwitch (s : State) : (s.mark 0x070 7).fld rPatSwitchResult = s.fld rPatSwitchResult :=
  congrArg (bits · 61 59) (State.stored_mark_ne s 0x070 7 0x070 0x030 (by decide))

/-- Pattern and node state are no registers. -/
theorem State.fld_with_pat_node (s : State) (p : Pat) (n : NodeSt) (f : Field) :
    ({ s with pat := p, node := n } : State).fld f = s.fld f := rfl

theorem State.fld_with_pat (s : State) (p : Pat) (f : Field) : ({ s with pat := p } : State).fld f = s.fld f := rfl

/-- RESULT of PAT_SWITCH shows what is put there. -/
theorem State.fld_patSwitch_setFld (s : State) {r : Nat} (hr : r < 8) : (s.setFld rPatSwitchResult r).fld rPatSwitchResult = r :=
  (State.fld_setFld_self s rPatSwitchResult r (by decide) (by decide)).trans (Nat.mod_eq_of_lt hr)

@[simp] theorem State.measureBank_pat (s : State) (r : Nat) : (s.measureBank r).pat = s.pat := rfl
@[simp] theorem State.measureBank_fld (s : State) (r : Nat) (f : Field) : (s.measureBank r).fld f = s.fld f := rfl
@[simp] theorem State.measureBank_mem (s : State) (r : Nat) : (s.measureBank r).mem = s.mem := rfl

/-- An accepted arm. -/
theorem State.armPattern_accepted {target : Nat} (h : armResult s.row s.pat.armed target (s.bankOk target) = 1) :
    (s.armPattern target).pat = { s.pat with armed := some target } ∧ (s.armPattern target).fld rPatSwitchResult = 1 ∧
      (s.armPattern target).mem = s.mem := by
  simp only [State.armPattern, h, if_true]
  refine ⟨by simp, ?_, by simp⟩
  rw [State.measureBank_fld, State.fld_with_pat_node]
  exact s.fld_patSwitch_setFld (by decide)

/-- An arm that is refused. -/
theorem State.armPattern_refused {target r : Nat} (h : armResult s.row s.pat.armed target (s.bankOk target) = r) (h1 : r ≠ 1)
    (h8 : r < 8) : (s.armPattern target).pat = s.pat ∧ (s.armPattern target).fld rPatSwitchResult = r ∧
      (s.armPattern target).mem = s.mem := by
  simp only [State.armPattern, h, if_neg h1]
  refine ⟨by simp, ?_, by simp⟩
  rw [State.mark_fld_patSwitch]
  exact s.fld_patSwitch_setFld h8

/-- A cancel that is accepted. -/
theorem State.cancelPattern_accepted (h : cancelResult s.row s.pat.armed = 0) :
    s.cancelPattern.pat = { s.pat with armed := none } ∧ s.cancelPattern.fld rPatSwitchResult = 0 ∧
      s.cancelPattern.mem = s.mem := by
  simp only [State.cancelPattern, h, if_neg (show ¬ 0 = 5 by decide)]
  refine ⟨by simp, ?_, by simp⟩
  rw [State.fld_with_pat]
  exact s.fld_patSwitch_setFld (by decide)

/-- A cancel that comes too late. -/
theorem State.cancelPattern_refused (h : cancelResult s.row s.pat.armed = 5) :
    s.cancelPattern.pat = s.pat ∧ s.cancelPattern.fld rPatSwitchResult = 5 := by
  simp only [State.cancelPattern, h, if_true]
  refine ⟨by simp, ?_⟩
  rw [State.mark_fld_patSwitch]
  exact s.fld_patSwitch_setFld (by decide)

/-- PAT_SWITCH takes what is written at once, and then does its operation. -/
theorem State.regWrite_patSwitch (v : Word) (h : s.reaches path true 0x070 0x030 = true) :
    s.regWrite path 0x070 0x030 v = (s.putFields 0x070 0x030 v).operate path 0x070 0x030 v :=
  State.regWrite_accepted v (by decide) h (.inl (by decide)) rfl

/-- The operations of PAT_SWITCH (R54). -/
theorem State.operate_patSwitch (v : Word) : s.operate path 0x070 0x030 v =
    if bits v 63 62 = 1 then s.armPattern (bits v 47 0) else if bits v 63 62 = 2 then s.cancelPattern else s := rfl

/-- An arm is done on the state that holds the written register. -/
theorem exec_patSwitchArm {row : Nat} (h : s.reaches path true 0x070 0x030 = true) (hrow : row < 2 ^ 48) :
    ∃ v, exec (.patSwitchArm path row) s = .next ((s.putFields 0x070 0x030 v).armPattern row) := by
  obtain ⟨hop, hv⟩ := bits_op_operand (s.written 0x070 0x030) (show 1 < 4 by decide) (show 47 < 62 by decide) hrow
  refine ⟨setBits (s.opWord 0x070 0x030 63 62 1) 47 0 row, congrArg Host.Outcome.next ((State.regWrite_patSwitch _ h).trans ?_)⟩
  rw [State.operate_patSwitch, State.opWord, hop, hv, if_pos rfl]

/-- So is a cancel. -/
theorem exec_patSwitchCancel (h : s.reaches path true 0x070 0x030 = true) :
    ∃ v, exec (.patSwitchCancel path) s = .next (s.putFields 0x070 0x030 v).cancelPattern := by
  refine ⟨s.opWord 0x070 0x030 63 62 2, congrArg Host.Outcome.next ((State.regWrite_patSwitch _ h).trans ?_)⟩
  rw [State.operate_patSwitch, State.opWord, bits_setBits_self _ _ (by decide) (by decide)]
  rfl

/-- R56: a switch whose row has come is made, and another waits. -/
theorem State.switchPattern_waits {r : Nat} (ha : s.pat.armed = some r) (h : s.row < r) : s.switchPattern = s := by
  simp [State.switchPattern, ha, h]

theorem State.switchPattern_made {r : Nat} (ha : s.pat.armed = some r) (hst : s.sync.stepped = false) (h : r ≤ s.row) :
    s.switchPattern = ({ s with pat := { s.pat with
      active := s.pat.pending, pending := s.pat.active, armed := none, protect := some (r + 2),
      entry := patEntry s.pat.pending s.row } } : State).setFld rPatSwitchResult 2 := by
  simp [State.switchPattern, ha, hst, Nat.not_lt.mpr h]

/-! ## The pattern window (R57, R423) -/

/-- A write into the pattern window that is reached goes to the pending bank. -/
theorem State.regWrite_patWindow {x : Nat} (v : Word) (hx : x < 0x80000) (h8 : x % 8 = 0)
    (h : s.reaches path true 0x070 (0x80000 + x) = true) :
    s.regWrite path 0x070 (0x80000 + x) v = (s.writePattern 0x070 (0x80000 + x) v).2 := by
  have h8' : (0x80000 + x) % 8 = 0 := by omega
  have hin : ¬ 0x100000 ≤ 0x80000 + x := by omega
  have hwin : inPatWindow 0x070 (0x80000 + x) = true := by
    simp [inPatWindow]
    omega
  simp [State.regWrite, State.writeReg, h, h8', hin, hwin, inRing, gateWindow]

/-- A bank that is not protected takes the write. -/
theorem State.writePattern_taken {o a : Nat} (v : Word) (ha : s.patByte o = some a) (hb : s.fld rPatWindowBank ≠ 1)
    (harm : s.pat.armed = none) (hprot : s.pat.protect = none) (b : Nat) :
    (s.writePattern b o v).2 = { s with pat := { s.pat with pending := Mem.write s.pat.pending a (leBytes 8 v.toNat) } } := by
  simp [State.writePattern, ha, hb, Pat.locked, harm, hprot]

/-- A protected one does not. -/
theorem State.writePattern_protected {o a : Nat} (v : Word) (ha : s.patByte o = some a)
    (h : s.pat.armed ≠ none ∨ s.pat.protect ≠ none) (b : Nat) : (s.writePattern b o v).2 = s.markAccess b 1 o := by
  have hl : s.pat.locked = true := by simpa [Pat.locked, Option.isSome_iff_ne_none] using h
  simp [State.writePattern, ha, hl, State.refuseProtected]

/-! ## Gate lists -/

/-- A gate list's switch register is plain. -/
theorem plainReg_gateSwitch {p : Nat} (hp : p < 8) : plainReg 0x040 (0x10000 * (p + 1)) = true := by
  have h : ∀ k < 8, plainReg 0x040 (0x10000 * (k + 1)) = true := by decide
  exact h p hp

/-- GATE_SWITCH takes what is written at once, and then does its operation (R347). -/
theorem State.regWrite_gateSwitch {p : Nat} (v : Word) (hp : p < 8)
    (h : s.reaches path true 0x040 (0x10000 * (p + 1)) = true) :
    s.regWrite path 0x040 (0x10000 * (p + 1)) v =
      if bits v 63 62 = 1 then (s.putFields 0x040 (0x10000 * (p + 1)) v).armGate p (bits v 47 0)
      else if bits v 63 62 = 2 then (s.putFields 0x040 (0x10000 * (p + 1)) v).cancelGate p
      else s.putFields 0x040 (0x10000 * (p + 1)) v := by
  have hput : s.putWord 0x040 (0x10000 * (p + 1)) v = s.putFields 0x040 (0x10000 * (p + 1)) v := by
    simp [State.putWord, show ¬ 0xC0000 ≤ 0x10000 * (p + 1) by omega]
  have hnext : nextRowWrite 0x040 (0x10000 * (p + 1)) = false := by
    simp [nextRowWrite, blockAt]
    omega
  have hin : ¬ (0x10000 * (p + 1) < 0x10000 ∨ 0x90000 ≤ 0x10000 * (p + 1) ∨ 0x10000 * (p + 1) % 0x10000 ≠ 0) := by omega
  have hport : 0x10000 * (p + 1) / 0x10000 - 1 = p := by omega
  rw [State.regWrite_accepted v (plainReg_gateSwitch hp) h (.inl (by simp [keeperOnly, blockAt])) (by simp [State.protectedNow, blockAt])]
  simp only [State.acceptWrite, hnext, hput, Bool.false_eq_true, if_false]
  have hop (t : State) : t.operate path 0x040 (0x10000 * (p + 1)) v =
      if 0x10000 * (p + 1) < 0x10000 ∨ 0x90000 ≤ 0x10000 * (p + 1) ∨ 0x10000 * (p + 1) % 0x10000 ≠ 0 then t
      else if bits v 63 62 = 1 then t.armGate (0x10000 * (p + 1) / 0x10000 - 1) (bits v 47 0)
      else if bits v 63 62 = 2 then t.cancelGate (0x10000 * (p + 1) / 0x10000 - 1) else t := rfl
  rw [hop, if_neg hin, hport]

/-- An arm is done on the state that holds the written register. -/
theorem exec_gateSwitchArm {p row : Nat} (hp : p < 8) (h : s.reaches path true 0x040 (0x10000 * (p + 1)) = true)
    (hrow : row < 2 ^ 48) :
    ∃ v, exec (.gateSwitchArm path p row) s = .next ((s.putFields 0x040 (0x10000 * (p + 1)) v).armGate p row) := by
  obtain ⟨hop, hv⟩ := bits_op_operand (s.written 0x040 (0x10000 * (p + 1))) (show 1 < 4 by decide) (show 47 < 62 by decide) hrow
  refine ⟨setBits (s.opWord 0x040 (0x10000 * (p + 1)) 63 62 1) 47 0 row, congrArg Host.Outcome.next ((if_pos hp).trans ?_)⟩
  rw [State.opWrite, State.regWrite_gateSwitch _ hp h, State.opWord, hop, hv, if_pos rfl]

/-- So is a cancel. -/
theorem exec_gateSwitchCancel {p : Nat} (hp : p < 8) (h : s.reaches path true 0x040 (0x10000 * (p + 1)) = true) :
    ∃ v, exec (.gateSwitchCancel path p) s = .next ((s.putFields 0x040 (0x10000 * (p + 1)) v).cancelGate p) := by
  refine ⟨s.opWord 0x040 (0x10000 * (p + 1)) 63 62 2, congrArg Host.Outcome.next ((if_pos hp).trans ?_)⟩
  rw [State.opOnly, State.regWrite_gateSwitch _ hp h, State.opWord, bits_setBits_self _ _ (by decide) (by decide)]
  rfl

/-- RESULT of a gate list's switch shows what is put there. -/
theorem State.fld_gateSwitch_setFld (s : State) (p : Nat) {r : Nat} (hr : r < 8) :
    (s.setFld (rGateSwitchResult p) r).fld (rGateSwitchResult p) = r :=
  (State.fld_setFld_self s (rGateSwitchResult p) r (show 59 ≤ 61 by decide) (show 61 < 64 by decide)).trans (Nat.mod_eq_of_lt hr)

variable {p : Nat} {g : Gate}

theorem State.mark_fld_gateSwitch (s : State) (p : Nat) :
    (s.mark 0x040 7).fld (rGateSwitchResult p) = s.fld (rGateSwitchResult p) := by
  have hne : regKey 0x040 (0x10000 * (p + 1) + 0x000) ≠ regKey 0x040 0x010 := by
    simp only [regKey]
    omega
  exact congrArg (bits · 61 59) (State.stored_mark_ne s 0x040 7 _ _ hne)

theorem State.setGate_fld (s : State) (p : Nat) (x : Gate → Gate) (f : Field) : (s.setGate p x).fld f = s.fld f := rfl

/-- A gate list that is changed once RESULT is set. -/
theorem State.setGate_setFld_gates (hg : s.tm.gates[p]? = some g) (f : Field) (v : Nat) (x : Gate → Gate) :
    ((s.setFld f v).setGate p x).tm.gates[p]? = some (x g) := by
  show (setAt (s.setFld f v).tm.gates p x)[p]? = _
  rw [State.setFld_tm, getElem?_setAt_self, hg]
  rfl

/-- An accepted arm of a gate list. -/
theorem State.armGate_accepted {target : Nat} (hg : s.tm.gates[p]? = some g)
    (h : armResult s.row g.armed target (gateListOk g.pending) = 1) :
    (s.armGate p target).tm.gates[p]? = some { g with armed := some target } ∧
      (s.armGate p target).fld (rGateSwitchResult p) = 1 ∧ (s.armGate p target).mem = s.mem := by
  have harm : s.armGate p target = (s.setFld (rGateSwitchResult p) 1).setGate p fun g => { g with armed := some target } := by
    simp only [State.armGate, hg, h, if_true]
  rw [harm]
  refine ⟨?_, ?_, by rw [State.setGate_mem, State.setFld_mem]⟩
  · exact State.setGate_setFld_gates hg _ _ _
  · rw [State.setGate_fld]
    exact s.fld_gateSwitch_setFld p (by decide)

/-- An arm of a gate list that is refused. -/
theorem State.armGate_refused {target r : Nat} (hg : s.tm.gates[p]? = some g)
    (h : armResult s.row g.armed target (gateListOk g.pending) = r) (h1 : r ≠ 1) (h8 : r < 8) :
    (s.armGate p target).tm = s.tm ∧ (s.armGate p target).fld (rGateSwitchResult p) = r ∧ (s.armGate p target).mem = s.mem := by
  simp only [State.armGate, hg, h, if_neg h1]
  refine ⟨by simp, ?_, by simp⟩
  rw [State.mark_fld_gateSwitch]
  exact s.fld_gateSwitch_setFld p h8

/-- A cancel of a gate list's switch that is accepted. -/
theorem State.cancelGate_accepted (hg : s.tm.gates[p]? = some g) (h : cancelResult s.row g.armed = 0) :
    (s.cancelGate p).tm.gates[p]? = some { g with armed := none } ∧ (s.cancelGate p).fld (rGateSwitchResult p) = 0 ∧
      (s.cancelGate p).mem = s.mem := by
  have hcancel : s.cancelGate p = (s.setFld (rGateSwitchResult p) 0).setGate p fun g => { g with armed := none } := by
    simp only [State.cancelGate, hg, h, if_neg (show ¬ 0 = 5 by decide)]
  rw [hcancel]
  refine ⟨?_, ?_, by rw [State.setGate_mem, State.setFld_mem]⟩
  · exact State.setGate_setFld_gates hg _ _ _
  · rw [State.setGate_fld]
    exact s.fld_gateSwitch_setFld p (by decide)

/-- R347: the switch of a gate list whose row has come is made, and another waits. -/
theorem State.switchGate_waits {r : Nat} (hg : s.tm.gates[p]? = some g) (ha : g.armed = some r) (h : s.row < r) :
    s.switchGate p = s := by
  simp [State.switchGate, hg, ha, h]

theorem State.switchGate_made {r : Nat} (hg : s.tm.gates[p]? = some g) (ha : g.armed = some r) (hst : s.sync.stepped = false)
    (h : r ≤ s.row) :
    (s.switchGate p).tm.gates[p]? = some { g with active := g.pending, armed := none, protect := some (r + 1) } ∧
      (s.switchGate p).fld (rGateSwitchResult p) = 2 ∧ (s.switchGate p).mem = s.mem := by
  have hmade : s.switchGate p = (s.setGate p fun g =>
      { g with active := g.pending, armed := none, protect := some (r + 1) }).setFld (rGateSwitchResult p) 2 := by
    simp [State.switchGate, hg, ha, hst, Nat.not_lt.mpr h]
  rw [hmade]
  refine ⟨?_, State.fld_gateSwitch_setFld _ p (by decide), by simp⟩
  rw [State.setFld_tm]
  exact (getElem?_setAt_self _ _ _).trans (congrArg (Option.map _) hg)

end Sys2Proof.Machine
end

section
/-! The obligation O53 (R54, R56, R347). -/

namespace Sys2Proof.Machine

/-- R54: the arms and cancels of a pattern. -/
theorem patSwitch_arms_and_cancels {s : State} {path : Path} {row : Nat} (h : s.reaches path true 0x070 0x030 = true)
    (hrow : row < 2 ^ 48) :
    (s.pat.armed = none → s.row + 16 ≤ row → s.bankOk row = true →
      ∃ t, exec (.patSwitchArm path row) s = .next t ∧ t.pat = { s.pat with armed := some row } ∧ t.fld rPatSwitchResult = 1 ∧
        t.mem = s.mem) ∧
    (s.pat.armed = none → row < s.row + 16 →
      ∃ t, exec (.patSwitchArm path row) s = .next t ∧ t.pat = s.pat ∧ t.fld rPatSwitchResult = 3 ∧ t.mem = s.mem) ∧
    (s.pat.armed = none → s.row + 16 ≤ row → s.bankOk row = false →
      ∃ t, exec (.patSwitchArm path row) s = .next t ∧ t.pat = s.pat ∧ t.fld rPatSwitchResult = 4 ∧ t.mem = s.mem) ∧
    ∀ a, s.pat.armed = some a →
      (a < s.row + 16 → (∃ t, exec (.patSwitchArm path row) s = .next t ∧ t.pat = s.pat ∧ t.fld rPatSwitchResult = 5) ∧
        ∃ t, exec (.patSwitchCancel path) s = .next t ∧ t.pat = s.pat ∧ t.fld rPatSwitchResult = 5) ∧
      (s.row + 16 ≤ a → ∃ t, exec (.patSwitchCancel path) s = .next t ∧ t.pat = { s.pat with armed := none } ∧
        t.fld rPatSwitchResult = 0 ∧ t.mem = s.mem) := by
  obtain ⟨v, harm⟩ := exec_patSwitchArm h hrow
  obtain ⟨w, hcancel⟩ := exec_patSwitchCancel h
  have hrefused {r : Nat} := State.armPattern_refused (s := s.putFields 0x070 0x030 v) (target := row) (r := r)
  have haccepted := State.armPattern_accepted (s := s.putFields 0x070 0x030 v) (target := row)
  have hkept := State.cancelPattern_refused (s := s.putFields 0x070 0x030 w)
  have hended := State.cancelPattern_accepted (s := s.putFields 0x070 0x030 w)
  simp only [State.putFields_pat, State.putFields_row, State.putFields_bankOk, State.putFields_mem] at hrefused haccepted hkept hended
  refine ⟨fun hn hfar hok => ⟨_, harm, haccepted ?_⟩, fun hn hnear => ⟨_, harm, hrefused ?_ (by decide) (by decide)⟩,
    fun hn hfar hbad => ⟨_, harm, hrefused ?_ (by decide) (by decide)⟩, fun a ha => ⟨fun hnear => ⟨⟨_, harm, ?_⟩, _, hcancel, hkept ?_⟩,
    fun hfar => ⟨_, hcancel, hended ?_⟩⟩⟩
  · exact armResult_ok hfar hok fun a ha => absurd (hn.symm.trans ha) (by simp)
  · rw [hn, armResult_near _ hnear]
  · rw [hn, hbad, armResult_bad hfar]
  · obtain ⟨hpat, hresult, _⟩ := hrefused (by rw [ha, armResult_fixed _ _ hnear]) (by decide) (by decide)
    exact ⟨hpat, hresult⟩
  · rw [ha, cancelResult_fixed hnear]
  · rw [ha, cancelResult_ok hfar]

/-- R347: the arms and cancels of a gate list. -/
theorem gateSwitch_arms_and_cancels {s : State} {path : Path} {p row : Nat} {g : Gate} (hp : p < 8)
    (hg : s.tm.gates[p]? = some g) (h : s.reaches path true 0x040 (0x10000 * (p + 1)) = true) (hrow : row < 2 ^ 48) :
    (g.armed = none → s.row + 16 ≤ row → gateListOk g.pending = true →
      ∃ t, exec (.gateSwitchArm path p row) s = .next t ∧ t.tm.gates[p]? = some { g with armed := some row } ∧
        t.fld (rGateSwitchResult p) = 1 ∧ t.mem = s.mem) ∧
    (g.armed = none → row < s.row + 16 →
      ∃ t, exec (.gateSwitchArm path p row) s = .next t ∧ t.tm = s.tm ∧ t.fld (rGateSwitchResult p) = 3 ∧ t.mem = s.mem) ∧
    ∀ a, g.armed = some a → s.row + 16 ≤ a →
      ∃ t, exec (.gateSwitchCancel path p) s = .next t ∧ t.tm.gates[p]? = some { g with armed := none } ∧
        t.fld (rGateSwitchResult p) = 0 ∧ t.mem = s.mem := by
  obtain ⟨v, harm⟩ := exec_gateSwitchArm hp h hrow
  obtain ⟨w, hcancel⟩ := exec_gateSwitchCancel hp h
  have hg' (x : Word) : (s.putFields 0x040 (0x10000 * (p + 1)) x).tm.gates[p]? = some g := by rw [State.putFields_tm, hg]
  have hrefused := State.armGate_refused (target := row) (r := 3) (hg' v)
  have haccepted := State.armGate_accepted (target := row) (hg' v)
  have hended := State.cancelGate_accepted (hg' w)
  simp only [State.putFields_tm, State.putFields_row, State.putFields_mem] at hrefused haccepted hended
  refine ⟨fun hn hfar hok => ⟨_, harm, haccepted ?_⟩, fun hn hnear => ⟨_, harm, hrefused ?_ (by decide) (by decide)⟩,
    fun a ha hfar => ⟨_, hcancel, hended ?_⟩⟩
  · exact armResult_ok hfar hok fun a ha => absurd (hn.symm.trans ha) (by simp)
  · rw [hn, armResult_near _ hnear]
  · rw [ha, cancelResult_ok hfar]

/-- Settles O53: arms, cancels and switches of patterns and of gate lists. -/
theorem switchesAreArmedAndMade : Obligations.SwitchesAreArmedAndMade := by
  intro s
  refine ⟨fun path row h hrow => patSwitch_arms_and_cancels h hrow,
    fun path p row g hp hg h hrow => gateSwitch_arms_and_cancels hp hg h hrow, fun r ha hst => ⟨fun hw => ?_, fun hd => ?_⟩,
    fun p g r hg ha hst => ⟨fun hw => ?_, fun hd => ?_⟩⟩
  · exact congrArg Host.Outcome.next (State.switchPattern_waits ha hw)
  · exact ⟨_, congrArg Host.Outcome.next (State.switchPattern_made ha hst hd), by simp, by simp, by simp,
      State.fld_patSwitch_setFld _ (by decide), by simp⟩
  · exact congrArg Host.Outcome.next (State.switchGate_waits hg ha hw)
  · obtain ⟨hgate, hresult, hmem⟩ := State.switchGate_made hg ha hst hd
    exact ⟨_, _, rfl, hgate, rfl, rfl, hresult, hmem⟩

end Sys2Proof.Machine
end

section
/-! SUPPORT. What the work of a row leaves of the row clock and the pattern: everything that rounds, tiles, commands, ports and tests do
in a row keeps the row number and the pattern. -/

namespace Sys2Proof.Machine

-- One proof after the other: each looks up equation lemmas, and would hold a thread of its own until those before it are done.
set_option Elab.async false

/-- `t` is in the row of `s`, and has its pattern. -/
structure SameRow (s t : State) : Prop where
  row : t.row = s.row
  pat : t.pat = s.pat

namespace SameRow

theorem refl (s : State) : SameRow s s := ⟨rfl, rfl⟩

theorem trans {s t u : State} (a : SameRow s t) (b : SameRow t u) : SameRow s u := ⟨b.row.trans a.row, b.pat.trans a.pat⟩

/-- A change that reaches neither the clock nor the pattern. -/
theorem quiet {s t : State} (hrow : t.row = s.row := by rfl) (hpat : t.pat = s.pat := by rfl) : SameRow s t := ⟨hrow, hpat⟩

theorem foldl {α : Type} {f : State → α → State} (h : ∀ s x, SameRow s (f s x)) (l : List α) (s : State) :
    SameRow s (l.foldl f s) := by
  induction l generalizing s with
  | nil => exact refl s
  | cons x l ih => exact (h s x).trans (ih _)

theorem ite {s t u : State} {c : Prop} [Decidable c] (a : SameRow s t) (b : SameRow s u) : SameRow s (if c then t else u) := by
  split
  · exact a
  · exact b

theorem of_course {s t : State} (h : SameCourse s t) : SameRow s t := ⟨congrArg Clock.row h.clock, h.pat⟩

theorem of_run {s t : State} (h : SameRun s t) : SameRow s t := of_course h.toSameCourse

theorem of_out {s t : State} (h : OnlyOut s t) : SameRow s t := of_course h.sameCourse

theorem setFld (s : State) (f : Field) (v : Nat) : SameRow s (s.setFld f v) := of_out (OnlyOut.setFld s f v)

theorem count (s : State) (f : Field) (n : Nat) : SameRow s (s.count f n) := of_out (OnlyOut.count s f n)

theorem sample (s : State) (source : Nat) (inst : List Nat) (v : Int) : SameRow s (s.sample source inst v) :=
  of_out (OnlyOut.sample s source inst v)

theorem decide (s : State) (n : Nat) (o : Outcome) : SameRow s (s.decide n o) := of_course (SameCourse.decide s n o)

theorem complete (s : State) (n : Nat) (o : Outcome) : SameRow s (s.complete n o) := of_course (SameCourse.complete s n o)

theorem tick (s : State) (ns : Nat) : SameRow s (s.tick ns) := quiet

theorem gauge (s : State) (kind unit weight : Nat) : SameRow s (s.gauge kind unit weight) := quiet

/-! ## Moves and leaves that are lost -/

theorem promote (s : State) (cards : List Nat) : SameRow s (s.promote cards) := ite (refl s) quiet

theorem loseQuiet (s : State) (n : Nat) : SameRow s (s.loseQuiet n) := by
  unfold State.loseQuiet
  split
  · exact refl s
  · exact ite (refl s) ((of_run (SameRun.abandonMoves s n)).trans (of_run (SameRun.changeCard _ _ _)))

theorem postLost (s : State) (n : Nat) : SameRow s (s.postLost n) := by
  unfold State.postLost
  split
  · exact refl s
  · exact of_out (OnlyOut.postTenant _ _ _)

theorem loseLeaf (s : State) (n : Nat) : SameRow s (s.loseLeaf n) := foldl (fun s k => (loseQuiet s k).trans (postLost _ k)) _ s

theorem compactBegin (s : State) : SameRow s s.compactBegin := by
  unfold State.compactBegin
  extract_lets past
  exact ite (trans quiet (setFld _ _ _)) (refl s)

theorem pagesOut (s : State) (o : Outcome) : SameRow s (s.pagesOut o) := ite (compactBegin s) (refl s)

/-! ## Allocation -/

variable {s t : State}

theorem choose (s : State) (m : Nat) (ok : Nat → Bool) : SameRow s (s.choose m ok).2 := quiet

theorem grabPages {n : Nat} {ps : List Nat} (h : s.grabPages n = some (ps, t)) : SameRow s t := by
  unfold State.grabPages at h
  split at h
  · cases h
    exact refl s
  · split at h
    · rename_i p u e
      cases h
      have hu := choose s tablePages (pagesFree s.cat.pages n)
      rw [e] at hu
      exact hu.trans quiet
    · cases h

theorem takePages {slot n : Nat} (h : s.takePages slot n = some t) : SameRow s t := by
  obtain ⟨⟨ps, u⟩, e, rfl⟩ := Option.map_eq_some_iff.mp h
  exact (grabPages e).trans (ite (refl _) quiet)

theorem takeSlot {layers kvHeads slot : Nat} (h : s.takeSlot layers kvHeads = .ok (slot, t)) : SameRow s t := by
  unfold State.takeSlot at h
  split at h
  · cases h
  · rename_i k u e
    have hu := choose s seqSlots (fun k => (s.seqAt k).state = .closed)
    rw [e] at hu
    split at h
    · cases h
    · rename_i e'
      cases h
      exact hu.trans (takePages e')

theorem takeCard {c : Card} {n : Option Nat} (h : s.takeCard c = (n, t)) : SameRow s t := by
  unfold State.takeCard at h
  have hu := choose s cardCount s.cardFree
  split at h
  all_goals
    rename_i e
    rw [e] at hu
    obtain ⟨-, rfl⟩ := Prod.mk.inj h
    exact hu.trans quiet

theorem takeLeaf {p fmt d halves : Nat} {hs : Option (List HalfLoc)} (h : s.takeLeaf p fmt d halves = (hs, t)) : SameRow s t := by
  unfold State.takeLeaf at h
  extract_lets at h
  split at h
  all_goals
    obtain ⟨-, rfl⟩ := Prod.mk.inj h
    exact quiet

theorem copyLeaf (s : State) (src dst : HalfLoc) (fmt d : Nat) : SameRow s (s.copyLeaf src dst fmt d) := by
  unfold State.copyLeaf State.putLeaf
  extract_lets e u
  have hu : SameRow s u := foldl (fun _ _ => quiet) _ s
  split
  · exact hu.trans quiet
  · exact hu

theorem share (s : State) (n : Nat) : SameRow s (s.share n) := quiet

theorem copyHalves {handle : Nat} {l : List (Nat × Card × HalfLoc × HalfLoc)} :
    ∀ {s t : State} {ms : List Nat}, s.copyHalves handle l = .ok (ms, t) → SameRow s t := by
  induction l with
  | nil =>
    intro s t ms h
    cases h
    exact refl s
  | cons x l ih =>
    obtain ⟨n, c, src, dst⟩ := x
    intro s t ms h
    unfold State.copyHalves at h
    split at h
    · cases h
    · rename_i e
      extract_lets u at h
      split at h
      · rename_i e'
        cases h
        exact (((takeCard e).trans (copyLeaf _ src dst c.format c.d)).trans (of_run (SameRun.changeCard _ n _))).trans (ih e')
      · cases h

theorem forkHalves {handle tenant valid : Nat} {q : Seq} {l : List (Card × HalfLoc × HalfLoc)} :
    ∀ {s t : State} {ms : List Nat}, s.forkHalves handle tenant valid q l = some (ms, t) → SameRow s t := by
  induction l with
  | nil =>
    intro s t ms h
    cases h
    exact refl s
  | cons x l ih =>
    obtain ⟨c, src, dst⟩ := x
    intro s t ms h
    unfold State.forkHalves at h
    split at h
    · cases h
    · rename_i e
      obtain ⟨⟨ms', u⟩, e', hu⟩ := Option.map_eq_some_iff.mp h
      obtain ⟨-, rfl⟩ := Prod.mk.inj hu
      exact ((takeCard e).trans (copyLeaf _ src dst c.format c.d)).trans (ih e')

theorem takeRef {handle : Nat} {ns ms : List Nat} (h : s.takeRef handle ns = .ok (ms, t)) : SameRow s t := by
  have hshare (l : List Nat) (s : State) : SameRow s (l.foldl State.share s) := foldl share l s
  unfold State.takeRef at h
  split at h
  · cases h
  · split at h
    · cases h
    · split at h
      · cases h
        exact hshare _ s
      · split at h
        · cases h
          exact hshare _ s
        · split at h
          · split at h
            · cases h
            · split at h
              · rename_i e
                exact (takeLeaf e).trans (copyHalves h)
              · cases h
          · cases h

/-! ## FORK -/

theorem clbLookup (s : State) (walker tag : Nat) : SameRow s (s.clbLookup walker tag) := ite (refl s) quiet

/-- A fold that pairs what it finds with the state keeps the row where each of its steps does. -/
theorem foldl_snd {α β : Type} {f : β × State → α → β × State} (h : ∀ x a, SameRow x.2 (f x a).2) (l : List α)
    (x : β × State) : SameRow x.2 (l.foldl f x).2 := by
  induction l generalizing x with
  | nil => exact refl x.2
  | cons a l ih => exact (h x a).trans (ih _)

theorem lookBlocks (s : State) (slot layer head : Nat) (blocks : List Nat) : SameRow s (s.lookBlocks slot layer head blocks) :=
  foldl_snd (fun x t => clbLookup x.2 _ t) _ (false, s)

theorem forkWalk (s : State) (slot fp : Nat) : SameRow s (s.forkWalk slot fp) := foldl (fun s _ => lookBlocks s _ _ _ _) _ s

theorem grabSingles {n : Nat} : ∀ {s t : State} {ps : List Nat}, s.grabSingles n = some (ps, t) → SameRow s t := by
  induction n with
  | zero =>
    intro s t ps h
    cases h
    exact refl s
  | succ n ih =>
    intro s t ps h
    obtain ⟨⟨qs, u⟩, e, h⟩ := Option.bind_eq_some_iff.mp h
    obtain ⟨⟨rs, v⟩, e', h⟩ := Option.map_eq_some_iff.mp h
    obtain ⟨-, rfl⟩ := Prod.mk.inj h
    exact (grabPages e).trans (ih e')

theorem growHead (s : State) (slot layer head half block : Nat) : SameRow s (s.growHead slot layer head half block) := by
  unfold State.growHead
  extract_lets k blocks u
  split
  · exact quiet
  · split
    · exact refl s
    · rename_i e
      exact (grabSingles e).trans quiet

theorem putCards (s : State) (slot layer head block : Nat) (cards : List Nat) : SameRow s (s.putCards slot layer head block cards) :=
  foldl (fun s p => (growHead s slot layer head p.1 block).trans quiet) _ s

theorem forkInto {slot handle tenant fp : Nat} {q : Seq} {l : List (Nat × Nat × Nat × List Nat)} :
    ∀ {s t : State}, s.forkInto slot handle tenant fp q l = .ok t → SameRow s t := by
  induction l with
  | nil =>
    intro s t h
    cases h
    exact refl s
  | cons x l ih =>
    obtain ⟨layer, hd, b, cs⟩ := x
    intro s t h
    unfold State.forkInto at h
    split at h
    · split at h
      · cases h
      · rename_i e
        exact ((takeRef e).trans (putCards _ _ _ _ _ _)).trans (ih h)
    · split at h
      · cases h
      · split at h
        · cases h
        · split at h
          · cases h
          · rename_i e
            split at h
            · cases h
            · rename_i e'
              exact (((takeLeaf e).trans (forkHalves e')).trans (putCards _ _ _ _ _ _)).trans (ih h)

theorem refFailed (s : State) (e : RefFail) : SameRow s (s.refFailed e) := by
  cases e with
  | notResident cards => exact promote s cards
  | cacheLost cards => exact foldl loseLeaf cards s
  | noSpace => exact refl s

theorem doFork (s : State) (h : Head) (tenant : Nat) (b : OpenBody) : SameRow s (s.doFork h tenant b).2 := by
  unfold State.doFork
  extract_lets src q fp u blocks isLost lost away fit
  have hu : SameRow s u := forkWalk s src fp
  split
  · exact hu
  · split
    · exact hu.trans (pagesOut _ _)
    · rename_i t e
      split
      · exact (hu.trans (quiet : SameRow u { u with fresh := t.fresh })).trans (pagesOut { u with fresh := t.fresh } (Outcome.noRes h 0xA))
      · extract_lets new new' v handle late
        have hlate : SameRow s late := hu.trans quiet
        split
        · exact hlate
        · split
          · exact hlate
          · split
            · exact hlate.trans (foldl (fun s x => promote s _) _ _)
            · split
              · rename_i e'
                exact (hu.trans (takeSlot e)).trans ((quiet : SameRow _ v).trans (forkInto e'))
              · extract_lets left
                have hleft : SameRow s left := hlate.trans (refFailed _ _)
                split <;> exact hleft

theorem runForks (s : State) : SameRow s s.runForks := by
  refine foldl (fun s p => ?_) _ s
  split
  · exact refl s
  · rename_i b _
    split
    · exact refl s
    · exact (doFork s p.2.head p.2.tenant b).trans (complete _ p.1 (s.doFork p.2.head p.2.tenant b).1)

/-! ## Raw commands (R154) -/

theorem poisonRead (s : State) (dev : Nat) : SameRow s (s.poisonRead dev) :=
  (trans quiet (count _ _ _)).trans (gauge _ _ _ _)

theorem chargePoison (s : State) (a n : Nat) : SameRow s (s.chargePoison a n) := by
  unfold State.chargePoison
  split
  · exact poisonRead s _
  · exact refl s

theorem putBytes (s : State) (a : Nat) (bs : List Byte) : SameRow s (s.putBytes a bs) := ite quiet quiet

theorem useCards (s : State) (cards : List Nat) : SameRow s (s.useCards cards) := foldl (fun _ _ => quiet) _ s

theorem rawEffect (s : State) (op : Nat) (h : Head) (b : RawBody) (a : Nat) : SameRow s (s.rawEffect op h b a).2 := by
  unfold State.rawEffect
  extract_lets n poison out old new
  split
  · split
    · exact chargePoison s _ _
    · exact quiet
  · split
    · split
      · exact refl s
      · exact putBytes s _ _
    · split
      · exact refl s
      · split
        · split
          · exact (putBytes s _ _).trans quiet
          · exact quiet
        · exact (putBytes s _ _).trans quiet

theorem applyRaw (s : State) (j : RawJob) : SameRow s (s.applyRaw j) := by
  unfold State.applyRaw
  split
  · exact ((ite (useCards s _) (refl s)).trans (rawEffect _ _ _ _ _)).trans (complete _ _ _)
  · split
    · exact ite ((chargePoison s _ _).trans quiet) quiet
    · exact ite (refl s) (putBytes s _ _)

theorem runRaws (l : List RawJob) : ∀ s : State, SameRow s (s.runRaws l) := by
  induction l with
  | nil => exact refl
  | cons j l ih =>
    intro s
    exact ite (ih s) (trans (trans quiet (applyRaw _ j)) (ih _))

theorem serveRaw (s : State) (id : Nat) : SameRow s (s.serveRaw id) := trans quiet (runRaws _ _)

/-! ## The lines of an APPEND (R177, R179) -/

theorem endAppend (s : State) (cmd : Nat) (o : Head → Outcome) : SameRow s (s.endAppend cmd o) := by
  unfold State.endAppend
  extract_lets _ u v
  have hv : SameRow u v := of_course (SameCourse.decideFor u cmd o)
  exact (trans (quiet : SameRow s u) hv).trans (runForks v)

theorem goOn (s : State) (a : AppendJob) (acts : List AppendAct) : SameRow s (s.goOn a acts) := ite (endAppend s _ _) quiet

theorem raiseValid (s : State) (card valid : Nat) : SameRow s (s.raiseValid card valid) := by
  unfold State.raiseValid
  split
  · exact refl s
  · extract_lets slot q u crc
    have hu : SameRow s u := ite quiet (refl s)
    exact hu.trans (ite (ite quiet quiet) quiet)

theorem raises (l : List AppendAct) : ∀ s : State, SameRow s (s.raises l).2 := by
  induction l with
  | nil => exact refl
  | cons x l ih =>
    intro s
    cases x with
    | line n cells cards => exact refl s
    | raise cs v => exact (foldl (fun s c => raiseValid s c v) cs s).trans (ih _)

theorem countWritten (s : State) (die bytes : Nat) : SameRow s (s.countWritten die bytes) := trans quiet (count _ _ _)

theorem dropAllocated (s : State) (a : AppendJob) : SameRow s (s.dropAllocated a) := by
  refine foldl (fun s k => ?_) _ s
  split
  · exact refl s
  · refine foldl (fun s f => ?_) _ s
    split
    · exact ite (of_run (SameRun.dropLeafAt s _ _ _ _ _)) (refl s)
    · exact refl s

theorem poisonAppend (s : State) (a : AppendJob) (cards : List Nat) : SameRow s (s.poisonAppend a cards) := by
  unfold State.poisonAppend
  extract_lets u lost later v w
  have hv : SameRow u v :=
    ((of_run (SameRun.clipVisits u _ _)).trans (of_run (SameRun.dropJobs _ later))).trans (dropAllocated _ a)
  have hw : SameRow v w := by
    refine foldl (fun s b => ?_) later v
    split
    · exact decide s _ _
    · exact refl s
  exact (((foldl loseLeaf cards s).trans hv).trans hw).trans (endAppend w _ _)

theorem writeNext (s : State) (a : AppendJob) : SameRow s (s.writeNext a) := by
  unfold State.writeNext
  split
  · exact endAppend s _ _
  · rename_i cs v l _
    exact (raises (.raise cs v :: l) s).trans (goOn _ a (s.raises (.raise cs v :: l)).1)
  · rename_i l _
    split
    · exact poisonAppend s a _
    · extract_lets u v
      have hu : SameRow s u := trans quiet (countWritten _ _ _)
      have hv : SameRow u v := foldl (fun _ _ => quiet) _ u
      exact ((hu.trans hv).trans (raises l v)).trans (goOn _ a (v.raises l).1)

theorem serveLine (s : State) (n : Nat) : SameRow s (s.serveLine n) := by
  unfold State.serveLine
  split
  · exact writeNext s _
  · exact refl s

/-! ## Host accesses, tiles and rounds -/

theorem hostAccess (s : State) (t region : Nat) (who : Accessor) : SameRow s (s.hostAccess t region who).2 := by
  unfold State.hostAccess
  extract_lets a q
  split
  · split
    · exact trans quiet (count _ _ _)
    · exact quiet
  · exact refl s

theorem hostRegions (s : State) (who : Accessor) (rs : List (Nat × Nat)) : SameRow s (s.hostRegions who rs).2 := by
  refine foldl_snd (fun x r => ?_) rs (0, s)
  exact hostAccess x.2 r.1 r.2 who

theorem beginTile (s : State) (t : Tile) : SameRow s (s.beginTile t) := ite (refl s) ((hostRegions s _ _).trans quiet)

theorem beginTiles (s : State) : SameRow s s.beginTiles := foldl beginTile _ s

theorem serveAccess (s : State) (a : Access) : SameRow s (s.serveAccess a) := by
  unfold State.serveAccess
  split
  · exact serveRaw s _
  · exact (serveLine s _).trans (beginTiles _)
  · exact quiet
  · exact refl s

theorem countWaits (s : State) (t : Nat) : SameRow s (s.countWaits t) :=
  foldl (fun s _ => (of_out (OnlyOut.raise s _ _)).trans (sample _ _ _ _)) _ s

theorem serveConflicts (s : State) (t : Nat) : SameRow s (s.serveConflicts t) :=
  ((countWaits s t).trans quiet).trans (foldl serveAccess _ _)

theorem endRound (s : State) (t : Nat) : SameRow s (s.endRound t) :=
  ((countWaits s t).trans quiet).trans (foldl serveAccess _ _)

theorem computeLate (s : State) (n : Nat) : SameRow s (s.computeLate n) := by
  unfold State.computeLate
  split
  · exact refl s
  · exact decide s _ _

theorem stopScheduled (s : State) (t : Nat) : SameRow s (s.stopScheduled t) := trans quiet (foldl computeLate _ _)

theorem cutRound (s : State) (t : Nat) (r : Round) : SameRow s (s.cutRound t r) := by
  unfold State.cutRound
  extract_lets cmds _ u v
  have hv : SameRow u v := ((count u _ _).trans (endRound _ t)).trans (foldl computeLate cmds _)
  exact (trans (quiet : SameRow s u) hv).trans (ite (stopScheduled v t) quiet)

theorem closeStack (s : State) (t : Nat) : SameRow s (s.closeStack t) := by
  unfold State.closeStack
  extract_lets u out v
  have hu : SameRow s u := by
    simp only [u]
    split
    · exact ite (cutRound s t _) (endRound s t)
    · exact serveConflicts s t
  have hv : SameRow u v := foldl (fun s _ => setFld s _ _) out u
  exact (hu.trans hv).trans quiet

theorem cutTiles (s : State) (cmds : List Nat) : SameRow s (s.cutTiles cmds) := by
  refine trans (foldl (fun s n => ?_) cmds s) (foldl computeLate _ _)
  split
  · exact count s _ _
  · exact refl s

theorem cutDue (s : State) (p : Item → Bool) : SameRow s (s.cutDue p) := trans quiet (cutTiles _ _)

theorem leaveArray (s : State) (a ns : Nat) : SameRow s (s.leaveArray a ns) :=
  (foldl (fun s _ => count s _ _) _ s).trans quiet

theorem withdrawTiles (s : State) (a : Nat) : SameRow s (s.withdrawTiles a) :=
  (leaveArray s a 3839).trans (foldl (fun s _ => (foldl computeLate _ s).trans (count _ _ _)) _ _)

theorem closeArrays (s : State) : SameRow s s.closeArrays := by
  unfold State.closeArrays
  extract_lets u v w
  have hu : SameRow s u := (foldl withdrawTiles _ s).trans (cutDue _ _)
  have hv : SameRow u v := foldl (fun s _ => setFld s _ _) _ u
  have hw : SameRow v w := by
    refine foldl (fun s d => ?_) _ v
    split
    · exact sample s _ _ _
    · exact refl s
  clear_value w
  exact ((hu.trans hv).trans hw).trans quiet

theorem prune (s : State) : SameRow s s.prune := by
  unfold State.prune
  extract_lets late u _ v
  have hu : SameRow s u := foldl computeLate late s
  exact (hu.trans (quiet : SameRow u v)).trans quiet

/-! ## The commands of a row -/

theorem eachScheduled {f : State → Nat → Cmd → State} (h : ∀ s n c, SameRow s (f s n c)) (s : State) :
    SameRow s (s.eachScheduled f) := by
  refine foldl (fun s p => ?_) _ s
  exact ite (refl s) (h s p.1 p.2)

theorem lateAll (s : State) (cause : Cause) (p : Cmd → Bool) : SameRow s (s.lateAll cause p) :=
  foldl (fun s x => of_course (SameCourse.lateOne cause p s x)) _ s

theorem walkDeadline (s : State) : SameRow s s.walkDeadline := lateAll s _ _

theorem computeDeadline (s : State) : SameRow s s.computeDeadline := lateAll s _ _

theorem lenderDeadline (s : State) : SameRow s s.lenderDeadline := lateAll s _ _

theorem mergeParts (s : State) (n : Nat) : SameRow s (s.mergeParts n) := by
  unfold State.mergeParts
  split
  · exact refl s
  · split
    · exact refl s
    · split
      · exact decide s _ _
      · exact ite quiet (decide s _ _)
      · exact refl s

theorem withdrawCmd (s : State) (n : Nat) : SameRow s (s.withdrawCmd n) := by
  unfold State.withdrawCmd
  split
  · exact refl s
  · split
    · exact ite (refl s) (ite quiet (trans quiet (computeLate _ n)))
    · exact computeLate s n

theorem addFloats {s t : State} {a : Nat} {xs : List F32} (h : s.addFloats a xs = some t) : SameRow s t := by
  unfold State.addFloats at h
  extract_lets out at h
  split at h
  · cases h
  · split at h
    · cases h
      exact putBytes s _ _
    · cases h

theorem addGrad {c : Cmd} {b : AttnBody} {d : Nat} {base : Int} {ps : List Nat} :
    ∀ {s t : State}, s.addGrad c b d base ps = some t → SameRow s t := by
  induction ps with
  | nil =>
    intro s t h
    cases h
    exact refl s
  | cons p ps ih =>
    intro s t h
    obtain ⟨u, e, h⟩ := Option.bind_eq_some_iff.mp h
    exact (addFloats e).trans (ih h)

theorem touchSums (s : State) (c : Cmd) (b : AttnBody) (d : Nat) (base : Int) : SameRow s (s.touchSums c b d base) :=
  foldl (fun s _ => hostRegions s _ _) _ s

theorem gradAdd (s : State) (n : Nat) : SameRow s (s.gradAdd n) := by
  unfold State.gradAdd
  split
  · exact refl s
  · split
    · extract_lets early behind finish base d
      have hfinish (u : State) (o : Outcome) : SameRow u (finish u o) := trans quiet (decide _ _ _)
      clear_value finish
      split
      · exact refl s
      · split
        · exact hfinish s _
        · split
          · rename_i e
            exact ((addGrad e).trans (touchSums _ _ _ _ _)).trans (hfinish _ _)
          · exact hfinish s _
    · exact refl s

theorem sendCompletion (s : State) (n ns : Nat) : SameRow s (s.sendCompletion n ns) := by
  unfold State.sendCompletion
  split
  · exact refl s
  · split
    · exact refl s
    · exact ite (refl s) (trans (tick s ns) (complete _ _ _))

theorem closePoints (s : State) : SameRow s s.closePoints :=
  (((walkDeadline s).trans (eachScheduled (fun s n _ => mergeParts s n) _)).trans (computeDeadline _)).trans (lenderDeadline _)

theorem closeGrads (s : State) : SameRow s s.closeGrads :=
  (eachScheduled (fun s n _ => gradAdd s n) s).trans (eachScheduled (fun s n _ => ite (withdrawCmd s n) (refl s)) _)

theorem closeCommands (s : State) : SameRow s s.closeCommands :=
  (((tick s 4095).trans (closePoints _)).trans (closeGrads _)).trans
    (eachScheduled (fun s n _ => ite (sendCompletion s n 4095) (refl s)) _)

theorem settleRanges (s : State) : SameRow s s.settleRanges := by
  refine foldl (fun s p => ?_) _ s
  split
  · split
    · exact refl s
    · exact ite (refl s) (complete s _ _)
  · exact refl s

/-! ## Ports and lanes -/

theorem leavePort (s : State) (p : Nat) : SameRow s (s.leavePort p) :=
  trans quiet (foldl (fun s u => (count s _ _).trans (of_out (OnlyOut.dispatch _ u _ _))) _ _)

theorem stopPort (s : State) (p : Nat) (f : Port → Port) : SameRow s (s.stopPort p f) :=
  ite (trans quiet (leavePort _ p)) quiet

theorem portDown (s : State) (p : Nat) : SameRow s (s.portDown p) := by
  unfold State.portDown
  split
  · exact refl s
  · exact ite (refl s) (stopPort s p _)

theorem downRetrain (s : State) (p : Nat) : SameRow s (s.downRetrain p) := (portDown s p).trans (stopPort _ p _)

theorem mend (s : State) (p : Nat) : SameRow s (s.mend p) := by
  unfold State.mend
  split
  · exact refl s
  · split
    · exact refl s
    · split
      · exact refl s
      · exact stopPort s p _
      · exact stopPort s p _
      · exact downRetrain s p

theorem laneFault (s : State) (p lane : Nat) : SameRow s (s.laneFault p lane) := by
  unfold State.laneFault State.onPort
  split
  · exact refl s
  · split
    · exact refl s
    · dsimp only
      split
      · exact refl s
      · exact trans quiet (ite (refl _) (ite (ite (refl _) (portDown _ p)) (ite (downRetrain _ p) (mend _ p))))

theorem takePrbs (s : State) (x : PrbsSample) : SameRow s (s.takePrbs x) :=
  ite (refl s) (((count s _ _).trans (count _ _ _)).trans (ite (laneFault _ _ _) (refl _)))

theorem endCtl (s : State) (p r : Nat) (c : Option LaneChange) : SameRow s (s.endCtl p r c) := by
  unfold State.endCtl
  split
  · exact ite (setFld s _ _) (refl s)
  · exact refl s

theorem settleAsked (s : State) (p : Nat) : SameRow s (s.settleAsked p) := by
  unfold State.settleAsked
  split
  · exact refl s
  · split
    · exact refl s
    · exact ite (refl s) ((ite (endCtl s p _ _) (refl s)).trans quiet)

theorem portsAtRow (s : State) : SameRow s s.portsAtRow := by
  refine foldl (fun s p => ?_) _ s
  refine (settleAsked s p).trans ?_
  dsimp only
  split
  · exact refl _
  · exact (ite (ite (stopPort _ p _) ((stopPort _ p _).trans (setFld _ _ _))) (refl _)).trans quiet

/-! ## Tests of spares, and consents -/

theorem failNbuTest (s : State) (t group : Nat) : SameRow s (s.failNbuTest t group) := by
  unfold State.failNbuTest
  split
  · refine ite (refl s) ?_
    exact trans (trans quiet (ite (setFld _ _ _) (refl _))) (ite (of_out (OnlyOut.postFm _ _)) (refl _))
  · exact refl s

theorem restoreArray (s : State) (die array row : Nat) (cells : Bool) : SameRow s (s.restoreArray die array row cells) :=
  ite (refl s) (ite quiet (ite quiet (of_out (OnlyOut.postFm s _))))

theorem dropTest (s : State) (x : SpareTarget) : SameRow s (s.dropTest x) := by
  unfold State.dropTest
  split
  · exact quiet
  · exact refl s

theorem arrayResult (s : State) (die array : Nat) (cell : Bool) (result : Nat) :
    SameRow s (s.arrayResult die array cell result) := ite (setFld s _ _) (refl s)

theorem failArrayTest (s : State) (x : SpareTarget × Nat) : SameRow s (s.failArrayTest x) := by
  unfold State.failArrayTest
  split
  · exact refl s
  · refine (dropTest s x.1).trans ?_
    dsimp only
    split
    · exact refl _
    · exact (trans quiet (arrayResult _ _ _ _ _)).trans (ite (restoreArray _ _ _ _ _) (refl _))
    · exact (trans quiet (arrayResult _ _ _ _ _)).trans (ite (restoreArray _ _ _ _ _) (refl _))

theorem endTests (s : State) : SameRow s s.endTests :=
  (foldl (fun s t => foldl (fun s g => failNbuTest s t g) _ s) _ s).trans (foldl failArrayTest _ _)

theorem extend (s : State) (index kind : Nat) (d : Digest) : SameRow s (s.extend index kind d) := quiet

theorem measureTenant (s : State) (t : Nat) : SameRow s (s.measureTenant t) := (of_out (OnlyOut.free s)).trans (extend _ _ _ _)

theorem applyConsents (s : State) : SameRow s s.applyConsents := by
  refine foldl (fun s p => ?_) _ s
  split
  · exact trans quiet (measureTenant _ _)
  · exact refl s

theorem pulses (s : State) : SameRow s s.pulses := by
  unfold State.pulses
  extract_lets u t second
  have hu : SameRow s u := ite quiet (refl s)
  exact hu.trans (ite quiet (refl u))

/-! ## Heat, power and the offset of the row -/

theorem stackHeat (s : State) (t : Nat) : SameRow s (s.stackHeat t) := by
  unfold State.stackHeat
  split
  · exact refl s
  · exact (trans (trans quiet (setFld _ _ _)) (setFld _ _ _)).trans (sample _ _ _ _)

theorem heat (s : State) (x : RowSample) : SameRow s (s.heat x) := by
  unfold State.heat
  extract_lets _ u die v w
  have hv : SameRow u v := ((setFld u _ _).trans (setFld _ _ _)).trans (setFld _ _ _)
  have hw : SameRow v w := foldl stackHeat _ v
  exact ((trans (quiet : SameRow s u) hv).trans hw).trans (foldl (fun s _ => sample s _ _ _) _ w)

theorem govern (s : State) : SameRow s s.govern := by
  unfold State.govern
  extract_lets l _ u
  have hu : SameRow s u := trans quiet (setFld _ _ _)
  exact hu.trans (foldl (fun s _ => setFld s _ _) _ u)

theorem setCaps (s : State) (t : Nat) : SameRow s (s.setCaps t) :=
  ((((setFld s _ _).trans (setFld _ _ _)).trans (setFld _ _ _)).trans (setFld _ _ _)).trans (count _ _ _)

theorem measure (s : State) (x : RowSample) : SameRow s (s.measure x) := by
  unfold State.measure
  extract_lets rs _ y source
  split
  · exact trans quiet (setFld _ _ _)
  · exact (trans quiet ((setFld _ _ _).trans (setFld _ _ _))).trans (sample _ _ _ _)

theorem formItems (s : State) (n : Nat) : SameRow s (s.formItems n) := by
  obtain ⟨items, e⟩ := OnlyItems.formItems s n
  rw [e]
  exact quiet

theorem formTiles (s : State) (n : Nat) : SameRow s (s.formTiles n) := by
  obtain ⟨due, e⟩ := s.formTiles_eq n
  rw [e]
  exact quiet

theorem formWork (s : State) : SameRow s s.formWork := by
  refine foldl (fun s p => ?_) _ s
  exact ite (ite (formItems s p.1) (ite (formTiles s p.1) (refl s))) (refl s)

theorem noFaults (s : State) : SameRow s { s with health := { s.health with faults := [] } } := quiet

theorem spill (s : State) (t : Nat) : SameRow s (s.spill t) := trans quiet (count _ _ _)

end SameRow

/-! ## The row's end -/

/-- A pattern in a row: its pending bank is no longer protected where the protection has ended (R57). -/
def Pat.protectedIn (p : Pat) (row : Nat) : Pat :=
  match p.protect with
  | some r => if r ≤ row then { p with protect := none } else p
  | none => p

/-- Ending the protection changes nothing else. -/
theorem Pat.protectedIn_keeps (p : Pat) (row : Nat) :
    (p.protectedIn row).armed = p.armed ∧ (p.protectedIn row).pending = p.pending := by
  unfold Pat.protectedIn
  split
  · split
    · exact ⟨rfl, rfl⟩
    · exact ⟨rfl, rfl⟩
  · exact ⟨rfl, rfl⟩

theorem Pat.protectedIn_protect_some {p : Pat} {r : Nat} (h : p.protect = some r) (row : Nat) :
    (p.protectedIn row).protect = if r ≤ row then none else some r := by
  simp only [Pat.protectedIn, h]
  split
  · rfl
  · exact h

theorem Pat.protectedIn_protect_none {p : Pat} (h : p.protect = none) (row : Nat) : (p.protectedIn row).protect = none := by
  simp only [Pat.protectedIn, h]

theorem State.endProtection_pat (s : State) : s.endProtection.pat = s.pat.protectedIn s.row := by
  unfold State.endProtection Pat.protectedIn
  extract_lets gate _ u
  show State.pat (match u.pat.protect with | some p => _ | none => u) = match u.pat.protect with | some r => _ | none => u.pat
  cases u.pat.protect with
  | none => rfl
  | some p =>
    by_cases hp : p ≤ u.row
    · exact (congrArg State.pat (if_pos hp)).trans (if_pos hp).symm
    · exact (congrArg State.pat (if_neg hp)).trans (if_neg hp).symm

/-- R29: the row that ends is settled in its row, the next one begins, and protection ends in it. -/
theorem State.rowStart_rows {s : State} (x : RowSample) (hr : s.runs = true) :
    ∃ u v, SameRow s u ∧ SameRow u.nextRow v ∧ SameRow v.endProtection (s.rowStart x) := by
  unfold State.rowStart
  rw [if_neg (by simp [hr])]
  extract_lets u v _ w a b c d
  have hu : SameRow s u.closeArrays.prune.closeCommands :=
    ((((SameRow.foldl .takePrbs x.prbs s).trans (.foldl .closeStack _ _)).trans (.closeArrays u)).trans (.prune _)).trans
      (.closeCommands _)
  have hmid (t : State) : SameRow t t.pulses.applyConsents.moveWalkers.endTests :=
    (((SameRow.pulses t).trans (.applyConsents _)).trans .quiet).trans (.endTests (State.moveWalkers _))
  have hw : SameRow v w := .noFaults v
  have hc : SameRow w c := (((((SameRow.heat w x).trans (.govern _)).trans (.foldl .setCaps _ _)).trans (.measure b x)).trans (.formWork _))
  have hd : SameRow c d := .foldl .spill _ c
  exact ⟨_, _, hu, hmid _, ((((SameRow.portsAtRow _).trans hw).trans hc).trans hd).trans
    (((SameRow.sample d _ _ _).trans (.sample _ _ _ _)).trans (.settleRanges _))⟩

/-- A pattern whose entry becomes the execution entry, and that has the entry of a new row (R55). -/
def Pat.shifted (p : Pat) (row : Nat) : Pat := { p with exec := p.entry, entry := patEntry p.active row }

theorem State.nextRow_row (s : State) : s.nextRow.row = s.row + 1 := rfl

theorem State.nextRow_pat (s : State) : s.nextRow.pat = s.pat.shifted (s.row + 1) := rfl

/-- R29, R55, R57: a row starts with the pattern of the next row number. -/
theorem State.rowStart_pat {s : State} (x : RowSample) (hr : s.runs = true) :
    (s.rowStart x).pat = (s.pat.shifted (s.row + 1)).protectedIn (s.row + 1) := by
  obtain ⟨u, v, hu, hv, ht⟩ := State.rowStart_rows x hr
  rw [ht.pat, State.endProtection_pat, hv.pat, hv.row, State.nextRow_pat, State.nextRow_row, hu.pat, hu.row]

end Sys2Proof.Machine
end


section
/-! The obligation O54 (R57). -/

namespace Sys2Proof.Machine

variable {s : State} {path : Path}

/-- R57: a write into the pattern window lands in the pending bank, unless it is protected. -/
theorem patternWindowWrite_lands {x a : Nat} {v : Word} (hx : x < 0x80000) (h8 : x % 8 = 0)
    (h : s.reaches path true 0x070 (0x80000 + x) = true) (ha : s.patByte (0x80000 + x) = some a)
    (hb : s.fld rPatWindowBank ≠ 1) :
    (s.pat.armed = none → s.pat.protect = none → ∃ t, exec (.patternWindowWrite path x v) s = .next t ∧
      t.pat = { s.pat with pending := Mem.write s.pat.pending a (leBytes 8 v.toNat) } ∧ t.regs = s.regs ∧ t.mem = s.mem) ∧
    (s.pat.armed ≠ none ∨ s.pat.protect ≠ none → ∃ t, exec (.patternWindowWrite path x v) s = .next t ∧ t.pat = s.pat ∧
      bits (t.stored 0x070 0x010) 1 1 = 1 ∧ t.mem = s.mem) := by
  have hwrite := State.regWrite_patWindow v hx h8 h
  refine ⟨fun harm hprot => ?_, fun hlocked => ?_⟩
  · rw [State.writePattern_taken v ha hb harm hprot] at hwrite
    exact ⟨_, congrArg Host.Outcome.next hwrite, rfl, rfl, rfl⟩
  · rw [State.writePattern_protected v ha hlocked] at hwrite
    exact ⟨_, congrArg Host.Outcome.next hwrite, State.markAccess_pat _ _ _ _, State.markAccess_sets_bit _ _ (by decide),
      State.markAccess_mem _ _ _ _⟩

/-- R54, R57: an accepted arm, one that replaces the armed row too, arms the row, and that protects. -/
theorem patSwitchArm_protects {row : Nat} (h : s.reaches path true 0x070 0x030 = true) (hrow : row < 2 ^ 48)
    (hfar : s.row + 16 ≤ row) (hok : s.bankOk row = true) (harmed : ∀ a, s.pat.armed = some a → s.row + 16 ≤ a) :
    ∃ t, exec (.patSwitchArm path row) s = .next t ∧ t.pat = { s.pat with armed := some row } ∧ t.fld rPatSwitchResult = 1 := by
  obtain ⟨v, harm⟩ := exec_patSwitchArm h hrow
  have haccepted := State.armPattern_accepted (s := s.putFields 0x070 0x030 v) (target := row)
  simp only [State.putFields_pat, State.putFields_row, State.putFields_bankOk] at haccepted
  obtain ⟨hpat, hresult, _⟩ := haccepted (armResult_ok hfar hok harmed)
  exact ⟨_, harm, hpat, hresult⟩

/-- R54, R57: an accepted cancel of the armed switch ends that. -/
theorem patSwitchCancel_unprotects {a : Nat} (h : s.reaches path true 0x070 0x030 = true) (ha : s.pat.armed = some a)
    (hfar : s.row + 16 ≤ a) : ∃ t, exec (.patSwitchCancel path) s = .next t ∧ t.pat = { s.pat with armed := none } := by
  obtain ⟨v, hcancel⟩ := exec_patSwitchCancel h
  have hended := State.cancelPattern_accepted (s := s.putFields 0x070 0x030 v)
  simp only [State.putFields_pat, State.putFields_row] at hended
  obtain ⟨hpat, _⟩ := hended (by rw [ha, cancelResult_ok hfar])
  exact ⟨_, hcancel, hpat⟩

/-- R57: ROW_START ends the protection whose row has come, and no other. -/
theorem rowStart_ends_protection (x : RowSample) (hr : s.runs = true) :
    ∃ t, exec (.rowStart x) s = .next t ∧ t.pat.armed = s.pat.armed ∧ t.pat.pending = s.pat.pending ∧
      (∀ p, s.pat.protect = some p → t.pat.protect = if p ≤ s.clock.row + 1 then none else some p) ∧
      (s.pat.protect = none → t.pat.protect = none) := by
  refine ⟨s.rowStart x, rfl, ?_⟩
  obtain ⟨harmed, hpending⟩ := (s.pat.shifted (s.row + 1)).protectedIn_keeps (s.row + 1)
  rw [State.rowStart_pat x hr]
  exact ⟨harmed, hpending, fun p hp => Pat.protectedIn_protect_some (p := s.pat.shifted (s.row + 1)) hp _,
    fun hp => Pat.protectedIn_protect_none (p := s.pat.shifted (s.row + 1)) hp _⟩

/-- Settles O54: writes of the pending bank, and the arms, cancels, switches and row starts that begin or end its protection. -/
theorem pendingBankIsProtected : Obligations.PendingBankIsProtected := by
  intro s
  refine ⟨fun path x v a hx h8 h ha hb => patternWindowWrite_lands hx h8 h ha hb,
    fun path row h hrow hfar hok harmed => patSwitchArm_protects h hrow hfar hok harmed,
    fun path a h ha hfar => patSwitchCancel_unprotects h ha hfar, fun r ha hst hd => ?_, fun x hr => rowStart_ends_protection x hr⟩
  exact ⟨_, congrArg Host.Outcome.next (State.switchPattern_made ha hst hd), by rw [State.setFld_pat], by rw [State.setFld_pat]⟩

end Sys2Proof.Machine
end


section
/-! SUPPORT. Synchronisation: what leaving service does to the commands in flight, and what a SYNC event leaves (R35, R36). -/

namespace Sys2Proof.Machine

/-! ## No new commands -/

/-- Every command of `t` is one of `s`, with its key and class. -/
structure NoNewCmds (s t : State) : Prop where
  wf : Tbl.wf s.work.cmds = true → Tbl.wf t.work.cmds = true
  cls : ∀ n m, t.cmd n = some m → ∃ c, s.cmd n = some c ∧ c.cls = m.cls

namespace NoNewCmds

theorem refl (s : State) : NoNewCmds s s := ⟨id, fun _ m h => ⟨m, h, rfl⟩⟩

theorem trans {s t u : State} (a : NoNewCmds s t) (b : NoNewCmds t u) : NoNewCmds s u := by
  refine ⟨b.wf ∘ a.wf, fun n m h => ?_⟩
  obtain ⟨c, hc, hcls⟩ := b.cls n m h
  obtain ⟨d, hd, hdcls⟩ := a.cls n c hc
  exact ⟨d, hd, hdcls.trans hcls⟩

theorem foldl {α : Type} {f : State → α → State} (h : ∀ s x, NoNewCmds s (f s x)) (l : List α) (s : State) :
    NoNewCmds s (l.foldl f s) := foldl_keeps (P := NoNewCmds s) (fun t x ht => ht.trans (h t x)) l (refl s)

/-- A command that has left stays away. -/
theorem cmd_none {s t : State} (h : NoNewCmds s t) {n : Nat} (hn : s.cmd n = none) : t.cmd n = none := by
  cases ht : t.cmd n with
  | none => rfl
  | some m =>
    obtain ⟨c, hc, _⟩ := h.cls n m ht
    rw [hn] at hc
    cases hc

theorem of_run {s t : State} (h : SameRun s t) : NoNewCmds s t := by
  obtain ⟨f, hf, ht⟩ := h.cmds
  refine ⟨fun hwf => ht ▸ Tbl.wf_mapVals hwf, fun n m hm => ?_⟩
  rw [State.cmd, ht, Tbl.get_mapVals] at hm
  obtain ⟨c, hc, rfl⟩ := Option.map_eq_some_iff.mp hm
  exact ⟨c, hc, (congrArg Cmd.cls (hf n c) :).symm⟩

theorem setCmd (s : State) (n : Nat) {f : Cmd → Cmd} (hf : ∀ c, (f c).cls = c.cls) : NoNewCmds s (s.setCmd n f) := by
  refine ⟨Tbl.wf_modify, fun m x hx => ?_⟩
  rw [State.cmd_setCmd] at hx
  split at hx
  · rename_i e
    obtain ⟨c, hc, rfl⟩ := Option.map_eq_some_iff.mp hx
    exact ⟨c, e ▸ hc, (hf c).symm⟩
  · exact ⟨x, hx, rfl⟩

theorem dropKey (s : State) (n : Nat) : NoNewCmds s (s.dropKey n) := by
  obtain h | ⟨i, h⟩ := s.dropKey_cases n
  · rw [h]
    exact refl s
  · rw [h]
    have hset := setCmd s n (f := fun c => { c with key := none }) fun _ => rfl
    exact ⟨hset.wf, hset.cls⟩

theorem complete (s : State) (n : Nat) (o : Outcome) : NoNewCmds s (s.complete n o) := by
  refine ⟨fun hwf => ?_, fun m x hx => ?_⟩
  · unfold State.complete
    split
    · exact hwf
    · rw [State.reply_work]
      exact Tbl.wf_erase ((dropKey s n).wf hwf)
  · rw [State.complete_cmd] at hx
    split at hx
    · cases hx
    · exact ⟨x, hx, rfl⟩

theorem decide (s : State) (n : Nat) (o : Outcome) : NoNewCmds s (s.decide n o) := by
  unfold State.decide
  split
  · exact refl s
  · split
    · exact refl s
    · split
      · exact complete s n o
      · have h := (dropKey s n).trans (setCmd _ n (f := fun c => { c with result := some o, stage := .sent }) fun _ => rfl)
        exact ⟨h.wf, h.cls⟩

theorem decideFor (s : State) (n : Nat) (o : Head → Outcome) : NoNewCmds s (s.decideFor n o) := by
  unfold State.decideFor
  split
  · exact decide s _ _
  · exact refl s

theorem abandonAppend (s : State) (n : Nat) (o : Head → Outcome) : NoNewCmds s (s.abandonAppend n o) := by
  obtain h | ⟨js, later, h⟩ := s.abandonAppend_cases n o
  · rw [h]
    exact refl s
  · rw [h]
    exact (of_run (SameRun.dropJobs s js)).trans (foldl (fun s _ => decideFor s _ _) _ _)

end NoNewCmds

/-! ## Leaving service (R36) -/

/-- A scheduled command of a list, and the APPENDs behind it, are LATE, cause SYNC, and it completes. -/
def State.syncLateOne (s : State) (p : Nat × Cmd) : State :=
  if p.2.cls = .l8 then s
  else (s.abandonAppend p.1 fun h => Outcome.tooLate h .sync).complete p.1 (Outcome.tooLate p.2.head .sync)

theorem SameCourse.syncLateOne (s : State) (p : Nat × Cmd) : SameCourse s (s.syncLateOne p) := by
  unfold State.syncLateOne
  split
  · exact .refl s
  · exact (SameCourse.abandonAppend s _ _).trans (SameCourse.complete _ _ _)

theorem NoNewCmds.syncLateOne (s : State) (p : Nat × Cmd) : NoNewCmds s (s.syncLateOne p) := by
  unfold State.syncLateOne
  split
  · exact .refl s
  · exact (NoNewCmds.abandonAppend s _ _).trans (NoNewCmds.complete _ _ _)

/-- Every scheduled command of the list has left. -/
theorem State.syncLate_none {n : Nat} {c : Cmd} (hcls : c.cls ≠ .l8) (l : List (Nat × Cmd)) (h : (n, c) ∈ l) (s : State) :
    (l.foldl State.syncLateOne s).cmd n = none := by
  induction l generalizing s with
  | nil => cases h
  | cons p l ih =>
    obtain rfl | h := List.mem_cons.mp h
    · refine (NoNewCmds.foldl NoNewCmds.syncLateOne l _).cmd_none ?_
      rw [State.syncLateOne, if_neg hcls, State.complete_cmd, if_pos rfl]
    · exact ih h _

/-- Only L8 commands are left in flight. -/
theorem State.syncLate_l8 {s : State} (hwf : Tbl.wf s.work.cmds = true) :
    ∀ p ∈ (s.work.cmds.foldl State.syncLateOne s).work.cmds, p.2.cls = .l8 := by
  intro p hp
  have hfrom := NoNewCmds.foldl NoNewCmds.syncLateOne s.work.cmds s
  have hget := Tbl.get_of_mem (hfrom.wf hwf) hp
  obtain ⟨c, hc, hcls⟩ := hfrom.cls p.1 p.2 hget
  by_contra hne
  have hnone := State.syncLate_none (hcls ▸ hne) s.work.cmds (Tbl.mem_of_get hc) s
  rw [State.cmd, hget] at hnone
  cases hnone

/-- The commands not yet admitted that are scheduled leave. -/
def State.withoutScheduled (s : State) : State :=
  { s with work := { s.work with
    held := []
    waiting := s.work.waiting.filter fun w => !s.schedWaiting w } }

/-- They complete too. -/
def State.dropScheduled (s : State) : State :=
  s.withoutScheduled.dropWaiting (fun h => Outcome.tooLate h .sync) (s.work.held ++ s.work.waiting.filter s.schedWaiting)

theorem SameCourse.dropScheduled (s : State) : SameCourse s s.dropScheduled :=
  SameCourse.trans (t := s.withoutScheduled) ⟨rfl, rfl, rfl, rfl, rfl, rfl⟩ (OnlyOut.dropWaiting _ _ _).sameCourse

theorem State.dropScheduled_cmds (s : State) : s.dropScheduled.work.cmds = s.work.cmds := by
  have h := OnlyOut.dropWaiting s.withoutScheduled (fun h => Outcome.tooLate h .sync)
    (s.work.held ++ s.work.waiting.filter s.schedWaiting)
  exact (congrArg Work.cmds h.work :)

/-- The drain order is held where the node was draining. -/
def State.holdDrain (s : State) : State :=
  { s with node := { s.node with drainHeld := (s.node.state = NodeState.draining : Bool) } }

theorem State.loseService_serves {s : State} (h : s.node.state = .serving ∨ s.node.state = .draining) :
    s.loseService = (s.work.cmds.foldl State.syncLateOne s.holdDrain).dropScheduled.toNode .castOn := by
  unfold State.loseService
  split
  · rfl
  · rfl
  · rename_i hserving hdraining
    exact absurd h (not_or.mpr ⟨hserving, hdraining⟩)

theorem State.loseService_idle {s : State} (h : ¬ (s.node.state = .serving ∨ s.node.state = .draining)) : s.loseService = s := by
  rw [not_or] at h
  unfold State.loseService
  split
  · exact absurd (by assumption) h.1
  · exact absurd (by assumption) h.2
  · rfl

end Sys2Proof.Machine
end


section
/-! SUPPORT. SYNC events, and the registers they leave (R32, R33, R418). -/

namespace Sys2Proof.Machine

/-- An event to a fabric manager changes no register. -/
theorem State.send_fmEvent_regs (s : State) (node : Nat) (e : Event) : (s.send (.fmEvent node e)).regs = s.regs := by
  unfold State.send
  split
  · exact (State.datagram_keeps _ _).1
  · rfl

/-- An event for the fabric managers changes the registers of the ring only. -/
theorem State.postFm_regs (s : State) (e : Event) : (s.postFm e).regs = (s.ring e).regs :=
  foldl_keeps (P := fun t => t.regs = (s.ring e).regs) (fun t n h => (State.send_fmEvent_regs t n e).trans h) _ rfl

/-- Fields of two different registers. -/
theorem State.fld_count_ne (s : State) (f g : Field) (n : Nat) (h : regKey g.block g.offset ≠ regKey f.block f.offset) :
    (s.count f n).fld g = s.fld g := State.fld_setFld_ne _ _ _ _ h

theorem State.fld_congr {s t : State} (h : t.regs = s.regs) (f : Field) : t.fld f = s.fld f := by
  simp only [State.fld, State.stored, h]

/-- The ring's registers are EVENT_PTR and its block's ERROR_SUMMARY. -/
theorem State.fld_ring (s : State) (e : Event) (g : Field) (hptr : regKey g.block g.offset ≠ regKey 0x0F0 0x080)
    (herr : regKey g.block g.offset ≠ regKey 0x0F0 0x010) : (s.ring e).fld g = s.fld g := by
  unfold State.ring
  extract_lets h t h' _ u v
  have hu : u.fld g = s.fld g := State.fld_congr rfl g
  have hv : v.fld g = s.fld g := (State.fld_setFld_ne u rEventPtrHead g h' hptr).trans hu
  clear_value v
  split
  · refine (congrArg (bits · g.hi g.lo) (State.stored_mark_ne _ 0x0F0 3 g.block g.offset herr)).trans ?_
    refine (State.fld_count_ne _ rEventPtrLost g 1 hptr).trans ((State.fld_setFld_ne _ rEventPtrTail g _ hptr).trans hv)
  · exact hv

/-- A SYNC event leaves SYNC_STATUS. -/
theorem State.postSync_rowsyncFault (s : State) : s.postSync.fld rSyncStatusRowsyncFault = s.fld rSyncStatusRowsyncFault :=
  (State.fld_congr (State.postFm_regs s _) _).trans (State.fld_ring s _ rSyncStatusRowsyncFault (by decide) (by decide))

theorem OnlyOut.postSync (s : State) : OnlyOut s s.postSync := OnlyOut.postFm s _

end Sys2Proof.Machine
end

section
/-! The obligation O32 (R31 to R36, R437). -/

namespace Sys2Proof.Machine

variable {s : State}

/-! ## Leaving synchronisation -/

theorem State.toNode_sync (s : State) (n : NodeState) : (s.toNode n).sync = s.sync := by
  unfold State.toNode
  split
  · rfl
  · exact (OnlyOut.postFm _ _).sync

/-- A change of the node state leaves a held drain order. -/
theorem State.toNode_drainHeld (s : State) (n : NodeState) : (s.toNode n).node.drainHeld = s.node.drainHeld := by
  unfold State.toNode
  split
  · rfl
  · extract_lets e
    rw [(OnlyOut.postFm _ e).node]

/-- The state whose scheduled commands have left, with the drain order held. -/
def State.outOfService (s : State) : State := (s.work.cmds.foldl State.syncLateOne s.holdDrain).dropScheduled

theorem SameCourse.outOfService (s : State) : SameCourse s.holdDrain s.outOfService :=
  (SameCourse.foldl _ .syncLateOne s.work.cmds s.holdDrain).trans (.dropScheduled _)

/-- R36: leaving Serving or Draining. -/
theorem State.loseService_leaves (hwf : Tbl.wf s.work.cmds = true) (h : s.node.state = .serving ∨ s.node.state = .draining) :
    s.loseService.node.state = .castOn ∧ (s.loseService.node.drainHeld = true ↔ s.node.state = .draining) ∧
      ∀ p ∈ s.loseService.work.cmds, p.2.cls = .l8 := by
  have heq : s.loseService = s.outOfService.toNode .castOn := State.loseService_serves h
  obtain ⟨_, _, hwork, _⟩ := s.outOfService.toNode_keeps .castOn
  rw [heq]
  refine ⟨State.toNode_state _ _, ?_, fun p hp => ?_⟩
  · rw [State.toNode_drainHeld, (SameCourse.outOfService s).node]
    exact decide_eq_true_iff
  · rw [hwork, State.outOfService, State.dropScheduled_cmds] at hp
    exact State.syncLate_l8 (s := s.holdDrain) hwf p hp

/-- Leaving service or not, the clock, the synchronisation and memory stay. -/
theorem State.loseService_keeps (s : State) :
    s.loseService.clock = s.clock ∧ s.loseService.sync = s.sync ∧ s.loseService.mem = s.mem := by
  by_cases h : s.node.state = .serving ∨ s.node.state = .draining
  · have heq : s.loseService = s.outOfService.toNode .castOn := State.loseService_serves h
    have hcourse := SameCourse.outOfService s
    obtain ⟨hmem, _, _, hclock, _⟩ := s.outOfService.toNode_keeps .castOn
    rw [heq, hclock, State.toNode_sync, hmem]
    exact ⟨hcourse.clock, hcourse.sync, hcourse.mem⟩
  · rw [State.loseService_idle h]
    exact ⟨rfl, rfl, rfl⟩

/-- `t` has lost the synchronisation of `s`, and its service (R35, R36). -/
def Unlocks (s t : State) : Prop :=
  t.sync.state = .unlocked ∧ t.clock = s.clock ∧ t.mem = s.mem ∧
    (s.node.state = .serving ∨ s.node.state = .draining → t.node.state = .castOn ∧
      (t.node.drainHeld = true ↔ s.node.state = .draining) ∧ ∀ p ∈ t.work.cmds, p.2.cls = .l8)

theorem State.unlock_unlocks (hwf : Tbl.wf s.work.cmds = true) : Unlocks s s.unlock := by
  unfold State.unlock
  generalize hu : ({ s with sync := { s.sync with state := .unlocked, inRange := 0, outRange := 0 } } : State) = u
  have hout := OnlyOut.postSync u
  have hsync : u.sync.state = .unlocked := hu ▸ rfl
  have hclock : u.clock = s.clock := hu ▸ rfl
  have hmem : u.mem = s.mem := hu ▸ rfl
  have hnode : u.node = s.node := hu ▸ rfl
  have hwork : u.work = s.work := hu ▸ rfl
  obtain ⟨kclock, ksync, kmem⟩ := u.postSync.loseService_keeps
  refine ⟨?_, ?_, ?_, fun h => ?_⟩
  · rw [ksync, hout.sync, hsync]
  · rw [kclock, hout.clock, hclock]
  · rw [kmem, hout.mem, hmem]
  · have hstate : u.postSync.node.state = s.node.state := by rw [hout.node, hnode]
    rw [← hstate] at h ⊢
    exact State.loseService_leaves (by rw [hout.work, hwork, hwf]) h

/-- R35: what unlocks: 8 rows beyond the budget, the end of Holdover, and a source that returns beyond the budget. -/
theorem unlocking_unlocks {i : Instr} (hcan : Canonical s)
    (hi : (i = .syncUnlock ∧ s.sync.state = .locked ∧ 8 ≤ s.sync.outRange) ∨
      (i = .holdoverExpiry ∧ s.sync.state = .holdover ∧ s.sync.holdSince + 4096 ≤ s.row) ∨
      (∃ o, i = .holdoverRelock o ∧ s.sync.state = .holdover ∧ within o = false)) :
    ∃ t, exec i s = .next t ∧ Unlocks s t := by
  obtain ⟨rfl, h, hrange⟩ | ⟨rfl, h, hage⟩ | ⟨o, rfl, h, ho⟩ := hi
  · exact ⟨s.unlock, congrArg Host.Outcome.next (if_pos ⟨h, hrange⟩), State.unlock_unlocks hcan.cmds⟩
  · exact ⟨s.unlock, congrArg Host.Outcome.next (if_pos ⟨h, hage⟩), State.unlock_unlocks hcan.cmds⟩
  · have hrelock : s.relock o =
        (({ s with sync := { s.sync with offset := o } } : State).setFld rSyncStatusOffsetNs (offset16 o)).unlock := by
      simp only [State.relock, h, ho, if_true, Bool.false_eq_true, if_false]
    refine ⟨_, congrArg Host.Outcome.next hrelock, ?_⟩
    have hu := State.unlock_unlocks
      (s := ({ s with sync := { s.sync with offset := o } } : State).setFld rSyncStatusOffsetNs (offset16 o))
      (by rw [State.setFld_work]; exact hcan.cmds)
    rw [Unlocks, State.setFld_clock, State.setFld_mem, State.setFld_node] at hu
    exact hu

/-! ## Lock, Holdover and the pulses -/

/-- A locked machine, before a step (R35). -/
def State.withLock (s : State) : State := { s with sync := { s.sync with state := .locked, outRange := 0, stepped := false } }

theorem State.withLock_epoch (s : State) : s.withLock.epoch = s.epoch := by
  rw [State.epoch, State.fld_congr (t := s.withLock) (s := s) rfl, State.fld_congr (t := s.withLock) (s := s) rfl, State.epoch]

/-- The machine moved to another time, with the entries of its row and of the row before. -/
def State.movedTo (s : State) (c : Clock) (entry before : Option RowEntry) : State :=
  { s with
    clock := c
    sync := { s.sync with stepped := true }
    pat := { s.pat with
      entry := entry
      exec := before } }

theorem State.stepTo_eq (s : State) (p : Nat) : ∃ before, s.stepTo p =
    s.movedTo ⟨(p - s.epoch) / 4096 % 2 ^ 48, (p - s.epoch) % 4096⟩ (patEntry s.pat.active ((p - s.epoch) / 4096 % 2 ^ 48)) before :=
  ⟨_, rfl⟩

/-- A locked machine that is moved keeps everything but the lock, the clock and the entries. -/
theorem State.movedTo_withLock (s : State) (c : Clock) (entry before : Option RowEntry) :
    (s.withLock.movedTo c entry before).sync.state = .locked ∧
      ((s.withLock.movedTo c entry before).clock = c ∧ (s.withLock.movedTo c entry before).pat.entry = entry ∧
        (s.withLock.movedTo c entry before).pat.active = s.pat.active ∧
        (s.withLock.movedTo c entry before).pat.pending = s.pat.pending ∧
        (s.withLock.movedTo c entry before).pat.armed = s.pat.armed) ∧
      { s.withLock.movedTo c entry before with sync := s.sync, clock := s.clock, pat := s.pat } = s :=
  ⟨rfl, ⟨rfl, rfl, rfl, rfl, rfl⟩, rfl⟩

theorem State.lock_none (h : s.sync.state = .unlocked) (hrange : 64 ≤ s.sync.inRange) : s.lock none = s.withLock :=
  if_pos ⟨h, hrange⟩

theorem State.lock_some (p : Nat) (h : s.sync.state = .unlocked) (hrange : 64 ≤ s.sync.inRange) : ∃ before, s.lock (some p) =
    s.withLock.movedTo ⟨(p - s.epoch) / 4096 % 2 ^ 48, (p - s.epoch) % 4096⟩
      (patEntry s.pat.active ((p - s.epoch) / 4096 % 2 ^ 48)) before := by
  have hlock : s.lock (some p) = s.withLock.stepTo p := if_pos ⟨h, hrange⟩
  obtain ⟨before, e⟩ := s.withLock.stepTo_eq p
  rw [s.withLock_epoch] at e
  exact ⟨before, hlock.trans e⟩

/-- R31, R35: the lock, and the step to a PTP time. -/
theorem syncLock_locks (r : Option Nat) (h : s.sync.state = .unlocked) (hrange : 64 ≤ s.sync.inRange) :
    ∃ t, exec (.syncLock r) s = .next t ∧ t.sync.state = .locked ∧ (r = none → t.clock = s.clock ∧ t.pat = s.pat) ∧
      (∀ p, r = some p → t.clock = ⟨(p - s.epoch) / 4096 % 2 ^ 48, (p - s.epoch) % 4096⟩ ∧
        t.pat.entry = patEntry s.pat.active ((p - s.epoch) / 4096 % 2 ^ 48) ∧ t.pat.active = s.pat.active ∧
        t.pat.pending = s.pat.pending ∧ t.pat.armed = s.pat.armed) ∧
      { t with sync := s.sync, clock := s.clock, pat := s.pat } = s := by
  cases r with
  | none => exact ⟨s.withLock, congrArg Host.Outcome.next (State.lock_none h hrange), rfl, fun _ => ⟨rfl, rfl⟩, nofun, rfl⟩
  | some p =>
    obtain ⟨before, e⟩ := State.lock_some p h hrange
    obtain ⟨hstate, hmoved, hrest⟩ := s.movedTo_withLock ⟨(p - s.epoch) / 4096 % 2 ^ 48, (p - s.epoch) % 4096⟩
      (patEntry s.pat.active ((p - s.epoch) / 4096 % 2 ^ 48)) before
    refine ⟨_, congrArg Host.Outcome.next e, hstate, nofun, fun q hq => ?_, hrest⟩
    cases hq
    exact hmoved

/-- R35: the loss of both sources. -/
theorem holdoverEntry_holds (h : s.sync.state = .locked) (hptp : s.sync.ptp = false) (hrowsync : s.sync.rowsync = false) :
    ∃ t, exec .holdoverEntry s = .next t ∧ t.sync = { s.sync with state := .holdover, holdSince := s.row } ∧
      t.node = s.node ∧ t.work = s.work ∧ t.mem = s.mem := by
  have hout := OnlyOut.postSync { s with sync := { s.sync with state := .holdover, holdSince := s.row } }
  exact ⟨_, congrArg Host.Outcome.next (if_pos ⟨h, hptp, hrowsync⟩), hout.sync, hout.node, hout.work, hout.mem⟩

/-- R35: a source that returns within the budget. -/
theorem holdoverRelock_locks {o : Int} (h : s.sync.state = .holdover) (ho : within o = true) :
    ∃ t, exec (.holdoverRelock o) s = .next t ∧ t.sync.state = .locked ∧ t.sync.offset = o ∧ t.clock = s.clock ∧
      t.node = s.node ∧ t.work = s.work ∧ t.mem = s.mem := by
  let u : State := ({ s with sync := { s.sync with offset := o } } : State).setFld rSyncStatusOffsetNs (offset16 o)
  have hrelock : s.relock o = { u with sync := { u.sync with state := .locked, outRange := 0 } } := by
    simp only [State.relock, h, ho, if_true, u]
  have hu := OnlyOut.setFld ({ s with sync := { s.sync with offset := o } } : State) rSyncStatusOffsetNs (offset16 o)
  exact ⟨_, congrArg Host.Outcome.next hrelock, rfl, congrArg Sync.offset hu.sync, hu.clock, hu.node, hu.work, hu.mem⟩

/-- The state in which a ROWSYNC pulse has been compared with PTP. -/
def State.pulsed (s : State) (ok : Bool) (offset : Int) : State := { s with sync := { s.sync with rowsync := ok, offset := offset } }

/-- R33: a pulse within 40 ns of PTP is used. -/
theorem State.pulse_used {o p : Int} (hmaster : s.rackMaster = false) (hptp : s.sync.ptp = true)
    (hw : within (o - (s.fld rSyncCfgBoardDelay / 8 : Nat) - p) = true) :
    s.pulse o p = ((s.pulsed true (o - (s.fld rSyncCfgBoardDelay / 8 : Nat))).setFld rSyncStatusSource 1).setFld rSyncStatusOffsetNs
      (offset16 (o - (s.fld rSyncCfgBoardDelay / 8 : Nat))) :=
  (if_neg (by simp [hmaster])).trans ((if_neg (by simp [hptp])).trans (if_pos hw))

/-- R33: another is not, and sets ROWSYNC_FAULT. -/
theorem State.pulse_rejected {o p : Int} (hmaster : s.rackMaster = false) (hptp : s.sync.ptp = true)
    (hw : within (o - (s.fld rSyncCfgBoardDelay / 8 : Nat) - p) = false) :
    s.pulse o p = ((((s.pulsed false p).setFld rSyncStatusRowsyncFault 1).setFld rSyncStatusSource 2).setFld rSyncStatusOffsetNs
      (offset16 p)).postSync :=
  (if_neg (by simp [hmaster])).trans ((if_neg (by simp [hptp])).trans (if_neg (by rw [hw]; exact Bool.false_ne_true)))

/-- R32, R33: a ROWSYNC pulse. -/
theorem rowsyncInPulse_compares (o p : Int) (hmaster : s.rackMaster = false) (hptp : s.sync.ptp = true) :
    let d : Int := o - (s.fld rSyncCfgBoardDelay / 8 : Nat)
    ∃ t, exec (.rowsyncInPulse o p) s = .next t ∧ t.sync.rowsync = within (d - p) ∧
      t.sync.offset = (if within (d - p) then d else p) ∧
      (within (d - p) = false → t.fld rSyncStatusRowsyncFault = 1) ∧ t.clock = s.clock ∧ t.mem = s.mem := by
  intro d
  cases hw : within (d - p) with
  | true =>
    have h := ((OnlyOut.setFld (s.pulsed true d) rSyncStatusSource 1).trans (OnlyOut.setFld _ rSyncStatusOffsetNs (offset16 d)))
    exact ⟨_, congrArg Host.Outcome.next (State.pulse_used hmaster hptp hw), congrArg Sync.rowsync h.sync, congrArg Sync.offset h.sync,
      nofun, h.clock, h.mem⟩
  | false =>
    have h := (((OnlyOut.setFld (s.pulsed false p) rSyncStatusRowsyncFault 1).trans (OnlyOut.setFld _ rSyncStatusSource 2)).trans
      (OnlyOut.setFld _ rSyncStatusOffsetNs (offset16 p))).trans (OnlyOut.postSync _)
    refine ⟨_, congrArg Host.Outcome.next (State.pulse_rejected hmaster hptp hw), congrArg Sync.rowsync h.sync,
      congrArg Sync.offset h.sync, fun _ => ?_, h.clock, h.mem⟩
    rw [State.postSync_rowsyncFault,
      State.fld_setFld_disjoint _ rSyncStatusOffsetNs rSyncStatusRowsyncFault _ rfl rfl (by decide) (by decide) (.inl (by decide)),
      State.fld_setFld_disjoint _ rSyncStatusSource rSyncStatusRowsyncFault _ rfl rfl (by decide) (by decide) (.inr (by decide)),
      State.fld_setFld_self _ rSyncStatusRowsyncFault 1 (by decide) (by decide)]
    rfl

/-- Settles O32: the changes of synchronisation, the ROWSYNC pulse and the PPS edge. -/
theorem synchronisation : Obligations.Synchronisation := by
  intro s
  exact ⟨fun r h hrange => syncLock_locks r h hrange, fun i hcan hi => unlocking_unlocks hcan hi,
    fun h hptp hrowsync => holdoverEntry_holds h hptp hrowsync, fun o h ho => holdoverRelock_locks h ho,
    fun o p hmaster hptp => rowsyncInPulse_compares o p hmaster hptp, fun stamp => rfl⟩

end Sys2Proof.Machine
end


section
/-! The obligation O30 (R29, R39, R152, R427). -/

namespace Sys2Proof.Machine

/-- A region number far beyond the 256 of a stack. The bit that FALLBACK of stack 0 would have for it is bit 33 of the register at
POWER_STATUS. -/
def strayRegion : Nat := 64 * (((0xF0 - 0x10) * 0x100000 + (0x098 - 0x030)) / 8) + 33

/-- A running node in Cast-on, with such a number among the regions of stack 0 that fall back at the row's end. -/
def strayFallback : State :=
  { State.reset with
    node := { State.reset.node with state := .castOn }
    stackUnits := setAt State.reset.stackUnits 0 fun k => { k with fallNext := [strayRegion] } }

/-- A row without a timing source and with cool sensors. -/
def coolRow : RowSample :=
  { offset := none, ptp := false, rowsync := false, dieTemps := List.replicate 20 25, stackTemps := List.replicate 12 25, prbs := [] }

theorem strayFallback_whole : Whole strayFallback := by
  unfold Whole
  decide +kernel

/-- R427 gives level 0 for the row that follows. -/
theorem strayFallback_nextLevel :
    strayFallback.runs = true ∧ strayFallback.fld rPowerStatusLevel ≤ 4 ∧ strayFallback.nextLevel = 0 := by decide +kernel

/-- The fall-back of the region makes LEVEL 2 and BUDGET 0 before the level is set, so that it becomes 3. -/
theorem strayFallback_level : (strayFallback.rowStart coolRow).fld rPowerStatusLevel = 3 := by decide +kernel

/-- Refutes O30: the statement does not say that the regions that fall back are regions of a stack, below 256, and in a state where
one is not the level is not the one that R427 gives. NBU_STOP records no such region. -/
theorem not_rowBoundaries : ¬ Obligations.RowBoundaries := by
  intro h
  obtain ⟨hruns, hle, hnext⟩ := strayFallback_nextLevel
  obtain ⟨⟨t, ht, _, _, _, _, _, _, hlevel, _⟩, _⟩ := h coolRow strayFallback strayFallback_whole hruns
  obtain rfl : strayFallback.rowStart coolRow = t := Host.Outcome.next.inj ht
  have hzero := (hlevel hle).trans hnext
  rw [strayFallback_level] at hzero
  cases hzero

end Sys2Proof.Machine
end

section
/-! SUPPORT. The return of what was released (R78): what one record frees and zeroes, and what every record leaves. -/

namespace Sys2Proof.Machine

/-! ## Folds over lists -/

/-- A fold whose steps keep `I` makes `P` hold of each element, where the element's own step makes it so and no other step undoes
it. -/
theorem foldl_establishes {α : Type} {f : State → α → State} {I : State → Prop} {P : α → State → Prop}
    (hinv : ∀ s x, I s → I (f s x)) (hself : ∀ s x, I s → P x (f s x)) (hkeep : ∀ s x y, I s → P y s → P y (f s x))
    (l : List α) {s : State} (hs : I s) : ∀ x ∈ l, P x (l.foldl f s) := by
  induction l generalizing s with
  | nil => exact fun _ h => nomatch h
  | cons y l ih =>
    intro x hx
    rcases List.mem_cons.mp hx with rfl | hx
    · exact (foldl_keeps (P := fun s => I s ∧ P x s) (fun s y h => ⟨hinv s y h.1, hkeep s y x h.1 h.2⟩) l
        ⟨hinv s x hs, hself s x hs⟩).2
    · exact ih (hinv s y hs) x hx

/-! ## Zeroing (R379) -/

/-- From a memory in canonical form to one in which every byte that read 0 still does. -/
def OnlyZeroes (s t : State) : Prop :=
  Mem.wf s.mem = true → Mem.wf t.mem = true ∧ ∀ a, Mem.get s.mem a = 0 → Mem.get t.mem a = 0

namespace OnlyZeroes

theorem of_mem {s t : State} (h : t.mem = s.mem) : OnlyZeroes s t := fun w => by rw [h]; exact ⟨w, fun _ => id⟩

theorem trans {s t u : State} (a : OnlyZeroes s t) (b : OnlyZeroes t u) : OnlyZeroes s u := fun w =>
  ⟨(b (a w).1).1, fun x hx => (b (a w).1).2 x ((a w).2 x hx)⟩

theorem zero (s : State) (lo hi : Nat) : OnlyZeroes s (s.zero lo hi) := fun w =>
  ⟨State.zero_wf lo hi w, fun x hx => by rw [State.zero_get lo hi x w, hx, ite_self]⟩

end OnlyZeroes

/-- Every byte of a granule reads 0. -/
def State.granuleZero (s : State) (g : Nat) : Prop := ∀ a, a / 16384 = g → Mem.get s.mem a = 0

theorem OnlyZeroes.granuleZero {s t : State} (h : OnlyZeroes s t) (w : Mem.wf s.mem = true) {g : Nat} (hg : s.granuleZero g) :
    t.granuleZero g := fun a ha => (h w).2 a (hg a ha)

/-- Make granules read 0. -/
def State.zeroGranules (s : State) (gs : List Nat) : State := gs.foldl (fun s g => s.zero (g * 16384) ((g + 1) * 16384)) s

theorem State.zeroGranules_onlyZeroes (s : State) (gs : List Nat) : OnlyZeroes s (s.zeroGranules gs) := by
  unfold State.zeroGranules
  induction gs generalizing s with
  | nil => exact .of_mem rfl
  | cons g gs ih => exact (OnlyZeroes.zero s _ _).trans (ih _)

theorem State.zeroGranules_granuleZero {s : State} (gs : List Nat) (w : Mem.wf s.mem = true) :
    ∀ g ∈ gs, (s.zeroGranules gs).granuleZero g := by
  refine foldl_establishes (I := fun s => Mem.wf s.mem = true) (P := fun g s => s.granuleZero g)
    (fun s g w => State.zero_wf _ _ w) (fun s g w a ha => ?_)
    (fun s g k w hk => (OnlyZeroes.zero s _ _).granuleZero w hk) gs w
  rw [State.zero_get _ _ _ w, if_pos (by omega)]

/-! ## One record -/

/-- The bytes that a record's return makes 0: none, or those of its granules and of its scale slot. -/
def State.wipe (s : State) (r : Released) : State :=
  if r.zero then
    match r.scale with
    | some sc =>
      let d := match Tbl.get (s.zeroGranules r.granules).cat.scales sc.1 with | some g => g.d | none => 0
      (s.zeroGranules r.granules).zero (scaleAddr sc d 0) (scaleAddr sc d (16 * d))
    | none => s.zeroGranules r.granules
  else s

theorem State.wipe_onlyZeroes (s : State) (r : Released) : OnlyZeroes s (s.wipe r) := by
  unfold State.wipe
  split
  · split
    · exact (s.zeroGranules_onlyZeroes r.granules).trans (.zero _ _ _)
    · exact s.zeroGranules_onlyZeroes r.granules
  · exact .of_mem rfl

theorem State.wipe_granuleZero {s : State} {r : Released} (w : Mem.wf s.mem = true) (hz : r.zero = true) :
    ∀ g ∈ r.granules, (s.wipe r).granuleZero g := by
  intro g hg
  have hgranules := State.zeroGranules_granuleZero r.granules w g hg
  unfold State.wipe
  rw [if_pos hz]
  split
  · exact (OnlyZeroes.zero _ _ _).granuleZero (s.zeroGranules_onlyZeroes r.granules w).1 hgranules
  · exact hgranules

/-- Zeroing changes memory and poison alone. -/
theorem State.wipe_keeps (s : State) (r : Released) : { s.wipe r with mem := s.mem, poison := s.poison } = s := by
  have hgranules : { s.zeroGranules r.granules with mem := s.mem, poison := s.poison } = s :=
    foldl_keeps (P := fun t => { t with mem := s.mem, poison := s.poison } = s)
      (f := fun s g => s.zero (g * 16384) ((g + 1) * 16384)) (fun _ _ h => h) r.granules rfl
  unfold State.wipe
  split
  · split <;> exact hgranules
  · rfl

/-- The catalogue without a record's scale slot: the granule goes with the last of its slots (R62). -/
def Cat.freeSlot (c : Cat) : Option (Nat × Nat) → Cat
  | none => c
  | some sc => match Tbl.get c.scales sc.1 with
    | none => c
    | some g =>
      let left := g.slots.filter fun k => k ≠ sc.2
      if left = [] then { c with scales := Tbl.erase c.scales sc.1, granules := c.granules.filter (· ≠ sc.1) }
      else { c with scales := Tbl.set c.scales sc.1 { g with slots := left } }

/-- The catalogue without what a record holds of the stacks and the tables. -/
def Cat.unlist (c : Cat) (r : Released) : Cat :=
  Cat.freeSlot { c with granules := c.granules.filter fun g => !r.granules.contains g,
                        pages := c.pages.filter fun p => !r.pages.contains p } r.scale

/-- The return of a record makes its bytes 0 and takes it off the lists of what is taken. -/
theorem State.giveBack_eq (s : State) (r : Released) : s.giveBack r =
    { s.wipe r with
      cat := (s.wipe r).cat.unlist r
      mover := { (s.wipe r).mover with granules := (s.wipe r).mover.granules.filter fun g => !r.annex.contains g } } := by
  obtain ⟨row, granules, annex, scale, card, pages, zero⟩ := r
  cases scale <;> rfl

/-- Freeing a scale slot takes no granule and changes nothing but granules and scale slots. -/
theorem Cat.freeSlot_keeps (c : Cat) (sc : Option (Nat × Nat)) : (c.freeSlot sc).granules ⊆ c.granules ∧
    { c.freeSlot sc with granules := c.granules, scales := c.scales } = c := by
  cases sc with
  | none => exact ⟨fun _ => id, rfl⟩
  | some sc =>
    simp only [Cat.freeSlot]
    split
    · exact ⟨fun _ => id, rfl⟩
    · split
      · exact ⟨fun _ hx => (List.mem_filter.mp hx).1, rfl⟩
      · exact ⟨fun _ => id, rfl⟩

/-- What the return of record `r` does: the lists of what is taken lose what it holds and gain nothing; memory loses the bytes to
be zeroed; leaves, cards and the other records stay. -/
structure Returns (r : Released) (s t : State) : Prop where
  cards : t.cat.cards = s.cat.cards
  leaves : t.cat.leaves = s.cat.leaves
  releasing : t.cat.releasing = s.cat.releasing
  granules : ∀ g ∈ t.cat.granules, g ∈ s.cat.granules ∧ g ∉ r.granules
  pages : ∀ p ∈ t.cat.pages, p ∈ s.cat.pages ∧ p ∉ r.pages
  annex : ∀ g ∈ t.mover.granules, g ∈ s.mover.granules ∧ g ∉ r.annex
  onlyZeroes : OnlyZeroes s t
  zeroed : Mem.wf s.mem = true → r.zero = true → ∀ g ∈ r.granules, t.granuleZero g
  mem : r.zero = false → t.mem = s.mem

/-- What a record's return takes off the lists of what is taken. -/
theorem Cat.unlist_keeps (c : Cat) (r : Released) :
    (∀ g ∈ (c.unlist r).granules, g ∈ c.granules ∧ g ∉ r.granules) ∧
    { c.unlist r with granules := c.granules, scales := c.scales, pages := c.pages } = c ∧
    (c.unlist r).pages = c.pages.filter fun p => !r.pages.contains p := by
  obtain ⟨hsub, hkeep⟩ := Cat.freeSlot_keeps { c with
    granules := c.granules.filter fun g => !r.granules.contains g
    pages := c.pages.filter fun p => !r.pages.contains p } r.scale
  refine ⟨fun g hg => by simpa using hsub hg, ?_, congrArg Cat.pages hkeep⟩
  exact congrArg (fun d : Cat => { d with granules := c.granules, scales := c.scales, pages := c.pages }) hkeep

theorem State.giveBack_returns (s : State) (r : Released) : Returns r s (s.giveBack r) := by
  have hcat : (s.wipe r).cat = s.cat := (congrArg State.cat (s.wipe_keeps r) :)
  have hmover : (s.wipe r).mover = s.mover := (congrArg State.mover (s.wipe_keeps r) :)
  obtain ⟨hgranules, hkeep, hpages⟩ := s.cat.unlist_keeps r
  rw [State.giveBack_eq, hcat, hmover]
  refine ⟨(congrArg Cat.cards hkeep :), (congrArg Cat.leaves hkeep :), (congrArg Cat.releasing hkeep :), hgranules,
    fun p hp => ?_, fun g hg => ?_, s.wipe_onlyZeroes r, State.wipe_granuleZero, fun hz => ?_⟩
  · rw [hpages] at hp
    simpa using hp
  · simpa using hg
  · simp [State.wipe, hz]

/-! ## Every record that is due (R78) -/

/-- What record `r` released is free, and reads 0 where it must. -/
structure Freed (r : Released) (s : State) : Prop where
  granules : ∀ g ∈ r.granules, g ∉ s.cat.granules
  zeroed : r.zero = true → ∀ g ∈ r.granules, s.granuleZero g
  annex : ∀ g ∈ r.annex, g ∉ s.mover.granules
  pages : ∀ p ∈ r.pages, p ∉ s.cat.pages

theorem Returns.freed {r : Released} {s t : State} (h : Returns r s t) (w : Mem.wf s.mem = true) : Freed r t :=
  ⟨fun g hr hg => (h.granules g hg).2 hr, h.zeroed w, fun g hr hg => (h.annex g hg).2 hr, fun p hr hp => (h.pages p hp).2 hr⟩

/-- What is free stays free when another record returns. -/
theorem Freed.returns {q r : Released} {s t : State} (hq : Freed q s) (h : Returns r s t) (w : Mem.wf s.mem = true) : Freed q t :=
  ⟨fun g hr hg => hq.granules g hr (h.granules g hg).1, fun hz g hg => h.onlyZeroes.granuleZero w (hq.zeroed hz g hg),
    fun g hr hg => hq.annex g hr (h.annex g hg).1, fun p hr hp => hq.pages p hr (h.pages p hp).1⟩

theorem foldl_giveBack_freed {s : State} (rs : List Released) (w : Mem.wf s.mem = true) :
    ∀ r ∈ rs, Freed r (rs.foldl State.giveBack s) :=
  foldl_establishes (I := fun s => Mem.wf s.mem = true) (fun s r w => ((s.giveBack_returns r).onlyZeroes w).1)
    (fun s r w => (s.giveBack_returns r).freed w) (fun s r _ w hq => hq.returns (s.giveBack_returns r) w) rs w

theorem foldl_giveBack_keeps (s : State) (rs : List Released) :
    (rs.foldl State.giveBack s).cat.cards = s.cat.cards ∧ (rs.foldl State.giveBack s).cat.leaves = s.cat.leaves ∧
      (rs.foldl State.giveBack s).cat.releasing = s.cat.releasing :=
  foldl_keeps (P := fun t => t.cat.cards = s.cat.cards ∧ t.cat.leaves = s.cat.leaves ∧ t.cat.releasing = s.cat.releasing)
    (fun t r ⟨hcards, hleaves, hreleasing⟩ =>
      have h := t.giveBack_returns r
      ⟨h.cards.trans hcards, h.leaves.trans hleaves, h.releasing.trans hreleasing⟩)
    rs ⟨rfl, rfl, rfl⟩

theorem foldl_giveBack_mem {s : State} {rs : List Released} (h : ∀ r ∈ rs, r.zero = false) :
    (rs.foldl State.giveBack s).mem = s.mem := by
  induction rs generalizing s with
  | nil => rfl
  | cons r rs ih =>
    exact (ih fun q hq => h q (List.mem_cons_of_mem _ hq)).trans ((s.giveBack_returns r).mem (h r (by simp)))

/-- No walk is left that began at or before a row. -/
theorem State.walksPast_iff {s : State} {row : Nat} :
    s.walksPast row = true ↔ ∀ p ∈ s.work.cmds, p.2.walks = true → row < p.2.row := by
  simp [State.walksPast, imp_iff_not_or]

/-- Only what a walk may still see is left to wait. -/
def State.keepWaiting (s : State) : State :=
  { s with cat := { s.cat with releasing := s.cat.releasing.filter fun r => !s.walksPast r.row } }

theorem State.giveBackDue_eq (s : State) :
    s.giveBackDue = (s.cat.releasing.filter fun r => s.walksPast r.row).foldl State.giveBack s.keepWaiting := rfl

theorem State.giveBackDue_keeps (s : State) :
    s.giveBackDue.cat.cards = s.cat.cards ∧ s.giveBackDue.cat.leaves = s.cat.leaves ∧
      s.giveBackDue.cat.releasing = s.cat.releasing.filter fun r => !s.walksPast r.row :=
  foldl_giveBack_keeps s.keepWaiting _

/-- R78: what was released and no walk may still see is free, and no longer waits. -/
theorem State.giveBackDue_frees {s : State} (w : Mem.wf s.mem = true) {r : Released} (hr : r ∈ s.cat.releasing)
    (hpast : s.walksPast r.row = true) : r ∉ s.giveBackDue.cat.releasing ∧ Freed r s.giveBackDue := by
  obtain ⟨_, _, hreleasing⟩ := s.giveBackDue_keeps
  refine ⟨by simp [hreleasing, hpast], ?_⟩
  have hdue : r ∈ s.cat.releasing.filter fun r => s.walksPast r.row := List.mem_filter.mpr ⟨hr, hpast⟩
  rw [State.giveBackDue_eq]
  exact foldl_giveBack_freed (s := s.keepWaiting) _ w r hdue

theorem State.giveBackDue_mem {s : State} (h : ∀ r ∈ s.cat.releasing, r.zero = false) : s.giveBackDue.mem = s.mem := by
  rw [State.giveBackDue_eq]
  exact foldl_giveBack_mem fun r hr => h r (List.mem_filter.mp hr).1

end Sys2Proof.Machine
end

section
/-! SUPPORT. The end of a Closing sequence (R70, R81): its shelfmarks go, and dropping references takes away no other and changes
no sequence. -/

namespace Sys2Proof.Machine

/-! ## Dropping references -/

/-- `t` has the shelfmarks and the sequences of `s`. -/
structure SameNames (s t : State) : Prop where
  leaves : t.cat.leaves = s.cat.leaves
  seqs : t.cat.seqs = s.cat.seqs

namespace SameNames

theorem refl (s : State) : SameNames s s := ⟨rfl, rfl⟩

/-- A change that reaches neither. -/
theorem quiet {s t : State} (hleaves : t.cat.leaves = s.cat.leaves := by rfl) (hseqs : t.cat.seqs = s.cat.seqs := by rfl) :
    SameNames s t := ⟨hleaves, hseqs⟩

theorem trans {s t u : State} (a : SameNames s t) (b : SameNames t u) : SameNames s u :=
  ⟨b.leaves.trans a.leaves, b.seqs.trans a.seqs⟩

theorem foldl {α : Type} (f : State → α → State) (h : ∀ s x, SameNames s (f s x)) (l : List α) (s : State) :
    SameNames s (l.foldl f s) :=
  foldl_keeps (P := SameNames s) (fun t x hst => hst.trans (h t x)) l (refl s)

theorem ite {s t u : State} {c : Prop} [Decidable c] (a : SameNames s t) (b : SameNames s u) :
    SameNames s (if c then t else u) := by
  split
  · exact a
  · exact b

theorem send (s : State) (m : Sent) : SameNames s (s.send m) :=
  ⟨(congrArg Cat.leaves (OnlyOut.send s m).cat :), (congrArg Cat.seqs (OnlyOut.send s m).cat :)⟩

theorem changeCard (s : State) (n : Nat) (f : Card → Card) : SameNames s (s.changeCard n f) := by
  unfold State.changeCard
  split
  · exact ite quiet quiet
  · exact refl s

theorem sendRelease (s : State) (l slot n : Nat) (c : Card) : SameNames s (s.sendRelease l slot n c) :=
  (send s _).trans (ite (refl _) quiet)

theorem unreserve (s : State) (m : Move) : SameNames s (s.unreserve m) := by
  unfold State.unreserve
  split
  · exact foldl _ (fun _ _ => quiet) _ _
  · exact quiet

theorem releaseAcks (s : State) (m : Move) : SameNames s (s.releaseAcks m) := by
  unfold State.releaseAcks
  split
  · refine foldl _ (fun s a => ?_) _ _
    split
    · exact sendRelease _ _ _ _ _
    · exact refl s
  · exact refl s

theorem endMove (s : State) (m : Nat) (how : MoveEnd) : SameNames s (s.endMove m how) := by
  unfold State.endMove
  split
  · exact refl s
  · extract_lets n mover unqueued unpinned
    have h : SameNames unqueued unpinned := foldl _ (fun _ _ => quiet) _ _
    exact ⟨h.leaves, h.seqs⟩

theorem abandonMoves (s : State) (card : Nat) : SameNames s (s.abandonMoves card) :=
  foldl _ (fun s (p : Nat × Move) => (((endMove s p.1 .passed).trans (unreserve _ p.2)).trans (releaseAcks _ p.2)).trans
    (foldl _ (fun s n => changeCard s n Card.settle) _ _)) _ s

theorem dropAnnexCopy (s : State) (card : Nat) : SameNames s (s.dropAnnexCopy card) := by
  unfold State.dropAnnexCopy
  split
  · exact refl s
  · exact quiet

theorem freeLeaf (s : State) (n : Nat) : SameNames s (s.freeLeaf n) := by
  unfold State.freeLeaf
  split
  · exact refl s
  · extract_lets moved dropped sent
    have hsent : SameNames dropped sent := by
      simp only [sent]
      split
      · exact sendRelease _ _ _ _ _
      · exact refl _
    have h := ((abandonMoves s n).trans (dropAnnexCopy _ n)).trans hsent
    exact ⟨h.leaves, h.seqs⟩

theorem dropRef (s : State) (n : Nat) : SameNames s (s.dropRef n) := by
  unfold State.dropRef
  split
  · exact refl s
  · exact ite (changeCard _ _ _) (freeLeaf _ _)

end SameNames

/-! ## The shelfmarks of a sequence -/

/-- Take shelfmarks away, with their references. -/
def State.dropNames (s : State) (l : List (Nat × Nat)) : State := l.foldl (fun s p => (s.setEntry p.1 none).dropRef p.2) s

theorem State.dropNames_mem (s : State) (l : List (Nat × Nat)) : (s.dropNames l).mem = s.mem :=
  foldl_keeps (P := fun t => t.mem = s.mem) (fun t p h => ((SameRun.dropRef _ p.2).mem.trans (t.setEntry_mem p.1 none)).trans h)
    l rfl

theorem State.dropNames_seqs (s : State) (l : List (Nat × Nat)) : (s.dropNames l).cat.seqs = s.cat.seqs :=
  foldl_keeps (P := fun t => t.cat.seqs = s.cat.seqs) (fun t p h => (SameNames.dropRef (t.setEntry p.1 none) p.2).seqs.trans h)
    l rfl

/-- The shelfmarks that are left were there before, and are none of those taken away. -/
theorem State.mem_leaves_dropNames {s : State} {l : List (Nat × Nat)} {x : Nat × Nat} (hx : x ∈ (s.dropNames l).cat.leaves) :
    x ∈ s.cat.leaves ∧ ∀ p ∈ l, x.1 ≠ p.1 := by
  induction l generalizing s with
  | nil => exact ⟨hx, fun _ h => nomatch h⟩
  | cons p l ih =>
    obtain ⟨hrest, hne⟩ := ih hx
    rw [(SameNames.dropRef (s.setEntry p.1 none) p.2).leaves] at hrest
    obtain ⟨hmem, hp⟩ := Tbl.mem_erase (k := p.1) hrest
    exact ⟨hmem, fun q hq => (List.mem_cons.mp hq).elim (fun e => e ▸ hp) (hne q)⟩

theorem State.leavesOf_dropNames (s : State) (slot : Nat) : (s.dropNames (s.leavesOf slot)).leavesOf slot = [] := by
  refine List.filter_eq_nil_iff.mpr fun x hx hslot => ?_
  obtain ⟨hmem, hne⟩ := State.mem_leaves_dropNames hx
  exact hne x (List.mem_filter.mpr ⟨hmem, hslot⟩) rfl

/-! ## The slot -/

/-- A slot after its sequence: retired after its last generation, else Closed with the next (R70). -/
def Seq.ended (q : Seq) : Seq :=
  if q.generation = 0xFFF then { Seq.fresh with state := .retired, generation := 0xFFF }
  else { Seq.fresh with generation := q.generation + 1 }

/-- The tables of a slot are released. -/
def State.dropTables (s : State) (slot : Nat) : State :=
  let pages := (Tbl.get s.cat.dirPages (dirKey slot)).getD [] ++
    (s.cat.heads.filter fun p => headOf slot p.1).flatMap fun p => p.2.pages
  let s := (s.release (pageRelease s.row pages)).inShadow fun x => x.dropSeq slot
  { s with cat := { s.cat with
    dirPages := Tbl.erase s.cat.dirPages (dirKey slot)
    heads := s.cat.heads.filter fun p => !headOf slot p.1 } }

@[simp] theorem State.dropTables_mem (s : State) (slot : Nat) : (s.dropTables slot).mem = s.mem := rfl

@[simp] theorem State.leavesOf_dropTables (s : State) (slot x : Nat) : (s.dropTables slot).leavesOf x = s.leavesOf x := rfl

@[simp] theorem State.dropTables_seqs (s : State) (slot : Nat) : (s.dropTables slot).cat.seqs = s.cat.seqs := rfl

/-- R81: what the end of a Closing sequence without commands does. -/
theorem State.endSequence_of_closing {s : State} {slot : Nat} (hc : (s.seqAt slot).state = .closing)
    (h0 : s.seqInFlight slot = 0) :
    s.endSequence slot = ((s.dropNames (s.leavesOf slot)).dropTables slot).setSeq slot (s.seqAt slot).ended := by
  unfold State.endSequence
  rw [if_neg (by simp [hc, h0])]
  rfl

@[simp] theorem State.leavesOf_setSeq (s : State) (slot : Nat) (q : Seq) (x : Nat) :
    (s.setSeq slot q).leavesOf x = s.leavesOf x := rfl

theorem State.seqAt_setSeq_self (s : State) (slot : Nat) (q : Seq) : (s.setSeq slot q).seqAt slot = q := by
  simp [State.seqAt]

theorem State.seqAt_setSeq_ne (s : State) {slot x : Nat} (q : Seq) (h : x ≠ slot) : (s.setSeq slot q).seqAt x = s.seqAt x := by
  simp [State.seqAt, h]

end Sys2Proof.Machine
end

section
/-! SUPPORT. Compaction (R91, R92): how it starts, from its threshold or by COMPACT, and its swap. -/

namespace Sys2Proof.Machine

/-- `t` is `s` with a compaction begun: PHASE shows it, there is a shadow, and nothing else but registers has changed. -/
def Compacting (s t : State) : Prop :=
  t.fld rCompactPhase = 1 ∧ t.cat.shadow.isSome = true ∧
    { t with regs := s.regs, cat := { t.cat with shadow := s.cat.shadow } } = s

/-- No walk is left that began before the last swap. -/
def State.swapPast (s : State) : Prop := ∀ r, s.cat.swapRow = some r → s.walksPast (r - 1) = true

/-- Setting a field changes registers alone. -/
theorem State.setFld_frame (s : State) (f : Field) (v : Nat) (r : Tbl Word) (c : Cat) :
    { s.setFld f v with regs := r, cat := c } = { s with regs := r, cat := c } := rfl

theorem State.swapPast.putFields {s : State} (h : s.swapPast) (b o : Nat) (v : Word) : (s.putFields b o v).swapPast := h

theorem State.seqAt_setFld (s : State) (f : Field) (v k : Nat) : (s.setFld f v).seqAt k = s.seqAt k := rfl

/-- PHASE shows the value put there. -/
theorem State.fld_compactPhase_setFld (s : State) {v : Nat} (h : v < 4) : (s.setFld rCompactPhase v).fld rCompactPhase = v :=
  (State.fld_setFld_self s rCompactPhase v (by decide) (by decide)).trans (Nat.mod_eq_of_lt h)

/-- R91: with no compaction running and no walk before the last swap, one begins. -/
theorem State.compactBegin_starts {s : State} (hpast : s.swapPast) (hphase : s.fld rCompactPhase = 0) :
    Compacting s s.compactBegin := by
  have hbegin : s.compactBegin = { s with cat := { s.cat with shadow := some s.buildShadow } }.setFld rCompactPhase 1 := by
    unfold State.compactBegin
    cases hrow : s.cat.swapRow with
    | none => simp [hphase]
    | some r => simp [hphase, hpast r hrow]
  rw [hbegin]
  refine ⟨State.fld_compactPhase_setFld _ (by decide), by simp, ?_⟩
  rw [State.setFld_cat, State.setFld_frame]

/-- COMPACT takes what is written at once, and then does its operation. -/
theorem State.regWrite_compact {s : State} {path : Path} (v : Word) (h : s.reaches path true 0x050 0x048 = true) :
    s.regWrite path 0x050 0x048 v = (s.putFields 0x050 0x048 v).operate path 0x050 0x048 v :=
  State.regWrite_accepted v (by decide) h (.inl (by decide)) rfl

/-- The operation of COMPACT (R92). -/
theorem State.operate_compact (s : State) (path : Path) (v : Word) :
    s.operate path 0x050 0x048 v = if bits v 63 62 = 1 then s.compactBegin else s := by simp [State.operate, blockAt]

/-- PHASE of COMPACT is the hardware's. -/
theorem State.fld_compactPhase_putFields (s : State) (v : Word) :
    (s.putFields 0x050 0x048 v).fld rCompactPhase = s.fld rCompactPhase := by
  show bits ((s.putFields 0x050 0x048 v).stored 0x050 0x048) 61 60 = _
  rw [State.stored_putFields_self]
  exact (bits_setBits_disjoint _ _ (by decide) (by decide) (.inr (by decide))).trans
    (bits_setBits_disjoint _ _ (by decide) (by decide) (.inl (by decide)))

/-- What begins from a state that holds a written register begins from the state before. -/
theorem Compacting.of_putFields {s t : State} {b o : Nat} {v : Word} (h : Compacting (s.putFields b o v) t) : Compacting s t := by
  obtain ⟨hphase, hshadow, hframe⟩ := h
  exact ⟨hphase, hshadow, (congrArg (fun u : State => { u with regs := s.regs }) hframe :)⟩

/-- A start written to COMPACT begins a compaction on the state that holds the written register. -/
theorem State.opOnly_compact {s : State} {path : Path} (h : s.reaches path true 0x050 0x048 = true) :
    ∃ v, s.opOnly path 0x050 0x048 1 = (s.putFields 0x050 0x048 v).compactBegin := by
  refine ⟨s.opWord 0x050 0x048 63 62 1, ?_⟩
  rw [State.opOnly, State.regWrite_compact _ h, State.operate_compact, State.opWord,
    bits_setBits_self _ _ (by decide) (by decide)]
  exact if_pos (by decide)

theorem State.opOnly_compact_starts {s : State} {path : Path} (h : s.reaches path true 0x050 0x048 = true) (hpast : s.swapPast)
    (hphase : s.fld rCompactPhase = 0) : Compacting s (s.opOnly path 0x050 0x048 1) := by
  obtain ⟨v, hwritten⟩ := State.opOnly_compact h
  rw [hwritten]
  exact (State.compactBegin_starts (hpast.putFields 0x050 0x048 v) ((s.fld_compactPhase_putFields v).trans hphase)).of_putFields

/-- The state once the tables of a shadow have taken effect, but for PHASE (R91). -/
def State.swapped (s : State) (x : Shadow) : State :=
  { s with
    cat := { s.cat with
      seqs := Tbl.mapVals s.cat.seqs fun k q => { q with headDir := ((Tbl.get x.dirPages k).getD []).headD 0 }
      pages := x.pages
      dirPages := x.dirPages
      heads := x.heads
      shadow := none
      swapRow := some s.row
      releasing := s.cat.releasing.map fun r => { r with pages := [] } }
    index := { s.index with
      recordPages := x.records
      departing := s.index.departing.map fun d => { d with pages := [] } } }

/-- R91: the swap of a complete shadow at the first nanosecond of a row. -/
theorem State.compactSwap_of_complete {s : State} {x : Shadow} (hx : s.cat.shadow = some x) (hphase : s.fld rCompactPhase = 2)
    (hns : s.clock.ns = 0) : s.compactSwap = (s.swapped x).setFld rCompactPhase 0 := by
  unfold State.compactSwap
  rw [hx]
  exact if_neg (by simp [hphase, hns])

/-- A swap changes of a sequence the place of its head directory alone. -/
theorem State.seqAt_swapped (s : State) (x : Shadow) (k : Nat) :
    { (s.swapped x).seqAt k with headDir := (s.seqAt k).headDir } = s.seqAt k := by
  simp only [State.seqAt, State.swapped, Tbl.get_mapVals]
  cases Tbl.get s.cat.seqs k <;> rfl

end Sys2Proof.Machine
end

section
/-! The obligation O44 (R70, R78, R81, R91, R92). -/

namespace Sys2Proof.Machine

/-- R78: RESOURCE_RELEASE. -/
theorem resourceRelease_frees {s : State} (w : Mem.wf s.mem = true) :
    ∃ t, exec .resourceRelease s = .next t ∧ t.cat.cards = s.cat.cards ∧ t.cat.leaves = s.cat.leaves ∧
      (∀ r ∈ s.cat.releasing, (∀ p ∈ s.work.cmds, p.2.walks = true → r.row < p.2.row) → r ∉ t.cat.releasing ∧
        (∀ g ∈ r.granules, g ∉ t.cat.granules ∧ (r.zero = true → ∀ a, a / 16384 = g → Mem.get t.mem a = 0)) ∧
        (∀ g ∈ r.annex, g ∉ t.mover.granules) ∧ ∀ p ∈ r.pages, p ∉ t.cat.pages) ∧
      ((∀ r ∈ s.cat.releasing, r.zero = false) → t.mem = s.mem) := by
  obtain ⟨hcards, hleaves, _⟩ := s.giveBackDue_keeps
  refine ⟨s.giveBackDue, rfl, hcards, hleaves, fun r hr hwalks => ?_, State.giveBackDue_mem⟩
  obtain ⟨hnot, hfreed⟩ := State.giveBackDue_frees w hr (State.walksPast_iff.mpr hwalks)
  exact ⟨hnot, fun g hg => ⟨hfreed.granules g hg, fun hz => hfreed.zeroed hz g hg⟩, hfreed.annex, hfreed.pages⟩

/-- R70, R81: SEQUENCE_CLOSED. -/
theorem sequenceClosed_ends {s : State} {slot : Nat} (hc : (s.seqAt slot).state = .closing) (h0 : s.seqInFlight slot = 0) :
    ∃ t, exec (.sequenceClosed slot) s = .next t ∧ t.leavesOf slot = [] ∧ t.mem = s.mem ∧
      (∀ x, x ≠ slot → t.seqAt x = s.seqAt x) ∧
      (if (s.seqAt slot).generation = 0xFFF then (t.seqAt slot).state = .retired
       else (t.seqAt slot).state = .closed ∧ (t.seqAt slot).generation = (s.seqAt slot).generation + 1) := by
  refine ⟨_, congrArg Host.Outcome.next (State.endSequence_of_closing hc h0), ?_, ?_, fun x hx => ?_, ?_⟩
  · rw [State.leavesOf_setSeq, State.leavesOf_dropTables, State.leavesOf_dropNames]
  · rw [State.setSeq_mem, State.dropTables_mem, State.dropNames_mem]
  · rw [State.seqAt_setSeq_ne _ _ hx, State.seqAt, State.dropTables_seqs, State.dropNames_seqs, State.seqAt]
  · rw [State.seqAt_setSeq_self, Seq.ended]
    split
    · rfl
    · exact ⟨rfl, rfl⟩

/-- R91, R92: COMPACTION_AUTO_START below the threshold, and COMPACT. -/
theorem compaction_starts {s : State} {i : Instr} (hpast : s.swapPast) (hphase : s.fld rCompactPhase = 0)
    (hi : (i = .compactionAutoStart ∧ s.freePages < s.fld rCompactThreshold) ∨
      (∃ path, i = .compactStart path ∧ s.reaches path true 0x050 0x048 = true)) :
    ∃ t, exec i s = .next t ∧ Compacting s t := by
  obtain ⟨rfl, hlow⟩ | ⟨path, rfl, hreach⟩ := hi
  · exact ⟨s.compactBegin, congrArg Host.Outcome.next (if_pos hlow), State.compactBegin_starts hpast hphase⟩
  · exact ⟨_, rfl, State.opOnly_compact_starts hreach hpast hphase⟩

/-- R91: COMPACTION_SWAP. -/
theorem compactionSwap_takes_effect {s : State} {x : Shadow} (hx : s.cat.shadow = some x) (hphase : s.fld rCompactPhase = 2)
    (hns : s.clock.ns = 0) :
    ∃ t, exec .compactionSwap s = .next t ∧ t.fld rCompactPhase = 0 ∧ t.cat.shadow = none ∧ t.cat.pages = x.pages ∧
      t.cat.dirPages = x.dirPages ∧ t.cat.heads = x.heads ∧ t.index.recordPages = x.records ∧ t.cat.leaves = s.cat.leaves ∧
      t.cat.cards = s.cat.cards ∧ (∀ k, { t.seqAt k with headDir := (s.seqAt k).headDir } = s.seqAt k) ∧
      t.mem = s.mem ∧ t.out = s.out := by
  refine ⟨_, congrArg Host.Outcome.next (State.compactSwap_of_complete hx hphase hns),
    State.fld_compactPhase_setFld _ (by decide), ?_⟩
  rw [State.setFld_cat, State.setFld_index, State.setFld_mem, State.setFld_out]
  refine ⟨rfl, rfl, rfl, rfl, rfl, rfl, rfl, fun k => ?_, rfl, rfl⟩
  rw [State.seqAt_setFld, State.seqAt_swapped]

/-- Settles O44: the return of what was released, the end of a Closing sequence, and the start and swap of a compaction. -/
theorem catalogueBackground : Obligations.CatalogueBackground := by
  intro s hs
  exact ⟨resourceRelease_frees hs.mem, fun slot => sequenceClosed_ends, fun hpast hphase i => compaction_starts hpast hphase,
    fun x => compactionSwap_takes_effect⟩

end Sys2Proof.Machine
end

section
/-! The obligation O22 (R114, R214, R217). -/

namespace Sys2Proof.Machine

theorem State.dropKey_cat (s : State) (n : Nat) : (s.dropKey n).cat = s.cat := by
  obtain h | ⟨i, h⟩ := s.dropKey_cases n <;> rw [h]
  rfl

/-- Deciding a scheduled command leaves the catalogue. -/
theorem State.decide_cat {s : State} {n : Nat} {c : Cmd} (o : Outcome) (hc : s.cmd n = some c) (hr : c.result = none)
    (hcls : c.cls ≠ .l8) : (s.decide n o).cat = s.cat := by
  rw [State.decide_scheduled s n o hc hr hcls]
  exact s.dropKey_cat n

/-- A command that waits for its merge has no outcome yet. -/
theorem State.partsReady_result {s : State} {n : Nat} {c : Cmd} (h : s.partsReady n c = true) : c.result = none := by
  simp only [State.partsReady, Bool.and_eq_true, Option.isNone_iff_eq_none] at h
  tauto

/-- R217: a MERGE is decided by the merge of its inputs. -/
theorem State.mergeParts_of_mergeIn {s : State} {n : Nat} {c : Cmd} {b : MergeBody} (hc : s.cmd n = some c)
    (hready : s.partsReady n c = true) (hb : c.mergeIn = some b) : s.mergeParts n = s.decide n (mergeOutcome c.head b) := by
  simp [State.mergeParts, hc, hready, hb]

/-- R114, R214: an ATTEND or ATTEND_MULTI is decided by the merge of its partials. -/
theorem State.mergeParts_of_attn {s : State} {n : Nat} {c : Cmd} {b : AttnBody} (hc : s.cmd n = some c)
    (hready : s.partsReady n c = true) (hm : c.mergeIn = none) (hb : c.attn = some b) (hop : c.opcode ≠ opGrad) :
    s.mergeParts n = s.decide n (attnOutcome c b (s.cmdD c)) := by
  simp [State.mergeParts, hc, hready, hm, hb, hop]

/-- Settles O22: PARTIALS_MERGE decides the command, and a decision leaves memory and catalogue. -/
theorem partialsAreMerged : Obligations.PartialsAreMerged := by
  intro n c s _ hc hready hcls
  have hres := State.partsReady_result hready
  have decided {o : Outcome} (h : s.mergeParts n = s.decide n o) :
      ∃ t, exec (.partialsMerge n) s = .next t ∧ Decided t n o ∧ t.mem = s.mem ∧ t.cat = s.cat :=
    ⟨_, congrArg Host.Outcome.next h, Undecided.decide_self ⟨c, hc, rfl, hcls, hres⟩ o, (SameCourse.decide s n o).mem,
      State.decide_cat o hc hres hcls⟩
  exact ⟨fun b hb => decided (State.mergeParts_of_mergeIn hc hready hb),
    fun b hm hb hop => decided (State.mergeParts_of_attn hc hready hm hb hop)⟩

end Sys2Proof.Machine
end

section
/-! SUPPORT. Folds that write a block of cells: some columns of some rows, each cell once. -/

namespace Sys2Proof.Machine

/-- A cell's place, in rows of `w` cells, says its row and its column. -/
theorem rowMajor_inj {w a b x y : Nat} (hx : x < w) (hy : y < w) (h : w * a + x = w * b + y) : a = b ∧ x = y := by
  have hrow : a = b := by
    have := congrArg (· / w) h
    simpa [Nat.mul_add_div (Nat.zero_lt_of_lt hx), Nat.div_eq_of_lt hx, Nat.div_eq_of_lt hy] using this
  subst hrow
  exact ⟨rfl, Nat.add_left_cancel h⟩

variable {σ α ι : Type}

/-- Seen through `get`, `t` is `s` with the one cell `k` replaced by what `new` makes of it. -/
def CellWritten (get : σ → Nat → α) (k : Nat) (new : α → α) (s t : σ) : Prop :=
  ∀ x, get t x = if x = k then new (get s x) else get s x

/-- Seen through `get`, in rows of `w` cells, `t` is `s` with the cells of 32 columns from `col` on, in `n` rows from `row` on, each
replaced by what `new` makes of it. -/
structure BlockWritten (get : σ → Nat → α) (w row n col : Nat) (new : Nat → Nat → α → α) (s t : σ) : Prop where
  inside : ∀ j i, j < n → i < 32 → get t (w * (row + j) + (col + i)) = new j i (get s (w * (row + j) + (col + i)))
  outside : ∀ r p, p < w → (r < row ∨ row + n ≤ r ∨ p < col ∨ col + 32 ≤ p) → get t (w * r + p) = get s (w * r + p)

theorem CellWritten.refl {get : σ → Nat → α} (k : Nat) {new : α → α} {s : σ} (h : new (get s k) = get s k) :
    CellWritten get k new s s := by
  intro x
  split
  · rename_i e
    rw [e, h]
  · rfl

/-- A fold that writes each cell once: the cells of its list are written, and the others stay. -/
theorem foldl_writes_cells {get : σ → Nat → α} {key : ι → Nat} {new : ι → α → α} {f : σ → ι → σ}
    {I : σ → Prop} (hstep : ∀ s x, I s → I (f s x) ∧ CellWritten get (key x) (new x) s (f s x)) {l : List ι} (hl : (l.map key).Nodup) {s : σ}
    (hs : I s) : I (l.foldl f s) ∧ (∀ x ∈ l, get (l.foldl f s) (key x) = new x (get s (key x))) ∧
      ∀ k ∉ l.map key, get (l.foldl f s) k = get s k := by
  induction l generalizing s with
  | nil => exact ⟨hs, fun _ h => (List.not_mem_nil h).elim, fun _ _ => rfl⟩
  | cons y l ih =>
    obtain ⟨hy, hl⟩ := List.nodup_cons.mp hl
    obtain ⟨hkeep, hcell⟩ := hstep s y hs
    obtain ⟨hend, hin, hout⟩ := ih hl hkeep
    refine ⟨hend, fun x hx => ?_, fun k hk => ?_⟩
    · rcases List.mem_cons.mp hx with rfl | hx
      · exact (hout _ hy).trans ((hcell _).trans (if_pos rfl))
      · have hne : key x ≠ key y := fun e => hy (e ▸ List.mem_map_of_mem hx)
        rw [List.foldl_cons, hin x hx, hcell, if_neg hne]
    · obtain ⟨hky, hk⟩ := not_or.mp (mt List.mem_cons.mpr hk)
      exact (hout k hk).trans ((hcell k).trans (if_neg hky))

/-- A fold over rows and lanes that writes the cell of each, writes the block of them. -/
theorem foldl_writes_block {get : σ → Nat → α} {w row n col : Nat} {new : Nat → Nat → α → α} {f : σ → Nat × Nat → σ}
    {I : σ → Prop} (hcol : col + 32 ≤ w)
    (hstep : ∀ s j i, I s → I (f s (j, i)) ∧ CellWritten get (w * (row + j) + (col + i)) (new j i) s (f s (j, i)))
    {l : List (Nat × Nat)} (hl : l.Nodup) (hmem : ∀ x, x ∈ l ↔ x.1 < n ∧ x.2 < 32) {s : σ} (hs : I s) :
    I (l.foldl f s) ∧ BlockWritten get w row n col new s (l.foldl f s) := by
  have hkeys : (l.map fun x => w * (row + x.1) + (col + x.2)).Nodup := by
    refine hl.map_on fun x hx y hy e => ?_
    have hx2 := ((hmem x).mp hx).2
    have hy2 := ((hmem y).mp hy).2
    obtain ⟨hr, hc⟩ := rowMajor_inj (by omega) (by omega) e
    exact Prod.ext (Nat.add_left_cancel hr) (Nat.add_left_cancel hc)
  obtain ⟨hend, hin, hout⟩ := foldl_writes_cells (new := fun x => new x.1 x.2) (fun s x => hstep s x.1 x.2) hkeys hs
  refine ⟨hend, fun j i hj hi => hin (j, i) ((hmem _).mpr ⟨hj, hi⟩), fun r p hp hrp => hout _ fun h => ?_⟩
  obtain ⟨x, hx, e⟩ := List.mem_map.mp h
  obtain ⟨hx1, hx2⟩ := (hmem x).mp hx
  obtain ⟨hr, hc⟩ := rowMajor_inj (by omega) hp e
  omega

end Sys2Proof.Machine
end

section
/-! SUPPORT. Contexts: how an instruction that neither repeats, ends nor pauses moves its context on, and what writes of scores and of
lanes read back as. -/

namespace Sys2Proof.Machine

/-! ## Moving on (R123) -/

/-- An instruction that goes on with the next word and leaves its round as it is. -/
def SOp.plain : SOp → Bool
  | .rep _ _ | .endOp | .gmark => false
  | _ => true

/-- What an instruction makes of a running context, before it moves on. -/
def Ctx.worked (s : State) (l : CtxLeaf) (par : Params) (block : Nat) (c : Ctx) (o : SOp) : Ctx :=
  stitchOp s l par block { c with steps := c.steps + 1 } o

theorem Ctx.run_of_plain (s : State) (l : CtxLeaf) (par : Params) (block : Nat) {c : Ctx} {o : SOp} (hc : c.ended = false)
    (ho : o.plain = true) : c.run s l par block o = (c.worked s l par block o).advance := by
  unfold Ctx.run
  rw [if_neg (by simp [hc])]
  cases o with
  | rep _ _ | endOp | gmark => cases ho
  | _ => rfl

/-- A plain instruction that may execute changes its context alone. -/
theorem State.runOp_of_plain {s : State} {x : Nat} {c : Ctx} {l : CtxLeaf} {par : Params} {block : Nat} {o : SOp}
    (hrun : Running s x c l par block) (hmay : s.mayRun c o = true) (ho : o.plain = true) :
    s.runOp x o = withCtx s x (c.worked s l par block o).advance := by
  obtain ⟨hget, hended, henv⟩ := hrun
  rw [← Ctx.run_of_plain s l par block hended ho]
  simp only [State.runOp, hget, henv, hmay]
  cases o with
  | endOp | gmark => cases ho
  | _ => rfl

/-- A context with the program counter of `c` moves on to where `c` does, and nothing else of it changes. -/
theorem Ctx.advance_of_samePc {c d : Ctx} (hword : d.word = c.word) (hindex : d.index = c.index) (hrep : d.rep = c.rep) :
    d.advance = { d with word := c.advance.word, index := c.advance.index, rep := c.advance.rep } := by
  cases h : c.rep with
  | none => simp [Ctx.advance, hword, hindex, hrep, h]
  | some r =>
    simp only [Ctx.advance, hword, hrep, h]
    split
    · split <;> simp [hindex]
    · simp [hindex]

/-- `d` is `c` but for the data that an instruction may write. -/
structure SameOwner (c d : Ctx) : Prop where
  cmd : d.cmd = c.cmd
  item : d.item = c.item
  visit : d.visit = c.visit
  pos : d.pos = c.pos
  word : d.word = c.word
  index : d.index = c.index
  rep : d.rep = c.rep
  query : d.query = c.query
  ended : d.ended = c.ended
  turn : d.turn = c.turn
  steps : d.steps = c.steps

/-- A plain instruction that may execute changes its context alone, moves it on, and leaves of its data what it made of them. -/
theorem State.runOp_moves_on {s : State} {x : Nat} {c : Ctx} {l : CtxLeaf} {par : Params} {block : Nat} {o : SOp}
    (hrun : Running s x c l par block) (hmay : s.mayRun c o = true) (ho : o.plain = true)
    (hown : SameOwner { c with steps := c.steps + 1 } (c.worked s l par block o)) :
    ∃ c', (.next (s.runOp x o) : Out) = .next (withCtx s x c') ∧ Moved c c' ∧ SameData (c.worked s l par block o) c' := by
  refine ⟨_, congrArg Host.Outcome.next (State.runOp_of_plain hrun hmay ho), ?_⟩
  rw [Ctx.advance_of_samePc (c := c) hown.word hown.index hown.rep]
  exact ⟨⟨hown.cmd, hown.item, hown.visit, hown.pos, hown.query, hown.turn, hown.ended.trans hrun.2.1, hown.steps, rfl, rfl, rfl⟩,
    rfl, rfl, rfl, rfl, rfl, rfl, rfl⟩

/-! ## Rows and lanes -/

theorem Ctx.eachLane_eq_foldl (c : Ctx) (n : Nat) (f : Ctx → Nat → Nat → Ctx) :
    c.eachLane n f = (List.range n ×ˢ List.range 32).foldl (fun c x => f c x.1 x.2) c := by
  simp [Ctx.eachLane, SProd.sprod, List.product, List.foldl_flatMap, List.foldl_map]

theorem nodup_rangeProduct (n m : Nat) : (List.range n ×ˢ List.range m).Nodup := List.nodup_range.product List.nodup_range

theorem mem_rangeProduct {n m : Nat} (x : Nat × Nat) : x ∈ List.range n ×ˢ List.range m ↔ x.1 < n ∧ x.2 < m := by
  rw [List.mem_product, List.mem_range, List.mem_range]

/-- An instruction that works lane by lane, each time on a cell of the lane's own, writes the block of them. -/
theorem Ctx.eachLane_writes_block {α : Type} {get : Ctx → Nat → α} {w row n col : Nat} {new : Nat → Nat → α → α}
    {f : Ctx → Nat → Nat → Ctx} {I : Ctx → Prop} (hcol : col + 32 ≤ w)
    (hstep : ∀ d j i, I d → I (f d j i) ∧ CellWritten get (w * (row + j) + (col + i)) (new j i) d (f d j i)) {c : Ctx} (hc : I c) :
    I (c.eachLane n f) ∧ BlockWritten get w row n col new c (c.eachLane n f) := by
  rw [c.eachLane_eq_foldl]
  exact foldl_writes_block hcol hstep (nodup_rangeProduct n 32) mem_rangeProduct hc

/-! ## The score buffer and the vector registers -/

/-- An entry of a table, `z` where none is listed. -/
def entryOr {α : Type} (z : α) (t : Tbl α) (k : Nat) : α := (Tbl.get t k).getD z

theorem entryOr_set {α : Type} (z : α) (t : Tbl α) (k : Nat) {e : α} {new : α → α} (he : e = new (entryOr z t k)) :
    CellWritten (entryOr z) k new t (Tbl.set t k e) := by
  intro x
  rw [entryOr, Tbl.get_set]
  split
  · rename_i h
    rw [h]
    exact he
  · rfl

/-- An entry of the score buffer by its place in the table. -/
def Ctx.scoreAt (c : Ctx) : Nat → Score := entryOr ⟨fzero, false, none⟩ c.sb

/-- A lane of the vector registers by its place in the table. -/
def Ctx.laneAt (c : Ctx) : Nat → F32 := entryOr fzero c.v

theorem Ctx.score_eq (c : Ctx) (row pos : Nat) : c.score row pos = c.scoreAt (256 * row + pos) := rfl

theorem Ctx.lane_eq (c : Ctx) (r i : Nat) : c.lane r i = c.laneAt (32 * r + i) := rfl

/-- `d` is `c` but for its score buffer and the poison it has met. -/
def Rescored (c d : Ctx) : Prop := ∃ t p, d = { c with sb := t, poison := p }

/-- `d` is `c` but for its vector registers and the poison it has met. -/
def Relaned (c d : Ctx) : Prop := ∃ t p, d = { c with v := t, poison := p }

theorem Rescored.refl (c : Ctx) : Rescored c c := ⟨c.sb, c.poison, rfl⟩

theorem Relaned.refl (c : Ctx) : Relaned c c := ⟨c.v, c.poison, rfl⟩

theorem Rescored.sameOwner {c d : Ctx} (h : Rescored c d) : SameOwner c d := by
  obtain ⟨t, p, rfl⟩ := h
  constructor <;> rfl

theorem Relaned.sameOwner {c d : Ctx} (h : Relaned c d) : SameOwner c d := by
  obtain ⟨t, p, rfl⟩ := h
  constructor <;> rfl

/-! What a write of scores leaves as it was. -/

section
variable {c d : Ctx} (h : Rescored c d)
include h

theorem Rescored.masked (mk i : Nat) : d.masked mk i = c.masked mk i := by
  obtain ⟨t, p, rfl⟩ := h
  rfl

theorem Rescored.chunk (n : Nat) (ci : Bool) : d.chunk n ci = c.chunk n ci := by
  obtain ⟨t, p, rfl⟩ := h
  rfl

theorem Rescored.scalar (i : Nat) : d.scalar i = c.scalar i := by
  obtain ⟨t, p, rfl⟩ := h
  rfl

theorem Rescored.lane (r i : Nat) : d.lane r i = c.lane r i := by
  obtain ⟨t, p, rfl⟩ := h
  rfl

end

/-! What a write of lanes leaves as it was. -/

section
variable {c d : Ctx} (h : Relaned c d)
include h

theorem Relaned.masked (mk i : Nat) : d.masked mk i = c.masked mk i := by
  obtain ⟨t, p, rfl⟩ := h
  rfl

theorem Relaned.chunk (n : Nat) (ci : Bool) : d.chunk n ci = c.chunk n ci := by
  obtain ⟨t, p, rfl⟩ := h
  rfl

theorem Relaned.score (row pos : Nat) : d.score row pos = c.score row pos := by
  obtain ⟨t, p, rfl⟩ := h
  rfl

end

/-- A write of one entry, whatever poison is met with it. -/
theorem Rescored.write {c d : Ctx} (h : Rescored c d) (code : Option Nat) {row pos : Nat} {e : Score} {new : Score → Score}
    (he : e = new (d.score row pos)) : Rescored c ((d.meet code).setScore row pos e) ∧
      CellWritten Ctx.scoreAt (256 * row + pos) new d ((d.meet code).setScore row pos e) := by
  obtain ⟨t, p, rfl⟩ := h
  exact ⟨⟨_, _, rfl⟩, entryOr_set _ _ _ he⟩

/-- A write of one lane, whatever poison is met with it. -/
theorem Relaned.write {c d : Ctx} (h : Relaned c d) (code : Option Nat) {r i : Nat} {x : F32} {new : F32 → F32}
    (hx : x = new (d.lane r i)) : Relaned c { d.meet code with v := Tbl.set (d.meet code).v (32 * r + i) x } ∧
      CellWritten Ctx.laneAt (32 * r + i) new d { d.meet code with v := Tbl.set (d.meet code).v (32 * r + i) x } := by
  obtain ⟨t, p, rfl⟩ := h
  exact ⟨⟨_, _, rfl⟩, entryOr_set _ _ _ hx⟩

/-- What an instruction of the score buffer leaves of its context: its entries are written, and the other entries and all else stay. -/
theorem scores_of_written {c d c' : Ctx} {row n ch : Nat} {new : Nat → Nat → Score → Score}
    (hd : Rescored { c with steps := c.steps + 1 } d)
    (hw : BlockWritten Ctx.scoreAt 256 row n (32 * ch) new { c with steps := c.steps + 1 } d) (hdata : SameData d c') :
    (∀ j i, InRows row n ch j i → c'.score (row + j) (32 * ch + i) = new j i (c.score (row + j) (32 * ch + i))) ∧
    (∀ r p, p < 256 → (r < row ∨ row + n ≤ r ∨ p / 32 ≠ ch) → c'.score r p = c.score r p) ∧
    c'.s = c.s ∧ c'.v = c.v ∧ c'.acc = c.acc ∧ c'.m = c.m ∧ c'.emitted = c.emitted := by
  obtain ⟨hs, hv, hacc, hm, hsb, hemitted, _⟩ := hdata
  have hscore (r p : Nat) : c'.score r p = d.score r p := by
    rw [c'.score_eq, d.score_eq, Ctx.scoreAt, Ctx.scoreAt, hsb]
  have hcol {p : Nat} (hp : p / 32 ≠ ch) : p < 32 * ch ∨ 32 * ch + 32 ≤ p := by omega
  obtain ⟨t, p, rfl⟩ := hd
  refine ⟨fun j i hji => (hscore _ _).trans (hw.inside j i hji.2.1 hji.2.2.1), fun r p hp hrp => ?_, hs, hv, hacc, hm, hemitted⟩
  exact (hscore r p).trans (hw.outside r p hp (hrp.imp id (Or.imp id hcol)))

/-- What an instruction of the vector registers leaves of its context: its lanes are written, and the other lanes and all else stay. -/
theorem lanes_of_written {c d c' : Ctx} {vr n : Nat} {new : Nat → Nat → F32 → F32}
    (hd : Relaned { c with steps := c.steps + 1 } d)
    (hw : BlockWritten Ctx.laneAt 32 vr n 0 new { c with steps := c.steps + 1 } d) (hdata : SameData d c') :
    (∀ j i, j < n → i < 32 → c'.lane (vr + j) i = new j i (c.lane (vr + j) i)) ∧
    (∀ r i, i < 32 → (r < vr ∨ vr + n ≤ r) → c'.lane r i = c.lane r i) ∧
    c'.s = c.s ∧ c'.sb = c.sb ∧ c'.acc = c.acc ∧ c'.m = c.m ∧ c'.emitted = c.emitted := by
  obtain ⟨hs, hv, hacc, hm, hsb, hemitted, _⟩ := hdata
  have hlane (r i : Nat) : c'.lane r i = d.lane r i := by
    rw [c'.lane_eq, d.lane_eq, Ctx.laneAt, Ctx.laneAt, hv]
  have hin := hw.inside
  simp only [Nat.zero_add] at hin
  obtain ⟨t, p, rfl⟩ := hd
  refine ⟨fun j i hj hi => (hlane _ _).trans (hin j i hj hi), fun r i hi hr => ?_, hs, hsb, hacc, hm, hemitted⟩
  exact (hlane r i).trans (hw.outside r i hi (hr.imp id .inl))

end Sys2Proof.Machine
end

section
/-! The obligation O25 (R102, R124, R125, Table 5-4). -/

namespace Sys2Proof.Machine

variable (s : State) (l : CtxLeaf) (par : Params) (block : Nat) (c : Ctx)

/-! ## SSCL, SBIAS and SEXP -/

/-- `d` is `c` with the entries of an instruction's rows and chunk replaced by `new`, and perhaps poison met. -/
def ScoresWritten (row n ch : Nat) (new : Nat → Nat → Score → Score) (c d : Ctx) : Prop :=
  Rescored c d ∧ BlockWritten Ctx.scoreAt 256 row n (32 * ch) new c d

/-- SSCL and SBIAS: an entry in a lane of the mask takes the value that `f` makes of its own. -/
def maskedScore (c : Ctx) (mk i : Nat) (f : F32 → F32) (e : Score) : Score :=
  if c.masked mk i then { e with value := f e.value } else e

/-- SBIAS: what an entry is raised by, for the position's distance from the query's (R103). -/
def scoreBias (par : Params) (c : Ctx) (row j pos : Nat) : F32 :=
  fmul (par.slopes.getD ((c.scalar 5).toNat + row + j) fzero) (fint (c.scalar 1 + pos - c.scalar 0))

/-- SEXP: an entry in a lane of the mask takes the probability and VISIBLE; the others are cleared. -/
def expScore (c : Ctx) (mk vr : Nat) (j i : Nat) (e : Score) : Score :=
  if c.masked mk i then { e with value := fexp2 (fsub e.value (c.lane (vr + j) 0)), visible := true } else ⟨fzero, false, none⟩

variable {c} in
theorem Rescored.write_masked {d : Ctx} (hd : Rescored c d) (mk i row pos : Nat) (code : Option Nat) (f : F32 → F32) :
    let d' := if c.masked mk i then
        (d.meet code).setScore row pos { d.score row pos with value := f (d.score row pos).value }
      else d
    Rescored c d' ∧ CellWritten Ctx.scoreAt (256 * row + pos) (maskedScore c mk i f) d d' := by
  by_cases h : c.masked mk i = true
  · simp only [if_pos h]
    exact hd.write _ (if_pos h).symm
  · simp only [if_neg h]
    exact ⟨hd, .refl _ (if_neg h)⟩

theorem sscl_writes (row n cn : Nat) (ci : Bool) (mk : Nat) (hch : c.chunk cn ci < 8) :
    ScoresWritten row n (c.chunk cn ci) (fun _ i => maskedScore c mk i fun x => fmul x par.scoreScale) c
      (stitchOp s l par block c (.sscl row n cn ci mk)) := by
  refine Ctx.eachLane_writes_block (by omega) (fun d j i hd => ?_) (Rescored.refl c)
  simp only [hd.masked, hd.chunk]
  exact hd.write_masked mk i (row + j) (32 * c.chunk cn ci + i) _ fun x => fmul x par.scoreScale

theorem sbias_writes (row n cn : Nat) (ci : Bool) (mk : Nat) (hch : c.chunk cn ci < 8) :
    ScoresWritten row n (c.chunk cn ci)
      (fun j i => maskedScore c mk i fun x => fadd x (scoreBias par c row j (32 * c.chunk cn ci + i))) c
      (stitchOp s l par block c (.sbias row n cn ci mk)) := by
  refine Ctx.eachLane_writes_block (by omega) (fun d j i hd => ?_) (Rescored.refl c)
  simp only [hd.masked, hd.chunk, hd.scalar]
  exact hd.write_masked mk i (row + j) (32 * c.chunk cn ci + i) _ fun x =>
    fadd x (scoreBias par c row j (32 * c.chunk cn ci + i))

theorem Ctx.meet_none : c.meet none = c := by
  unfold Ctx.meet
  cases h : c.poison <;> exact congrArg (fun p => { c with poison := p }) h.symm

theorem sexp_writes (vr row n cn : Nat) (ci : Bool) (mk : Nat) (hch : c.chunk cn ci < 8) :
    ScoresWritten row n (c.chunk cn ci) (expScore c mk vr) c (stitchOp s l par block c (.sexp vr row n cn ci mk)) := by
  refine Ctx.eachLane_writes_block (by omega) (fun d j i hd => ?_) (Rescored.refl c)
  simp only [hd.masked, hd.chunk, hd.lane]
  by_cases h : c.masked mk i = true
  · simp only [if_pos h]
    exact hd.write _ (if_pos h).symm
  · simp only [if_neg h]
    have hclear := hd.write none (row := row + j) (pos := 32 * c.chunk cn ci + i) (new := expScore c mk vr j i) (if_neg h).symm
    rwa [Ctx.meet_none] at hclear

/-! ## KDOT (R125) -/

/-- What KDOT makes of the entry of a query head and a position. -/
def kdotScore (hf add : Bool) (head pos : Nat) (e : Score) : Score :=
  if c.scalar 2 ≤ (pos : Nat) then { e with value := fzero, mark := if add then e.mark else none }
  else
    let key := s.keyAt (l.half hf) l.fmt l.d pos
    let query := ((c.query.getD head []).drop (if hf then l.d else 0)).take l.d
    let y := if add then fadd e.value (dot query key.1 l.d) else dot query key.1 l.d
    let mark := lowCode (lowCode key.2 (if query.all ffinite then none else some 3)) (badResult y)
    { e with value := y, mark := if add then lowCode e.mark mark else mark }

/-- KDOT's write of one entry in a table of scores. -/
def kdotStep (row ch : Nat) (hf add : Bool) (q : Nat) (t : Tbl Score) (x : Nat × Nat) : Tbl Score :=
  let k := 256 * (row + x.1) + (32 * ch + x.2)
  Tbl.set t k (kdotScore s l c hf add (q + x.1) (32 * ch + x.2) (entryOr ⟨fzero, false, none⟩ t k))

/-- KDOT acts on the score buffer alone, position by position. -/
theorem kdotOp_eq (row n ch : Nat) (hf add : Bool) (q : Nat) :
    kdotOp s l c row n ch hf add q = { c with
      sb := ((List.range 32 ×ˢ List.range n).map Prod.swap).foldl (kdotStep s l c row ch hf add q) c.sb } := by
  simp only [SProd.sprod, List.product, List.map_flatMap, List.foldl_flatMap, List.foldl_map]
  unfold kdotOp
  refine List.foldl_hom (fun t : Tbl Score => ({ c with sb := t } : Ctx)) fun t i => ?_
  have hscalar : ({ c with sb := t } : Ctx).scalar 2 = c.scalar 2 := rfl
  by_cases h : c.scalar 2 ≤ ((32 * ch + i : Nat) : Int)
  · simp only [hscalar, if_pos h]
    refine List.foldl_hom (fun t : Tbl Score => ({ c with sb := t } : Ctx)) fun t j => ?_
    simp only [kdotStep, kdotScore, Prod.swap, if_pos h]
    rfl
  · simp only [hscalar, if_neg h]
    refine List.foldl_hom (fun t : Tbl Score => ({ c with sb := t } : Ctx)) fun t j => ?_
    simp only [kdotStep, kdotScore, Prod.swap, if_neg h]
    rfl

theorem kdotStep_writes_block {row n ch : Nat} (hf add : Bool) (q : Nat) (hch : ch < 8) (t : Tbl Score) :
    BlockWritten (entryOr ⟨fzero, false, none⟩) 256 row n (32 * ch) (fun j i => kdotScore s l c hf add (q + j) (32 * ch + i)) t
      (((List.range 32 ×ˢ List.range n).map Prod.swap).foldl (kdotStep s l c row ch hf add q) t) := by
  have hmem (x : Nat × Nat) : x ∈ (List.range 32 ×ˢ List.range n).map Prod.swap ↔ x.1 < n ∧ x.2 < 32 := by
    rw [List.mem_map_swap, mem_rangeProduct, and_comm]
  refine (foldl_writes_block (I := fun _ => True) (by omega) (fun t j i _ => ⟨trivial, ?_⟩)
    ((nodup_rangeProduct 32 n).map Prod.swap_injective) hmem trivial).2
  exact entryOr_set _ t _ rfl

theorem kdot_writes (row n cn : Nat) (ci hf add : Bool) (q : Nat) (hch : c.chunk cn ci < 8) :
    ScoresWritten row n (c.chunk cn ci) (fun j i => kdotScore s l c hf add (q + j) (32 * c.chunk cn ci + i)) c
      (stitchOp s l par block c (.kdot row n cn ci hf add q)) := by
  rw [stitchOp, kdotOp_eq]
  have hblock := kdotStep_writes_block s l c (row := row) (n := n) hf add q hch c.sb
  exact ⟨⟨_, _, rfl⟩, hblock.inside, hblock.outside⟩

theorem kdot_poison (row n cn : Nat) (ci hf add : Bool) (q : Nat) :
    (stitchOp s l par block c (.kdot row n cn ci hf add q)).poison = c.poison := by
  rw [stitchOp, kdotOp_eq]

/-! ## SMAX -/

/-- SMAX: a lane of the mask is raised to its score. -/
def maxLane (mk row ch j i : Nat) (x : F32) : F32 :=
  if c.masked mk i then fmax x (c.score (row + j) (32 * ch + i)).value else x

theorem smax_writes (vr row n cn : Nat) (ci : Bool) (mk : Nat) :
    Relaned c (stitchOp s l par block c (.smax vr row n cn ci mk)) ∧
      BlockWritten Ctx.laneAt 32 vr n 0 (maxLane c mk row (c.chunk cn ci)) c (stitchOp s l par block c (.smax vr row n cn ci mk)) := by
  refine Ctx.eachLane_writes_block (Nat.le_refl 32) (fun d j i hd => ?_) (Relaned.refl c)
  rw [Nat.zero_add]
  simp only [hd.masked, hd.chunk, hd.score]
  by_cases h : c.masked mk i = true
  · simp only [if_pos h]
    exact hd.write _ (if_pos h).symm
  · simp only [if_neg h]
    exact ⟨hd, .refl _ (if_neg h)⟩

/-! ## The obligation -/

variable {s l par block c}

/-- What an instruction writes of the score buffer is all that it changes but its place in the program and the poison. -/
theorem runOp_of_scoresWritten {x row n ch : Nat} {o : SOp} {new : Nat → Nat → Score → Score} (hrun : Running s x c l par block)
    (hmay : s.mayRun c o = true) (ho : o.plain = true)
    (hw : ScoresWritten row n ch new { c with steps := c.steps + 1 } (c.worked s l par block o)) :
    ∃ c', (.next (s.runOp x o) : Out) = .next (withCtx s x c') ∧ Moved c c' ∧
      (∀ j i, InRows row n ch j i → c'.score (row + j) (32 * ch + i) = new j i (c.score (row + j) (32 * ch + i))) ∧
      (∀ r p, p < 256 → (r < row ∨ row + n ≤ r ∨ p / 32 ≠ ch) → c'.score r p = c.score r p) ∧
      c'.s = c.s ∧ c'.v = c.v ∧ c'.acc = c.acc ∧ c'.m = c.m ∧ c'.emitted = c.emitted := by
  obtain ⟨hd, hblock⟩ := hw
  obtain ⟨c', hexec, hmoved, hdata⟩ := State.runOp_moves_on hrun hmay ho hd.sameOwner
  exact ⟨c', hexec, hmoved, scores_of_written hd hblock hdata⟩

/-- Settles O25: each instruction works lane by lane, and each lane writes an entry of its own from what the context held before. -/
theorem scoreInstructions : Obligations.ScoreInstructions := by
  constructor
  · intro s x c l par block vr row n cn mk ci ch hrun hch _
    refine ⟨fun hmay => ?sscl, fun hmay => ?sbias, fun hmay => ?sexp⟩
    case sscl => exact runOp_of_scoresWritten hrun hmay rfl (sscl_writes s l par block _ row n cn ci mk hch)
    case sbias => exact runOp_of_scoresWritten hrun hmay rfl (sbias_writes s l par block _ row n cn ci mk hch)
    case sexp => exact runOp_of_scoresWritten hrun hmay rfl (sexp_writes s l par block _ vr row n cn ci mk hch)
  · intro s x c l par block vr row n cn mk q ci hf add ch hrun hch _
    refine ⟨fun hmay => ?kdot, fun hmay => ?smax⟩
    case kdot =>
      obtain ⟨hd, hblock⟩ := kdot_writes s l par block { c with steps := c.steps + 1 } row n cn ci hf add q hch
      obtain ⟨c', hexec, hmoved, hdata⟩ := State.runOp_moves_on hrun hmay rfl hd.sameOwner
      obtain ⟨hin, hout, hs, hv, hacc, hm, hemitted⟩ := scores_of_written hd hblock hdata
      obtain ⟨_, _, _, _, _, _, hpoison⟩ := hdata
      exact ⟨c', hexec, hmoved, fun j i hji hpos => (hin j i hji).trans (if_pos hpos),
        fun j i hji hpos => (hin j i hji).trans (if_neg (not_le.mpr hpos)), hout, hs, hv, hacc, hm, hemitted,
        hpoison.trans (kdot_poison ..)⟩
    case smax =>
      obtain ⟨hd, hblock⟩ := smax_writes s l par block { c with steps := c.steps + 1 } vr row n cn ci mk
      obtain ⟨c', hexec, hmoved, hdata⟩ := State.runOp_moves_on hrun hmay rfl hd.sameOwner
      have hlanes := lanes_of_written hd hblock hdata
      exact ⟨c', hexec, hmoved, hlanes⟩

end Sys2Proof.Machine
end

section
/-! SUPPORT. What the instructions of contexts, and the pauses and ends of their rounds, come to where no host access waits. -/

namespace Sys2Proof

namespace Tbl

/-- A write leaves the records at the other keys. -/
theorem mem_set_of_mem {α : Type} {t : Tbl α} {k : Nat} {v : α} {p : Nat × α} (hp : p ∈ t) (hk : p.1 ≠ k) : p ∈ Tbl.set t k v := by
  induction t with
  | nil => cases hp
  | cons q t ih =>
    obtain ⟨k', v'⟩ := q
    unfold Tbl.set
    split
    · exact List.mem_cons_of_mem _ hp
    · rcases List.mem_cons.mp hp with rfl | hp
      · rw [if_neg (Ne.symm hk)]
        exact List.mem_cons_self ..
      · split
        · exact List.mem_cons_of_mem _ hp
        · exact List.mem_cons_of_mem _ (ih hp)

/-- Of a canonical table, a write leaves no record at its key but its own. -/
theorem mem_set_iff {α : Type} {t : Tbl α} {k : Nat} {v : α} {p : Nat × α} (w : Tbl.wf t = true) :
    p ∈ Tbl.set t k v ↔ p = (k, v) ∨ p ∈ t ∧ p.1 ≠ k := by
  have hself : (k, v) ∈ Tbl.set t k v := mem_of_get (get_set_self t k v)
  constructor
  · intro hp
    by_cases hk : p.1 = k
    · have hget := get_of_mem (wf_set w) hp
      rw [hk, get_set_self] at hget
      exact .inl (Prod.ext hk (Option.some.inj hget).symm)
    · exact .inr ⟨(mem_set hp).resolve_left fun e => hk (congrArg Prod.fst e), hk⟩
  · rintro (rfl | ⟨hp, hk⟩)
    · exact hself
    · exact mem_set_of_mem hp hk

theorem mem_erase_of_mem {α : Type} {t : Tbl α} {k : Nat} {p : Nat × α} (hp : p ∈ t) (hk : p.1 ≠ k) : p ∈ Tbl.erase t k := by
  induction t with
  | nil => cases hp
  | cons q t ih =>
    obtain ⟨k', v'⟩ := q
    unfold Tbl.erase
    rcases List.mem_cons.mp hp with rfl | hp
    · rw [if_neg hk]
      exact List.mem_cons_self ..
    · split
      · exact ih hp
      · exact List.mem_cons_of_mem _ (ih hp)

/-- What was written at a key is removed with it. -/
theorem erase_set_self {α : Type} (t : Tbl α) (k : Nat) (v : α) : Tbl.erase (Tbl.set t k v) k = Tbl.erase t k := by
  induction t with
  | nil => simp [Tbl.set, Tbl.erase]
  | cons q t ih =>
    obtain ⟨k', v'⟩ := q
    unfold Tbl.set
    split
    · simp [Tbl.erase]
    · split
      · rename_i hk
        simp [Tbl.erase, hk]
      · simp [Tbl.erase, ih]

/-- Removing records by their keys alone, of any table. -/
theorem get_filter_key {α : Type} (t : Tbl α) (p : Nat → Bool) (k : Nat) :
    Tbl.get (t.filter fun e => p e.1) k = if p k then t.get k else none := by
  induction t with
  | nil => simp
  | cons q t ih =>
    obtain ⟨k', v⟩ := q
    by_cases hk : k' = k
    · subst hk
      by_cases hp : p k' = true
      · simp [get_cons, hp]
      · simpa [get_cons, hp] using ih
    · by_cases hp : p k' = true
      · simp [get_cons, hp, hk, ih]
      · simp [get_cons, hp, hk, ih]

end Tbl

namespace Machine

theorem getD_setAt_self {α : Type} {l : List α} {i : Nat} (h : i < l.length) (f : α → α) (d : α) :
    (setAt l i f).getD i d = f (l.getD i d) := by
  rw [List.getD_eq_getElem?_getD, getElem?_setAt_self, List.getD_eq_getElem?_getD, List.getElem?_eq_getElem h]
  rfl

theorem getD_setAt_ne {α : Type} (l : List α) {i j : Nat} (h : j ≠ i) (f : α → α) (d : α) : (setAt l i f).getD j d = l.getD j d := by
  simp [List.getD_eq_getElem?_getD, h]

/-! ## REP, GMARK and END (R121, R123, R131) -/

/-- A context that has executed one more instruction. -/
def Ctx.stepped (c : Ctx) : Ctx := { c with steps := c.steps + 1 }

/-- A context that has executed an END. -/
def Ctx.finished (c : Ctx) : Ctx := { c.stepped with ended := true }

/-- A context that has executed a REP: it is in the body, in its first iteration. -/
def Ctx.entered (c : Ctx) (count len : Nat) : Ctx :=
  { c.stepped with word := c.word + 1, index := 0, rep := some ⟨c.word + 1, len, count - 1⟩ }

/-- An instruction of the program alone moves its context on and leaves its owner and its data. -/
theorem Ctx.moved_stepped_advance {c : Ctx} (hc : c.ended = false) : Moved c c.stepped.advance ∧ SameData c c.stepped.advance := by
  rw [Ctx.advance_of_samePc (c := c) (d := c.stepped) rfl rfl rfl]
  exact ⟨⟨rfl, rfl, rfl, rfl, rfl, rfl, hc, rfl, rfl, rfl, rfl⟩, rfl, rfl, rfl, rfl, rfl, rfl, rfl⟩

/-- A running context executes what its instruction is to do. -/
theorem Ctx.run_of_running (s : State) (l : CtxLeaf) (par : Params) (block : Nat) {c : Ctx} (hc : c.ended = false) :
    (∀ count len, c.run s l par block (.rep count len) = c.entered count len) ∧
    c.run s l par block .gmark = c.stepped.advance ∧ c.run s l par block .endOp = c.finished := by
  have hrun : ¬c.ended = true := by simp [hc]
  simp only [Ctx.run, if_neg hrun]
  exact ⟨fun _ _ => rfl, rfl, rfl⟩

section
variable {s : State} {x : Nat} {c : Ctx} {l : CtxLeaf} {par : Params} {block : Nat} (hrun : Running s x c l par block)
include hrun

theorem Ctx.ended_of_running : c.ended = false := by
  obtain ⟨_, hended, _⟩ := hrun
  exact hended

theorem State.runOp_rep {count len : Nat} (hmay : s.mayRun c (.rep count len) = true) :
    s.runOp x (.rep count len) = withCtx s x (c.entered count len) := by
  obtain ⟨hget, hended, henv⟩ := hrun
  obtain ⟨hrep, _⟩ := Ctx.run_of_running s l par block hended
  rw [← hrep]
  simp only [State.runOp, hget, henv, hmay]
  rfl

theorem State.runOp_gmark (hmay : s.mayRun c .gmark = true) {t : Nat} {r : Round} (hround : s.ctxRound c = some (t, r)) :
    s.runOp x .gmark = (withCtx s x c.stepped.advance).pauseWhenAll t c.turn (c.steps + 1) r := by
  obtain ⟨hget, hended, henv⟩ := hrun
  obtain ⟨_, hgmark, _⟩ := Ctx.run_of_running s l par block hended
  obtain ⟨⟨_, hitem, _, _, _, hturn, _, hsteps, _⟩, _⟩ := Ctx.moved_stepped_advance hended
  have hround' : (withCtx s x c.stepped.advance).ctxRound c.stepped.advance = some (t, r) := by
    rw [← hround]
    simp only [State.ctxRound, hitem]
    rfl
  rw [← hturn, ← hsteps]
  simp only [State.runOp, hget, henv, hmay, hgmark]
  simp only [withCtx] at hround' ⊢
  simp only [hround']
  rfl

theorem State.runOp_endOp (hmay : s.mayRun c .endOp = true) : s.runOp x .endOp = (withCtx s x c.finished).endCtx x c.finished block := by
  obtain ⟨hget, hended, henv⟩ := hrun
  obtain ⟨_, _, hend⟩ := Ctx.run_of_running s l par block hended
  rw [← hend]
  simp only [State.runOp, hget, henv, hmay]
  rfl

end

end Machine
end Sys2Proof
end

section
/-! SUPPORT. Rounds at whose stack no host access waits: what a pause and an end leave (R149, R154). -/

namespace Sys2Proof.Machine

/-- Nothing of the commands, contexts, memory and output has changed. -/
structure Undisturbed (s v : State) : Prop where
  work : v.work = s.work
  mem : v.mem = s.mem
  out : v.out = s.out

theorem Undisturbed.refl (s : State) : Undisturbed s s := ⟨rfl, rfl, rfl⟩

/-- The round in progress at a stack. -/
def State.roundAt (s : State) (t : Nat) : Option Round := (s.stackUnits[t]?).bind Stack.round

theorem State.roundAt_setStack (s : State) (t : Nat) (f : Stack → Stack) :
    (s.setStack t f).roundAt t = (s.stackUnits[t]?).bind fun k => (f k).round := by
  rw [State.roundAt, State.setStack_stackUnits, getElem?_setAt_self, Option.bind_map]
  rfl

theorem State.roundBusy_of_round {s : State} {t : Nat} {r : Round} (h : s.roundAt t = some r) :
    s.roundBusy t = s.work.ctxs.any fun y => r.items.contains y.2.item := by
  obtain ⟨k, hk, hr⟩ := Option.bind_eq_some_iff.mp h
  simp only [State.roundBusy, hk, hr]

theorem State.roundAt_of_ctxRound {s : State} {c : Ctx} {t : Nat} {r : Round} (h : s.ctxRound c = some (t, r)) :
    s.roundAt t = some r := by
  obtain ⟨i, _, h⟩ := Option.bind_eq_some_iff.mp h
  obtain ⟨r', hr, h⟩ := Option.bind_eq_some_iff.mp h
  split at h
  · cases h
    exact hr
  · cases h

/-- A context executes only in a round that is not paused (R149). -/
theorem State.not_paused_of_mayRun {s : State} {c : Ctx} {o : SOp} {t : Nat} {r : Round} (hmay : s.mayRun c o = true)
    (hround : s.ctxRound c = some (t, r)) : r.paused = false := by
  simp only [State.mayRun, hround, Bool.and_eq_true, Bool.not_eq_true'] at hmay
  obtain ⟨⟨hpaused, _⟩, _⟩ := hmay
  exact hpaused

section
variable {s : State} {t : Nat} (h : NoAccess s t)
include h

theorem State.queuedAccesses_of_noAccess : s.queuedAccesses t = [] := by
  obtain ⟨k, hk, hconflicts, _⟩ := h
  simp [State.queuedAccesses, hk, hconflicts]

theorem State.countWaits_of_noAccess : s.countWaits t = s := by
  rw [State.countWaits, State.queuedAccesses_of_noAccess h]
  rfl

theorem State.serveConflicts_of_noAccess : s.serveConflicts t = s.setStack t fun k => { k with conflicts := [] } := by
  rw [State.serveConflicts, State.queuedAccesses_of_noAccess h, State.countWaits_of_noAccess h]
  rfl

theorem State.endRound_of_noAccess : s.endRound t = s.setStack t fun k => { k with round := none, conflicts := [], held := [] } := by
  have hqueue := State.queuedAccesses_of_noAccess h
  have hwaits := State.countWaits_of_noAccess h
  obtain ⟨k, hk, _, hheld⟩ := h
  simp [State.endRound, hqueue, hwaits, hk, hheld]

theorem State.endRound_ends_of_noAccess : Undisturbed s (s.endRound t) ∧ (s.endRound t).roundAt t = none := by
  rw [State.endRound_of_noAccess h]
  refine ⟨⟨rfl, rfl, rfl⟩, ?_⟩
  rw [State.roundAt_setStack]
  exact Option.bind_eq_none_iff.mpr fun _ _ => rfl

theorem State.pauseRound_pauses_of_noAccess {r : Round} (hround : s.roundAt t = some r) (hp : r.paused = false) :
    Undisturbed s (s.pauseRound t) ∧ (s.pauseRound t).roundAt t = some { r with paused := true } := by
  have hserve := State.serveConflicts_of_noAccess h
  obtain ⟨k, hk, _, hheld⟩ := h
  have hk' : (s.setStack t fun k => { k with conflicts := [] }).stackUnits[t]? = some { k with conflicts := [] } := by
    rw [State.setStack_stackUnits, getElem?_setAt_self, hk]
    rfl
  have hround' : (s.stackUnits[t]?).bind Stack.round = some r := hround
  simp only [State.pauseRound, hround', hp, hserve, hk', hheld, joinHeld]
  exact ⟨⟨by simp, by simp, by simp⟩, by simp [State.roundAt, hk]⟩

end

/-- A GMARK or END that another NBU of the round has not executed pauses nothing. -/
theorem State.pauseWhenAll_of_behind {s : State} {t turn steps : Nat} {r : Round} {y : Nat × Ctx} (hy : y ∈ s.work.ctxs)
    (hin : r.items.contains y.2.item = true) (hturn : y.2.turn ≤ turn) (hsteps : y.2.steps < steps) :
    s.pauseWhenAll t turn steps r = s := by
  refine if_neg fun h => ?_
  have hpast := List.all_eq_true.mp h y hy
  simp only [hin, Bool.not_true, Bool.false_or, Bool.or_eq_true, decide_eq_true_eq] at hpast
  omega

/-- A GMARK or END that every NBU of the round has executed pauses it. -/
theorem State.pauseWhenAll_of_all {s : State} {t turn steps : Nat} {r : Round}
    (h : ∀ y ∈ s.work.ctxs, r.items.contains y.2.item = true → turn < y.2.turn ∨ steps ≤ y.2.steps) :
    s.pauseWhenAll t turn steps r = s.pauseRound t := by
  refine if_pos (List.all_eq_true.mpr fun y hy => ?_)
  cases hin : r.items.contains y.2.item with
  | false => rfl
  | true => simpa only [Bool.not_true, Bool.false_or, Bool.or_eq_true, decide_eq_true_eq] using h y hy hin

/-- Whether the other NBUs have executed it or not, the round stays. -/
theorem State.pauseWhenAll_stays_of_noAccess {s : State} {t : Nat} (h : NoAccess s t) (turn steps : Nat) {r : Round}
    (hround : s.roundAt t = some r) (hp : r.paused = false) :
    Undisturbed s (s.pauseWhenAll t turn steps r) ∧
      ∃ p, (s.pauseWhenAll t turn steps r).roundAt t = some { r with paused := p } := by
  unfold State.pauseWhenAll
  split
  · obtain ⟨hsame, hpaused⟩ := State.pauseRound_pauses_of_noAccess h hround hp
    exact ⟨hsame, true, hpaused⟩
  · exact ⟨.refl s, r.paused, hround⟩

end Sys2Proof.Machine
end

section
/-! The obligation O23 (R123, R131, R149, Table 5-4). -/

namespace Sys2Proof.Machine

section
variable {s : State} {x : Nat} {c : Ctx} {l : CtxLeaf} {par : Params} {block : Nat} (hrun : Running s x c l par block)
include hrun

/-- An instruction whose only effect on the data is to write a scalar register. -/
theorem runOp_writes_scalar {o : SOp} (hmay : s.mayRun c o = true) (ho : o.plain = true) {sd : Nat} (hsd : sd < c.s.length)
    {v : BitVec 32} (hw : c.worked s l par block o = { c.stepped with s := setAt c.s sd fun _ => v }) :
    ∃ c', (.next (s.runOp x o) : Out) = .next (withCtx s x c') ∧ Wrote c c' sd v := by
  have hown : SameOwner c.stepped (c.worked s l par block o) := by
    rw [hw]
    constructor <;> rfl
  obtain ⟨c', hexec, hmoved, hdata⟩ := State.runOp_moves_on hrun hmay ho hown
  rw [hw] at hdata
  obtain ⟨hs, hv, hacc, hm, hsb, hemitted, hpoison⟩ := hdata
  refine ⟨c', hexec, hmoved, ?_, ?_, fun i hi => ?_, hv, hacc, hm, hsb, hemitted, hpoison⟩
  · rw [hs, setAt_length]
  · rw [hs, getD_setAt_self hsd]
  · rw [hs, getD_setAt_ne _ hi]

theorem runOp_nop (hmay : s.mayRun c .nop = true) : (.next (s.runOp x .nop) : Out) = .next (withCtx s x c.stepped.advance) :=
  congrArg Host.Outcome.next (State.runOp_of_plain hrun hmay rfl)

/-- REP enters its body. -/
theorem runOp_enters_rep {count len : Nat} (hmay : s.mayRun c (.rep count len) = true) :
    ∃ c', (.next (s.runOp x (.rep count len)) : Out) = .next (withCtx s x c') ∧ SameData c c' ∧ c'.index = 0 ∧
      c'.word = c.word + 1 ∧ c'.rep = some ⟨c.word + 1, len, count - 1⟩ ∧ c'.steps = c.steps + 1 :=
  ⟨c.entered count len, congrArg Host.Outcome.next (State.runOp_rep hrun hmay), ⟨rfl, rfl, rfl, rfl, rfl, rfl, rfl⟩,
    rfl, rfl, rfl, rfl⟩

/-- GMARK while another NBU of the round has not executed it. -/
theorem runOp_gmark_goes_on (hmay : s.mayRun c .gmark = true) {t : Nat} {r : Round} (hround : s.ctxRound c = some (t, r))
    (hbehind : ∃ y ∈ s.work.ctxs, y.1 ≠ x ∧ r.items.contains y.2.item = true ∧ y.2.turn ≤ c.turn ∧ y.2.steps ≤ c.steps) :
    ∃ c', (.next (s.runOp x .gmark) : Out) = .next (withCtx s x c') ∧ SameData c c' ∧ Moved c c' := by
  obtain ⟨y, hy, hne, hin, hturn, hsteps⟩ := hbehind
  obtain ⟨hmoved, hdata⟩ := Ctx.moved_stepped_advance (Ctx.ended_of_running hrun)
  have hy' : y ∈ (withCtx s x c.stepped.advance).work.ctxs := Tbl.mem_set_of_mem hy hne
  refine ⟨c.stepped.advance, congrArg Host.Outcome.next ?_, hdata, hmoved⟩
  rw [State.runOp_gmark hrun hmay hround]
  exact State.pauseWhenAll_of_behind hy' hin hturn (Nat.lt_succ_of_le hsteps)

/-- GMARK of the last NBU of the round: it pauses. -/
theorem runOp_gmark_pauses (hwf : Tbl.wf s.work.ctxs = true) (hmay : s.mayRun c .gmark = true) {t : Nat} {r : Round}
    (hround : s.ctxRound c = some (t, r)) (hno : NoAccess s t)
    (hpast : ∀ y ∈ s.work.ctxs, y.1 ≠ x → r.items.contains y.2.item = true → c.turn < y.2.turn ∨ c.steps < y.2.steps) :
    ∃ v c', (.next (s.runOp x .gmark) : Out) = .next v ∧ v.work.ctxs = Tbl.set s.work.ctxs x c' ∧ SameData c c' ∧ Moved c c' ∧
      (v.stackUnits[t]?).bind Stack.round = some { r with paused := true } ∧ v.mem = s.mem ∧ v.out = s.out := by
  obtain ⟨hmoved, hdata⟩ := Ctx.moved_stepped_advance (Ctx.ended_of_running hrun)
  have ⟨_, _, _, _, _, _, _, hsteps, _⟩ := hmoved
  have hall : ∀ y ∈ (withCtx s x c.stepped.advance).work.ctxs, r.items.contains y.2.item = true →
      c.turn < y.2.turn ∨ c.steps + 1 ≤ y.2.steps := by
    intro y hy hin
    rcases (Tbl.mem_set_iff hwf).mp hy with rfl | ⟨hy, hne⟩
    · exact .inr (Nat.le_of_eq hsteps.symm)
    · exact hpast y hy hne hin
  have hno' : NoAccess (withCtx s x c.stepped.advance) t := hno
  have hround' : (withCtx s x c.stepped.advance).roundAt t = some r := State.roundAt_of_ctxRound hround
  obtain ⟨hsame, hpaused⟩ := State.pauseRound_pauses_of_noAccess hno' hround' (State.not_paused_of_mayRun hmay hround)
  refine ⟨_, c.stepped.advance, congrArg Host.Outcome.next ((State.runOp_gmark hrun hmay hround).trans
    (State.pauseWhenAll_of_all hall)), ?_, hdata, hmoved, hpaused, hsame.mem, hsame.out⟩
  rw [hsame.work]
  rfl

end

/-! ## The end of a REP body (R123) -/

theorem Ctx.advance_of_no_rep {c : Ctx} (h : c.rep = none) : c.advance = { c with word := c.word + 1 } := by
  simp only [Ctx.advance, h]

section
variable {c : Ctx} {r : Rep} (h : c.rep = some r)
include h

theorem Ctx.advance_inside_rep (hw : c.word + 1 ≠ r.start + r.len) : c.advance = { c with word := c.word + 1 } := by
  simp only [Ctx.advance, h, if_neg hw]

theorem Ctx.advance_next_iteration (hw : c.word + 1 = r.start + r.len) (hcount : 0 < r.count) :
    c.advance = { c with word := r.start, rep := some { r with count := r.count - 1 }, index := c.index + 1 } := by
  simp only [Ctx.advance, h, if_pos hw, if_neg (Nat.ne_of_gt hcount)]

theorem Ctx.advance_leaves_rep (hw : c.word + 1 = r.start + r.len) (hcount : r.count = 0) :
    c.advance = { c with word := c.word + 1, rep := none, index := 0 } := by
  simp only [Ctx.advance, h, if_pos hw, if_pos hcount]

end

/-- Settles O23: a plain instruction changes its context alone, and a GMARK that every NBU of the round has executed pauses it. -/
theorem scalarAndControlInstructions : Obligations.ScalarAndControlInstructions := by
  refine ⟨?writes, ?repEnds, ?gmark⟩
  case writes =>
    intro s x c l par block sd sa sb count len imm hrun _ hsd
    refine ⟨fun hmay => runOp_writes_scalar hrun hmay rfl hsd rfl, fun hmay => runOp_writes_scalar hrun hmay rfl hsd rfl,
      fun hmay => runOp_writes_scalar hrun hmay rfl hsd rfl, fun hmay => ?_, fun hmay => runOp_enters_rep hrun hmay⟩
    obtain ⟨hmoved, hdata⟩ := Ctx.moved_stepped_advance (Ctx.ended_of_running hrun)
    exact ⟨_, runOp_nop hrun hmay, hdata, hmoved⟩
  case repEnds =>
    intro s x c l par block hrun hmay
    have hnop := runOp_nop hrun hmay
    refine ⟨fun hrep => ⟨_, hnop, ?_⟩, fun r hrep => ⟨fun hw => ⟨_, hnop, ?_⟩, fun hw hcount => ⟨_, hnop, ?_⟩,
      fun hw hcount => ⟨_, hnop, ?_⟩⟩⟩
    · rw [Ctx.advance_of_no_rep (c := c.stepped) hrep]
      exact ⟨rfl, hrep⟩
    · rw [Ctx.advance_inside_rep (c := c.stepped) hrep hw]
      exact ⟨rfl, rfl, hrep⟩
    · rw [Ctx.advance_next_iteration (c := c.stepped) hrep hw hcount]
      exact ⟨rfl, rfl, rfl⟩
    · rw [Ctx.advance_leaves_rep (c := c.stepped) hrep hw hcount]
      exact ⟨rfl, rfl⟩
  case gmark =>
    intro s x c l par block t r hrun hwf hround hmay
    exact ⟨runOp_gmark_goes_on hrun hmay hround, fun hpast hno => runOp_gmark_pauses hrun hwf hmay hround hno hpast⟩

end Sys2Proof.Machine
end

section
/-! The obligation O24 (R123, Table 5-4). -/

namespace Sys2Proof.Machine

/-! ## The bits of a mask -/

/-- The sum of the powers of two below `n` whose exponents pass a test. -/
def bitsBelow (p : Nat → Prop) [DecidablePred p] (n : Nat) : Nat :=
  (List.range n).foldl (fun b i => if p i then b + 2 ^ i else b) 0

section
variable (p : Nat → Prop) [DecidablePred p]

theorem bitsBelow_succ (n : Nat) : bitsBelow p (n + 1) = if p n then bitsBelow p n + 2 ^ n else bitsBelow p n := by
  rw [bitsBelow, List.range_succ, List.foldl_concat]
  rfl

theorem bitsBelow_lt (n : Nat) : bitsBelow p n < 2 ^ n := by
  induction n with
  | zero => exact Nat.one_pos
  | succ n ih =>
    rw [bitsBelow_succ, Nat.pow_succ]
    split <;> omega

theorem testBit_bitsBelow {n i : Nat} (hi : i < n) : (bitsBelow p n).testBit i = decide (p i) := by
  induction n with
  | zero => exact absurd hi (Nat.not_lt_zero i)
  | succ n ih =>
    have hlt := bitsBelow_lt p n
    rw [bitsBelow_succ]
    rcases Nat.lt_succ_iff_lt_or_eq.mp hi with hin | rfl
    · split
      · rw [Nat.add_comm, Nat.testBit_two_pow_add_gt hin, ih hin]
      · exact ih hin
    · have hclear : (bitsBelow p i).testBit i = false := Nat.testBit_lt_two_pow hlt
      split
      · rename_i hp
        rw [Nat.add_comm, Nat.testBit_two_pow_add_eq, hclear, decide_eq_true hp]
        rfl
      · rename_i hp
        rw [hclear, decide_eq_false hp]

end

/-! ## Masks -/

/-- An instruction whose only effect on the data is to write a mask. -/
theorem runOp_writes_mask {s : State} {x : Nat} {c : Ctx} {l : CtxLeaf} {par : Params} {block : Nat}
    (hrun : Running s x c l par block) {o : SOp} (hmay : s.mayRun c o = true) (ho : o.plain = true) {mk : Nat}
    (hmk : mk < c.m.length) {v : BitVec 32} (hw : c.worked s l par block o = { c.stepped with m := setAt c.m mk fun _ => v }) :
    ∃ c', (.next (s.runOp x o) : Out) = .next (withCtx s x c') ∧ Masked c c' mk v := by
  have hown : SameOwner c.stepped (c.worked s l par block o) := by
    rw [hw]
    constructor <;> rfl
  obtain ⟨c', hexec, hmoved, hdata⟩ := State.runOp_moves_on hrun hmay ho hown
  rw [hw] at hdata
  obtain ⟨hs, hv, hacc, hm, hsb, hemitted, hpoison⟩ := hdata
  refine ⟨c', hexec, hmoved, ?_, ?_, fun i hi => ?_, hv, hacc, hs, hsb, hemitted, hpoison⟩
  · rw [hm, setAt_length]
  · rw [hm, getD_setAt_self hmk]
  · rw [hm, getD_setAt_ne _ hi]

/-! ## Vector registers -/

/-- `d` is `c` but for its vector registers. -/
def OnlyLanes (c d : Ctx) : Prop := ∃ t, d = { c with v := t }

theorem OnlyLanes.relaned {c d : Ctx} (h : OnlyLanes c d) : Relaned c d := by
  obtain ⟨t, rfl⟩ := h
  exact ⟨t, c.poison, rfl⟩

theorem OnlyLanes.poison {c d : Ctx} (h : OnlyLanes c d) : d.poison = c.poison := by
  obtain ⟨t, rfl⟩ := h
  rfl

/-- A register with one value in every lane. -/
def Ctx.fillRegister (c : Ctx) (r : Nat) (x : F32) : Ctx :=
  (List.range 32).foldl (fun d i => { d with v := Tbl.set d.v (32 * r + i) x }) c

/-- Each of `n` registers from `vr` on filled with its value. -/
def Ctx.fillLanes (c : Ctx) (vr n : Nat) (f : Nat → F32) : Ctx :=
  (List.range n).foldl (fun d j => d.fillRegister (vr + j) (f j)) c

theorem Ctx.fillLanes_eq_eachLane (c : Ctx) (vr n : Nat) (f : Nat → F32) :
    c.fillLanes vr n f = c.eachLane n fun d j i => { d with v := Tbl.set d.v (32 * (vr + j) + i) (f j) } := rfl

theorem Ctx.fillLanes_writes (c : Ctx) (vr n : Nat) (f : Nat → F32) :
    OnlyLanes c (c.fillLanes vr n f) ∧ BlockWritten Ctx.laneAt 32 vr n 0 (fun j _ _ => f j) c (c.fillLanes vr n f) := by
  rw [c.fillLanes_eq_eachLane]
  refine Ctx.eachLane_writes_block (Nat.le_refl 32) (fun d j i hd => ?_) ⟨c.v, rfl⟩
  rw [Nat.zero_add]
  obtain ⟨t, rfl⟩ := hd
  exact ⟨⟨_, rfl⟩, entryOr_set fzero t _ (new := fun _ => f j) rfl⟩

theorem Ctx.fillLanes_succ (c : Ctx) (vr n : Nat) (f : Nat → F32) :
    c.fillLanes vr (n + 1) f = (c.fillLanes vr n f).fillRegister (vr + n) (f n) := by
  rw [Ctx.fillLanes, List.range_succ, List.foldl_concat, Ctx.fillLanes]

/-- The largest lane of a register. -/
def Ctx.maxOfRegister (c : Ctx) (r : Nat) : F32 := (List.range 32).foldl (fun m i => fmax m (c.lane r i)) (c.lane r 0)

theorem Ctx.maxOfRegister_congr {c d : Ctx} {r : Nat} (h : ∀ i, i < 32 → d.lane r i = c.lane r i) :
    d.maxOfRegister r = c.maxOfRegister r := by
  rw [Ctx.maxOfRegister, Ctx.maxOfRegister, h 0 (by decide)]
  refine List.foldl_ext _ _ _ fun m i hi => ?_
  rw [h i (List.mem_range.mp hi)]

theorem rmax_eq_foldl (s : State) (l : CtxLeaf) (par : Params) (block : Nat) (c : Ctx) (vr n : Nat) :
    stitchOp s l par block c (.rmax vr n) =
      (List.range n).foldl (fun d j => d.fillRegister (vr + j) (d.maxOfRegister (vr + j))) c := rfl

/-- RMAX takes each register's largest lane before it writes that register, so that each is the one held before. -/
theorem rmax_eq_fillLanes (s : State) (l : CtxLeaf) (par : Params) (block : Nat) (c : Ctx) (vr n : Nat) :
    stitchOp s l par block c (.rmax vr n) = c.fillLanes vr n fun j => c.maxOfRegister (vr + j) := by
  rw [rmax_eq_foldl]
  induction n with
  | zero => simp only [Ctx.fillLanes, List.range_zero, List.foldl_nil]
  | succ n ih =>
    obtain ⟨_, hblock⟩ := c.fillLanes_writes vr n fun j => c.maxOfRegister (vr + j)
    have hmax := Ctx.maxOfRegister_congr (c := c) (r := vr + n) fun i hi =>
      hblock.outside (vr + n) i hi (.inr (.inl (Nat.le_refl _)))
    rw [List.range_succ, List.foldl_concat, ih, hmax, Ctx.fillLanes_succ]

/-- VSET's constant (Table 5-4). -/
def vsetConstant (k : Nat) : F32 := if k = 0 then fzero else if k = 1 then fnegInf else fone

theorem vset_eq_fillLanes (s : State) (l : CtxLeaf) (par : Params) (block : Nat) (c : Ctx) (vr n k : Nat) :
    stitchOp s l par block c (.vset vr n k) = c.fillLanes vr n fun _ => vsetConstant k := by
  match k with
  | 0 | 1 | _ + 2 => rfl

/-- An instruction whose only effect on the data is to fill registers. -/
theorem runOp_fills_lanes {s : State} {x : Nat} {c : Ctx} {l : CtxLeaf} {par : Params} {block : Nat}
    (hrun : Running s x c l par block) {o : SOp} (hmay : s.mayRun c o = true) (ho : o.plain = true) {vr n : Nat} {f : Nat → F32}
    (hw : c.worked s l par block o = c.stepped.fillLanes vr n f) :
    ∃ c', (.next (s.runOp x o) : Out) = .next (withCtx s x c') ∧ Moved c c' ∧
      (∀ j i, j < n → i < 32 → c'.lane (vr + j) i = f j) ∧
      (∀ r i, i < 32 → (r < vr ∨ vr + n ≤ r) → c'.lane r i = c.lane r i) ∧
      c'.s = c.s ∧ c'.acc = c.acc ∧ c'.m = c.m ∧ c'.sb = c.sb ∧ c'.emitted = c.emitted ∧ c'.poison = c.poison := by
  obtain ⟨honly, hblock⟩ := c.stepped.fillLanes_writes vr n f
  rw [← hw] at honly hblock
  obtain ⟨c', hexec, hmoved, hdata⟩ := State.runOp_moves_on hrun hmay ho honly.relaned.sameOwner
  obtain ⟨hin, hout, hs, hsb, hacc, hm, hemitted⟩ := lanes_of_written honly.relaned hblock hdata
  obtain ⟨_, _, _, _, _, _, hpoison⟩ := hdata
  exact ⟨c', hexec, hmoved, hin, hout, hs, hacc, hm, hsb, hemitted, hpoison.trans honly.poison⟩

/-! ## Accumulators -/

/-- The slots left by AZERO. -/
theorem slotOf_azero (s : State) (l : CtxLeaf) (par : Params) (block : Nat) (c : Ctx) (q n a : Nat) {p : Nat} (hp : p < 256) :
    slotOf (stitchOp s l par block c (.azero q n)) a p = if q ≤ a ∧ a < q + n then none else slotOf c a p := by
  have hkept : (decide (256 * a + p < 256 * q) || decide (256 * (q + n) ≤ 256 * a + p)) = !decide (q ≤ a ∧ a < q + n) := by
    rw [Bool.eq_iff_iff]
    simp only [Bool.or_eq_true, decide_eq_true_eq, Bool.not_eq_true', decide_eq_false_iff_not]
    omega
  rw [slotOf, stitchOp, Tbl.get_filter_key _ fun k => decide (k < 256 * q) || decide (256 * (q + n) ≤ k)]
  simp only [hkept]
  by_cases h : q ≤ a ∧ a < q + n <;> simp [h, slotOf]

/-- AZERO. -/
theorem runOp_azero {s : State} {x : Nat} {c : Ctx} {l : CtxLeaf} {par : Params} {block q n : Nat} (hrun : Running s x c l par block)
    (hmay : s.mayRun c (.azero q n) = true) :
    ∃ c', (.next (s.runOp x (.azero q n)) : Out) = .next (withCtx s x c') ∧ Moved c c' ∧
      (∀ a p, p < 256 → slotOf c' a p = if q ≤ a ∧ a < q + n then none else slotOf c a p) ∧
      c'.s = c.s ∧ c'.v = c.v ∧ c'.m = c.m ∧ c'.sb = c.sb ∧ c'.emitted = c.emitted ∧ c'.poison = c.poison := by
  have hown : SameOwner c.stepped (c.worked s l par block (.azero q n)) := by constructor <;> rfl
  obtain ⟨c', hexec, hmoved, hs, hv, hacc, hm, hsb, hemitted, hpoison⟩ := State.runOp_moves_on hrun hmay rfl hown
  refine ⟨c', hexec, hmoved, fun a p hp => ?_, hs, hv, hm, hsb, hemitted, hpoison⟩
  rw [slotOf, hacc]
  exact slotOf_azero s l par block c.stepped q n a hp

/-- Settles O24: each instruction writes its own mask, registers or accumulators, and nothing else of the data. -/
theorem maskAndVectorInstructions : Obligations.MaskAndVectorInstructions := by
  constructor
  · intro s x c l par block mk ma mb cond sa ch ci hrun hmk
    refine ⟨fun hmay => runOp_writes_mask hrun hmay rfl hmk rfl, fun hmay => runOp_writes_mask hrun hmay rfl hmk rfl,
      fun hmay => ?mset⟩
    case mset =>
      obtain ⟨c', hexec, hmasked⟩ := runOp_writes_mask hrun hmay rfl hmk rfl
      refine ⟨c', _, hexec, hmasked, fun i hi => ?_⟩
      rw [BitVec.getLsbD_ofNat, decide_eq_true hi, Bool.true_and]
      exact (testBit_bitsBelow _ hi).trans Bool.decide_eq_true
  · intro s x c l par block vr n k q hrun
    exact ⟨fun hmay => runOp_fills_lanes hrun hmay rfl (vset_eq_fillLanes s l par block c.stepped vr n k),
      fun hmay => runOp_fills_lanes hrun hmay rfl (rmax_eq_fillLanes s l par block c.stepped vr n), runOp_azero hrun⟩

end Sys2Proof.Machine
end

section
/-! The obligation O26 (R121, R126, R127, R147, R149). -/

namespace Sys2Proof.Machine

/-! ## ACCV (R126) -/

/-- Folds that agree on every state that keeps an invariant agree. -/
theorem foldl_congr_of_invariant {σ ι : Type} {f g : σ → ι → σ} {I : σ → Prop} (hkeep : ∀ s x, I s → I (g s x))
    (heq : ∀ s x, I s → f s x = g s x) (l : List ι) {s : σ} (hs : I s) : l.foldl f s = l.foldl g s := by
  induction l generalizing s with
  | nil => rfl
  | cons x l ih => rw [List.foldl_cons, List.foldl_cons, heq s x hs, ih (hkeep s x hs)]

/-- `d` is `c` but for its accumulators and the poison it has met. -/
def Accumulated (c d : Ctx) : Prop := ∃ t p, d = { c with acc := t, poison := p }

theorem Accumulated.refl (c : Ctx) : Accumulated c c := ⟨c.acc, c.poison, rfl⟩

theorem Accumulated.sameOwner {c d : Ctx} (h : Accumulated c d) : SameOwner c d := by
  obtain ⟨t, p, rfl⟩ := h
  constructor <;> rfl

theorem Accumulated.score {c d : Ctx} (h : Accumulated c d) (row pos : Nat) : d.score row pos = c.score row pos := by
  obtain ⟨t, p, rfl⟩ := h
  rfl

theorem Accumulated.scalar {c d : Ctx} (h : Accumulated c d) (i : Nat) : d.scalar i = c.scalar i := by
  obtain ⟨t, p, rfl⟩ := h
  rfl

theorem Accumulated.keeps {c d : Ctx} (h : Accumulated c d) :
    d.s = c.s ∧ d.v = c.v ∧ d.sb = c.sb ∧ d.m = c.m ∧ d.emitted = c.emitted := by
  obtain ⟨t, p, rfl⟩ := h
  exact ⟨rfl, rfl, rfl, rfl, rfl⟩

section
variable (s : State) (l : CtxLeaf) (c : Ctx) (hf : Bool)

/-- The value that ACCV weights at a position, with the code of the poison met with it: +0 at or above S2. -/
def accvValue (pos : Nat) : List F32 × Option Nat :=
  if c.scalar 2 ≤ (pos : Nat) then (List.replicate l.d fzero, none) else s.valueAt (l.half hf) l.fmt l.d pos

/-- The lanes that ACCV weights at a position. -/
def accvLanes (pos : Nat) : List F32 :=
  if c.scalar 2 ≤ (pos : Nat) then List.replicate l.d fzero else (s.valueAt (l.half hf) l.fmt l.d pos).1

theorem accvValue_fst (pos : Nat) : (accvValue s l c hf pos).1 = accvLanes s l c hf pos := by
  unfold accvValue accvLanes
  split <;> rfl

/-- ACCV's work on one row and position: a VISIBLE entry's probability and weighted value go into the slot. -/
def accvStep (row ch q : Nat) (d : Ctx) (x : Nat × Nat) : Ctx :=
  let pos := 32 * ch + x.2
  let e := c.score (row + x.1) pos
  let v := accvValue s l c hf pos
  if e.visible then
    let lanes := v.1.map (fmul e.value)
    let bad := if lanes.all ffinite then badResult e.value else some 4
    { d.meet (lowCode (lowCode e.mark v.2) bad) with acc := Tbl.set d.acc (256 * (q + x.1) + pos) ⟨lanes, e.value⟩ }
  else d

/-- What ACCV makes of the slot of one row and position. -/
def accvSlot (row ch : Nat) (j i : Nat) (o : Option Slot) : Option Slot :=
  let e := c.score (row + j) (32 * ch + i)
  if e.visible then some ⟨(accvLanes s l c hf (32 * ch + i)).map (fmul e.value), e.value⟩ else o

theorem accvStep_of_hidden {row ch j i : Nat} (h : ¬(c.score (row + j) (32 * ch + i)).visible = true) (q : Nat) (d : Ctx) :
    accvStep s l c hf row ch q d (j, i) = d :=
  if_neg h

variable {c} in
theorem accvStep_writes {d : Ctx} (hd : Accumulated c d) (row ch q j i : Nat) :
    Accumulated c (accvStep s l c hf row ch q d (j, i)) ∧
      CellWritten (fun c : Ctx => Tbl.get c.acc) (256 * (q + j) + (32 * ch + i)) (accvSlot s l c hf row ch j i) d
        (accvStep s l c hf row ch q d (j, i)) := by
  by_cases h : (c.score (row + j) (32 * ch + i)).visible = true
  · simp only [accvStep, h, if_true]
    obtain ⟨t, p, rfl⟩ := hd
    refine ⟨⟨_, _, rfl⟩, fun k => ?_⟩
    simp only [Tbl.get_set, accvSlot, accvValue_fst, h, if_true]
  · rw [accvStep_of_hidden s l c hf h]
    exact ⟨hd, .refl _ (if_neg h)⟩

/-- ACCV works position by position, on the VISIBLE rows of each. -/
theorem accvOp_eq_foldl (row n ch q : Nat) : accvOp s l c row n ch hf q =
    ((List.range 32 ×ˢ List.range n).map Prod.swap).foldl (accvStep s l c hf row ch q) c := by
  simp only [SProd.sprod, List.product, List.map_flatMap, List.foldl_flatMap, List.map_map, List.foldl_map]
  have hkeep (d : Ctx) (j i : Nat) (hd : Accumulated c d) : Accumulated c (accvStep s l c hf row ch q d (j, i)) :=
    (accvStep_writes s l hf hd row ch q j i).1
  refine foldl_congr_of_invariant (I := Accumulated c) (fun d i hd => ?_) (fun d i hd => ?_) _ (.refl c)
  · exact List.foldlRecOn (motive := Accumulated c) _ _ hd fun d hd j _ => hkeep d j i hd
  · simp only [hd.score, hd.scalar]
    split
    · refine foldl_congr_of_invariant (I := Accumulated c) (fun d j hd => hkeep d j i hd) (fun d j hd => ?_) _ hd
      simp only [hd.score, accvStep, accvValue]
      rfl
    · rename_i hnone
      refine (List.foldlRecOn (motive := (· = d)) _ _ rfl fun d' hd' j hj => ?_).symm
      rw [hd']
      exact accvStep_of_hidden s l c hf (fun h => hnone (List.any_eq_true.mpr ⟨j, hj, h⟩)) q d

variable (par : Params) (block : Nat)

theorem accv_writes (row n cn : Nat) (ci : Bool) (q : Nat) (hch : c.chunk cn ci < 8) :
    Accumulated c (stitchOp s l par block c (.accv row n cn ci hf q)) ∧
      BlockWritten (fun c : Ctx => Tbl.get c.acc) 256 q n (32 * c.chunk cn ci) (accvSlot s l c hf row (c.chunk cn ci)) c
        (stitchOp s l par block c (.accv row n cn ci hf q)) := by
  rw [stitchOp, accvOp_eq_foldl]
  refine foldl_writes_block (I := Accumulated c) (by omega) (fun d j i hd => accvStep_writes s l hf hd row (c.chunk cn ci) q j i)
    ((nodup_rangeProduct 32 n).map Prod.swap_injective) (fun x => ?_) (.refl c)
  rw [List.mem_map_swap, mem_rangeProduct, and_comm]

end

/-- ACCV: the slots of its rows and chunk are written, and the other slots and all else stay. -/
theorem runOp_accv {s : State} {x : Nat} {c : Ctx} {l : CtxLeaf} {par : Params} {block row n cn q : Nat} {ci hf : Bool}
    (hrun : Running s x c l par block) (hmay : s.mayRun c (.accv row n cn ci hf q) = true) (hch : c.chunk cn ci < 8) :
    ∃ c', (.next (s.runOp x (.accv row n cn ci hf q)) : Out) = .next (withCtx s x c') ∧ Moved c c' ∧
      (∀ j i, InRows row n (c.chunk cn ci) j i → slotOf c' (q + j) (32 * c.chunk cn ci + i) =
        accvSlot s l c hf row (c.chunk cn ci) j i (slotOf c (q + j) (32 * c.chunk cn ci + i))) ∧
      (∀ a p, p < 256 → (a < q ∨ q + n ≤ a ∨ p / 32 ≠ c.chunk cn ci) → slotOf c' a p = slotOf c a p) ∧
      c'.s = c.s ∧ c'.v = c.v ∧ c'.sb = c.sb ∧ c'.m = c.m ∧ c'.emitted = c.emitted := by
  obtain ⟨hd, hblock⟩ := accv_writes s l c.stepped hf par block row n cn ci q hch
  obtain ⟨c', hexec, hmoved, hs, hv, hacc, hm, hsb, hemitted, _⟩ := State.runOp_moves_on hrun hmay rfl hd.sameOwner
  obtain ⟨hs', hv', hsb', hm', hemitted'⟩ := hd.keeps
  have hslot (a p : Nat) : slotOf c' a p = slotOf (c.worked s l par block (.accv row n cn ci hf q)) a p := by
    rw [slotOf, hacc, slotOf]
  have hcol {p : Nat} (hp : p / 32 ≠ c.chunk cn ci) : p < 32 * c.chunk cn ci ∨ 32 * c.chunk cn ci + 32 ≤ p := by omega
  refine ⟨c', hexec, hmoved, fun j i hji => ?_, fun a p hp hap => ?_, hs.trans hs', hv.trans hv', hsb.trans hsb', hm.trans hm',
    hemitted.trans hemitted'⟩
  · obtain ⟨_, hj, hi, _⟩ := hji
    exact (hslot _ _).trans (hblock.inside j i hj hi)
  · exact (hslot _ _).trans (hblock.outside a p hp (hap.imp id (Or.imp id hcol)))

/-! ## EMIT (R127) -/

/-- EMIT's work on one row: the partial of its query head, where that is below S6. -/
def emitStep (l : CtxLeaf) (block vr row n : Nat) (split : Bool) (q : Nat) (c : Ctx) (j : Nat) : Ctx :=
  if ((row + j : Nat) : Int) < c.scalar 6 then
    let p := c.partialOf l block (vr + j) split (q + j) (q + n + j)
    let d := c.meet (if p.empty || (ffinite p.l && p.o.all ffinite) then none else some 4)
    { d with emitted := d.emitted ++ [(row + j, p)] }
  else c

/-- The query heads below S6 of the rows `js`, each with its partial. -/
def emittedBy (l : CtxLeaf) (block vr row n : Nat) (split : Bool) (q : Nat) (c : Ctx) (js : List Nat) : List (Nat × Partial) :=
  (js.filter fun j => (((row + j : Nat) : Int) < c.scalar 6 : Bool)).map fun j =>
    (row + j, c.partialOf l block (vr + j) split (q + j) (q + n + j))

/-- `d` is `c` with partials added, and perhaps poison met. -/
def Emitted (ps : List (Nat × Partial)) (c d : Ctx) : Prop := ∃ p, d = { c with emitted := c.emitted ++ ps, poison := p }

theorem Emitted.sameOwner {ps : List (Nat × Partial)} {c d : Ctx} (h : Emitted ps c d) : SameOwner c d := by
  obtain ⟨p, rfl⟩ := h
  constructor <;> rfl

section
variable (l : CtxLeaf) (block vr row n : Nat) (split : Bool) (q : Nat)

theorem emitStep_emits (c : Ctx) (j : Nat) :
    Emitted (emittedBy l block vr row n split q c [j]) c (emitStep l block vr row n split q c j) := by
  by_cases h : ((row + j : Nat) : Int) < c.scalar 6
  · rw [emitStep, if_pos h, emittedBy, List.filter_cons_of_pos (by simpa using h)]
    exact ⟨_, rfl⟩
  · rw [emitStep, if_neg h, emittedBy, List.filter_cons_of_neg (by simpa using h)]
    exact ⟨c.poison, by simp⟩

theorem foldl_emitStep_emits (js : List Nat) (c : Ctx) :
    Emitted (emittedBy l block vr row n split q c js) c (js.foldl (emitStep l block vr row n split q) c) := by
  induction js generalizing c with
  | nil => exact ⟨c.poison, by simp [emittedBy]⟩
  | cons j js ih =>
    obtain ⟨p, hstep⟩ := emitStep_emits l block vr row n split q c j
    obtain ⟨p', hrest⟩ := ih (emitStep l block vr row n split q c j)
    have hsplit : emittedBy l block vr row n split q c (j :: js) =
        emittedBy l block vr row n split q c [j] ++ emittedBy l block vr row n split q c js := by
      rw [← List.singleton_append, emittedBy, List.filter_append, List.map_append]
      rfl
    have hsame : emittedBy l block vr row n split q (emitStep l block vr row n split q c j) js =
        emittedBy l block vr row n split q c js := by
      rw [hstep]
      rfl
    refine ⟨p', ?_⟩
    rw [List.foldl_cons, hrest, hsame, hsplit, ← List.append_assoc, hstep]

end

/-- EMIT: the partials of the query heads below S6 are added, and the rest stays. -/
theorem runOp_emit {s : State} {x : Nat} {c : Ctx} {l : CtxLeaf} {par : Params} {block vr row n q : Nat} {split : Bool}
    (hrun : Running s x c l par block) (hmay : s.mayRun c (.emit vr row n split q) = true) :
    ∃ c', (.next (s.runOp x (.emit vr row n split q)) : Out) = .next (withCtx s x c') ∧ Moved c c' ∧
      c'.emitted = c.emitted ++ emittedBy l block vr row n split q c (List.range n) ∧
      c'.s = c.s ∧ c'.v = c.v ∧ c'.sb = c.sb ∧ c'.m = c.m ∧ c'.acc = c.acc := by
  have hemits : Emitted (emittedBy l block vr row n split q c (List.range n)) c.stepped
      (c.worked s l par block (.emit vr row n split q)) :=
    foldl_emitStep_emits l block vr row n split q (List.range n) c.stepped
  obtain ⟨c', hexec, hmoved, hdata⟩ := State.runOp_moves_on hrun hmay rfl hemits.sameOwner
  obtain ⟨p, hworked⟩ := hemits
  rw [hworked] at hdata
  obtain ⟨hs, hv, hacc, hm, hsb, hemitted, _⟩ := hdata
  exact ⟨c', hexec, hmoved, hemitted, hs, hv, hsb, hm, hacc⟩

/-! ## END (R121, R127, R149) -/

/-- The state without a context. -/
def State.without (s : State) (x : Nat) : State := { s with work := { s.work with ctxs := Tbl.erase s.work.ctxs x } }

/-- The state once a context has given its partials to its command and is no more. -/
def State.gaveParts (s : State) (x : Nat) (c : Ctx) (block : Nat) : State :=
  (s.without x).addParts c.cmd (ctxParts block 0 c) c.poison 1

theorem State.without_withCtx (s : State) (x : Nat) (c : Ctx) : (withCtx s x c).without x = s.without x := by
  simp only [State.without, withCtx, Tbl.erase_set_self]

theorem State.poisonVisit_of_no_poison {view : State} (h : view.poison = []) (s : State) (n i : Nat) (code : Option Nat) :
    s.poisonVisit view n i code = s := by
  unfold State.poisonVisit
  split
  · rfl
  · split
    · exact if_pos h
    · rfl

theorem State.endCtx_of_no_poison {s : State} {x : Nat} {c : Ctx} {block t : Nat} {r : Round} (hpoison : s.poison = [])
    (hround : s.ctxRound c = some (t, r)) :
    (withCtx s x c.finished).endCtx x c.finished block =
      if (s.gaveParts x c block).roundBusy t then (s.gaveParts x c block).pauseWhenAll t c.turn (c.steps + 1) r
      else (s.gaveParts x c block).endRound t := by
  have hround' : (withCtx s x c.finished).ctxRound c.finished = some (t, r) := hround
  have hgave : (((withCtx s x c.finished).without x).poisonVisit ((withCtx s x c.finished).without x) c.cmd c.visit
      c.poison).addParts c.cmd (ctxParts block 0 c) c.poison 1 = s.gaveParts x c block := by
    rw [State.without_withCtx, State.poisonVisit_of_no_poison (view := s.without x) hpoison, State.gaveParts]
  rw [← hgave]
  simp only [State.endCtx, hround']
  rfl

section
variable {s : State} {x : Nat} {c : Ctx} {block : Nat}

theorem State.gaveParts_cmd {k : Cmd} (hk : s.cmd c.cmd = some k) :
    (s.gaveParts x c block).cmd c.cmd = some { k with
      parts := k.parts ++ ctxParts block 0 c, poison := lowCode k.poison c.poison, work := k.work - 1 } := by
  rw [State.gaveParts, State.addParts, State.cmd_setCmd, if_pos rfl]
  exact congrArg (Option.map _) hk

theorem State.gaveParts_cmd_ne {n : Nat} (hn : n ≠ c.cmd) : (s.gaveParts x c block).cmd n = s.cmd n := by
  rw [State.gaveParts, State.addParts, State.cmd_setCmd, if_neg hn]
  rfl

theorem State.gaveParts_ctxs : (s.gaveParts x c block).work.ctxs = Tbl.erase s.work.ctxs x := rfl

theorem State.gaveParts_roundBusy {t : Nat} {r : Round} (hround : s.roundAt t = some r) :
    (s.gaveParts x c block).roundBusy t = (Tbl.erase s.work.ctxs x).any fun y => r.items.contains y.2.item :=
  State.roundBusy_of_round (s := s.gaveParts x c block) hround

/-- END: the context's partials are its command's, and the context is no more; its round ends with its last context. -/
theorem runOp_endOp {l : CtxLeaf} {par : Params} {t : Nat} {r : Round} (hrun : Running s x c l par block)
    (hmay : s.mayRun c .endOp = true) (hpoison : s.poison = []) (hround : s.ctxRound c = some (t, r)) (hno : NoAccess s t) :
    ∃ v, (.next (s.runOp x .endOp) : Out) = .next v ∧ Undisturbed (s.gaveParts x c block) v ∧
      ((∀ y ∈ s.work.ctxs, r.items.contains y.2.item = true → y.1 = x) → v.roundAt t = none) ∧
      ((∃ y ∈ s.work.ctxs, y.1 ≠ x ∧ r.items.contains y.2.item = true) → ∃ p, v.roundAt t = some { r with paused := p }) := by
  have hat := State.roundAt_of_ctxRound hround
  have hno' : NoAccess (s.gaveParts x c block) t := hno
  have hat' : (s.gaveParts x c block).roundAt t = some r := hat
  refine ⟨_, congrArg Host.Outcome.next ((State.runOp_endOp hrun hmay).trans (State.endCtx_of_no_poison hpoison hround)), ?_⟩
  rw [State.gaveParts_roundBusy hat]
  split
  · rename_i hbusy
    obtain ⟨hsame, hstays⟩ := State.pauseWhenAll_stays_of_noAccess hno' c.turn (c.steps + 1) hat' (State.not_paused_of_mayRun hmay hround)
    refine ⟨hsame, fun hlast => ?_, fun _ => hstays⟩
    obtain ⟨y, hy, hin⟩ := List.any_eq_true.mp hbusy
    obtain ⟨hy, hne⟩ := Tbl.mem_erase hy
    exact absurd (hlast y hy hin) hne
  · rename_i hidle
    obtain ⟨hsame, hends⟩ := State.endRound_ends_of_noAccess hno'
    refine ⟨hsame, fun _ => hends, fun ⟨y, hy, hne, hin⟩ => ?_⟩
    exact absurd (List.any_eq_true.mpr ⟨y, Tbl.mem_erase_of_mem hy hne, hin⟩) hidle

end

/-- Settles O26: ACCV and EMIT work row by row on what the context held before, and an END without poison or host accesses touches
its command, its context and its round alone. -/
theorem accumulateAndEmit : Obligations.AccumulateAndEmit := by
  intro s x c l par block vr row n cn q ci hf split ch hrun
  refine ⟨fun hmay hch _ => runOp_accv hrun hmay hch, fun hmay => runOp_emit hrun hmay, ?endOp⟩
  case endOp =>
    intro k t r hmay hpoison hk _ _ hround hno
    obtain ⟨v, hexec, hsame, hlast, hstays⟩ := runOp_endOp hrun hmay hpoison hround hno
    have hcmd (n : Nat) : v.cmd n = (s.gaveParts x c block).cmd n := by
      rw [State.cmd, hsame.work, State.cmd]
    refine ⟨v, _, hexec, ?_, (hcmd _).trans (State.gaveParts_cmd hk), rfl, rfl, rfl, rfl,
      fun n hn => (hcmd n).trans (State.gaveParts_cmd_ne hn), hsame.mem, hsame.out, hlast, hstays⟩
    rw [hsame.work, State.gaveParts_ctxs]

end Sys2Proof.Machine
end

section
/-! SUPPORT. What deciding commands leaves: the stacks, the arrays, the health records and the registers of the units stay (R49, R195). -/

namespace Sys2Proof.Machine

/-! ## Registers below those of the monitors -/

/-- A register of a block below 0x080, where the monitors lie. -/
def UnitReg (b o : Nat) : Prop := regKey b o < regKey 0x080 0

/-- `t` has the unit registers of `s`. -/
abbrev SameUnitRegs (s t : State) : Prop := ∀ b o, UnitReg b o → t.stored b o = s.stored b o

namespace SameUnitRegs

theorem of_regs {s t : State} (h : t.regs = s.regs) : SameUnitRegs s t := fun _ _ _ => by rw [State.stored, h, State.stored]

theorem refl (s : State) : SameUnitRegs s s := of_regs rfl

theorem trans {s t u : State} (a : SameUnitRegs s t) (b : SameUnitRegs t u) : SameUnitRegs s u :=
  fun x o h => (b x o h).trans (a x o h)

theorem ite {s t u : State} {c : Prop} [Decidable c] (a : SameUnitRegs s t) (b : SameUnitRegs s u) :
    SameUnitRegs s (if c then t else u) := by
  split
  · exact a
  · exact b

theorem foldl {α : Type} {f : State → α → State} (h : ∀ s x, SameUnitRegs s (f s x)) (l : List α) (s : State) :
    SameUnitRegs s (l.foldl f s) := by
  induction l generalizing s with
  | nil => exact refl s
  | cons x l ih => exact (h s x).trans (ih _)

/-- A field of block 0x080 or above is none of them. -/
theorem setFld (s : State) (f : Field) (v : Nat) (hf : 0x080 ≤ f.block) : SameUnitRegs s (s.setFld f v) := by
  intro b o h
  refine State.stored_setFld_ne s f v b o ?_
  simp only [UnitReg, regKey] at h ⊢
  omega

theorem sampleInto (s : State) (k : Nat) (v : Int) : SameUnitRegs s (s.sampleInto k v) :=
  (((ite (setFld _ _ _ (Nat.le_refl _)) (refl s)).trans (ite (setFld _ _ _ (Nat.le_refl _)) (refl _))).trans
    (setFld _ _ _ (Nat.le_refl _))).trans (setFld _ _ _ (Nat.le_refl _))

theorem sample (s : State) (source : Nat) (inst : List Nat) (v : Int) : SameUnitRegs s (s.sample source inst v) :=
  foldl (fun s k => ite (sampleInto s k v) (refl s)) _ s

end SameUnitRegs

theorem State.dispatch_regs (s : State) (u : Unacked) (avoid : Option Nat) (front : Bool) :
    (s.dispatch u avoid front).regs = s.regs := by
  have h := (State.pickPath_keeps s u.entry avoid).1
  unfold State.dispatch
  split
  · rename_i e
    rw [e] at h
    exact h
  · rename_i e _
    rw [e] at h
    exact h

theorem State.packets_regs (s : State) (k kind tc n : Nat) : (s.packets k kind tc n).regs = s.regs := by
  unfold State.packets
  split
  · rfl
  · refine foldl_keeps (P := (State.regs · = s.regs)) (fun t u ht => ?_) _ rfl
    split
    · exact (State.dispatch_regs _ _ _ _).trans ht
    · exact ht

/-- A completion leaves on its connection and changes no register. -/
theorem State.send_completion_regs (s : State) (qp node peer tag op row : Nat) (o : Outcome) :
    (s.send (.completion qp node peer tag op row o)).regs = s.regs := by
  unfold State.send
  split
  · simp only [State.wire, State.packetsOn]
    split
    · exact State.packets_regs _ _ _ _ _
    · rfl
  · rfl

theorem SameUnitRegs.reply (s : State) (op : Nat) (h : Head) (o : Outcome) : SameUnitRegs s (s.reply op h o) := by
  unfold State.reply
  split
  · exact refl s
  · exact ((of_regs rfl : SameUnitRegs s s.free.2).trans (sample s.free.2 _ _ _)).trans
      (of_regs (State.send_completion_regs _ _ _ _ _ _ _ _))

/-! ## The units -/

/-- The arrays without the tiles that are due. -/
def Arrays.undue (a : Arrays) : Arrays := { a with due := [] }

/-- `t` is `s` but for its commands, their work and their keys, and what completions send. -/
structure OnlyDecided (s t : State) : Prop extends SameCourse s t where
  stackUnits : t.stackUnits = s.stackUnits
  health : t.health = s.health
  arrays : t.arrays.undue = s.arrays.undue
  ctxs : ∀ x ∈ t.work.ctxs, x ∈ s.work.ctxs
  unitRegs : SameUnitRegs s t

namespace OnlyDecided

theorem refl (s : State) : OnlyDecided s s := ⟨.refl s, rfl, rfl, rfl, fun _ => id, .refl s⟩

theorem trans {s t u : State} (a : OnlyDecided s t) (b : OnlyDecided t u) : OnlyDecided s u :=
  ⟨a.toSameCourse.trans b.toSameCourse, b.stackUnits.trans a.stackUnits, b.health.trans a.health, b.arrays.trans a.arrays,
    fun x hx => a.ctxs x (b.ctxs x hx), a.unitRegs.trans b.unitRegs⟩

theorem foldl {α : Type} {f : State → α → State} (h : ∀ s x, OnlyDecided s (f s x)) (l : List α) (s : State) :
    OnlyDecided s (l.foldl f s) := by
  induction l generalizing s with
  | nil => exact refl s
  | cons x l ih => exact (h s x).trans (ih _)

variable {s t : State}

theorem row (h : OnlyDecided s t) : t.row = s.row := congrArg Clock.row h.clock

/-- Every field of a unit register stays. -/
theorem fld (h : OnlyDecided s t) (f : Field) (hf : UnitReg f.block f.offset) : t.fld f = s.fld f :=
  congrArg (bits · f.hi f.lo) (h.unitRegs f.block f.offset hf)

theorem running (h : OnlyDecided s t) : t.arrays.running = s.arrays.running := (congrArg Arrays.running h.arrays :)

theorem testing (h : OnlyDecided s t) : t.arrays.testing = s.arrays.testing := (congrArg Arrays.testing h.arrays :)

theorem outNext (h : OnlyDecided s t) : t.arrays.outNext = s.arrays.outNext := (congrArg Arrays.outNext h.arrays :)

theorem spareCells (h : OnlyDecided s t) : t.arrays.spareCells = s.arrays.spareCells := (congrArg Arrays.spareCells h.arrays :)

/-- A change of the commands alone. -/
theorem setCmd (s : State) (n : Nat) (f : Cmd → Cmd) : OnlyDecided s (s.setCmd n f) :=
  ⟨⟨rfl, rfl, rfl, rfl, rfl, rfl⟩, rfl, rfl, rfl, fun _ => id, .of_regs rfl⟩

theorem dropKey (s : State) (n : Nat) : OnlyDecided s (s.dropKey n) := by
  obtain h | ⟨i, h⟩ := s.dropKey_cases n
  · rw [h]
    exact refl s
  · rw [h]
    exact ⟨⟨rfl, rfl, rfl, rfl, rfl, rfl⟩, rfl, rfl, rfl, fun _ => id, .of_regs rfl⟩

theorem leave (s : State) (n : Nat) : OnlyDecided s (s.leave n) :=
  ⟨.leave s n, rfl, rfl, rfl, fun _ hx => (List.mem_filter.mp hx).1, .of_regs rfl⟩

theorem reply (s : State) (op : Nat) (h : Head) (o : Outcome) : OnlyDecided s (s.reply op h o) := by
  have hout := OnlyOut.reply s op h o
  exact ⟨hout.sameCourse, hout.stackUnits, hout.health, congrArg Arrays.undue hout.arrays,
    fun x hx => hout.work ▸ hx, .reply s op h o⟩

theorem complete (s : State) (n : Nat) (o : Outcome) : OnlyDecided s (s.complete n o) := by
  unfold State.complete
  split
  · exact refl s
  · exact ((dropKey s n).trans (leave _ n)).trans (reply _ _ _ _)

theorem decide (s : State) (n : Nat) (o : Outcome) : OnlyDecided s (s.decide n o) := by
  unfold State.decide
  split
  · exact refl s
  · split
    · exact refl s
    · split
      · exact complete s n o
      · exact ((dropKey s n).trans (setCmd _ n _)).trans
          ⟨⟨rfl, rfl, rfl, rfl, rfl, rfl⟩, rfl, rfl, rfl, fun _ hx => (List.mem_filter.mp hx).1, .of_regs rfl⟩

theorem computeLate (s : State) (n : Nat) : OnlyDecided s (s.computeLate n) := by
  unfold State.computeLate
  split
  · exact refl s
  · exact decide s _ _

theorem withdrawCmd (s : State) (n : Nat) : OnlyDecided s (s.withdrawCmd n) := by
  unfold State.withdrawCmd
  split
  · exact refl s
  · split
    · split
      · exact refl s
      · split
        · exact setCmd s n _
        · exact (setCmd s n _).trans (computeLate _ n)
    · exact computeLate s n

theorem withdrawUnits (s : State) (p : Nat → Bool) : OnlyDecided s (s.withdrawUnits p) := foldl withdrawCmd _ s

end OnlyDecided

/-! ## Commands made LATE one after the other (R49, R151) -/

theorem State.computeLate_eq (s : State) (n : Nat) : s.computeLate n = s.decideFor n (Outcome.tooLate · .compute) := by
  unfold State.computeLate State.decideFor
  cases s.cmd n <;> rfl

section
variable {s : State} {n : Nat} {h : Head} {o : Head → Outcome}

/-- A command that may take an outcome takes it when it is decided. -/
theorem Takes.decideFor_self (d : Takes o s n h) : Decided (s.decideFor n o) n (o h) := by
  obtain ⟨c, hc, hh, hrest⟩ | d := d
  · simp only [State.decideFor, hc, hh]
    exact Undecided.decide_self ⟨c, hc, hh, hrest⟩ _
  · exact decided_decideFor d n o

/-- Of commands treated one after the other, one whose turn comes is decided, where no other's turn takes its outcome away. -/
theorem Takes.foldl_decides {f : State → Nat → State} (hself : ∀ s, Takes o s n h → Decided (f s n) n (o h))
    (hkeep : ∀ s k, Takes o s n h → Takes o (f s k) n h) (hstays : ∀ s k, Decided s n (o h) → Decided (f s k) n (o h))
    {l : List Nat} (hn : n ∈ l) (d : Takes o s n h) : Decided (l.foldl f s) n (o h) := by
  induction l generalizing s with
  | nil => cases hn
  | cons k l ih =>
    rcases List.mem_cons.mp hn with rfl | hn
    · exact foldl_keeps (P := (Decided · n (o h))) hstays l (hself s d)
    · exact ih hn (hkeep s k d)

end

/-- The outcome of a command that misses its COMPUTE checkpoint. -/
abbrev lateOf (h : Head) : Outcome := Outcome.tooLate h .compute

section
variable {s : State} {n : Nat} {h : Head}

theorem decided_computeLate {x : Outcome} (d : Decided s n x) (k : Nat) : Decided (s.computeLate k) n x :=
  s.computeLate_eq k ▸ decided_decideFor d k _

theorem Takes.computeLate (d : Takes lateOf s n h) (k : Nat) : Takes lateOf (s.computeLate k) n h :=
  s.computeLate_eq k ▸ d.decideFor k

theorem Takes.computeLate_self (d : Takes lateOf s n h) : Decided (s.computeLate n) n (lateOf h) :=
  s.computeLate_eq n ▸ d.decideFor_self

theorem Takes.foldl_computeLate {l : List Nat} (hn : n ∈ l) (d : Takes lateOf s n h) :
    Decided (l.foldl State.computeLate s) n (lateOf h) :=
  d.foldl_decides (fun _ => Takes.computeLate_self) (fun _ k d => d.computeLate k) (fun _ k d => decided_computeLate d k) hn

theorem State.computeLate_cmd_ne (s : State) {n k : Nat} (hk : n ≠ k) : (s.computeLate k).cmd n = s.cmd n := by
  unfold State.computeLate
  split
  · rfl
  · exact s.decide_cmd_ne _ hk

/-- What is withdrawn from one command leaves every other. -/
theorem State.withdrawCmd_cmd_ne (s : State) {n k : Nat} (hk : n ≠ k) : (s.withdrawCmd k).cmd n = s.cmd n := by
  have hset (f : Cmd → Cmd) : (s.setCmd k f).cmd n = s.cmd n := by rw [State.cmd_setCmd, if_neg hk]
  unfold State.withdrawCmd
  split
  · rfl
  · split
    · split
      · rfl
      · split
        · exact hset _
        · exact (State.computeLate_cmd_ne _ hk).trans (hset _)
    · exact s.computeLate_cmd_ne hk

/-- A command that is LATE already has nothing to be withdrawn. -/
theorem decided_withdrawCmd (d : Decided s n (lateOf h)) (k : Nat) : Decided (s.withdrawCmd k) n (lateOf h) := by
  obtain ⟨c, hc, hres, hst⟩ := d
  by_cases e : n = k
  · subst e
    have hsame : s.withdrawCmd n = s := by
      simp only [State.withdrawCmd, hc, hres]
      exact if_pos rfl
    rw [hsame]
    exact ⟨c, hc, hres, hst⟩
  · exact ⟨c, (s.withdrawCmd_cmd_ne e).trans hc, hres, hst⟩

theorem Takes.withdrawCmd_self (d : Takes lateOf s n h) : Decided (s.withdrawCmd n) n (lateOf h) := by
  obtain u | d := d
  · obtain ⟨c, hc, hh, hcls, hres⟩ := u
    have hlate : s.withdrawCmd n = s.computeLate n := by simp only [State.withdrawCmd, hc, hres]
    rw [hlate]
    exact Takes.computeLate_self (.inl ⟨c, hc, hh, hcls, hres⟩)
  · exact decided_withdrawCmd d n

theorem Takes.withdrawCmd (d : Takes lateOf s n h) (k : Nat) : Takes lateOf (s.withdrawCmd k) n h := by
  by_cases e : n = k
  · subst e
    exact .inr d.withdrawCmd_self
  · obtain ⟨c, hc, hrest⟩ | d := d
    · exact .inl ⟨c, (s.withdrawCmd_cmd_ne e).trans hc, hrest⟩
    · exact .inr (decided_withdrawCmd d k)

theorem Takes.withdrawUnits (d : Takes lateOf s n h) (p : Nat → Bool) : Takes lateOf (s.withdrawUnits p) n h :=
  foldl_keeps (P := (Takes lateOf · n h)) (fun _ k d => d.withdrawCmd k) _ d

/-- R151, R188: a command that a withdrawn unit has served in the row is LATE. -/
theorem Takes.withdrawUnits_served {p : Nat → Bool} {u : Nat} (hu : (u, n) ∈ s.work.served) (hp : p u = true)
    (d : Takes lateOf s n h) : Decided (s.withdrawUnits p) n (lateOf h) :=
  d.foldl_decides (fun _ => Takes.withdrawCmd_self) (fun _ k d => d.withdrawCmd k) (fun _ k d => decided_withdrawCmd d k)
    (List.mem_dedup.mpr (List.mem_map.mpr ⟨(u, n), List.mem_filter.mpr ⟨hu, hp⟩, rfl⟩))

end

end Sys2Proof.Machine
end

section
/-! SUPPORT. Rounds as they are issued, stopped and cut where no host access waits at their stack (R146 to R150, R178). -/

namespace Sys2Proof.Machine

/-! ## The items of a round (R146, R152) -/

theorem length_fillRound_le {cap : Nat} {o : Item} {xs : List (Nat × Item)} :
    ∀ {r : List (Nat × Item)}, r.length ≤ cap → (fillRound cap o r xs).length ≤ cap := by
  induction xs with
  | nil => exact fun h => h
  | cons x xs ih =>
    intro r h
    unfold fillRound
    split
    · rename_i hx
      exact ih (by simpa using hx.1)
    · exact ih h

theorem length_nextRound_le (cap : Nat) (xs : List (Nat × Item)) : (nextRound cap xs).length ≤ cap := by
  unfold nextRound
  split
  · exact Nat.zero_le _
  · split
    · exact Nat.zero_le _
    · rename_i hcap
      exact length_fillRound_le (Nat.pos_of_ne_zero hcap)

theorem nextRound_ne_nil {cap : Nat} {xs : List (Nat × Item)} (h : nextRound cap xs ≠ []) : xs ≠ [] := by
  rintro rfl
  exact h rfl

/-- A round takes EFFECTIVE_CAP items at most. -/
theorem State.length_round_le (s : State) (t : Nat) (xs : List (Nat × Item)) :
    (nextRound (s.roundCap t) xs).length ≤ s.fld (rCapNowEffectiveCap t) :=
  (length_nextRound_le _ _).trans (Nat.min_le_left _ _)

/-! ## The wait for APPEND writes (R178) -/

/-- Visits none of which waits for APPEND writes count no wait. -/
theorem State.visitsWaitNs_eq_zero {s : State} {n : Nat} {c : Cmd} {is : List Nat} (hc : s.cmd n = some c)
    (h : ∀ i ∈ is, ∀ v, c.visits[i]? = some v → (v.appendWait && v.cards.any s.appendWrites) = false) :
    s.visitsWaitNs n is = 0 := by
  simp only [State.visitsWaitNs, hc]
  refine List.foldlRecOn (motive := (· = 0)) is _ rfl fun m hm i hi => ?_
  split
  · rename_i v hv
    rw [h i hi v hv]
    exact hm
  · exact hm

/-- A round none of whose contexts waits for APPEND writes counts no wait. -/
theorem State.itemsWaitNs_eq_zero {s : State} {r : List (Nat × Item)} (h : s.itemsWait r = false) : s.itemsWaitNs r = 0 := by
  refine List.foldlRecOn (motive := (· = 0)) r _ rfl fun m hm x hx => ?_
  have hx' := List.any_eq_false.mp h x hx
  rw [hm, Nat.zero_max]
  cases hc : s.cmd x.2.cmd with
  | none => simp only [State.visitsWaitNs, hc]
  | some c =>
    simp only [hc] at hx'
    refine State.visitsWaitNs_eq_zero hc fun i hi v hv => ?_
    have hi' := List.any_eq_false.mp (Bool.not_eq_true _ ▸ hx') i hi
    simpa only [hv, Bool.not_eq_true] using hi'

/-! ## A round is issued -/

/-- The launch of an item changes the contexts alone. -/
theorem State.launchItem_eq (s : State) (key : Nat) (x : Item) :
    ∃ cs, s.launchItem key x = { s with work := { s.work with ctxs := cs } } := by
  have hsame : ∃ cs, s = { s with work := { s.work with ctxs := cs } } := ⟨_, rfl⟩
  unfold State.launchItem
  split
  · exact hsame
  · split
    · exact hsame
    · refine foldl_keeps (P := fun t => ∃ cs, t = { s with work := { s.work with ctxs := cs } }) ?_ _ hsame
      rintro _ i ⟨cs, rfl⟩
      split
      · exact ⟨_, rfl⟩
      · exact ⟨cs, rfl⟩

/-- The launch of a round's items changes the contexts and what the units have served. -/
theorem State.launchRound_eq (s : State) (t : Nat) (r : List (Nat × Item)) :
    ∃ us cs, r.foldl (fun s x => (s.serves (nbuUnit t x.2.region) [x.2.cmd]).launchItem x.1 x.2) s =
      { s with work := { s.work with served := us, ctxs := cs } } := by
  refine foldl_keeps (P := fun v => ∃ us cs, v = { s with work := { s.work with served := us, ctxs := cs } }) ?_ r ⟨_, _, rfl⟩
  rintro _ x ⟨us, cs, rfl⟩
  obtain ⟨cs', hlaunch⟩ :=
    State.launchItem_eq (({ s with work := { s.work with served := us, ctxs := cs } } : State).serves (nbuUnit t x.2.region) [x.2.cmd])
      x.1 x.2
  exact ⟨_, cs', hlaunch⟩

/-- In `v` a stack runs the round of items `r`, issued at an instant; memory, commands and output are those of `s`. -/
structure RoundIssued (s v : State) (t ns : Nat) (scheduled : Bool) (r : List (Nat × Item)) : Prop where
  mem : v.mem = s.mem
  out : v.out = s.out
  cmds : v.work.cmds = s.work.cmds
  round : ∃ program, v.roundAt t = some ⟨program, scheduled, ns, roundNs r, false, r.map Prod.fst⟩

theorem State.issueRound_issues {s : State} {t : Nat} {k : Stack} (hk : s.stackUnits[t]? = some k) (ns : Nat) (scheduled : Bool)
    (r : List (Nat × Item)) : RoundIssued s (s.issueRound t ns scheduled r) t ns scheduled r := by
  unfold State.issueRound
  extract_lets len keys u program w v
  obtain ⟨us, cs, hv⟩ : ∃ us cs, v = { w with work := { w.work with served := us, ctxs := cs } } := w.launchRound_eq t r
  have hcounts : OnlyOut v (((v.count (rRoundsIssued t) 1).count (rBusyCyclesCount t) (r.length * len)).sample 0x04 [t] len) :=
    ((OnlyOut.count _ _ _).trans (OnlyOut.count _ _ _)).trans (OnlyOut.sample _ _ _ _)
  refine ⟨?_, ?_, ?_, program, ?_⟩
  · rw [hcounts.mem, hv]
    rfl
  · rw [State.sample_out, State.count_out, State.count_out, hv]
    rfl
  · rw [hcounts.work, hv]
    rfl
  · have hround : w.roundAt t = some ⟨program, scheduled, ns, len, false, keys⟩ := by
      rw [State.roundAt_setStack]
      exact congrArg (Option.bind · _) hk
    rw [State.roundAt, hcounts.stackUnits, hv]
    exact hround

/-! ## The scheduled items of a stack are stopped (R148) -/

/-- The stack issues no further scheduled round in this row. -/
def Stack.stopped (k : Stack) : Stack := { k with noSched := true }

theorem OnlyDecided.stopScheduled (s : State) (t : Nat) : OnlyDecided (s.setStack t Stack.stopped) (s.stopScheduled t) :=
  foldl computeLate _ _

theorem decided_stopScheduled {s : State} {n : Nat} {x : Outcome} (d : Decided s n x) (t : Nat) : Decided (s.stopScheduled t) n x :=
  foldl_keeps (P := (Decided · n x)) (fun _ k d => decided_computeLate d k) _ d

/-- R148: the command of an item not yet issued is LATE. -/
theorem State.stopScheduled_late {s : State} {t : Nat} {x : Nat × Item} {c : Cmd} (hx : x ∈ s.openItems t true)
    (hc : s.cmd x.2.cmd = some c) (hcls : c.cls ≠ .l8) (hres : c.result = none) : LateCompute (s.stopScheduled t) x.2.cmd c :=
  Takes.foldl_computeLate (List.mem_dedup.mpr (List.mem_map_of_mem hx)) (.inl ⟨c, hc, rfl, hcls, hres⟩)

/-! ## A round is cut (R149) -/

/-- A stack that runs no round and serves every access at once. -/
def Stack.idle (k : Stack) : Stack := { k with round := none, conflicts := [], held := [] }

/-- The commands of the contexts of a round. -/
def State.roundCmds (s : State) (r : Round) : List Nat :=
  ((s.work.ctxs.filter fun x => r.items.contains x.2.item).map fun x => x.2.cmd).dedup

/-- The contexts of a round are not run on. -/
def State.dropCtxs (s : State) (r : Round) : State :=
  { s with work := { s.work with ctxs := s.work.ctxs.filter fun x => !r.items.contains x.2.item } }

/-- The cut of a round is counted, and its stack is idle. -/
def State.dropRound (s : State) (t : Nat) (r : Round) : State :=
  ((s.dropCtxs r).count (rRoundsCut t) 1).setStack t Stack.idle

/-- The stack issues no further L8 round in this row. -/
def Stack.stoppedL8 (k : Stack) : Stack := { k with noL8 := true }

section
variable {s : State} {t : Nat} {r : Round}

theorem State.cutRound_of_noAccess (h : NoAccess s t) : s.cutRound t r =
    (let v := (s.roundCmds r).foldl State.computeLate (s.dropRound t r)
     if r.scheduled then v.stopScheduled t else v.setStack t Stack.stoppedL8) := by
  obtain ⟨k, hk, hrest⟩ := h
  have hno : NoAccess ((s.dropCtxs r).count (rRoundsCut t) 1) t := ⟨k, (congrArg (·[t]?) (State.count_stackUnits _ _ _)).trans hk, hrest⟩
  have hend : ((s.dropCtxs r).count (rRoundsCut t) 1).endRound t = s.dropRound t r := State.endRound_of_noAccess hno
  rw [← hend]
  rfl

/-- What a cut leaves: memory, clock, health records and the number of failed head slices; the round and its contexts are gone. -/
theorem State.cutRound_cuts {k : Stack} (hk : s.stackUnits[t]? = some k) (h : NoAccess s t) (r : Round) :
    SameCourse s (s.cutRound t r) ∧ (s.cutRound t r).health = s.health ∧
      (∃ k', (s.cutRound t r).stackUnits[t]? = some k' ∧ k'.round = none ∧ k'.slicesFailed = k.slicesFailed) ∧
      ∀ x ∈ (s.cutRound t r).work.ctxs, x.2.item ∉ r.items := by
  have hcount := OnlyOut.count (s.dropCtxs r) (rRoundsCut t) 1
  have hdrop : OnlyDecided (s.dropRound t r) ((s.roundCmds r).foldl State.computeLate (s.dropRound t r)) :=
    .foldl .computeLate _ _
  rw [State.cutRound_of_noAccess h]
  generalize (s.roundCmds r).foldl State.computeLate (s.dropRound t r) = v at hdrop
  obtain ⟨f, hround, hslices, hend⟩ : ∃ f : Stack → Stack, (∀ k, (f k).round = k.round) ∧ (∀ k, (f k).slicesFailed = k.slicesFailed) ∧
      OnlyDecided (v.setStack t f) (if r.scheduled then v.stopScheduled t else v.setStack t Stack.stoppedL8) := by
    split
    · exact ⟨Stack.stopped, fun _ => rfl, fun _ => rfl, .stopScheduled v t⟩
    · exact ⟨Stack.stoppedL8, fun _ => rfl, fun _ => rfl, .refl _⟩
  refine ⟨?_, ?_, ⟨f k.idle, ?_, hround _, hslices _⟩, fun x hx => ?_⟩
  · have hdropped : SameCourse s (s.dropRound t r) :=
      (⟨rfl, rfl, rfl, rfl, rfl, rfl⟩ : SameCourse s (s.dropCtxs r)).trans (hcount.sameCourse.trans ⟨rfl, rfl, rfl, rfl, rfl, rfl⟩)
    exact (hdropped.trans hdrop.toSameCourse).trans
      ((⟨rfl, rfl, rfl, rfl, rfl, rfl⟩ : SameCourse v (v.setStack t f)).trans hend.toSameCourse)
  · exact hend.health.trans (hdrop.health.trans hcount.health)
  · rw [hend.stackUnits, State.setStack_stackUnits, hdrop.stackUnits, State.dropRound, State.setStack_stackUnits, hcount.stackUnits]
    simp [State.dropCtxs, hk]
  · have hx' : x ∈ (s.dropRound t r).work.ctxs := hdrop.ctxs x (hend.ctxs x hx)
    rw [State.dropRound, State.setStack_work, hcount.work] at hx'
    simpa using (List.mem_filter.mp hx').2

/-- R149: the command of a context that a cut leaves unfinished is LATE. -/
theorem State.cutRound_late (h : NoAccess s t) {x : Nat × Ctx} {c : Cmd} (hx : x ∈ s.work.ctxs) (hr : x.2.item ∈ r.items)
    (hc : s.cmd x.2.cmd = some c) (hcls : c.cls ≠ .l8) (hres : c.result = none) : LateCompute (s.cutRound t r) x.2.cmd c := by
  have hcmd : (s.dropRound t r).cmd x.2.cmd = some c := by
    rw [State.dropRound, State.cmd, State.setStack_work, State.count_work]
    exact hc
  have hlate : Decided ((s.roundCmds r).foldl State.computeLate (s.dropRound t r)) x.2.cmd (lateOf c.head) :=
    Takes.foldl_computeLate (List.mem_dedup.mpr (List.mem_map.mpr ⟨x, List.mem_filter.mpr ⟨hx, by simpa using hr⟩, rfl⟩))
      (.inl ⟨c, hcmd, rfl, hcls, hres⟩)
  rw [State.cutRound_of_noAccess h]
  dsimp only
  split
  · exact decided_stopScheduled hlate t
  · exact hlate

end

end Sys2Proof.Machine
end

section
/-! The obligation O27 (R146 to R150, R178). -/

namespace Sys2Proof.Machine

section
variable {t ns : Nat} {k : Stack} {e : RowEntry} {s : State} (hk : s.stackUnits[t]? = some k) (he : s.pat.exec = some e)
  (hlo : 256 ≤ ns) (hhi : ns ≤ 3839) (hidle : s.roundBusy t = false)
include hk he hlo hhi hidle

/-- The scheduled items come first, where the stack still issues them. -/
theorem State.startRound_scheduled (hno : k.noSched = false) (hsched : ((s.tick ns).endRound t).openItems t true ≠ []) :
    s.startRound t ns =
      (let u := (s.tick ns).endRound t
       let r := nextRound (u.roundCap t) (u.openItems t true)
       if r = [] ∨ 3839 < ns + u.itemsWaitNs r + roundNs r then u.stopScheduled t
       else if u.itemsWait r then u
       else u.issueRound t ns true r) := by
  have hnow : ¬(ns < 256 ∨ 3839 < ns ∨ s.roundBusy t = true) := by
    rw [hidle]
    exact fun h => h.elim (by omega) fun h => h.elim (by omega) (by decide)
  simp only [State.startRound, hk, he, if_neg hnow]
  exact if_pos ⟨hsched, by rw [hno]; rfl⟩

/-- Without scheduled items the L8 items have their turn. -/
theorem State.startRound_l8 (hsched : ((s.tick ns).endRound t).openItems t true = []) (hopen : e.l8Open = true)
    (hno : k.noL8 = false) : s.startRound t ns =
      (let u := (s.tick ns).endRound t
       let r := nextRound (u.roundCap t) (u.openItems t false)
       if r = [] ∨ u.itemsWait r then u
       else if 3839 < ns + roundNs r then u.setStack t fun k => { k with noL8 := true }
       else u.issueRound t ns false r) := by
  have hnow : ¬(ns < 256 ∨ 3839 < ns ∨ s.roundBusy t = true) := by
    rw [hidle]
    exact fun h => h.elim (by omega) fun h => h.elim (by omega) (by decide)
  simp only [State.startRound, hk, he, if_neg hnow, hsched, hopen, hno]
  simp

end

/-- PAUSE_RESUME of a round that is paused and has contexts left. -/
theorem State.resumeRound_of_paused {s : State} {t : Nat} {r : Round} (hr : s.roundAt t = some r) (hp : r.paused = true)
    (hbusy : s.roundBusy t = true) (ns : Nat) : s.resumeRound t ns =
      if 3839 < ns + s.roundLeft r then (s.tick ns).cutRound t r
      else (s.tick ns).setStack t fun k => { k with round := some { r with paused := false } } := by
  rw [State.roundAt] at hr
  simp only [State.resumeRound, hr, hp, hbusy]
  rfl

/-- Settles O27: the state that the idle stack starts from decides by its open items, and what is issued, stopped or cut there
leaves memory as it is. -/
theorem roundsStartAndResume : Obligations.RoundsStartAndResume := by
  intro t ns k e s hk he hconflicts hheld
  have hno : NoAccess (s.tick ns) t := ⟨k, hk, hconflicts, hheld⟩
  refine ⟨fun hlo hhi hidle => ?starts, fun r hr hp hbusy => ?resumes⟩
  case starts =>
    have hend := State.endRound_of_noAccess hno
    have hku : ((s.tick ns).endRound t).stackUnits[t]? = some k.idle := by
      rw [hend, State.setStack_stackUnits, getElem?_setAt_self, State.tick_stackUnits, hk]
      rfl
    have hfld : ((s.tick ns).endRound t).fld (rCapNowEffectiveCap t) = s.fld (rCapNowEffectiveCap t) := by
      rw [hend]
      rfl
    have hcmds : ((s.tick ns).endRound t).work = s.work := by
      rw [hend]
      rfl
    have hmem : ((s.tick ns).endRound t).mem = s.mem := by
      rw [hend]
      rfl
    have hout : ((s.tick ns).endRound t).out = s.out := by
      rw [hend]
      rfl
    have hscheduled := State.startRound_scheduled hk he hlo hhi hidle
    have hl8 := State.startRound_l8 hk he hlo hhi hidle
    generalize (s.tick ns).endRound t = u at *
    intro _ sched r q
    have hissued (b : Bool) (x : List (Nat × Item)) := State.issueRound_issues hku ns b x
    refine ⟨fun hn hr hwait hfits => ⟨hfld ▸ u.length_round_le t sched, ?_⟩, fun hn hne hmisfit => ?_,
      fun hne hopen hn hq hwait hfits => ?_⟩
    · obtain ⟨hm, ho, hc, program, hround⟩ := hissued true r
      have hfits' : ¬(r = [] ∨ 3839 < ns + u.itemsWaitNs r + roundNs r) := by
        rw [State.itemsWaitNs_eq_zero hwait]
        exact fun h => h.elim hr (by omega)
      have hexec : s.startRound t ns = u.issueRound t ns true r :=
        (hscheduled hn (nextRound_ne_nil hr)).trans ((if_neg hfits').trans (if_neg (by rw [hwait]; decide)))
      exact ⟨_, _, congrArg Host.Outcome.next hexec, hm.trans hmem, ho.trans hout, hc.trans (congrArg Work.cmds hcmds), hround, rfl,
        rfl, rfl, rfl⟩
    · refine ⟨_, congrArg Host.Outcome.next ((hscheduled hn hne).trans (if_pos hmisfit)),
        (OnlyDecided.stopScheduled u t).mem.trans hmem, fun x hx c hc hcls hres => ?_⟩
      refine State.stopScheduled_late hx ?_ hcls hres
      rwa [State.cmd, hcmds]
    · obtain ⟨hm, ho, hc, program, hround⟩ := hissued false q
      have hexec : s.startRound t ns = u.issueRound t ns false q :=
        (hl8 hne hopen hn).trans ((if_neg (by rw [hwait]; exact fun h => h.elim hq (by decide))).trans (if_neg (Nat.not_lt.mpr hfits)))
      exact ⟨_, _, congrArg Host.Outcome.next hexec, hm.trans hmem, ho.trans hout, hc.trans (congrArg Work.cmds hcmds), hround, rfl,
        rfl⟩
  case resumes =>
    have hat : s.roundAt t = some r := (congrArg (Option.bind · Stack.round) hk).trans hr
    have hexec := State.resumeRound_of_paused hat hp hbusy ns
    refine ⟨fun hfits => congrArg Host.Outcome.next (hexec.trans (if_neg (by omega))), fun hover => ?_⟩
    obtain ⟨hcourse, _, ⟨k', hk', hround, _⟩, hctxs⟩ := State.cutRound_cuts (s := s.tick ns) hk hno r
    refine ⟨_, congrArg Host.Outcome.next (hexec.trans (if_pos hover)), hcourse.mem, ?_, hctxs,
      fun x hx hitem c hc hcls hres => State.cutRound_late hno hx hitem hc hcls hres⟩
    rw [hk']
    exact hround

end Sys2Proof.Machine
end

section
/-! SUPPORT. What a stopped NBU or cell leaves: its record, and what is withdrawn (R151, R161, R188, Tables 6-4 and 7-5). -/

namespace Sys2Proof.Machine

variable {s : State}

/-! ## Records -/

theorem OnlyOut.recordNbu (s : State) (t region cause : Nat) : OnlyOut s (s.recordNbu t region cause) :=
  ite (refl s) ((((setFld s _ _).trans (setFld _ _ _)).trans (setFld _ _ _)).trans (setFld _ _ _))

theorem OnlyOut.recordCell (s : State) (die array cell cause : Nat) : OnlyOut s (s.recordCell die array cell cause) :=
  ite (refl s) (((((setFld s _ _).trans (setFld _ _ _)).trans (setFld _ _ _)).trans (setFld _ _ _)).trans (setFld _ _ _))

/-- A field that lies below another of its register is written without it. -/
theorem State.fld_setFld_below (s : State) (f g : Field) (v : Nat) (hb : g.block = f.block) (ho : g.offset = f.offset)
    (h : f.lo ≤ f.hi ∧ f.hi < 64 ∧ f.hi < g.lo) : (s.setFld f v).fld g = s.fld g := by
  obtain ⟨hf, h64, hbelow⟩ := h
  exact State.fld_setFld_disjoint s f g v hb ho hf h64 (.inr hbelow)

/-- NBU_FAULT, where it held no record, holds that of the stopped NBU. -/
theorem State.recordNbu_records {t region cause : Nat} (hvalid : s.fld (rNbuFaultValid t) = 0) (hregion : region < 256)
    (hcause : cause < 16) : (s.recordNbu t region cause).fld (rNbuFaultValid t) = 1 ∧
      (s.recordNbu t region cause).fld (rNbuFaultCause t) = cause ∧ (s.recordNbu t region cause).fld (rNbuFaultRegion t) = region := by
  rw [State.recordNbu, if_neg (by omega)]
  refine ⟨?_, ?_, ?_⟩
  · rw [State.fld_setFld_below _ (rNbuFaultRow t) (rNbuFaultValid t) _ rfl rfl (show 0 ≤ 47 ∧ 47 < 64 ∧ 47 < 63 by decide),
      State.fld_setFld_below _ (rNbuFaultRegion t) (rNbuFaultValid t) _ rfl rfl (show 48 ≤ 55 ∧ 55 < 64 ∧ 55 < 63 by decide),
      State.fld_setFld_below _ (rNbuFaultCause t) (rNbuFaultValid t) _ rfl rfl (show 59 ≤ 62 ∧ 62 < 64 ∧ 62 < 63 by decide),
      State.fld_setFld_self _ _ _ (Nat.le_refl 63) (show 63 < 64 by decide)]
    rfl
  · rw [State.fld_setFld_below _ (rNbuFaultRow t) (rNbuFaultCause t) _ rfl rfl (show 0 ≤ 47 ∧ 47 < 64 ∧ 47 < 59 by decide),
      State.fld_setFld_below _ (rNbuFaultRegion t) (rNbuFaultCause t) _ rfl rfl (show 48 ≤ 55 ∧ 55 < 64 ∧ 55 < 59 by decide),
      State.fld_setFld_self _ _ _ (show 59 ≤ 62 by decide) (show 62 < 64 by decide)]
    exact Nat.mod_eq_of_lt hcause
  · rw [State.fld_setFld_below _ (rNbuFaultRow t) (rNbuFaultRegion t) _ rfl rfl (show 0 ≤ 47 ∧ 47 < 64 ∧ 47 < 48 by decide),
      State.fld_setFld_self _ _ _ (show 48 ≤ 55 by decide) (show 55 < 64 by decide)]
    exact Nat.mod_eq_of_lt hregion

/-- ARRAY_FAULT, where it held no record, holds that of the stopped cell. -/
theorem State.recordCell_records {die array cell cause : Nat} (hvalid : s.fld (rArrayFaultValid die) = 0) (hcell : cell < 128)
    (hcause : cause < 16) : (s.recordCell die array cell cause).fld (rArrayFaultValid die) = 1 ∧
      (s.recordCell die array cell cause).fld (rArrayFaultCause die) = cause ∧
      (s.recordCell die array cell cause).fld (rArrayFaultCell die) = cell := by
  have hrow (u : State) (f : Field) (v : Nat) (hb : f.block = 0x020 + die) (ho : f.offset = 0x050) :
      (u.setFld (rArrayFaultRowRow die) v).fld f = u.fld f := by
    refine State.fld_setFld_ne _ _ _ _ ?_
    rw [hb, ho]
    simp [regKey, rArrayFaultRowRow]
  rw [State.recordCell, if_neg (by omega)]
  refine ⟨?_, ?_, ?_⟩
  · rw [hrow _ _ _ rfl rfl,
      State.fld_setFld_below _ (rArrayFaultCell die) (rArrayFaultValid die) _ rfl rfl (show 0 ≤ 6 ∧ 6 < 64 ∧ 6 < 63 by decide),
      State.fld_setFld_below _ (rArrayFaultArray die) (rArrayFaultValid die) _ rfl rfl (show 8 ≤ 13 ∧ 13 < 64 ∧ 13 < 63 by decide),
      State.fld_setFld_below _ (rArrayFaultCause die) (rArrayFaultValid die) _ rfl rfl (show 59 ≤ 62 ∧ 62 < 64 ∧ 62 < 63 by decide),
      State.fld_setFld_self _ _ _ (Nat.le_refl 63) (show 63 < 64 by decide)]
    rfl
  · rw [hrow _ _ _ rfl rfl,
      State.fld_setFld_below _ (rArrayFaultCell die) (rArrayFaultCause die) _ rfl rfl (show 0 ≤ 6 ∧ 6 < 64 ∧ 6 < 59 by decide),
      State.fld_setFld_below _ (rArrayFaultArray die) (rArrayFaultCause die) _ rfl rfl (show 8 ≤ 13 ∧ 13 < 64 ∧ 13 < 59 by decide),
      State.fld_setFld_self _ _ _ (show 59 ≤ 62 by decide) (show 62 < 64 by decide)]
    exact Nat.mod_eq_of_lt hcause
  · rw [hrow _ _ _ rfl rfl, State.fld_setFld_self _ _ _ (Nat.zero_le 6) (show 6 < 64 by decide)]
    exact Nat.mod_eq_of_lt hcell

/-- A record of a die's stopped cell leaves the places of its arrays. -/
theorem State.recordCell_physical {die array : Nat} (cell cause : Nat) :
    (s.recordCell die array cell cause).fld (rArrayInfoPhysical die array) = s.fld (rArrayInfoPhysical die array) := by
  have hne (u : State) (f : Field) (v : Nat) (hb : f.block = 0x020 + die) (ho : f.offset < 0x4000) :
      (u.setFld f v).fld (rArrayInfoPhysical die array) = u.fld (rArrayInfoPhysical die array) := by
    refine State.fld_setFld_ne _ _ _ _ ?_
    simp only [regKey, rArrayInfoPhysical, hb]
    omega
  unfold State.recordCell
  split
  · rfl
  · rw [hne _ (rArrayFaultRowRow die) _ rfl (show 0x058 < 0x4000 by decide), hne _ (rArrayFaultCell die) _ rfl (show 0x050 < 0x4000 by decide),
      hne _ (rArrayFaultArray die) _ rfl (show 0x050 < 0x4000 by decide), hne _ (rArrayFaultCause die) _ rfl (show 0x050 < 0x4000 by decide),
      hne _ (rArrayFaultValid die) _ rfl (show 0x050 < 0x4000 by decide)]

/-! ## A stopped NBU (R151, R161, R162) -/

/-- What a stopped NBU has produced in the row is withdrawn, and the scheduled items it has not begun are late. -/
def State.nbuLate (s : State) (t region : Nat) : State :=
  (((s.openItems t true).filter fun x => x.2.region = region).map fun x => x.2.cmd).dedup.foldl State.computeLate
    (s.withdrawUnits fun u => u = nbuUnit t region)

/-- An NBU is stopped, with a free spare in its group: what it does up to the row's end. -/
def State.nbuGone (s : State) (t region cause : Nat) : State :=
  let u := s.queueFault.recordNbu t region cause
  if cause = 3 then u else u.nbuLate t region

theorem OnlyDecided.nbuLate (s : State) (t region : Nat) : OnlyDecided s (s.nbuLate t region) :=
  (withdrawUnits s _).trans (foldl computeLate _ _)

theorem OnlyDecided.nbuGone (s : State) (t region cause : Nat) :
    OnlyDecided (s.queueFault.recordNbu t region cause) (s.nbuGone t region cause) := by
  unfold State.nbuGone
  dsimp only
  split
  · exact refl _
  · exact nbuLate _ t region

theorem State.spare_afterStop {k : Stack} {region : Nat} (hfree : k.spares[region / 16]? = some .free) (row : Nat) :
    (setAt k.spares (region / 16) (Spare.afterStop region row))[region / 16]? = some (.testing region row) := by
  rw [getElem?_setAt_self, hfree]
  rfl

/-- The open items of a stack are those of its work and its fall-back regions. -/
theorem State.openItems_congr {u : State} (hstacks : u.stackUnits = s.stackUnits) (hwork : u.work = s.work) (t : Nat) (b : Bool) :
    u.openItems t b = s.openItems t b := by
  simp only [State.openItems, hstacks, hwork]

/-- A command of an item that the stopped NBU has not begun is late. -/
theorem State.nbuLate_item {t : Nat} {x : Nat × Item} {h : Head} (hx : x ∈ s.openItems t true)
    (d : Takes lateOf s x.2.cmd h) : Decided (s.nbuLate t x.2.region) x.2.cmd (lateOf h) :=
  Takes.foldl_computeLate (List.mem_dedup.mpr (List.mem_map.mpr ⟨x, List.mem_filter.mpr ⟨hx, by simp⟩, rfl⟩)) (d.withdrawUnits _)

/-- A command that the stopped NBU has served in the row is late. -/
theorem State.nbuLate_served {t region n : Nat} {h : Head} (hn : (nbuUnit t region, n) ∈ s.work.served) (d : Takes lateOf s n h) :
    Decided (s.nbuLate t region) n (lateOf h) :=
  foldl_keeps (P := (Decided · n (lateOf h))) (fun _ k d => decided_computeLate d k) _
    (d.withdrawUnits_served hn (decide_eq_true rfl))

section
variable {t region cause : Nat} {k : Stack} (hk : s.stackUnits[t]? = some k) (hregion : region < 256) (hlo : 1 ≤ cause)
  (hhi : cause ≤ 3) (hback : s.fld (fallbackBit t region) = 0) (hnext : region ∉ k.fallNext)
  (hfree : k.spares[region / 16]? = some .free)
include hk hregion hlo hhi hback hnext hfree

theorem State.nbuStop_of_free : s.nbuStop t region cause = (s.nbuGone t region cause).setStack t fun x =>
    { x with fallNext := region :: x.fallNext, spares := setAt k.spares (region / 16) (Spare.afterStop region s.row) } := by
  have hgo : ¬(256 ≤ region ∨ cause = 0 ∨ 3 < cause ∨ s.fld (fallbackBit t region) = 1 ∨ k.fallNext.contains region = true) := by
    rw [List.contains_iff_mem]
    rintro (h | h | h | h | h)
    case inr.inr.inr.inr => exact hnext h
    all_goals omega
  have hrow : (s.nbuGone t region cause).row = s.row :=
    (OnlyDecided.nbuGone s t region cause).row.trans (congrArg Clock.row (OnlyOut.recordNbu s.queueFault t region cause).clock)
  have hspare := State.spare_afterStop hfree s.row
  rw [← hrow] at hspare ⊢
  simp only [State.nbuStop, hk, if_neg hgo]
  change (match (setAt k.spares (region / 16) (Spare.afterStop region (s.nbuGone t region cause).row))[region / 16]? with
    | some (.testing r _) => _ | _ => _) = _
  rw [hspare]
  exact if_pos rfl

end

end Sys2Proof.Machine
end

section
/-! The obligation O33 (R151, R161 to R163, R188, R390). -/

namespace Sys2Proof.Machine

variable {s : State}

/-! ## NBUs (R151, R161 to R163) -/

/-- What a stopped NBU does in its row, beyond its record: it enters the fault queue, and commands are withdrawn. -/
theorem State.nbuGone_keeps (s : State) (t region cause : Nat) : (s.nbuGone t region cause).stackUnits = s.stackUnits ∧
    (s.nbuGone t region cause).health.faults = s.health.faults ++ [s.row] ∧ (s.nbuGone t region cause).mem = s.mem := by
  have hrecord := OnlyOut.recordNbu s.queueFault t region cause
  have hgone := OnlyDecided.nbuGone s t region cause
  exact ⟨hgone.stackUnits.trans hrecord.stackUnits, congrArg Health.faults (hgone.health.trans hrecord.health),
    hgone.mem.trans hrecord.mem⟩

/-- NBU_FAULT keeps the record while commands are withdrawn. -/
theorem State.nbuGone_records {t region cause : Nat} (ht : t < 12) (hvalid : s.fld (rNbuFaultValid t) = 0) (hregion : region < 256)
    (hcause : cause < 16) : (s.nbuGone t region cause).fld (rNbuFaultValid t) = 1 ∧
      (s.nbuGone t region cause).fld (rNbuFaultCause t) = cause ∧ (s.nbuGone t region cause).fld (rNbuFaultRegion t) = region := by
  have hunit : UnitReg (0x010 + t) 0x078 := by
    simp only [UnitReg, regKey]
    omega
  have hgone := OnlyDecided.nbuGone s t region cause
  rw [hgone.fld (rNbuFaultValid t) hunit, hgone.fld (rNbuFaultCause t) hunit, hgone.fld (rNbuFaultRegion t) hunit]
  exact State.recordNbu_records (s := s.queueFault) hvalid hregion hcause

/-- A scheduled command that is not yet decided may become late. -/
theorem State.takes_recorded {u : State} {n : Nat} {c : Cmd} (hu : u.work = s.work) (hc : s.cmd n = some c) (hcls : c.cls ≠ .l8)
    (hres : c.result = none) : Takes lateOf u n c.head :=
  .inl ⟨c, by rwa [State.cmd, hu], rfl, hcls, hres⟩

/-- R151: after a check code or a missing acknowledgement the commands of the NBU's items, and of what it has served, are late. -/
theorem State.nbuGone_late {t region cause : Nat} (hcause : cause ≠ 3) :
    (∀ x ∈ s.openItems t true, x.2.region = region → ∀ c, s.cmd x.2.cmd = some c → c.cls ≠ .l8 → c.result = none →
      LateCompute (s.nbuGone t region cause) x.2.cmd c) ∧
    ∀ n c, (nbuUnit t region, n) ∈ s.work.served → s.cmd n = some c → c.cls ≠ .l8 → c.result = none →
      LateCompute (s.nbuGone t region cause) n c := by
  have hrecord := OnlyOut.recordNbu s.queueFault t region cause
  rw [State.nbuGone, if_neg hcause]
  generalize s.queueFault.recordNbu t region cause = u at hrecord
  have hwork : u.work = s.work := hrecord.work
  constructor
  · rintro x hx rfl c hc hcls hres
    rw [← State.openItems_congr (s := s) hrecord.stackUnits hwork] at hx
    exact State.nbuLate_item hx (State.takes_recorded hwork hc hcls hres)
  · intro n c hn hc hcls hres
    rw [← hwork] at hn
    exact State.nbuLate_served hn (State.takes_recorded hwork hc hcls hres)

/-- A pause that an NBU of the paused round has not acknowledged stops the NBU (R161). -/
theorem State.pauseTimeout_stops {t region : Nat} {k : Stack} {r : Round} (hk : s.stackUnits[t]? = some k) (hr : k.round = some r)
    (hp : r.paused = true) (hin : s.inRound t region = true) : s.pauseTimeout t region = s.nbuStop t region 2 := by
  have hround : (s.stackUnits[t]?).bind Stack.round = some r := (congrArg (Option.bind · Stack.round) hk).trans hr
  simp only [State.pauseTimeout, hround]
  exact if_pos ⟨hp, hin⟩

/-! ## Cells (R188) -/

/-- An array runs no tile, and of the stacks' accesses none is its own. -/
def State.arrayLeft (s : State) (a : Nat) (ks : List Stack) : State :=
  { s with
    arrays := { s.arrays with running := s.arrays.running.filter fun t => t.array ≠ a }
    stackUnits := ks }

/-- An array's tile leaves it: its cycles are counted, and the tile and its staging reads are gone. -/
theorem State.leaveArray_eq (s : State) (a ns : Nat) : ∃ (u : State) (ks : List Stack), OnlyOut s u ∧
    (∀ b o, regKey b o ≠ regKey (0x020 + a / 48) 0x040 → u.stored b o = s.stored b o) ∧ s.leaveArray a ns = u.arrayLeft a ks := by
  unfold State.leaveArray
  extract_lets forget u
  have hu : OnlyOut s u ∧ ∀ b o, regKey b o ≠ regKey (0x020 + a / 48) 0x040 → u.stored b o = s.stored b o := by
    refine foldl_keeps (P := fun u => OnlyOut s u ∧ ∀ b o, regKey b o ≠ regKey (0x020 + a / 48) 0x040 → u.stored b o = s.stored b o)
      (fun v t ⟨hout, hregs⟩ => ⟨hout.trans (OnlyOut.count v _ _), fun b o h => ?_⟩) _ ⟨.refl s, fun _ _ _ => rfl⟩
    exact (State.stored_setFld_ne v (rBusyCellCyclesCount (a / 48)) _ b o h).trans (hregs b o h)
  obtain ⟨hout, hregs⟩ := hu
  exact ⟨u, _, hout, hregs, rfl⟩

/-- What a stopped cell does in its row: its array's work is withdrawn, but not after a swatch (R188, R398). -/
def State.cellGone (s : State) (die array cell cause : Nat) : State :=
  let u := s.queueFault.recordCell die array cell cause
  if cause = 2 then u
  else (u.leaveArray (die * 48 + array) u.clock.ns).withdrawUnits fun n => n = arrayUnit (die * 48 + array)

/-- The array is out of service from the next row. -/
def State.outNextRow (s : State) (a : Nat) : State := { s with arrays := { s.arrays with outNext := a :: s.arrays.outNext } }

/-- What a stopped cell leaves of its row, beyond its record: all but tiles, their counts and commands. -/
theorem State.cellGone_keeps {die array : Nat} (harray : array < 48) (cell cause : Nat) :
    (s.cellGone die array cell cause).row = s.row ∧ (s.cellGone die array cell cause).mem = s.mem ∧
    (s.cellGone die array cell cause).health.faults = s.health.faults ++ [s.row] ∧
    (∀ b o, UnitReg b o → regKey b o ≠ regKey (0x020 + die) 0x040 →
      (s.cellGone die array cell cause).stored b o = (s.queueFault.recordCell die array cell cause).stored b o) ∧
    (s.cellGone die array cell cause).arrays.outNext = s.arrays.outNext ∧
    (s.cellGone die array cell cause).arrays.testing = s.arrays.testing ∧
    (s.cellGone die array cell cause).arrays.spareCells = s.arrays.spareCells ∧
    (cause ≠ 2 → ∀ x ∈ (s.cellGone die array cell cause).arrays.running, x.array ≠ die * 48 + array) := by
  have hrecord := OnlyOut.recordCell s.queueFault die array cell cause
  unfold State.cellGone
  dsimp only
  generalize s.queueFault.recordCell die array cell cause = u at hrecord ⊢
  split
  · rename_i hcause
    exact ⟨congrArg Clock.row hrecord.clock, hrecord.mem, congrArg Health.faults hrecord.health, fun _ _ _ _ => rfl,
      congrArg Arrays.outNext hrecord.arrays, congrArg Arrays.testing hrecord.arrays, congrArg Arrays.spareCells hrecord.arrays,
      fun h => absurd hcause h⟩
  · obtain ⟨v, ks, hout, hregs, hleave⟩ := u.leaveArray_eq (die * 48 + array) u.clock.ns
    have hdecided := OnlyDecided.withdrawUnits (u.leaveArray (die * 48 + array) u.clock.ns) fun n => n = arrayUnit (die * 48 + array)
    have hblock : (die * 48 + array) / 48 = die := by omega
    rw [hblock] at hregs
    generalize State.withdrawUnits _ _ = w at hdecided ⊢
    rw [hleave] at hdecided
    have hall := hrecord.trans hout
    refine ⟨hdecided.row.trans (congrArg Clock.row hall.clock), hdecided.mem.trans hall.mem,
      congrArg Health.faults (hdecided.health.trans hall.health), fun b o hunit hne => (hdecided.unitRegs b o hunit).trans (hregs b o hne),
      hdecided.outNext.trans (congrArg Arrays.outNext hall.arrays :), hdecided.testing.trans (congrArg Arrays.testing hall.arrays :),
      hdecided.spareCells.trans (congrArg Arrays.spareCells hall.arrays :), fun _ x hx => ?_⟩
    rw [hdecided.running] at hx
    simpa using (List.mem_filter.mp hx).2

/-- R188: after a check code or a gauge what the array has served in the row is withdrawn. -/
theorem State.cellGone_late {die array cell cause n : Nat} {c : Cmd} (hcause : cause ≠ 2)
    (hn : (arrayUnit (die * 48 + array), n) ∈ s.work.served) (hc : s.cmd n = some c) (hcls : c.cls ≠ .l8) (hres : c.result = none) :
    LateCompute (s.cellGone die array cell cause) n c := by
  have hrecord := OnlyOut.recordCell s.queueFault die array cell cause
  unfold State.cellGone
  dsimp only
  rw [if_neg hcause]
  generalize s.queueFault.recordCell die array cell cause = u at hrecord ⊢
  obtain ⟨v, ks, hout, _, hleave⟩ := u.leaveArray_eq (die * 48 + array) u.clock.ns
  rw [hleave]
  have hwork : v.work = s.work := hout.work.trans hrecord.work
  exact Takes.withdrawUnits_served (hwork ▸ hn : (arrayUnit (die * 48 + array), n) ∈ v.work.served) (decide_eq_true rfl)
    (State.takes_recorded (u := v.arrayLeft _ ks) hwork hc hcls hres)

section
variable {die array cell cause : Nat} (hdie : die < 4) (harray : array < 48) (hcell : cell < 68) (hlo : 1 ≤ cause) (hhi : cause ≤ 3)
  (hin : (s.fld (rOutMapArrays die)).testBit array = false) (hnext : die * 48 + array ∉ s.arrays.outNext)
  (htests : s.arrays.testsFor die array = false) (hfree : s.freeCells die array ≠ 0)
include hdie harray hcell hlo hhi hin hnext htests hfree

/-- A stopped cell whose array has a free spare cell: the array is out from the next row, and the spare is tested for it. -/
theorem State.cellStop_of_free : s.cellStop die array cell cause =
    ((s.cellGone die array cell cause).outNextRow (die * 48 + array)).testSpare (.cell die array) s.row := by
  obtain ⟨hrow, _, _, hregs, _, htesting, hcells, _⟩ := s.cellGone_keeps harray cell cause
  have hgo : ¬(4 ≤ die ∨ 48 ≤ array ∨ 68 ≤ cell ∨ cause = 0 ∨ 3 < cause ∨ (s.fld (rOutMapArrays die)).testBit array = true ∨
      s.arrays.outNext.contains (die * 48 + array) = true) := by
    rw [hin, List.contains_iff_mem]
    rintro (h | h | h | h | h | h | h)
    case inr.inr.inr.inr.inr.inl => cases h
    case inr.inr.inr.inr.inr.inr => exact hnext h
    all_goals omega
  have hphysical : (s.cellGone die array cell cause).physicalArray die array = s.physicalArray die array := by
    have hstored := hregs (0x020 + die) (0x4000 * (array + 1) + 0x000) (by simp only [UnitReg, regKey]; omega)
      (by simp only [regKey]; omega)
    exact congrArg (die * 52 + ·) ((congrArg (bits · 5 0) hstored).trans (State.recordCell_physical (s := s.queueFault) cell cause))
  have hfree' : ((s.cellGone die array cell cause).outNextRow (die * 48 + array)).freeCells die array = s.freeCells die array := by
    show 4 - Tbl.num (s.cellGone die array cell cause).arrays.spareCells ((s.cellGone die array cell cause).physicalArray die array) -
      ((s.cellGone die array cell cause).arrays.testing.filter fun x => x.1 = .cell die array).length = _
    rw [hphysical, hcells, htesting, State.freeCells]
  have htests' : ((s.cellGone die array cell cause).outNextRow (die * 48 + array)).arrays.testsFor die array = false := by
    show (s.cellGone die array cell cause).arrays.testing.any _ = false
    rw [htesting]
    exact htests
  have hrestore : s.cellStop die array cell cause =
      ((s.cellGone die array cell cause).outNextRow (die * 48 + array)).restoreArray die array (s.cellGone die array cell cause).row true := by
    unfold State.cellStop
    exact if_neg hgo
  rw [hrestore, State.restoreArray, if_neg (by rw [htests']; decide), if_pos ⟨rfl, hfree' ▸ hfree⟩, hrow]

end

/-! ## Head slices and walkers (R390) -/

/-- At the failure of a head slice the round is cut, where contexts of it still run. -/
def State.cutBusy (s : State) (t : Nat) (k : Stack) : State :=
  match k.round with
  | some r => if s.roundBusy t then s.cutRound t r else s
  | none => s

section
variable {t slice : Nat} {k : Stack} (hk : s.stackUnits[t]? = some k)
include hk

theorem State.cutBusy_cuts (hno : NoAccess s t) : SameCourse s (s.cutBusy t k) ∧ (s.cutBusy t k).health = s.health ∧
    ∃ k', (s.cutBusy t k).stackUnits[t]? = some k' ∧ k'.slicesFailed = k.slicesFailed ∧ (s.roundBusy t = true → k'.round = none) := by
  unfold State.cutBusy
  split
  · rename_i r hr
    split
    · obtain ⟨hcourse, hhealth, ⟨k', hk', hround, hslices⟩, _⟩ := State.cutRound_cuts hk hno r
      exact ⟨hcourse, hhealth, k', hk', hslices, fun _ => hround⟩
    · rename_i hidle
      exact ⟨.refl s, rfl, k, hk, rfl, fun hbusy => absurd hbusy hidle⟩
  · rename_i hr
    exact ⟨.refl s, rfl, k, hk, rfl, fun _ => hr⟩

/-- One of the hidden spares takes over from a failed slice. -/
theorem State.sliceFault_eq (hslice : slice < 136) (hfew : k.slicesFailed < 8) : s.sliceFault t slice =
    (s.cutBusy t k).queueFault.setStack t fun k => { k with slicesFailed := k.slicesFailed + 1 } := by
  unfold State.sliceFault
  simp only [hk]
  rw [if_neg (Nat.not_le.mpr hslice), if_neg (by omega)]
  rfl

/-- A failed head slice ends the round of its stack, and is counted. -/
theorem State.sliceFault_ends (hslice : slice < 136) (hfew : k.slicesFailed < 8) (hno : NoAccess s t) :
    ∃ k', (s.sliceFault t slice).stackUnits[t]? = some k' ∧
      k'.slicesFailed = k.slicesFailed + 1 ∧ (s.roundBusy t = true → k'.round = none) ∧
      (s.sliceFault t slice).health.faults = s.health.faults ++ [s.row] ∧ (s.sliceFault t slice).mem = s.mem := by
  obtain ⟨hcourse, hhealth, k', hk', hslices, hround⟩ := State.cutBusy_cuts hk hno
  rw [State.sliceFault_eq hk hslice hfew]
  refine ⟨{ k' with slicesFailed := k'.slicesFailed + 1 }, ?_, congrArg (· + 1) hslices, hround, ?_, hcourse.mem⟩
  · rw [State.setStack_stackUnits, getElem?_setAt_self, State.queueFault_stackUnits, hk']
    rfl
  · rw [State.setStack_health, State.queueFault_health, hhealth, State.row, hcourse.clock, ← State.row]

end

/-- A stopped NBU is fenced, and its group's free spare is tested for its region. -/
theorem State.nbuStop_fences {i : Instr} {t region cause : Nat} {k : Stack} (hexec : exec i s = .next (s.nbuStop t region cause))
    (hk : s.stackUnits[t]? = some k) (hregion : region < 256) (hlo : 1 ≤ cause) (hhi : cause ≤ 3)
    (hback : s.fld (fallbackBit t region) = 0) (hnext : region ∉ k.fallNext) (hfree : k.spares[region / 16]? = some .free) :
    ∃ v k', exec i s = .next v ∧ v.stackUnits[t]? = some k' ∧ k'.fallNext = region :: k.fallNext ∧
      k'.spares[region / 16]? = some (.testing region s.row) ∧ v.health.faults = s.health.faults ++ [s.row] ∧ v.mem = s.mem ∧
      (t < 12 → s.fld (rNbuFaultValid t) = 0 → v.fld (rNbuFaultValid t) = 1 ∧ v.fld (rNbuFaultCause t) = cause ∧
        v.fld (rNbuFaultRegion t) = region) ∧
      (cause ≠ 3 → ∀ x ∈ s.openItems t true, x.2.region = region → ∀ c, s.cmd x.2.cmd = some c → c.cls ≠ .l8 →
        c.result = none → LateCompute v x.2.cmd c) ∧
      (cause ≠ 3 → ∀ n c, (nbuUnit t region, n) ∈ s.work.served → s.cmd n = some c → c.cls ≠ .l8 → c.result = none →
        LateCompute v n c) := by
  obtain ⟨hstacks, hfaults, hmem⟩ := s.nbuGone_keeps t region cause
  refine ⟨_, { k with fallNext := region :: k.fallNext, spares := setAt k.spares (region / 16) (Spare.afterStop region s.row) },
    hexec.trans (congrArg Host.Outcome.next (State.nbuStop_of_free hk hregion hlo hhi hback hnext hfree)), ?_, rfl,
    State.spare_afterStop hfree s.row, hfaults, hmem, fun ht hvalid => State.nbuGone_records ht hvalid hregion (by omega),
    fun hcause => (State.nbuGone_late hcause).1, fun hcause => (State.nbuGone_late hcause).2⟩
  rw [State.setStack_stackUnits, getElem?_setAt_self, hstacks, hk]
  rfl

/-- Settles O33: a unit's stop is its record, the spare's test and the withdrawal of commands, none of which touches memory or the
records of another. -/
theorem unitFaultsAreFenced : Obligations.UnitFaultsAreFenced := by
  intro s
  refine ⟨?nbu, ?cell, ?slice, ?walker⟩
  case nbu =>
    rintro i t region cause k (rfl | ⟨rfl, rfl, hin, r, hr, hp⟩) hk hregion hlo hhi hback hnext hfree
    · exact State.nbuStop_fences rfl hk hregion hlo hhi hback hnext hfree
    · exact State.nbuStop_fences (congrArg Host.Outcome.next (State.pauseTimeout_stops hk hr hp hin)) hk hregion hlo hhi hback hnext hfree
  case cell =>
    intro die array cell cause hdie harray hcell hlo hhi hin hnext htests hfree
    obtain ⟨_, hmem, hfaults, hregs, houtNext, htesting, _, hrunning⟩ := s.cellGone_keeps harray cell cause
    refine ⟨_, congrArg Host.Outcome.next (State.cellStop_of_free hdie harray hcell hlo hhi hin hnext htests hfree),
      congrArg (_ :: ·) houtNext, congrArg (· ++ _) htesting, hfaults, hmem,
      fun hcause => ⟨hrunning hcause, fun n c hn hc hcls hres => State.cellGone_late hcause hn hc hcls hres⟩, fun hvalid => ?_⟩
    have hrecord := hregs (0x020 + die) 0x050 (by simp only [UnitReg, regKey]; omega) (by simp only [regKey]; omega)
    obtain ⟨hv, hc, hn⟩ := State.recordCell_records (s := s.queueFault) (cell := cell) (cause := cause) hvalid (by omega) (by omega)
    exact ⟨(congrArg (bits · 63 63) hrecord).trans hv, (congrArg (bits · 62 59) hrecord).trans hc,
      (congrArg (bits · 6 0) hrecord).trans hn⟩
  case slice =>
    intro t slice k hk hslice hfew hno
    obtain ⟨k', hk', hends⟩ := State.sliceFault_ends hk hslice hfew hno
    exact ⟨_, k', rfl, hk', hends⟩
  case walker =>
    intro w hw
    refine ⟨s.walkerFault w, rfl, ?_⟩
    rw [State.walkerFault, if_neg (Nat.not_le.mpr hw)]
    refine ⟨mem_addNum.mpr (.inl rfl), fun e he => ?_, rfl, rfl, rfl, rfl⟩
    obtain ⟨hmem, hne⟩ := List.mem_filter.mp he
    exact ⟨hmem, by simpa using hne⟩

end Sys2Proof.Machine
end

section
/-! SUPPORT. Spares as they take over, and SPARE_CTL as the Keeper writes it (R163, R164, R189 to R191). -/

namespace Sys2Proof.Machine

variable {s t u : State}

/-! ## States that differ in one register -/

/-- `t` is `s` but for one register. -/
structure OnlyReg (b o : Nat) (s t : State) : Prop where
  rest : t = { s with regs := t.regs }
  regs : ∀ b' o', regKey b' o' ≠ regKey b o → t.stored b' o' = s.stored b' o'

namespace OnlyReg

variable {b o : Nat}

theorem refl (b o : Nat) (s : State) : OnlyReg b o s s := ⟨rfl, fun _ _ _ => rfl⟩

theorem trans (h : OnlyReg b o s t) (h' : OnlyReg b o t u) : OnlyReg b o s u :=
  ⟨h'.rest.trans (congrArg (fun t : State => { t with regs := u.regs }) h.rest), fun b' o' hne => (h'.regs b' o' hne).trans (h.regs b' o' hne)⟩

theorem setFld (s : State) (f : Field) (v : Nat) : OnlyReg f.block f.offset s (s.setFld f v) :=
  ⟨rfl, State.stored_setFld_ne s f v⟩

theorem ite {c : Prop} [Decidable c] (h : OnlyReg b o s t) (h' : OnlyReg b o s u) : OnlyReg b o s (if c then t else u) := by
  split
  · exact h
  · exact h'

theorem arrays (h : OnlyReg b o s t) : t.arrays = s.arrays := by rw [h.rest]

theorem stackUnits (h : OnlyReg b o s t) : t.stackUnits = s.stackUnits := by rw [h.rest]

theorem row (h : OnlyReg b o s t) : t.row = s.row := by
  rw [h.rest]
  rfl

theorem mem (h : OnlyReg b o s t) : t.mem = s.mem := by rw [h.rest]

theorem out (h : OnlyReg b o s t) : t.out = s.out := by rw [h.rest]

/-- A field of another register stays. -/
theorem fld (h : OnlyReg b o s t) (f : Field) (hne : regKey f.block f.offset ≠ regKey b o) : t.fld f = s.fld f :=
  congrArg (bits · f.hi f.lo) (h.regs _ _ hne)

theorem recordNbu (s : State) (t region cause : Nat) : OnlyReg (0x010 + t) 0x078 s (s.recordNbu t region cause) :=
  ite (refl _ _ s) (((setFld s (rNbuFaultValid t) 1).trans (setFld _ (rNbuFaultCause t) cause)).trans
    (setFld _ (rNbuFaultRegion t) region) |>.trans (setFld _ (rNbuFaultRow t) _))

theorem nbuResult (s : State) (t region result : Nat) : OnlyReg (0x010 + t) 0x080 s (s.nbuResult t region result) :=
  ite (setFld s (rSpareCtlResult t) result) (refl _ _ s)

theorem arrayResult (s : State) (die array : Nat) (cell : Bool) (result : Nat) :
    OnlyReg (0x020 + die) 0x060 s (s.arrayResult die array cell result) :=
  ite (setFld s (rAttSpareCtlResult die) result) (refl _ _ s)

theorem putFields (s : State) (b o : Nat) (v : Word) : OnlyReg b o s (s.putFields b o v) :=
  ⟨rfl, fun b' o' => State.stored_setStored_ne s b o b' o' _⟩

end OnlyReg

/-! ## A spare NBU takes over (R163, R164) -/

/-- What ROUND_SPILL changes: items, and the count of those spilled. -/
theorem State.spill_eq (s : State) (t : Nat) : ∃ (f : Nat → Item → Item) (n : Nat),
    s.spill t = (s.setItems f).count (rPathItemsSpilled t) n := ⟨_, _, rfl⟩

/-- The register of FALLBACK_MAP that holds a region's bit. -/
theorem fallbackBit_offset_lt {region : Nat} (h : region < 256) (t : Nat) : (fallbackBit t region).offset < 0x050 := by
  show 0x030 + 8 * (region / 64) < 0x050
  omega

/-- The spare that takes over serves the region, which leaves fall-back (R164). -/
theorem State.takeNbu_takes {t group region f : Nat} {k : Stack} (hk : s.stackUnits[t]? = some k)
    (hspare : k.spares[group]? = some (.testing region f)) (hregion : region < 256) (hrow : s.row = f + 5) :
    ∃ k', (s.takeNbu t group).stackUnits[t]? = some k' ∧ k'.spares[group]? = some (.used region) ∧
      (s.takeNbu t group).fld (fallbackBit t region) = 0 ∧ (s.takeNbu t group).mem = s.mem ∧ (s.takeNbu t group).out = s.out := by
  have hfound : ((s.stackUnits[t]?).bind fun k => k.spares[group]?) = some (.testing region f) := by rw [hk]; exact hspare
  have hrecord : OnlyReg (0x010 + t) 0x078 s (if s.fld (fallbackBit t region) = 1 then s else s.recordNbu t region 4) :=
    .ite (.refl _ _ s) (.recordNbu s t region 4)
  simp only [State.takeNbu, hfound, hrow]
  rw [if_neg (fun h => h rfl)]
  generalize (if s.fld (fallbackBit t region) = 1 then s else s.recordNbu t region 4) = u at hrecord ⊢
  have hoff := fallbackBit_offset_lt hregion t
  have hresult := OnlyReg.nbuResult ((u.setStack t fun k => { k with spares := setAt k.spares group fun _ => .used region }).setFld
    (fallbackBit t region) 0) t region 2
  generalize State.nbuResult _ t region 2 = w at hresult ⊢
  obtain ⟨g, n, hspill⟩ := (w.reroute t region).spill_eq t
  rw [hspill]
  refine ⟨{ k with spares := setAt k.spares group fun _ => .used region }, ?_, ?_, ?_, ?_, ?_⟩
  · rw [State.count_stackUnits, State.setItems_stackUnits]
    show w.stackUnits[t]? = _
    rw [hresult.stackUnits, State.setFld_stackUnits, State.setStack_stackUnits, getElem?_setAt_self, hrecord.stackUnits, hk]
    rfl
  · rw [getElem?_setAt_self, hspare]
    rfl
  · rw [State.fld_count_ne _ _ _ _ (by show regKey (0x010 + t) _ ≠ regKey (0x010 + t) 0x070; simp only [regKey]; omega)]
    refine (hresult.fld _ ?_).trans ((State.fld_setFld_self _ _ _ (Nat.le_refl _) (Nat.mod_lt _ (by decide))).trans (Nat.zero_mod _))
    show regKey (0x010 + t) _ ≠ regKey (0x010 + t) 0x080
    simp only [regKey]
    omega
  · rw [State.count_mem, State.setItems_mem]
    show w.mem = _
    rw [hresult.mem, State.setFld_mem, State.setStack_mem, hrecord.mem]
  · rw [State.count_out, State.setItems_out]
    show w.out = _
    rw [hresult.out, State.setFld_out, State.setStack_out, hrecord.out]

/-! ## A spare cell or array takes over (R189, R190) -/

@[simp] theorem Tbl.num_set_self (t : Tbl Nat) (k v : Nat) : Tbl.num (Tbl.set t k v) k = v := by
  rw [Tbl.num, Tbl.get_set_self]
  rfl

/-- A spare cell that is used is counted at its array's place. -/
theorem State.num_useCell (s : State) (d a : Nat) : Tbl.num (s.useCell d a).arrays.spareCells (s.physicalArray d a) =
    Tbl.num s.arrays.spareCells (s.physicalArray d a) + 1 := Tbl.num_set_self _ _ _

/-- A spare array that is used is counted on its die. -/
theorem State.num_useArray (s : State) (d : Nat) :
    Tbl.num (s.useArray d).arrays.spareArrays d = Tbl.num s.arrays.spareArrays d + 1 := Tbl.num_set_self _ _ _

/-- The end of a test changes the list of tests alone. -/
theorem State.dropTest_eq (s : State) (x : SpareTarget) : ∃ l, s.dropTest x = { s with arrays := { s.arrays with testing := l } } := by
  unfold State.dropTest
  split
  · exact ⟨_, rfl⟩
  · exact ⟨_, rfl⟩

theorem OnlyReg.arrayBack (s : State) (die array : Nat) : OnlyReg (0x020 + die) 0x030 s (s.arrayBack die array) :=
  setFld s ⟨0x020 + die, 0x030, array, array⟩ 0

/-- An array that comes back is no longer in OUT_MAP. -/
theorem State.arrayBack_in {array : Nat} (h : array < 48) (s : State) (die : Nat) :
    ((s.arrayBack die array).fld (rOutMapArrays die)).testBit array = false := by
  show (bits ((s.setStored (0x020 + die) 0x030 (setBits (s.stored (0x020 + die) 0x030) array array 0)).stored (0x020 + die) 0x030) 47 0).testBit
    array = false
  rw [State.stored_setStored_self, testBit_bits, testBit_setBits _ _ _ (Nat.le_refl array) (by omega), if_pos (by omega)]
  simp

section
variable {d a f : Nat} (ha : a < 48) (hrow : s.row = f + 5)
include ha hrow

/-- A spare cell that takes over is counted, and its array is back. -/
theorem State.takeSpare_cell (htest : s.testRow (.cell d a) = some f) :
    ((s.takeSpare (.cell d a)).fld (rOutMapArrays d)).testBit a = false ∧
      Tbl.num (s.takeSpare (.cell d a)).arrays.spareCells (s.physicalArray d a) = Tbl.num s.arrays.spareCells (s.physicalArray d a) + 1 ∧
      (s.takeSpare (.cell d a)).mem = s.mem ∧ (s.takeSpare (.cell d a)).out = s.out := by
  have hdue : s.testRow (.cell d a) = some (s.row - 5) ∧ 5 ≤ s.row := ⟨by rw [htest, hrow]; rfl, by omega⟩
  obtain ⟨l, hdrop⟩ := s.dropTest_eq (.cell d a)
  rw [State.takeSpare, if_pos hdue, hdrop]
  generalize hu : ({ s with arrays := { s.arrays with testing := l } } : State) = u
  have hback := OnlyReg.arrayBack (u.useCell d a) d a
  have hresult := OnlyReg.arrayResult ((u.useCell d a).arrayBack d a) d a true 2
  refine ⟨?_, ?_, ?_, ?_⟩
  · rw [hresult.fld (rOutMapArrays d) (by show regKey (0x020 + d) 0x030 ≠ regKey (0x020 + d) 0x060; simp [regKey])]
    exact State.arrayBack_in ha _ d
  · rw [hresult.arrays, hback.arrays, show s.physicalArray d a = u.physicalArray d a from hu ▸ rfl, State.num_useCell, ← hu]
  · rw [hresult.mem, hback.mem, ← hu]
    rfl
  · rw [hresult.out, hback.out, ← hu]
    rfl

/-- A spare array that takes over is the next of its die, and stands where the array was (log entry 163). -/
theorem State.takeSpare_array (htest : s.testRow (.array d a) = some f) (hn : Tbl.num s.arrays.spareArrays d < 4) :
    ((s.takeSpare (.array d a)).fld (rOutMapArrays d)).testBit a = false ∧
      (s.takeSpare (.array d a)).fld (rArrayInfoPhysical d a) = 48 + Tbl.num s.arrays.spareArrays d ∧
      Tbl.num (s.takeSpare (.array d a)).arrays.spareArrays d = Tbl.num s.arrays.spareArrays d + 1 ∧
      (s.takeSpare (.array d a)).mem = s.mem ∧ (s.takeSpare (.array d a)).out = s.out := by
  have hdue : s.testRow (.array d a) = some (s.row - 5) ∧ 5 ≤ s.row := ⟨by rw [htest, hrow]; rfl, by omega⟩
  obtain ⟨l, hdrop⟩ := s.dropTest_eq (.array d a)
  rw [State.takeSpare, if_pos hdue, hdrop]
  generalize hu : ({ s with arrays := { s.arrays with testing := l } } : State) = u
  dsimp only
  have hplace := OnlyReg.setFld u (rArrayInfoPhysical d a) (48 + Tbl.num s.arrays.spareArrays d)
  have hself := State.fld_setFld_self u (rArrayInfoPhysical d a) (48 + Tbl.num s.arrays.spareArrays d) (Nat.zero_le 5) (show 5 < 64 by decide)
  generalize u.setFld (rArrayInfoPhysical d a) (48 + Tbl.num s.arrays.spareArrays d) = w at hplace hself ⊢
  have hback := OnlyReg.arrayBack (w.useArray d) d a
  have hresult := OnlyReg.arrayResult ((w.useArray d).arrayBack d a) d a false 2
  refine ⟨?_, ?_, ?_, ?_, ?_⟩
  · rw [hresult.fld (rOutMapArrays d) (by show regKey (0x020 + d) 0x030 ≠ regKey (0x020 + d) 0x060; simp [regKey])]
    exact State.arrayBack_in ha _ d
  · rw [hresult.fld _ (by show regKey (0x020 + d) _ ≠ regKey (0x020 + d) 0x060; simp only [regKey, rArrayInfoPhysical]; omega),
      hback.fld _ (by show regKey (0x020 + d) _ ≠ regKey (0x020 + d) 0x030; simp only [regKey, rArrayInfoPhysical]; omega)]
    refine hself.trans (Nat.mod_eq_of_lt ?_)
    show 48 + Tbl.num s.arrays.spareArrays d < 64
    omega
  · rw [hresult.arrays, hback.arrays, State.num_useArray, hplace.arrays, ← hu]
  · rw [hresult.mem, hback.mem, State.useArray_mem, hplace.mem, ← hu]
  · rw [hresult.out, hback.out, State.useArray_out, hplace.out, ← hu]

end

/-! ## SPARE_CTL (R164, R191) -/

/-- OP and operand of a write that holds OP in bits [63:62] and its operand from bit 0. -/
theorem bits_opWrite (w : Word) {h op v : Nat} (hh : h < 62) (ho : op < 4) (hv : v < 2 ^ (h + 1)) :
    bits (setBits (setBits w 63 62 op) h 0 v) 63 62 = op ∧ bits (setBits (setBits w 63 62 op) h 0 v) h 0 = v := by
  constructor
  · rw [bits_setBits_disjoint _ _ (Nat.zero_le h) (by omega) (.inr hh), bits_setBits_self _ _ (by decide) (by decide)]
    exact Nat.mod_eq_of_lt ho
  · rw [bits_setBits_self _ _ (Nat.zero_le h) (by omega)]
    exact Nat.mod_eq_of_lt hv

/-- A write of the Keeper to a plain register of a unit takes effect at once, and then its operation. -/
theorem State.regWrite_unit {b o : Nat} (v : Word) (hplain : plainReg b o = true) (hreach : s.reaches .keeper true b o = true)
    (hprot : s.protectedNow b o = false) (hnext : nextRowWrite b o = false) (hb : b < 0x038) :
    s.regWrite .keeper b o v = (s.putFields b o v).operate .keeper b o v := by
  rw [State.regWrite_accepted v hplain hreach (.inr rfl) hprot, State.acceptWrite, if_neg (by rw [hnext]; decide), State.putWord,
    if_neg (by omega), if_neg (by omega), if_neg (by omega)]

/-- The Keeper reaches every register once an image runs (R413). -/
theorem State.reaches_keeper (hruns : s.runs = true) (himage : s.fld rBootStatusImage ≠ 0) (b o : Nat) :
    s.reaches .keeper true b o = true := by
  simp [State.reaches, hruns, himage]

section
variable (hruns : s.runs = true) (himage : s.fld rBootStatusImage ≠ 0)
include hruns himage

/-- OP 01 of SPARE_CTL of a stack. -/
theorem State.nbuSpareMap_eq {t region : Nat} (ht : t < 12) (hregion : region < 256) :
    ∃ v, exec (.nbuSpareMap .keeper t region) s = .next ((s.putFields (0x010 + t) 0x080 v).mapNbu t region) := by
  have hplain : ∀ k < 12, plainReg (0x010 + k) 0x080 = true := by decide
  have hblock : ∀ k < 12, blockAt (0x010 + k) = some (.nbu, k) := by decide
  obtain ⟨hop, harg⟩ := bits_opWrite (s.written (0x010 + t) 0x080) (h := 7) (by decide) (show 1 < 4 by decide) hregion
  refine ⟨setBits (s.opWord (0x010 + t) 0x080 63 62 1) 7 0 region, congrArg Host.Outcome.next ((if_pos ht).trans ((State.regWrite_unit _ (hplain t ht) (State.reaches_keeper hruns himage _ _)
    (by simp only [State.protectedNow, hblock t ht]) (by simp only [nextRowWrite, hblock t ht]) (by omega)).trans ?_))⟩
  simp only [State.operate, hblock t ht, State.opWord, hop, harg]
  rfl

/-- OP 01 and OP 10 of SPARE_CTL of an attention die. -/
theorem State.attSpareCtl_eq {d a op : Nat} (hd : d < 4) (ha : a < 64) (hop : op = 1 ∨ op = 2) :
    ∃ v, s.opWrite .keeper (0x020 + d) 0x060 op 5 0 a = (s.putFields (0x020 + d) 0x060 v).mapArray d a (op = 1) := by
  have hplain : ∀ k < 4, plainReg (0x020 + k) 0x060 = true := by decide
  have hblock : ∀ k < 4, blockAt (0x020 + k) = some (.att, k) := by decide
  obtain ⟨hop', harg⟩ := bits_opWrite (s.written (0x020 + d) 0x060) (h := 5) (by decide) (show op < 4 by omega) ha
  refine ⟨setBits (s.opWord (0x020 + d) 0x060 63 62 op) 5 0 a, (State.regWrite_unit _ (hplain d hd) (State.reaches_keeper hruns himage _ _)
    (by simp only [State.protectedNow, hblock d hd]) (by simp only [nextRowWrite, hblock d hd]) (by omega)).trans ?_⟩
  simp only [State.operate, hblock d hd, State.opWord, hop', harg]
  rcases hop with rfl | rfl <;> rfl

end

end Sys2Proof.Machine
end

section
/-! The obligation O34 (R163, R164, R189 to R191). -/

namespace Sys2Proof.Machine

variable {s : State}

/-! ## Requests for a spare NBU (R164) -/

theorem State.fld_spareCtlResult_setFld (s : State) (t : Nat) {r : Nat} (h : r < 8) :
    (s.setFld (rSpareCtlResult t) r).fld (rSpareCtlResult t) = r :=
  (State.fld_setFld_self s (rSpareCtlResult t) r (show 59 ≤ 61 by decide) (show 61 < 64 by decide)).trans (Nat.mod_eq_of_lt h)

theorem State.fld_attSpareCtlResult_setFld (s : State) (d : Nat) {r : Nat} (h : r < 8) :
    (s.setFld (rAttSpareCtlResult d) r).fld (rAttSpareCtlResult d) = r :=
  (State.fld_setFld_self s (rAttSpareCtlResult d) r (show 59 ≤ 61 by decide) (show 61 < 64 by decide)).trans (Nat.mod_eq_of_lt h)

section
variable {t region : Nat} {k : Stack} (hk : s.stackUnits[t]? = some k)
include hk

/-- A free spare is tested for the region, RESULT running. -/
theorem State.mapNbu_free (hspare : k.spares[region / 16]? = some .free) :
    ∃ k', (s.mapNbu t region).stackUnits[t]? = some k' ∧ k'.spares[region / 16]? = some (.testing region s.row) ∧
      (s.mapNbu t region).fld (rSpareCtlResult t) = 1 ∧ (s.mapNbu t region).mem = s.mem := by
  have hfound : ((s.stackUnits[t]?).bind fun k => k.spares[region / 16]?) = some .free := by rw [hk]; exact hspare
  simp only [State.mapNbu, hfound]
  refine ⟨{ k with spares := setAt k.spares (region / 16) fun _ => .testing region s.row }, ?_, ?_,
    State.fld_spareCtlResult_setFld _ _ (by decide), ?_⟩
  · rw [State.setFld_stackUnits, State.setStack_stackUnits, getElem?_setAt_self, hk]
    rfl
  · rw [getElem?_setAt_self, hspare]
    rfl
  · rw [State.setFld_mem, State.setStack_mem]

/-- Where the group's spare is not free, RESULT says whether a test runs for the region. -/
theorem State.mapNbu_taken {x : Spare} (hspare : k.spares[region / 16]? = some x) (hx : x ≠ .free) :
    s.mapNbu t region = s.setFld (rSpareCtlResult t) (match x with
      | .testing r _ => if r = region then 1 else 3
      | _ => 3) := by
  have hfound : ((s.stackUnits[t]?).bind fun k => k.spares[region / 16]?) = some x := by rw [hk]; exact hspare
  cases x with
  | free => exact absurd rfl hx
  | testing r f => simp only [State.mapNbu, hfound]
  | used r => simp only [State.mapNbu, hfound]
  | failed => simp only [State.mapNbu, hfound]

end

/-! ## Requests for a spare cell or array (R191) -/

/-- A write of SPARE_CTL leaves the places of a die's arrays. -/
theorem State.freeCells_putFields (s : State) (d a : Nat) (v : Word) : (s.putFields (0x020 + d) 0x060 v).freeCells d a = s.freeCells d a := by
  have hput := OnlyReg.putFields s (0x020 + d) 0x060 v
  have hplace : (s.putFields (0x020 + d) 0x060 v).physicalArray d a = s.physicalArray d a :=
    congrArg (d * 52 + ·) (hput.fld (rArrayInfoPhysical d a)
      (by show regKey (0x020 + d) _ ≠ regKey (0x020 + d) 0x060; simp only [regKey, rArrayInfoPhysical]; omega))
  rw [State.freeCells, State.freeCells, hplace, hput.arrays]

theorem State.freeSpareArrays_putFields (s : State) (b o d : Nat) (v : Word) : (s.putFields b o v).freeSpareArrays d = s.freeSpareArrays d := by
  rw [State.freeSpareArrays, State.freeSpareArrays, (OnlyReg.putFields s b o v).arrays]

/-- A free spare is tested for the array, RESULT running. -/
theorem State.mapArray_free {d a : Nat} {cell : Bool} (ha : a < 48)
    (hfree : (if cell then s.freeCells d a else s.freeSpareArrays d) ≠ 0) :
    (s.mapArray d a cell).arrays.testing = s.arrays.testing ++ [(if cell then .cell d a else .array d a, s.row)] ∧
      (s.mapArray d a cell).fld (rAttSpareCtlResult d) = 1 ∧ (s.mapArray d a cell).mem = s.mem := by
  have hgo : ¬(48 ≤ a ∨ (if cell then s.freeCells d a else s.freeSpareArrays d) = 0) := fun h => h.elim (Nat.not_le.mpr ha) hfree
  rw [State.mapArray, if_neg hgo]
  refine ⟨?_, State.fld_attSpareCtlResult_setFld _ _ (by decide), ?_⟩
  · rw [State.setFld_arrays, State.testSpare_arrays]
  · rw [State.setFld_mem, State.testSpare_mem]

section
variable (hruns : s.runs = true) (himage : s.fld rBootStatusImage ≠ 0)
include hruns himage

/-- The three answers of SPARE_CTL of a stack, by what its group's spare does. -/
theorem nbuSpareMap_answers {t region : Nat} {k : Stack} (ht : t < 12) (hregion : region < 256) (hk : s.stackUnits[t]? = some k) :
    (k.spares[region / 16]? = some .free →
      ∃ v k', exec (.nbuSpareMap .keeper t region) s = .next v ∧ v.stackUnits[t]? = some k' ∧
        k'.spares[region / 16]? = some (.testing region s.row) ∧ v.fld (rSpareCtlResult t) = 1 ∧ v.mem = s.mem) ∧
    (∀ f, k.spares[region / 16]? = some (.testing region f) →
      ∃ v, exec (.nbuSpareMap .keeper t region) s = .next v ∧ v.stackUnits = s.stackUnits ∧
        v.fld (rSpareCtlResult t) = 1 ∧ v.mem = s.mem) ∧
    (∀ x, k.spares[region / 16]? = some x → x ≠ .free → (∀ f, x ≠ .testing region f) →
      ∃ v, exec (.nbuSpareMap .keeper t region) s = .next v ∧ v.stackUnits = s.stackUnits ∧
        v.fld (rSpareCtlResult t) = 3 ∧ v.mem = s.mem) := by
  obtain ⟨w, hexec⟩ := State.nbuSpareMap_eq hruns himage ht hregion
  have hput := OnlyReg.putFields s (0x010 + t) 0x080 w
  have hku : (s.putFields (0x010 + t) 0x080 w).stackUnits[t]? = some k := hput.stackUnits ▸ hk
  generalize s.putFields (0x010 + t) 0x080 w = u at hexec hput hku
  have hanswer {r : Nat} (hr : r < 8) (hmap : u.mapNbu t region = u.setFld (rSpareCtlResult t) r) :
      ∃ v, exec (.nbuSpareMap .keeper t region) s = .next v ∧ v.stackUnits = s.stackUnits ∧ v.fld (rSpareCtlResult t) = r ∧
        v.mem = s.mem :=
    ⟨_, hexec.trans (congrArg Host.Outcome.next hmap), (State.setFld_stackUnits _ _ _).trans hput.stackUnits,
      State.fld_spareCtlResult_setFld _ _ hr, (State.setFld_mem _ _ _).trans hput.mem⟩
  refine ⟨fun hspare => ?free, fun f hspare => ?tested, fun x hspare hx hne => ?taken⟩
  case free =>
    obtain ⟨k', hk', hspare', hresult, hmem⟩ := State.mapNbu_free hku hspare
    exact ⟨_, k', hexec, hk', hput.row ▸ hspare', hresult, hmem.trans hput.mem⟩
  case tested =>
    exact hanswer (by decide) ((State.mapNbu_taken hku hspare (by simp)).trans (congrArg _ (if_pos rfl)))
  case taken =>
    refine hanswer (by decide) ((State.mapNbu_taken hku hspare hx).trans (congrArg (u.setFld (rSpareCtlResult t)) ?_))
    cases x with
    | testing r f => exact if_neg fun h => hne f (congrArg (Spare.testing · f) h)
    | free | used | failed => rfl

/-- A request for a spare of an attention die starts its test. -/
theorem attSpareCtl_starts {d a op : Nat} {cell : Bool} (hd : d < 4) (ha : a < 48) (hop : op = 1 ∧ cell = true ∨ op = 2 ∧ cell = false)
    (hfree : (if cell then s.freeCells d a else s.freeSpareArrays d) ≠ 0) :
    let v := s.opWrite .keeper (0x020 + d) 0x060 op 5 0 a
    v.arrays.testing = s.arrays.testing ++ [(if cell then .cell d a else .array d a, s.row)] ∧
      v.fld (rAttSpareCtlResult d) = 1 ∧ v.mem = s.mem := by
  obtain ⟨w, hwrite⟩ := State.attSpareCtl_eq (a := a) hruns himage hd (by omega) (hop.imp And.left And.left)
  have hcell : (decide (op = 1)) = cell := by obtain ⟨rfl, rfl⟩ | ⟨rfl, rfl⟩ := hop <;> rfl
  have hput := OnlyReg.putFields s (0x020 + d) 0x060 w
  rw [← s.freeCells_putFields d a w, ← s.freeSpareArrays_putFields (0x020 + d) 0x060 d w] at hfree
  obtain ⟨htesting, hresult, hmem⟩ := State.mapArray_free (d := d) ha hfree
  rw [hwrite, hcell]
  dsimp only
  rw [htesting, hput.arrays, hput.row]
  exact ⟨rfl, hresult, hmem.trans hput.mem⟩

end

/-- Settles O34: a takeover reads the test's row, and SPARE_CTL acts on the registers it has just written. -/
theorem sparesTakeOver : Obligations.SparesTakeOver := by
  intro s
  refine ⟨?nbu, ?cell, ?array, fun hruns himage => ⟨?spareNbu, ?spareCell, ?spareArray⟩⟩
  case nbu =>
    intro t group region f k _ hk hspare hregion hrow
    obtain ⟨k', hk', htakes⟩ := State.takeNbu_takes hk hspare hregion hrow
    exact ⟨_, k', rfl, hk', htakes⟩
  case cell => exact fun d a f _ ha htest hrow => ⟨_, rfl, State.takeSpare_cell ha hrow htest⟩
  case array => exact fun d a f _ ha htest hrow hn => ⟨_, rfl, State.takeSpare_array ha hrow htest hn⟩
  case spareNbu => exact fun t region k ht hregion hk => nbuSpareMap_answers hruns himage ht hregion hk
  case spareCell =>
    exact fun d a hd ha hfree => ⟨_, congrArg Host.Outcome.next (if_pos hd),
      attSpareCtl_starts (cell := true) hruns himage hd ha (.inl ⟨rfl, rfl⟩) hfree⟩
  case spareArray =>
    exact fun d a hd ha hfree => ⟨_, congrArg Host.Outcome.next (if_pos hd),
      attSpareCtl_starts (cell := false) hruns himage hd ha (.inr ⟨rfl, rfl⟩) hfree⟩

end Sys2Proof.Machine
end

section
/-! SUPPORT. Host accesses that wait, FORKs that do not, and the raises of an APPEND: what each leaves (R154, R177, R206). -/

namespace Sys2Proof.Machine

variable {s t u : State}

/-! ## Host accesses (R154) -/

/-- `t` is `s` but for conflict queues, registers and what the arrays stage; each stack runs the round it ran. -/
structure OnlyQueued (s t : State) : Prop where
  rest : t = { s with stackUnits := t.stackUnits, regs := t.regs, arrays := t.arrays }
  rounds : ∀ i, t.roundAt i = s.roundAt i

namespace OnlyQueued

theorem refl (s : State) : OnlyQueued s s := ⟨rfl, fun _ => rfl⟩

theorem trans (a : OnlyQueued s t) (b : OnlyQueued t u) : OnlyQueued s u :=
  ⟨b.rest.trans (congrArg (fun v : State => { v with stackUnits := u.stackUnits, regs := u.regs, arrays := u.arrays }) a.rest),
    fun i => (b.rounds i).trans (a.rounds i)⟩

theorem foldl {α : Type} {f : State → α → State} (h : ∀ s x, OnlyQueued s (f s x)) (l : List α) (s : State) :
    OnlyQueued s (l.foldl f s) := foldl_keeps (P := OnlyQueued s) (fun t x ht => ht.trans (h t x)) l (refl s)

theorem mem (h : OnlyQueued s t) : t.mem = s.mem := by rw [h.rest]

theorem poison (h : OnlyQueued s t) : t.poison = s.poison := by rw [h.rest]

theorem cat (h : OnlyQueued s t) : t.cat = s.cat := by rw [h.rest]

theorem work (h : OnlyQueued s t) : t.work = s.work := by rw [h.rest]

theorem cmd (h : OnlyQueued s t) (n : Nat) : t.cmd n = s.cmd n := by rw [State.cmd, h.work, State.cmd]

theorem decided (h : OnlyQueued s t) {n : Nat} {o : Outcome} (d : Decided s n o) : Decided t n o := by
  obtain ⟨c, hc, hrest⟩ := d
  exact ⟨c, (h.cmd n).trans hc, hrest⟩

theorem count (s : State) (f : Field) (n : Nat) : OnlyQueued s (s.count f n) := ⟨rfl, fun _ => rfl⟩

/-- A change of a stack that leaves its round. -/
theorem setStack (s : State) (i : Nat) {f : Stack → Stack} (hf : ∀ k, (f k).round = k.round) : OnlyQueued s (s.setStack i f) := by
  refine ⟨rfl, fun j => ?_⟩
  by_cases e : j = i
  · subst e
    rw [State.roundAt_setStack]
    exact congrArg _ (funext hf)
  · rw [State.roundAt, State.setStack_stackUnits, getElem?_setAt_ne _ _ _ _ e, State.roundAt]

theorem hostAccess (s : State) (i region : Nat) (who : Accessor) : OnlyQueued s (s.hostAccess i region who).2 := by
  unfold State.hostAccess
  split
  · extract_lets a q
    split
    · refine trans (setStack s i ?_) (count _ _ _)
      exact fun _ => rfl
    · exact setStack s i fun _ => rfl
  · exact refl s

end OnlyQueued

/-- A round has an item of a region. -/
def State.roundHolds (s : State) (region : Nat) (r : Round) : Bool :=
  r.items.any fun k => match Tbl.get s.work.items k with
    | some x => x.region = region
    | none => false

/-- Whether a region is in a round is a matter of the rounds and their items. -/
theorem State.inRound_eq (s : State) (i region : Nat) : s.inRound i region = (s.roundAt i).any (s.roundHolds region) := by
  unfold State.inRound State.roundAt
  cases s.stackUnits[i]? with
  | none => rfl
  | some k =>
    simp only [Option.bind_some]
    cases k.round with
    | none => rfl
    | some r => rfl

theorem OnlyQueued.inRound (h : OnlyQueued s t) (i region : Nat) : t.inRound i region = s.inRound i region := by
  have hholds : t.roundHolds region = s.roundHolds region := by
    funext r
    rw [State.roundHolds, h.work, State.roundHolds]
  rw [State.inRound_eq, State.inRound_eq, h.rounds, hholds]

/-- An access waits where its region is in a round. -/
theorem State.hostAccess_waits (s : State) (i region : Nat) (who : Accessor) :
    (s.hostAccess i region who).1 = s.inRound i region := by
  unfold State.hostAccess
  split
  · rename_i hin
    extract_lets a q
    split <;> exact hin.symm
  · rename_i hout
    exact (Bool.eq_false_of_not_eq_true hout).symm

/-- One of several host accesses, with the number that wait. -/
def hostStep (who : Accessor) (x : Nat × State) (r : Nat × Nat) : Nat × State :=
  (if (x.2.hostAccess r.1 r.2 who).1 then x.1 + 1 else x.1, (x.2.hostAccess r.1 r.2 who).2)

theorem State.hostRegions_eq (s : State) (who : Accessor) (rs : List (Nat × Nat)) :
    s.hostRegions who rs = rs.foldl (hostStep who) (0, s) := rfl

theorem foldl_hostStep_queues (who : Accessor) (rs : List (Nat × Nat)) : ∀ x : Nat × State, OnlyQueued x.2 (rs.foldl (hostStep who) x).2 := by
  induction rs with
  | nil => exact fun x => .refl x.2
  | cons r rs ih => exact fun x => (OnlyQueued.hostAccess x.2 r.1 r.2 who).trans (ih (hostStep who x r))

theorem foldl_hostStep_le (who : Accessor) (rs : List (Nat × Nat)) : ∀ x : Nat × State, x.1 ≤ (rs.foldl (hostStep who) x).1 := by
  induction rs with
  | nil => exact fun x => Nat.le_refl _
  | cons r rs ih =>
    intro x
    refine le_trans ?_ (ih (hostStep who x r))
    unfold hostStep
    dsimp only
    split
    · exact Nat.le_succ _
    · exact Nat.le_refl _

theorem OnlyQueued.hostRegions (s : State) (who : Accessor) (rs : List (Nat × Nat)) : OnlyQueued s (s.hostRegions who rs).2 :=
  foldl_hostStep_queues who rs (0, s)

/-- Where no region is in a round nothing waits, and nothing changes. -/
theorem State.hostRegions_free (who : Accessor) {rs : List (Nat × Nat)} (h : ∀ r ∈ rs, s.inRound r.1 r.2 = false) :
    s.hostRegions who rs = (0, s) := by
  refine List.foldlRecOn (motive := (· = (0, s))) rs _ rfl fun x hx r hr => ?_
  subst hx
  simp [State.hostAccess, h r hr]

/-- Where a region is in a round something waits. -/
theorem State.hostRegions_waits (who : Accessor) {rs : List (Nat × Nat)} (h : ∃ r ∈ rs, s.inRound r.1 r.2 = true) :
    (s.hostRegions who rs).1 ≠ 0 := by
  rw [State.hostRegions_eq]
  suffices hlt : ∀ x : Nat × State, (∃ r ∈ rs, x.2.inRound r.1 r.2 = true) → x.1 < (rs.foldl (hostStep who) x).1 from
    Nat.ne_of_gt (hlt (0, s) h)
  clear h
  induction rs with
  | nil => simp
  | cons r rs ih =>
    intro x hx
    have hstep : (hostStep who x r).1 = if x.2.inRound r.1 r.2 then x.1 + 1 else x.1 := by
      rw [← State.hostAccess_waits x.2 r.1 r.2 who]
      rfl
    cases hr : x.2.inRound r.1 r.2 with
    | true =>
      rw [hr] at hstep
      exact lt_of_lt_of_le (hstep ▸ Nat.lt_succ_self _) (foldl_hostStep_le who rs _)
    | false =>
      rw [hr] at hstep
      obtain ⟨q, hq, hin⟩ := hx
      rcases List.mem_cons.mp hq with rfl | hq
      · rw [hr] at hin
        cases hin
      · have hlt := ih (hostStep who x r) ⟨q, hq, ((OnlyQueued.hostAccess x.2 r.1 r.2 who).inRound q.1 q.2).trans hin⟩
        rwa [hstep] at hlt

/-- Tiles that begin to stage queue their reads. -/
theorem OnlyQueued.beginTiles (s : State) : OnlyQueued s s.beginTiles := by
  refine foldl (fun s x => ?_) _ s
  unfold State.beginTile
  split
  · exact refl s
  · exact (hostRegions s _ _).trans ⟨rfl, fun _ => rfl⟩

/-! ## FORKs that wait (R206, R207) -/

/-- No FORK waits for writes. -/
def NoForks (s : State) : Prop := ∀ p ∈ s.work.cmds, p.2.forkIn = none

namespace NoForks

/-- Without one, none runs. -/
theorem runForks (h : NoForks s) : s.runForks = s := by
  refine List.foldlRecOn (motive := (· = s)) s.work.cmds _ rfl fun t ht p hp => ?_
  rw [h p hp]
  exact ht

theorem of_cmds (h : NoForks s) (hc : t.work.cmds = s.work.cmds) : NoForks t := fun p hp => h p (hc ▸ hp)

theorem of_run (h : NoForks s) (r : SameRun s t) : NoForks t := by
  intro p hp
  obtain ⟨q, hq, _, hface⟩ := r.of_mem hp
  exact (congrArg Cmd.forkIn hface).symm.trans (h q hq)

theorem setCmd (h : NoForks s) (n : Nat) {f : Cmd → Cmd} (hf : ∀ c, (f c).forkIn = c.forkIn) : NoForks (s.setCmd n f) := by
  intro p hp
  rw [State.setCmd_work] at hp
  unfold Tbl.modify at hp
  split at hp
  · exact h p hp
  · rename_i c hc
    rcases Tbl.mem_set hp with rfl | hp
    · exact (hf c).trans (h _ (Tbl.mem_of_get hc))
    · exact h p hp

theorem dropKey (h : NoForks s) (n : Nat) : NoForks (s.dropKey n) := by
  obtain e | ⟨i, e⟩ := s.dropKey_cases n <;> rw [e]
  · exact h
  · exact h.setCmd n (f := fun c => { c with key := none }) fun _ => rfl

theorem complete (h : NoForks s) (n : Nat) (o : Outcome) : NoForks (s.complete n o) := by
  unfold State.complete
  split
  · exact h
  · intro p hp
    rw [State.reply_work] at hp
    exact h.dropKey n p (Tbl.mem_erase hp).1

theorem decide (h : NoForks s) (n : Nat) (o : Outcome) : NoForks (s.decide n o) := by
  unfold State.decide
  split
  · exact h
  · split
    · exact h
    · split
      · exact h.complete n o
      · exact (h.dropKey n).setCmd n (f := fun c => { c with result := some o, stage := .sent }) fun _ => rfl

theorem decideFor (h : NoForks s) (n : Nat) (o : Head → Outcome) : NoForks (s.decideFor n o) := by
  unfold State.decideFor
  split
  · exact h.decide _ _
  · exact h

end NoForks

/-! ## What deciding commands leaves of the leaves -/

theorem OnlyOut.leaves (h : OnlyOut s t) : t.cat.leaves = s.cat.leaves := (congrArg Cat.leaves h.cat :)

theorem State.decide_leaves (s : State) (n : Nat) (o : Outcome) : (s.decide n o).cat.leaves = s.cat.leaves := by
  unfold State.decide
  split
  · rfl
  · split
    · rfl
    · split
      · unfold State.complete
        split
        · rfl
        · exact (OnlyOut.reply _ _ _ _).leaves.trans (congrArg Cat.leaves (s.dropKey_cat n))
      · exact congrArg Cat.leaves (s.dropKey_cat n)

theorem State.decideFor_leaves (s : State) (n : Nat) (o : Head → Outcome) : (s.decideFor n o).cat.leaves = s.cat.leaves := by
  unfold State.decideFor
  split
  · exact s.decide_leaves _ _
  · rfl

/-! ## The raises of an APPEND (R66, R177) -/

/-- `t` is `s` but for sequences, cards, registers and the books of APPENDs. -/
structure OnlyRaised (s t : State) : Prop where
  mem : t.mem = s.mem
  poison : t.poison = s.poison
  leaves : t.cat.leaves = s.cat.leaves
  cmds : t.work.cmds = s.work.cmds

namespace OnlyRaised

theorem refl (s : State) : OnlyRaised s s := ⟨rfl, rfl, rfl, rfl⟩

theorem trans (a : OnlyRaised s t) (b : OnlyRaised t u) : OnlyRaised s u :=
  ⟨b.mem.trans a.mem, b.poison.trans a.poison, b.leaves.trans a.leaves, b.cmds.trans a.cmds⟩

theorem ite {c : Prop} [Decidable c] (a : OnlyRaised s t) (b : OnlyRaised s u) : OnlyRaised s (if c then t else u) := by
  split
  · exact a
  · exact b

theorem foldl {α : Type} {f : State → α → State} (h : ∀ s x, OnlyRaised s (f s x)) (l : List α) (s : State) :
    OnlyRaised s (l.foldl f s) := foldl_keeps (P := OnlyRaised s) (fun t x ht => ht.trans (h t x)) l (refl s)

theorem setCard (s : State) (n : Nat) (f : Card → Card) : OnlyRaised s (s.setCard n f) := ⟨rfl, rfl, rfl, rfl⟩

theorem raiseValid (s : State) (card valid : Nat) : OnlyRaised s (s.raiseValid card valid) := by
  unfold State.raiseValid
  split
  · exact refl s
  · extract_lets slot q u crc
    have hu : OnlyRaised s u := ite ⟨rfl, rfl, rfl, rfl⟩ (refl s)
    exact hu.trans (ite (ite (setCard _ _ _) (setCard _ _ _)) (setCard _ _ _))

theorem raises (l : List AppendAct) : ∀ s : State, OnlyRaised s (s.raises l).2 := by
  induction l with
  | nil => exact refl
  | cons x l ih =>
    intro s
    cases x with
    | line n cells cards => exact refl s
    | raise cs v => exact (foldl (fun s c => raiseValid s c v) cs s).trans (ih _)

theorem countWritten (s : State) (die bytes : Nat) : OnlyRaised s (s.countWritten die bytes) := by
  unfold State.countWritten
  extract_lets n w u
  have hcount := OnlyOut.count u (rAppendWorkWrittenKib die) (n / 1024)
  exact ⟨hcount.mem, hcount.poison, hcount.leaves, (congrArg Work.cmds hcount.work :)⟩

end OnlyRaised

/-! ## An APPEND goes on, or ends -/

/-- The job of an APPEND is removed. -/
def State.dropJob (s : State) (n : Nat) : State :=
  { s with work := { s.work with appends := s.work.appends.filter fun a => a.cmd ≠ n } }

/-- Where no FORK waits, the end of an APPEND decides it and nothing more. -/
theorem NoForks.endAppend (h : NoForks s) (n : Nat) (o : Head → Outcome) : s.endAppend n o = (s.dropJob n).decideFor n o := by
  have hdrop : NoForks ((s.dropJob n).decideFor n o) := NoForks.decideFor (s := s.dropJob n) h n o
  exact hdrop.runForks

/-- What is left of an APPEND changes neither memory nor poison nor where leaves lie. -/
theorem NoForks.goOn_keeps (h : NoForks s) (a : AppendJob) (acts : List AppendAct) : (s.goOn a acts).mem = s.mem ∧
    (s.goOn a acts).poison = s.poison ∧ (s.goOn a acts).cat.leaves = s.cat.leaves := by
  unfold State.goOn
  split
  · rw [h.endAppend]
    have hcourse := SameCourse.decideFor (s.dropJob a.cmd) a.cmd fun h => Outcome.good h .none
    exact ⟨hcourse.mem, hcourse.poison, State.decideFor_leaves _ _ _⟩
  · exact ⟨rfl, rfl, rfl⟩

end Sys2Proof.Machine
end

section
/-! SUPPORT. The next line of an APPEND: written, refused by a poisoned line, or waiting for a round (R154, R177, R442). -/

namespace Sys2Proof.Machine

variable {s t : State}

/-! ## Leaves that are lost -/

theorem SameRun.loseQuiet (s : State) (n : Nat) : SameRun s (s.loseQuiet n) := by
  unfold State.loseQuiet
  split
  · exact refl s
  · exact ite (refl s) ((abandonMoves s n).trans (changeCard _ n _))

theorem SameRun.postLost (s : State) (n : Nat) : SameRun s (s.postLost n) := by
  unfold State.postLost
  split
  · exact refl s
  · exact of_onlyOut (OnlyOut.postTenant _ _ _)

theorem SameRun.loseLeaf (s : State) (n : Nat) : SameRun s (s.loseLeaf n) :=
  foldl _ (fun s k => (loseQuiet s k).trans (postLost _ k)) _ s

theorem SameRun.dropAllocated (s : State) (a : AppendJob) : SameRun s (s.dropAllocated a) := by
  refine foldl _ (fun s k => ?_) _ s
  split
  · exact refl s
  · refine foldl _ (fun s f => ?_) _ s
    split
    · exact ite (dropLeafAt s _ _ _ _ _) (refl s)
    · exact refl s

/-! ## A line that is refused (R177, R442) -/

theorem Undecided.decideFor_ne {n k : Nat} {h : Head} (d : Undecided s n h) (hk : n ≠ k) (o : Head → Outcome) :
    Undecided (s.decideFor k o) n h := by
  unfold State.decideFor
  split
  · exact d.decide_ne hk _
  · exact d

/-- An APPEND that meets poison is decided with it, whatever becomes of those admitted after it; memory and poison stay. -/
theorem State.poisonAppend_decides (hfork : NoForks s) (a : AppendJob) (cards : List Nat) {h : Head}
    (hund : Undecided s a.cmd h) :
    SameCourse s (s.poisonAppend a cards) ∧ Decided (s.poisonAppend a cards) a.cmd (Outcome.poison h 0x1) := by
  unfold State.poisonAppend
  extract_lets u lost later v w
  have huv : SameRun s v := ((SameRun.foldl _ SameRun.loseLeaf cards s).trans (SameRun.clipVisits u cards _)).trans
    ((SameRun.dropJobs _ later).trans (SameRun.dropAllocated _ a))
  have hlater (b : AppendJob) (hb : b ∈ later) : a.cmd ≠ b.cmd := by
    have hlt := (List.mem_filter.mp hb).2
    simp only [Bool.and_eq_true, decide_eq_true_eq] at hlt
    omega
  have hw : SameCourse s w ∧ NoForks w ∧ Undecided w a.cmd h := by
    refine List.foldlRecOn (motive := fun x => SameCourse s x ∧ NoForks x ∧ Undecided x a.cmd h) later _
      ⟨huv.toSameCourse, hfork.of_run huv, huv.undecided hund⟩ fun x hx b hb => ?_
    obtain ⟨hcourse, hforks, hx⟩ := hx
    let o (h : Head) : Outcome := Outcome.leaves h .cacheLost (lost.map fun k => (k.layer, k.head, k.half, k.block))
    show SameCourse s (x.decideFor b.cmd o) ∧ NoForks (x.decideFor b.cmd o) ∧ Undecided (x.decideFor b.cmd o) a.cmd h
    exact ⟨hcourse.trans (SameCourse.decideFor x b.cmd o), hforks.decideFor b.cmd o, hx.decideFor_ne (hlater b hb) o⟩
  obtain ⟨hcourse, hforks, hw⟩ := hw
  have hdrop : SameRun w (w.dropJob a.cmd) := .quiet
  rw [hforks.endAppend]
  exact ⟨(hcourse.trans hdrop.toSameCourse).trans (SameCourse.decideFor _ _ _), Takes.decideFor_self (.inl (hdrop.undecided hw))⟩

/-! ## The next line of an APPEND -/

section
variable {a : AppendJob} {l : Nat} {cells : List Host.Cell} {cards : List Nat} {rest : List AppendAct}

/-- A line's write makes the line clean only where it covers the whole of it. -/
theorem State.mem_writeLine_poison (s : State) (x : Nat) :
    x ∈ (s.writeLine l cells).poison ↔ x ∈ s.poison ∧ (x ≠ l ∨ cells.length < 64) := by
  unfold State.writeLine
  by_cases h : 64 ≤ cells.length
  · simp [h, Nat.not_lt.mpr h]
  · simp [h, Nat.not_le.mp h]

/-- The next line of an APPEND is written where no region of it is in a round. -/
theorem State.appendLine_free (ha : a.acts = .line l cells cards :: rest)
    (hfree : ∀ r ∈ regionsOf (l * 64) 64, s.inRound r.1 r.2 = false) : s.appendLine a = s.writeNext a := by
  unfold State.appendLine State.hostBytes
  rw [ha]
  simp only [State.hostRegions_free _ hfree, if_true]

theorem State.writeNext_refused (ha : a.acts = .line l cells cards :: rest) (hr : s.lineRefused l cells = true) :
    s.writeNext a = s.poisonAppend a cards := by
  unfold State.writeNext
  rw [ha]
  exact if_pos hr

/-- A line that is not refused is written, and the leaves stay where they are. -/
theorem State.writeNext_writes (hfork : NoForks s) (ha : a.acts = .line l cells cards :: rest)
    (hr : s.lineRefused l cells = false) : (s.writeNext a).mem = (s.writeLine l cells).mem ∧
      (s.writeNext a).poison = (s.writeLine l cells).poison ∧ (s.writeNext a).cat.leaves = s.cat.leaves := by
  unfold State.writeNext
  rw [ha]
  simp only [hr, Bool.false_eq_true, if_false]
  have hraised := ((OnlyRaised.countWritten (s.writeLine l cells) a.die cells.length).trans
    (OnlyRaised.foldl (fun s c => OnlyRaised.setCard s c fun k => if k.state = .allocated then { k with state := .filling } else k)
      cards _)).trans (OnlyRaised.raises rest _)
  obtain ⟨hmem, hpoison, hleaves⟩ := (hfork.of_cmds hraised.cmds).goOn_keeps a _
  exact ⟨hmem.trans hraised.mem, hpoison.trans hraised.poison, hleaves.trans hraised.leaves⟩

/-- While a region of the line is in a round the line waits in a conflict queue. -/
theorem State.appendLine_waits (ha : a.acts = .line l cells cards :: rest)
    (hin : ∃ r ∈ regionsOf (l * 64) 64, s.inRound r.1 r.2 = true) : ∃ t, OnlyQueued s t ∧
      s.appendLine a = t.setJob a.cmd fun b => { b with waits := true } := by
  refine ⟨_, OnlyQueued.hostRegions s (.line a.cmd) (regionsOf (l * 64) 64), ?_⟩
  unfold State.appendLine State.hostBytes
  rw [ha]
  exact if_neg (State.hostRegions_waits _ hin)

/-- Within the time for lines of a row, an APPEND's next line is treated. -/
theorem exec_appendLineWrite {die ns : Nat} (hlo : 256 ≤ ns) (hhi : ns ≤ 3839) (hnext : s.nextAppend die = some a) :
    exec (.appendLineWrite ⟨die, ns⟩) s = .next ((s.tick ns).appendLine a).beginTiles := by
  have hns : ¬(ns < 256 ∨ 3839 < ns) := by omega
  have hstep : s.appendStep die ns = (s.tick ns).appendLine a := by
    unfold State.appendStep
    rw [if_neg hns, hnext]
  exact congrArg (fun t : State => Host.Outcome.next t.beginTiles) hstep

end

end Sys2Proof.Machine
end

section
/-! SUPPORT. The sums of a GRAD are added, poisoned or dropped, and the GRAD is decided (R184 to R186, R231). -/

namespace Sys2Proof.Machine

variable {s t : State} {n : Nat} {c : Cmd} {b : AttnBody} {k : Key} {o : Outcome}

/-! ## What an addition changes -/

theorem State.addFloats_work {a : Nat} {xs : List F32} (h : s.addFloats a xs = some t) : t.work = s.work := by
  unfold State.addFloats at h
  extract_lets out at h
  split at h
  · cases h
  · split at h
    · cases h
      unfold State.putBytes
      dsimp only
      split <;> rfl
    · cases h

theorem State.addGrad_work {d : Nat} {base : Int} {ps : List Nat} :
    ∀ {s t : State}, s.addGrad c b d base ps = some t → t.work = s.work := by
  induction ps with
  | nil =>
    intro s t h
    cases h
    rfl
  | cons p ps ih =>
    intro s t h
    obtain ⟨u, hu, h⟩ := Option.bind_eq_some_iff.mp h
    exact (ih h).trans (State.addFloats_work hu)

theorem OnlyQueued.touchSums (s : State) (c : Cmd) (b : AttnBody) (d : Nat) (base : Int) :
    OnlyQueued s (s.touchSums c b d base) := foldl (fun s _ => hostRegions s _ _) _ s

/-! ## How a GRAD ends -/

/-- A GRAD that has formed its sums ends with an outcome. -/
def State.concludeGrad (s : State) (n : Nat) (o : Outcome) : State :=
  (s.setCmd n fun c => { c with result := none }).decide n o

/-- Its end changes no memory, and decides it where it is scheduled. -/
theorem State.concludeGrad_decides (hc : s.cmd n = some c) (hcls : c.cls ≠ .l8) (o : Outcome) :
    (s.concludeGrad n o).mem = s.mem ∧ Decided (s.concludeGrad n o) n o := by
  have hund : Undecided (s.setCmd n fun c => { c with result := none }) n c.head :=
    ⟨{ c with result := none }, by rw [State.cmd_setCmd, if_pos rfl, hc]; rfl, rfl, hcls, rfl⟩
  exact ⟨(SameCourse.decide _ n o).mem, hund.decide_self o⟩

/-- GRAD `n` has formed its sums, and its turn to add them has come. -/
structure GradDue (s : State) (n : Nat) (c : Cmd) (b : AttnBody) (k : Key) (o : Outcome) : Prop where
  cmd : s.cmd n = some c
  opcode : c.opcode = opGrad
  attn : c.attn = some b
  result : c.result = some o
  good : o.status.good = true
  key : c.key.bind (Tbl.get s.xport.keys ·) = some k
  stage : c.stage ≠ .sent
  row : c.row + 2 ≤ s.row
  first : ∀ p ∈ s.work.cmds, p.1 < n → p.2.opcode = opGrad → p.2.seqSlot = c.seqSlot → p.2.key = none

/-- No earlier GRAD of the sequence still has a key. -/
theorem GradDue.not_behind (h : GradDue s n c b k o) :
    (s.work.cmds.any fun p => p.1 < n && p.2.opcode = opGrad && p.2.seqSlot = c.seqSlot && p.2.key.isSome) = false := by
  refine List.any_eq_false.mpr fun p hp hany => ?_
  simp only [Bool.and_eq_true, decide_eq_true_eq] at hany
  obtain ⟨⟨⟨hlt, hop⟩, hslot⟩, hkey⟩ := hany
  rw [h.first p hp hlt hop hslot] at hkey
  cases hkey

/-- R184 to R186: a due GRAD is revoked with its key, adds all its sums, or adds none for poison or a value that is not finite. -/
theorem GradDue.gradAdd_eq (h : GradDue s n c b k o) :
    s.gradAdd n = if k.state ≠ .valid ∨ k.isRevoking s.row then s.concludeGrad n (Outcome.bare c.head .revoked 0) else
      match s.addGrad c b (s.seqAt c.seqSlot).d (s.gradBase c k) c.sumPositions with
      | some t => (t.touchSums c b (s.seqAt c.seqSlot).d (s.gradBase c k)).concludeGrad n o
      | none => s.concludeGrad n (Outcome.poison c.head (s.addPoison c b (s.seqAt c.seqSlot).d (s.gradBase c k))) := by
  have hwait : ¬(c.opcode ≠ opGrad ∨ c.stage = .sent ∨ (!o.status.good) = true ∨ (c.cls ≠ .l8 && s.row < c.row + 2) = true ∨
      (s.work.cmds.any fun p => p.1 < n && p.2.opcode = opGrad && p.2.seqSlot = c.seqSlot && p.2.key.isSome) = true) := by
    have hrow := h.row
    simp [h.opcode, h.stage, h.good, h.not_behind]
    omega
  unfold State.gradAdd
  simp only [h.cmd, h.attn, h.result, h.key]
  exact if_neg hwait

section
variable {u : State} (h : GradDue s n c b k o) (hcls : c.cls ≠ .l8)
include h hcls

/-- Under a key that holds, sums that can all be added are. -/
theorem GradDue.adds (hvalid : k.state = .valid) (hheld : k.isRevoking s.row = false)
    (hu : s.addGrad c b (s.seqAt c.seqSlot).d (s.gradBase c k) c.sumPositions = some u) :
    (s.gradAdd n).mem = u.mem ∧ Decided (s.gradAdd n) n o := by
  have hqueued := OnlyQueued.touchSums u c b (s.seqAt c.seqSlot).d (s.gradBase c k)
  have hcmd : (u.touchSums c b (s.seqAt c.seqSlot).d (s.gradBase c k)).cmd n = some c := by
    rw [State.cmd, hqueued.work, State.addGrad_work hu]
    exact h.cmd
  obtain ⟨hmem, hdec⟩ := State.concludeGrad_decides hcmd hcls o
  rw [h.gradAdd_eq, if_neg (by simp [hvalid, hheld]), hu]
  exact ⟨hmem.trans hqueued.mem, hdec⟩

/-- Where one cannot, none is. -/
theorem GradDue.poisons (hvalid : k.state = .valid) (hheld : k.isRevoking s.row = false)
    (hu : s.addGrad c b (s.seqAt c.seqSlot).d (s.gradBase c k) c.sumPositions = none) :
    (s.gradAdd n).mem = s.mem ∧
      Decided (s.gradAdd n) n (Outcome.poison c.head (s.addPoison c b (s.seqAt c.seqSlot).d (s.gradBase c k))) := by
  rw [h.gradAdd_eq, if_neg (by simp [hvalid, hheld]), hu]
  exact State.concludeGrad_decides h.cmd hcls _

/-- Under a key that is gone or being revoked nothing is added. -/
theorem GradDue.revokes (hgone : k.state ≠ .valid ∨ k.isRevoking s.row = true) :
    (s.gradAdd n).mem = s.mem ∧ Decided (s.gradAdd n) n (Outcome.bare c.head .revoked 0) := by
  rw [h.gradAdd_eq, if_pos hgone]
  exact State.concludeGrad_decides h.cmd hcls _

end

/-- Settles O29: a line's write is decided by the rounds and the poison it meets, and a GRAD's sums by its key. -/
theorem deferredWritesLand : Obligations.DeferredWritesLand := by
  refine ⟨fun die ns l a cells cards rest s hlo hhi hnext ha hfork => ⟨fun hfree => ⟨fun hr => ?writes, fun hr c hc hcls hres => ?refused⟩,
    fun hin => ?waits⟩, fun n i c b k o s hc hop hattn hres hgood hkey hk hstage hcls hrow hfirst => ?grad⟩
  case writes =>
    obtain ⟨hmem, hpoison, hleaves⟩ := State.writeNext_writes (s := s.tick ns) hfork ha hr
    rw [← State.appendLine_free (s := s.tick ns) ha hfree] at hmem hpoison hleaves
    have hqueued := OnlyQueued.beginTiles ((s.tick ns).appendLine a)
    refine ⟨_, exec_appendLineWrite hlo hhi hnext, hqueued.mem.trans hmem, (congrArg Cat.leaves hqueued.cat).trans hleaves, fun x => ?_⟩
    rw [hqueued.poison, hpoison]
    exact State.mem_writeLine_poison s x
  case refused =>
    obtain ⟨hcourse, hdec⟩ := State.poisonAppend_decides (s := s.tick ns) hfork a cards ⟨c, hc, rfl, hcls, hres⟩
    rw [← State.writeNext_refused (s := s.tick ns) ha hr, ← State.appendLine_free (s := s.tick ns) ha hfree] at hcourse hdec
    have hqueued := OnlyQueued.beginTiles ((s.tick ns).appendLine a)
    exact ⟨_, exec_appendLineWrite hlo hhi hnext, hqueued.mem.trans hcourse.mem, hqueued.poison.trans hcourse.poison,
      hqueued.decided hdec⟩
  case waits =>
    obtain ⟨t, hwait, happ⟩ := State.appendLine_waits (s := s.tick ns) ha hin
    have hqueued := OnlyQueued.beginTiles ((s.tick ns).appendLine a)
    refine ⟨_, exec_appendLineWrite hlo hhi hnext, ?_⟩
    rw [hqueued.mem, hqueued.poison, hqueued.cat, hqueued.work, happ]
    simp only [State.setJob_mem, State.setJob_poison, State.setJob_cat, State.setJob_work]
    rw [hwait.mem, hwait.poison, hwait.cat, hwait.work]
    exact ⟨rfl, rfl, rfl, rfl⟩
  case grad =>
    have hdue : GradDue s n c b k o := ⟨hc, hop, hattn, hres, hgood, by rw [hkey]; exact hk, hstage, hrow, hfirst⟩
    exact ⟨fun hvalid hheld u hu => ⟨_, rfl, hdue.adds hcls hvalid hheld hu⟩,
      fun hvalid hheld hu => ⟨_, rfl, hdue.poisons hcls hvalid hheld hu⟩, fun hgone => ⟨_, rfl, hdue.revokes hcls hgone⟩⟩

end Sys2Proof.Machine
end

section
/-! SUPPORT. Leaves for new blocks: what taking granules, scale slots, cards and table pages leaves (R71, R143, R176). -/

namespace Sys2Proof.Machine

variable {s t u : State}

/-- `t` is `s` but for what it has taken of the catalogue: the sequences and every card of `s` stay. -/
structure OnlyTaken (s t : State) : Prop where
  rest : t = { s with cat := t.cat, fresh := t.fresh }
  seqs : t.cat.seqs = s.cat.seqs
  cards : ∀ n x, s.card n = some x → t.card n = some x

namespace OnlyTaken

theorem refl (s : State) : OnlyTaken s s := ⟨rfl, rfl, fun _ _ => id⟩

theorem trans (a : OnlyTaken s t) (b : OnlyTaken t u) : OnlyTaken s u :=
  ⟨b.rest.trans (congrArg (fun v : State => { v with cat := u.cat, fresh := u.fresh }) a.rest), b.seqs.trans a.seqs,
    fun n x h => b.cards n x (a.cards n x h)⟩

theorem foldl {α : Type} {f : State → α → State} (h : ∀ s x, OnlyTaken s (f s x)) (l : List α) (s : State) :
    OnlyTaken s (l.foldl f s) := foldl_keeps (P := OnlyTaken s) (fun t x ht => ht.trans (h t x)) l (refl s)

/-- A change of the catalogue that leaves sequences and cards. -/
theorem of_cat {c : Cat} {f : Nat} (hseqs : c.seqs = s.cat.seqs) (hcards : c.cards = s.cat.cards) :
    OnlyTaken s { s with cat := c, fresh := f } :=
  ⟨rfl, hseqs, fun n x h => by rwa [State.card, hcards]⟩

theorem mem (h : OnlyTaken s t) : t.mem = s.mem := by rw [h.rest]

theorem poison (h : OnlyTaken s t) : t.poison = s.poison := by rw [h.rest]

theorem out (h : OnlyTaken s t) : t.out = s.out := by rw [h.rest]

theorem work (h : OnlyTaken s t) : t.work = s.work := by rw [h.rest]

theorem seqAt (h : OnlyTaken s t) (slot : Nat) : t.seqAt slot = s.seqAt slot := by rw [State.seqAt, h.seqs, State.seqAt]

/-- A shelfmark is written. -/
theorem setEntry (s : State) (key : Nat) (card : Option Nat) : OnlyTaken s (s.setEntry key card) := ⟨rfl, rfl, fun _ _ => id⟩

/-! ## Table pages -/

theorem grabPages {n : Nat} {ps : List Nat} (h : s.grabPages n = some (ps, t)) : OnlyTaken s t := by
  unfold State.grabPages at h
  split at h
  · cases h
    exact refl s
  · split at h
    · rename_i e
      obtain ⟨-, rfl⟩ := Prod.mk.inj e
      cases h
      exact of_cat rfl rfl
    · cases h

theorem grabSingles {n : Nat} : ∀ {s t : State} {ps : List Nat}, s.grabSingles n = some (ps, t) → OnlyTaken s t := by
  induction n with
  | zero =>
    intro s t ps h
    cases h
    exact refl s
  | succ n ih =>
    intro s t ps h
    obtain ⟨⟨qs, u⟩, e, h⟩ := Option.bind_eq_some_iff.mp h
    obtain ⟨⟨rs, v⟩, e', h⟩ := Option.map_eq_some_iff.mp h
    obtain ⟨-, rfl⟩ := Prod.mk.inj h
    exact (grabPages e).trans (ih e')

theorem growHead (s : State) (slot layer head half block : Nat) : OnlyTaken s (s.growHead slot layer head half block) := by
  unfold State.growHead
  extract_lets k blocks u
  split
  · exact of_cat rfl rfl
  · split
    · exact refl s
    · rename_i e
      exact (grabSingles e).trans (of_cat rfl rfl)

theorem putCards (s : State) (slot layer head block : Nat) (cards : List Nat) : OnlyTaken s (s.putCards slot layer head block cards) := by
  refine foldl (fun s p => ?_) _ s
  exact (growHead s slot layer head p.1 block).trans (setEntry _ _ _)

/-! ## Cards -/

/-- The number of a card that is taken was free, so every card of before stays. -/
theorem takeCard {c : Card} {n : Option Nat} (h : s.takeCard c = (n, t)) : OnlyTaken s t := by
  unfold State.takeCard at h
  split at h
  · rename_i k u e
    obtain ⟨hk, rfl⟩ := Prod.mk.inj e
    obtain ⟨-, rfl⟩ := Prod.mk.inj h
    have hfree : s.cardFree k = true := (firstFrom_some (by decide) hk).1
    refine ⟨rfl, rfl, fun m x hm => ?_⟩
    have hne : m ≠ k := by
      rintro rfl
      have hnone := (Bool.and_eq_true_iff.mp hfree).1
      rw [show Tbl.get s.cat.cards m = some x from hm] at hnone
      cases hnone
    exact (Tbl.get_set_ne _ _ _ _ hne).trans hm
  · rename_i u e
    obtain ⟨-, rfl⟩ := Prod.mk.inj e
    obtain ⟨-, rfl⟩ := Prod.mk.inj h
    exact of_cat rfl rfl

end OnlyTaken

/-! ## Granules and scale slots -/

/-- `d` is `c` but for granules and scale slots. -/
def OnlyPlaced (c d : Cat) : Prop := ∃ gs scs, d = { c with granules := gs, scales := scs }

namespace OnlyPlaced

variable {c d e : Cat}

theorem refl (c : Cat) : OnlyPlaced c c := ⟨c.granules, c.scales, rfl⟩

theorem trans (a : OnlyPlaced c d) (b : OnlyPlaced d e) : OnlyPlaced c e := by
  obtain ⟨_, _, rfl⟩ := a
  obtain ⟨gs, scs, rfl⟩ := b
  exact ⟨gs, scs, rfl⟩

theorem takeHalves {t region g start n : Nat} : ∀ {c d : Cat} {gs : List Nat}, c.takeHalves t region g start n = some (gs, d) →
    OnlyPlaced c d := by
  induction n with
  | zero =>
    intro c d gs h
    cases h
    exact refl c
  | succ n ih =>
    intro c d gs h
    unfold Cat.takeHalves at h
    split at h
    · cases h
    · obtain ⟨⟨_, _⟩, e, h⟩ := Option.map_eq_some_iff.mp h
      obtain ⟨-, rfl⟩ := Prod.mk.inj h
      exact trans ⟨_, _, rfl⟩ (ih e)

theorem placeScale {t region fmt k start : Nat} {sc : Option (Nat × Nat)} (h : c.placeScale t region fmt k start = some (sc, d)) :
    OnlyPlaced c d := by
  unfold Cat.placeScale at h
  split at h
  · cases h
    exact refl c
  · split at h
    · cases h
      exact ⟨_, _, rfl⟩
    · obtain ⟨_, _, h⟩ := Option.map_eq_some_iff.mp h
      obtain ⟨-, rfl⟩ := Prod.mk.inj h
      exact ⟨_, _, rfl⟩

theorem placeScales {t region fmt k start : Nat} {gs : List Nat} : ∀ {c d : Cat} {hs : List HalfLoc},
    c.placeScales t region fmt k start gs = some (hs, d) → OnlyPlaced c d := by
  induction gs with
  | nil =>
    intro c d hs h
    cases h
    exact refl c
  | cons g gs ih =>
    intro c d hs h
    unfold Cat.placeScales at h
    split at h
    · cases h
    · rename_i e
      obtain ⟨⟨_, _⟩, e', h⟩ := Option.map_eq_some_iff.mp h
      obtain ⟨-, rfl⟩ := Prod.mk.inj h
      exact (placeScale e).trans (ih e')

theorem placeHalves {t region fmt k start n : Nat} {hs : List HalfLoc} (h : c.placeHalves t region fmt k start n = some (hs, d)) :
    OnlyPlaced c d := by
  obtain ⟨⟨gs, m⟩, e, h⟩ := Option.bind_eq_some_iff.mp h
  obtain e | ⟨-, e⟩ := Option.or_eq_some_iff.mp e
  · exact (takeHalves e).trans (placeScales h)
  · exact (takeHalves e).trans (placeScales h)

theorem placeFrom {out : Nat → Nat → Bool} {fmt k halves start n : Nat} {hs : List HalfLoc} : ∀ {p : Nat},
    c.placeFrom out fmt k halves start p n = some (hs, d) → OnlyPlaced c d := by
  induction n with
  | zero =>
    intro p h
    cases h
  | succ n ih =>
    intro p h
    unfold Cat.placeFrom at h
    extract_lets t r at h
    split at h
    · rename_i e
      cases h
      split at e
      · cases e
      · exact placeHalves e
    · exact ih h

end OnlyPlaced

namespace OnlyTaken

theorem takeLeaf {p fmt d halves : Nat} {hs : Option (List HalfLoc)} (h : s.takeLeaf p fmt d halves = (hs, t)) : OnlyTaken s t := by
  unfold State.takeLeaf at h
  extract_lets at h
  split at h
  all_goals obtain ⟨-, rfl⟩ := Prod.mk.inj h
  · rename_i e
    obtain ⟨_, _, rfl⟩ := OnlyPlaced.placeFrom e
    exact of_cat rfl rfl
  · exact of_cat rfl rfl

/-! ## The leaves of an APPEND (R176) -/

theorem allocateHalves {q : Seq} {handle layer head block : Nat} {l : List (Nat × HalfLoc)} : ∀ {s t : State} {ns : List Nat},
    s.allocateHalves q handle layer head block l = some (ns, t) → OnlyTaken s t := by
  induction l with
  | nil =>
    intro s t ns h
    cases h
    exact refl s
  | cons x l ih =>
    intro s t ns h
    unfold State.allocateHalves at h
    split at h
    · cases h
    · rename_i e
      obtain ⟨⟨_, _⟩, e', h⟩ := Option.map_eq_some_iff.mp h
      obtain ⟨-, rfl⟩ := Prod.mk.inj h
      exact (takeCard e).trans (ih e')

theorem allocateBlocks {slot layer head : Nat} {h : Head} {bs : List Nat} : ∀ {s t : State},
    s.allocateBlocks slot layer head h bs = .ok t → OnlyTaken s t := by
  induction bs with
  | nil =>
    intro s t e
    cases e
    exact refl s
  | cons b bs ih =>
    intro s t e
    unfold State.allocateBlocks at e
    extract_lets q at e
    split at e
    · cases e
    · rename_i hleaf
      split at e
      · cases e
      · rename_i hcards
        split at e
        · cases e
        · exact (((takeLeaf hleaf).trans (allocateHalves hcards)).trans (putCards _ _ _ _ _ _)).trans (ih e)

end OnlyTaken

end Sys2Proof.Machine
end

section
/-! SUPPORT. The admission of an APPEND whose leaves stand: its charges, its walk and its job (R45, R76, R176). -/

namespace Sys2Proof.Machine

/-- Looking spans up changes the CLB and what is free to choose. -/
theorem State.lookBlocks_eq (s : State) (slot layer head : Nat) (blocks : List Nat) :
    ∃ clb fresh, s.lookBlocks slot layer head blocks = { s with cat := { s.cat with clb := clb }, fresh := fresh } := by
  refine List.foldlRecOn (motive := fun x : Bool × State => ∃ clb fresh, x.2 = { s with cat := { s.cat with clb := clb }, fresh := fresh })
    _ _ ⟨_, _, rfl⟩ ?_
  rintro ⟨_, _⟩ ⟨clb, fresh, rfl⟩ tag _
  dsimp only [State.clbLookup]
  split <;> exact ⟨_, _, rfl⟩

theorem State.charge_eq (s : State) (g : Option (Nat × SlotRec)) (r leaves lookups : Nat) :
    ∃ cs, s.charge g r leaves lookups = { s with work := { s.work with charges := cs } } := by
  cases g <;> exact ⟨_, rfl⟩

/-- What an APPEND charges its slot and looks up on its walk changes the charges, the CLB and what is free to choose. -/
theorem State.chargeAndLook_eq (s : State) (g : Option (Nat × SlotRec)) (r lookups slot layer head : Nat) (blocks : List Nat) :
    ∃ cs clb fresh, (s.charge g r 0 lookups).lookBlocks slot layer head blocks =
      { s with work := { s.work with charges := cs }, cat := { s.cat with clb := clb }, fresh := fresh } := by
  obtain ⟨cs, hcharge⟩ := s.charge_eq g r 0 lookups
  obtain ⟨clb, fresh, hlook⟩ := State.lookBlocks_eq (s.charge g r 0 lookups) slot layer head blocks
  exact ⟨cs, clb, fresh, hlook.trans (by rw [hcharge])⟩

/-- The writes of an APPEND's blocks in order (R177). -/
def State.appendActs (s : State) (slot : Nat) (b : AppendBody) : List AppendAct :=
  (blockSpan b.first b.count).flatMap fun x =>
    ((s.cardsAt slot b.layer b.head x).map (s.blockActs (s.seqAt slot) b x)).getD []

/-- The job of an APPEND at its admission: nothing written, the writes of its blocks to come. -/
structure AwaitsWrites (s : State) (h : Head) (b : AppendBody) (g : Option (Nat × SlotRec)) (job : AppendJob) : Prop where
  cmd : job.cmd = s.work.next
  seqSlot : job.seqSlot = handleSlot h.handle
  layer : job.layer = b.layer
  head : job.head = b.head
  first : job.first = b.first
  endPos : job.endPos = b.first + b.count
  scheduled : job.scheduled = g.isSome
  started : job.started = false
  acts : job.acts = s.appendActs (handleSlot h.handle) b

/-- An APPEND that has its leaves enters flight with its job; nothing is sent, and memory, sequences, leaves and cards stay. -/
theorem State.admitWrites_admits (s : State) (c : Conn) (h : Head) (b : AppendBody) (g : Option (Nat × SlotRec)) (r : Nat) :
    ∃ job, AwaitsWrites s h b g job ∧ (s.admitWrites c h b g r).work.appends = s.work.appends ++ [job] ∧
      (s.admitWrites c h b g r).cmd s.work.next = some { Cmd.start opAppend h (actingTenant c h) g 0 r (handleSlot h.handle) with
        lookups := appendLookups (s.seqAt (handleSlot h.handle)) b } ∧
      (s.admitWrites c h b g r).out = s.out ∧ (s.admitWrites c h b g r).mem = s.mem ∧
      (s.admitWrites c h b g r).poison = s.poison ∧ (s.admitWrites c h b g r).cat.seqs = s.cat.seqs ∧
      (s.admitWrites c h b g r).cat.leaves = s.cat.leaves ∧ (s.admitWrites c h b g r).cat.cards = s.cat.cards := by
  unfold State.admitWrites
  extract_lets slot q die bytes v charged work w acts job
  obtain ⟨cs, clb, fresh, hv⟩ : ∃ cs clb fresh, v =
      { s with work := { s.work with charges := cs }, cat := { s.cat with clb := clb }, fresh := fresh } :=
    State.chargeAndLook_eq s g r _ slot b.layer b.head _
  have hw : ∃ bs, w = { s with
      work := { s.work with charges := cs, appendBytes := bs }, cat := { s.cat with clb := clb }, fresh := fresh } := by
    simp only [w, work, hv]
    split <;> exact ⟨_, rfl⟩
  clear_value w
  obtain ⟨bs, rfl⟩ := hw
  have hacts : acts = s.appendActs slot b := by
    refine List.flatMap_congr fun x _ => ?_
    split
    · rename_i cs hcs
      rw [show s.cardsAt slot b.layer b.head x = some cs from hcs]
      rfl
    · rename_i hnone
      rw [show s.cardsAt slot b.layer b.head x = none from hnone]
      rfl
  exact ⟨job, ⟨rfl, rfl, rfl, rfl, rfl, rfl, rfl, rfl, hacts⟩, rfl, Tbl.get_set_self _ _ _, rfl, rfl, rfl, rfl, rfl, rfl⟩

end Sys2Proof.Machine
end

section
/-! The obligation O8 (R176, R208). -/

namespace Sys2Proof.Machine

/-- An APPEND that passes its checks, whose new blocks have leaves, is admitted with what they have left of the catalogue. -/
theorem exec_append_admits {h : Head} {b : AppendBody} {k : Nat} {c : Conn} {g : Option (Nat × SlotRec)} {s u : State}
    (hreach : Reaches (.append h b) opAppend h k c s) (hgrant : (arrived s h).grant opAppend h c s.row = .ok g)
    (hfail : appendFail (arrived s h) c h b g s.row = none)
    (halloc : (arrived s h).allocateBlocks (handleSlot h.handle) b.layer b.head h
      ((blockSpan b.first b.count).filter fun x => ((arrived s h).cardsAt (handleSlot h.handle) b.layer b.head x).isNone) = .ok u)
    (hlast : appendLast (arrived s h) h b = none) : exec (.append h b) s = .next (u.admitWrites c h b g s.row) := by
  obtain ⟨hi, hs, hready, hcls, harrive, hfence, hrow⟩ := hreach
  have hs' : (arrived s h).sender h = some (k, c) := hs
  rw [exec_cacheCommand s hi, State.receive_admits _ hi hs hready hcls harrive hfence hrow]
  simp only [admitCommand, admitAppend, hs', hgrant, hfail, halloc, hlast]

/-- Settles O8: the leaves of new blocks are all that admission takes, and the writes wait in the job. -/
theorem appendIsAdmitted : Obligations.AppendIsAdmitted := by
  intro h b k c g s u hreach hgrant hfail halloc hlast
  have htaken := OnlyTaken.allocateBlocks halloc
  obtain ⟨job, hjob, happends, hcmd, hout, hmem, hpoison, hseqs, hleaves, hcards⟩ := u.admitWrites_admits c h b g s.row
  have hwork : u.work = s.work := htaken.work
  have hacts := hjob.acts
  rw [State.appendActs, htaken.seqAt] at hacts
  rw [hwork] at happends hcmd
  exact ⟨_, job, _, exec_append_admits hreach hgrant hfail halloc hlast, hout.trans htaken.out, hmem.trans htaken.mem,
    hpoison.trans htaken.poison, hseqs.trans htaken.seqs, hleaves, hcards,
    fun n x hx => (congrArg (Tbl.get · n) hcards).trans (htaken.cards n x hx), happends, hwork ▸ hjob.cmd, hjob.seqSlot, hjob.layer,
    hjob.head, hjob.first, hjob.endPos, hjob.scheduled, hjob.started, hacts, hcmd, rfl, rfl, rfl, rfl, rfl⟩

end Sys2Proof.Machine
end

section
/-! SUPPORT. Tiles as they are issued, cut, ended and abandoned: what each leaves (R171, R172, R178). -/

namespace Sys2Proof.Machine

variable {s t u : State}

/-! ## Counts -/

/-- `t` is `s` but for registers. -/
def OnlyRegs (s t : State) : Prop := ∃ r, t = { s with regs := r }

namespace OnlyRegs

theorem refl (s : State) : OnlyRegs s s := ⟨s.regs, rfl⟩

theorem trans (a : OnlyRegs s t) (b : OnlyRegs t u) : OnlyRegs s u := by
  obtain ⟨_, rfl⟩ := a
  obtain ⟨r, rfl⟩ := b
  exact ⟨r, rfl⟩

theorem foldl {α : Type} {f : State → α → State} (h : ∀ s x, OnlyRegs s (f s x)) (l : List α) (s : State) :
    OnlyRegs s (l.foldl f s) := foldl_keeps (P := OnlyRegs s) (fun t x ht => ht.trans (h t x)) l (refl s)

theorem count (s : State) (f : Field) (n : Nat) : OnlyRegs s (s.count f n) := ⟨_, rfl⟩

theorem countFallback (s : State) (x : Tile) : OnlyRegs s (s.countFallback x) := by
  refine foldl (fun s k => ?_) _ s
  split
  · split
    · exact count s _ _
    · exact refl s
  · exact refl s

theorem mem (h : OnlyRegs s t) : t.mem = s.mem := by
  obtain ⟨r, rfl⟩ := h
  rfl

theorem work (h : OnlyRegs s t) : t.work = s.work := by
  obtain ⟨r, rfl⟩ := h
  rfl

theorem arrays (h : OnlyRegs s t) : t.arrays = s.arrays := by
  obtain ⟨r, rfl⟩ := h
  rfl

theorem cmd (h : OnlyRegs s t) (n : Nat) : t.cmd n = s.cmd n := by rw [State.cmd, h.work, State.cmd]

theorem decided (h : OnlyRegs s t) {n : Nat} {o : Outcome} (d : Decided s n o) : Decided t n o := by
  obtain ⟨c, hc, hrest⟩ := d
  exact ⟨c, (h.cmd n).trans hc, hrest⟩

theorem takes (h : OnlyRegs s t) {n : Nat} {g : Head} {o : Head → Outcome} (d : Takes o s n g) : Takes o t n g := by
  obtain ⟨c, hc, hrest⟩ | d := d
  · exact .inl ⟨c, (h.cmd n).trans hc, hrest⟩
  · exact .inr (h.decided d)

end OnlyRegs

/-! ## A tile begins (R178) -/

theorem State.hostAccess_arrays (s : State) (i region : Nat) (who : Accessor) :
    (s.hostAccess i region who).2.arrays = s.arrays := by
  unfold State.hostAccess
  split
  · extract_lets a q
    split
    · exact (State.count_arrays _ _ _).trans (State.setStack_arrays _ _ _)
    · exact State.setStack_arrays _ _ _
  · rfl

theorem State.hostRegions_arrays (s : State) (who : Accessor) (rs : List (Nat × Nat)) :
    (s.hostRegions who rs).2.arrays = s.arrays := by
  rw [State.hostRegions_eq]
  refine List.foldlRecOn (motive := fun x : Nat × State => x.2.arrays = s.arrays) rs _ rfl fun x hx r _ => ?_
  exact (State.hostAccess_arrays x.2 r.1 r.2 who).trans hx

/-- The regions that an array reads to stage a tile. -/
def State.stagingRegions (s : State) (x : Tile) : List (Nat × Nat) :=
  (((s.tileLeaves x).flatMap Laid.granules).map fun g => (granStack g, granRegion g)).dedup

/-- A tile begins to stage or still waits: of the arrays only what it has staged may change. -/
theorem State.beginTile_cases (s : State) (x : Tile) : s.beginTile x = s ∨ ∃ (v : State) (w : Option Nat)
    (m : Tile → Option (List Host.Cell × List Nat)), OnlyQueued s v ∧ v.arrays = s.arrays ∧
      s.beginTile x = v.setTile x.array fun y => { y with left := w, staged := m y } := by
  unfold State.beginTile
  split
  · exact .inl rfl
  · exact .inr ⟨(s.hostRegions (.tile x.array) (s.stagingRegions x)).2, _, _, .hostRegions _ _ _, State.hostRegions_arrays _ _ _, rfl⟩

theorem OnlyQueued.setTile (s : State) (a : Nat) (f : Tile → Tile) : OnlyQueued s (s.setTile a f) := ⟨rfl, fun _ => rfl⟩

theorem OnlyQueued.beginTile (s : State) (x : Tile) : OnlyQueued s (s.beginTile x) := by
  obtain h | ⟨v, w, m, hv, -, h⟩ := s.beginTile_cases x
  · rw [h]
    exact refl s
  · rw [h]
    exact hv.trans (setTile _ _ _)

theorem OnlyQueued.out (h : OnlyQueued s t) : t.out = s.out := by rw [h.rest]

/-- The tile that begins is the last of those that run, and the only one on its array. -/
theorem State.beginTile_arrays {x : Tile} {l : List Tile} (hrun : s.arrays.running = l ++ [x])
    (hfree : ∀ y ∈ l, y.array ≠ x.array) : (s.beginTile x).arrays.due = s.arrays.due ∧
      ∃ w m, (s.beginTile x).arrays.running = l ++ [{ x with left := w, staged := m }] := by
  obtain h | ⟨v, w, m, -, hv, h⟩ := s.beginTile_cases x
  · rw [h]
    exact ⟨rfl, x.left, x.staged, hrun⟩
  · have hkeep : l.map (fun y => if y.array = x.array then { y with left := w, staged := m y } else y) = l :=
      (List.map_congr_left fun y hy => if_neg (hfree y hy)).trans (List.map_id' l)
    rw [h, State.setTile_arrays, hv]
    refine ⟨rfl, w, m x, ?_⟩
    simp only [hrun, List.map_append, hkeep, List.map_cons, List.map_nil, if_true]

/-! ## A tile is issued (R171) -/

/-- A tile due is taken out of the queue. -/
def State.takeDue (s : State) (x : Tile) : State := { s with arrays := { s.arrays with due := dropTile x s.arrays.due } }

/-- A tile as it stands on an array it is issued to. -/
def Tile.onto (x : Tile) (a ns span : Nat) : Tile := { x with array := a, startNs := ns, endNs := ns + span }

/-- The array that is found free runs no tile. -/
theorem State.array_ne_of_freeArray {a : Nat} (h : s.freeArray = some a) : ∀ y ∈ s.arrays.running, y.array ≠ a := by
  have ha := List.find?_some h
  simp only [Bool.and_eq_true, List.all_eq_true, decide_eq_true_eq] at ha
  exact ha.2

/-- Issuing a tile puts it on its array, last of those that run; memory, output, commands and the tiles due stay. -/
theorem State.runTile_runs (x : Tile) (a ns span : Nat) (hfree : ∀ y ∈ s.arrays.running, y.array ≠ a) :
    (s.runTile x a ns span).mem = s.mem ∧ (s.runTile x a ns span).out = s.out ∧
      (s.runTile x a ns span).work.cmds = s.work.cmds ∧ (s.runTile x a ns span).arrays.due = s.arrays.due ∧
      ∃ w m, (s.runTile x a ns span).arrays.running = s.arrays.running ++ [{ x.onto a ns span with left := w, staged := m }] := by
  unfold State.runTile
  extract_lets die y u _ v
  have hcounts : OnlyRegs v (((v.countFallback y).count (rTilesIssued die) 1).count (rArrayTilesTiles die (a % 48)) 1) :=
    ((OnlyRegs.countFallback v y).trans (.count _ _ _)).trans (.count _ _ _)
  obtain ⟨r, hr⟩ := hcounts
  rw [hr]
  have hqueued := OnlyQueued.beginTile { v with regs := r } y
  obtain ⟨hdue, hrun⟩ := State.beginTile_arrays (s := { v with regs := r }) (x := y) (l := s.arrays.running) rfl hfree
  exact ⟨hqueued.mem, hqueued.out, (congrArg Work.cmds hqueued.work :), hdue, hrun⟩

/-- Where a scheduled tile is first, some scheduled tile is due. -/
theorem any_scheduled_of_firstTile {l : List Tile} {x : Tile} (h : firstTile (l.filter fun t => t.scheduled) = some x) :
    l.any (fun t => t.scheduled) = true := by
  by_contra hnone
  have hnil : l.filter (fun t => t.scheduled) = [] :=
    List.filter_eq_nil_iff.mpr fun y hy hs => hnone (List.any_eq_true.mpr ⟨y, hy, hs⟩)
  rw [hnil] at h
  cases h

/-- The scheduled tile that is first takes the free array where it ends by 3,839 ns, and ends the issue of such tiles where not. -/
theorem State.issueTile_scheduled {e : RowEntry} {ns a : Nat} {x : Tile} (he : s.pat.exec = some e) (hlo : 256 ≤ ns)
    (hhi : ns ≤ 3839) (hopen : s.arrays.noSched = false) (hitems : s.arrayItems (fun x => x.scheduled && x.path = 1) = [])
    (hfirst : firstTile (s.arrays.due.filter fun t => t.scheduled) = some x) (hfree : s.freeArray = some a)
    (hcap : s.scheduledArrays < e.arrayCap) :
    s.issueTile ns = if 3839 < ns + s.tileSpan x (s.aclk (a / 48)) then (s.tick ns).stopTiles
      else ((s.tick ns).takeDue x).runTile x a ns (s.tileSpan x (s.aclk (a / 48))) := by
  have hdue : (s.tick ns).scheduledDue = true := by
    simp only [State.scheduledDue, State.tick_arrays, hopen, any_scheduled_of_firstTile hfirst, Bool.true_or, Bool.not_false,
      Bool.and_self]
  have hissue : s.issueTile ns = (s.tick ns).issueScheduled a ns := by
    simp only [State.issueTile, he, hfree]
    rw [if_neg (by omega), if_pos ⟨hdue, hcap⟩]
  have hitems' : (s.tick ns).arrayItems (fun x => x.scheduled && x.path = 1) = [] := hitems
  rw [hissue]
  simp only [State.issueScheduled, hitems', List.filter_nil, State.tick_arrays, hfirst]
  rfl

/-! ## Commands that are decided give up their tiles and items (R49) -/

/-- A command that is decided, if it was not, gives up its items and the tiles it has due; every other command keeps its own. -/
theorem State.decide_drops (s : State) (n : Nat) (o : Outcome) : s.decide n o = s ∨
    ((s.decide n o).work.items = s.work.items.filter (fun p => p.2.cmd ≠ n) ∧
      (s.decide n o).arrays.due = s.arrays.due.filter fun x => x.cmd ≠ n) := by
  have hkey : (s.dropKey n).work.items = s.work.items ∧ (s.dropKey n).arrays = s.arrays := by
    obtain h | ⟨i, h⟩ := s.dropKey_cases n <;> rw [h] <;> exact ⟨rfl, rfl⟩
  obtain ⟨hitems, harrays⟩ := hkey
  cases hc : s.cmd n with
  | none => exact .inl (by simp [State.decide, hc])
  | some c =>
    cases hr : c.result with
    | some x => exact .inl (s.decide_decided n o hc (by simp [hr]))
    | none =>
      right
      by_cases hcls : c.cls = .l8
      · rw [s.decide_l8 n o hc hr hcls, s.complete_eq n o hc, State.reply_work, (OnlyOut.reply _ _ _ _).arrays]
        exact ⟨congrArg (List.filter _) hitems, congrArg (fun a : Arrays => a.due.filter _) harrays⟩
      · rw [s.decide_scheduled n o hc hr hcls]
        exact ⟨congrArg (List.filter _) hitems, congrArg (fun a : Arrays => a.due.filter _) harrays⟩

theorem State.computeLate_drops (s : State) (n : Nat) : s.computeLate n = s ∨
    ((s.computeLate n).work.items = s.work.items.filter (fun p => p.2.cmd ≠ n) ∧
      (s.computeLate n).arrays.due = s.arrays.due.filter fun x => x.cmd ≠ n) := by
  unfold State.computeLate
  split
  · exact .inl rfl
  · exact s.decide_drops n _

/-- No tile comes to be due while commands are made LATE. -/
theorem State.foldl_computeLate_due (l : List Nat) (s : State) : ∀ x ∈ (l.foldl State.computeLate s).arrays.due, x ∈ s.arrays.due := by
  refine foldl_keeps (P := fun t => ∀ x ∈ (State.arrays t).due, x ∈ s.arrays.due) (fun t n ht x hx => ht x ?_) l fun _ => id
  obtain h | ⟨_, h⟩ := t.computeLate_drops n
  · rwa [h] at hx
  · rw [h] at hx
    exact (List.mem_filter.mp hx).1

/-! ## Tiles that are not issued (R171) -/

/-- Cutting tiles is counted, and makes their commands LATE. -/
theorem State.cutTiles_eq (s : State) (cmds : List Nat) : ∃ u, OnlyRegs s u ∧ s.cutTiles cmds = cmds.dedup.foldl State.computeLate u := by
  refine ⟨_, OnlyRegs.foldl (fun s n => ?_) cmds s, rfl⟩
  split
  · exact .count s _ _
  · exact .refl s

/-- The end of the issue of scheduled tiles leaves memory and the tiles that run, and no scheduled tile due. -/
theorem State.stopTiles_keeps (s : State) : s.stopTiles.mem = s.mem ∧ s.stopTiles.arrays.running = s.arrays.running ∧
    ∀ x ∈ s.stopTiles.arrays.due, x.scheduled = false := by
  unfold State.stopTiles State.cutDue
  extract_lets _ cmds
  obtain ⟨u, hu, hcut⟩ := State.cutTiles_eq
    { s with arrays := { s.arrays with noSched := true, due := s.arrays.due.filter fun t => !t.scheduled } } cmds
  have hlate : OnlyDecided u (cmds.dedup.foldl State.computeLate u) := .foldl OnlyDecided.computeLate _ u
  rw [hcut]
  refine ⟨hlate.mem.trans hu.mem, hlate.running.trans (congrArg Arrays.running hu.arrays :), fun x hx => ?_⟩
  have hx' := State.foldl_computeLate_due _ u x hx
  rw [hu.arrays] at hx'
  simpa using (List.mem_filter.mp hx').2

/-- R171: the command of a scheduled tile that was due is LATE. -/
theorem State.stopTiles_late {x : Tile} {c : Cmd} (hx : x ∈ s.arrays.due) (hsched : x.scheduled = true) (hc : s.cmd x.cmd = some c)
    (hcls : c.cls ≠ .l8) (hres : c.result = none) : LateCompute s.stopTiles x.cmd c := by
  unfold State.stopTiles State.cutDue
  extract_lets _ cmds
  obtain ⟨u, hu, hcut⟩ := State.cutTiles_eq
    { s with arrays := { s.arrays with noSched := true, due := s.arrays.due.filter fun t => !t.scheduled } } cmds
  have hmem : x.cmd ∈ cmds := List.mem_append_left _ (List.mem_map.mpr ⟨x, List.mem_filter.mpr ⟨hx, hsched⟩, rfl⟩)
  rw [hcut]
  exact Takes.foldl_computeLate (List.mem_dedup.mpr hmem) (.inl ⟨c, (hu.cmd _).trans hc, rfl, hcls, hres⟩)

/-! ## A tile leaves its array (R169, R172) -/

/-- A tile that leaves its array is counted; the array runs none, and accesses of its own serve nothing. -/
theorem State.leaveArray_leaves (s : State) (a ns : Nat) : ∃ (u : State) (ks : List Stack), OnlyRegs s u ∧
    s.leaveArray a ns = u.arrayLeft a ks := ⟨_, _, OnlyRegs.foldl (fun s _ => .count s _ _) _ s, rfl⟩

/-- Where an array has staged no poison, its results reach their command and nothing else changes. -/
theorem State.giveTile_of_no_poison {view : State} (h : view.poison = []) (s : State) (n : Nat) (visits : List Nat)
    (r : List NodePartial × Option Nat) (contexts : Nat) : s.giveTile view n visits r contexts = s.addParts n r.1 r.2 contexts := by
  have hsame : visits.foldl (fun s i => s.poisonVisit view n i r.2) s = s :=
    foldl_keeps (P := (· = s)) (fun t i ht => (State.poisonVisit_of_no_poison h t n i r.2).trans ht) visits rfl
  rw [State.giveTile, hsame]

/-- What an array sees of the node: what it has staged in the place of the stacks. -/
abbrev State.staging (s : State) (bytes : List Host.Cell) : State := { s with mem := bytes, poison := [] }

/-- The partials of a position tile, and the least DETAIL of its poison. -/
def State.positionParts (view : State) (x : Tile) (c : Cmd) (b : AttnBody) : List NodePartial × Option Nat :=
  collect (x.visits.flatMap fun i => (List.range x.count).map fun j => view.cellPartials x.cmd c b i (x.first + j))

theorem State.finishTile_position {x : Tile} {c : Cmd} {b : AttnBody} (hkind : x.kind = .position) (hc : s.cmd x.cmd = some c)
    (hb : c.attn = some b) (bytes : List Host.Cell) : s.finishTile x (bytes, []) =
      s.addParts x.cmd ((s.staging bytes).positionParts x c b).1 ((s.staging bytes).positionParts x c b).2
        (x.visits.length * x.count) := by
  simp only [State.finishTile, hkind, hc, hb]
  exact State.giveTile_of_no_poison rfl _ _ _ _ _

/-- R169: a position tile that ends in time gives its command its partials, and leaves its array. -/
theorem State.endTile_position {a ns : Nat} {x : Tile} {c : Cmd} {b : AttnBody} {bytes : List Host.Cell}
    (hx : s.arrays.running.find? (fun x => x.array = a) = some x) (hkind : x.kind = .position) (hc : s.cmd x.cmd = some c)
    (hb : c.attn = some b) (hns : ns ≤ 3839) (hstaged : x.staged = some (bytes, [])) :
    (s.endTile a ns).mem = s.mem ∧ (s.endTile a ns).out = s.out ∧
      (s.endTile a ns).arrays.running = (s.arrays.running.filter fun u => u.array ≠ a) ∧
      (s.endTile a ns).cmd x.cmd = some { c with
        parts := c.parts ++ (((s.tick ns).staging bytes).positionParts x c b).1
        poison := lowCode c.poison (((s.tick ns).staging bytes).positionParts x c b).2
        work := c.work - x.visits.length * x.count } := by
  have hend : s.endTile a ns = ((s.tick ns).finishTile x (bytes, [])).leaveArray a ns := by
    simp only [State.endTile, hx, hstaged]
    exact if_neg (Nat.not_lt.mpr hns)
  rw [hend, State.finishTile_position (s := s.tick ns) hkind hc hb]
  obtain ⟨u, ks, ⟨r, rfl⟩, hleave⟩ := State.leaveArray_leaves ((s.tick ns).addParts x.cmd _ _ (x.visits.length * x.count)) a ns
  rw [hleave]
  refine ⟨rfl, rfl, rfl, ?_⟩
  refine (State.cmd_setCmd _ _ _ _).trans ?_
  rw [if_pos rfl]
  exact congrArg (Option.map _) hc

/-! ## Tiles that are abandoned (R172) -/

/-- Of a table that need not be canonical, a record that stays answers its key as before. -/
theorem get_filter_of_get {α : Type} {t : Tbl α} {k : Nat} {v : α} {p : Nat × α → Bool} (h : Tbl.get t k = some v)
    (hp : p (k, v) = true) : Tbl.get (t.filter p) k = some v := by
  induction t with
  | nil => cases h
  | cons q t ih =>
    obtain ⟨k', w⟩ := q
    rw [Tbl.get_cons] at h
    split at h
    · rename_i e
      subst e
      cases h
      rw [List.filter_cons_of_pos hp, Tbl.get_cons, if_pos rfl]
    · rename_i e
      rw [List.filter_cons]
      split
      · rw [Tbl.get_cons, if_neg e]
        exact ih h
      · exact ih h

/-- The commands a tile serves are a matter of the items. -/
theorem State.tileCmds_congr (h : t.work.items = s.work.items) (x : Tile) : t.tileCmds x = s.tileCmds x := by
  simp only [State.tileCmds, h]

/-- A tile of items serves a command that one of its items is of. -/
theorem State.mem_tileCmds_item {x : Tile} (hkind : x.kind = .item) (n : Nat) :
    n ∈ s.tileCmds x ↔ ∃ k ∈ x.items, ∃ i, Tbl.get s.work.items k = some i ∧ i.cmd = n := by
  simp [State.tileCmds, hkind, List.mem_dedup, List.mem_filterMap, Option.map_eq_some_iff]

/-- A tile goes on serving a command while another is made LATE. -/
theorem State.mem_tileCmds_computeLate {x : Tile} {n k : Nat} (hk : n ≠ k) (hn : n ∈ s.tileCmds x) :
    n ∈ (s.computeLate k).tileCmds x := by
  cases hkind : x.kind with
  | item =>
    rw [State.mem_tileCmds_item hkind] at hn ⊢
    obtain ⟨j, hj, i, hi, rfl⟩ := hn
    refine ⟨j, hj, i, ?_, rfl⟩
    obtain h | ⟨h, _⟩ := s.computeLate_drops k
    · rw [h, hi]
    · rw [h]
      exact get_filter_of_get hi (by simpa using hk)
  | position => simpa only [State.tileCmds, hkind] using hn
  | gradient => simpa only [State.tileCmds, hkind] using hn

/-- The commands of a tile are LATE, and the tile is counted as cut. -/
def State.withdrawTile (a : Nat) (s : State) (x : Tile) : State :=
  ((s.tileCmds x).foldl State.computeLate s).count (rTilesCut (a / 48)) 1

theorem State.withdrawTiles_eq (s : State) (a : Nat) : s.withdrawTiles a =
    (s.arrays.running.filter fun x => x.array = a).foldl (State.withdrawTile a) (s.leaveArray a 3839) := rfl

theorem State.withdrawTile_keeps (a : Nat) (s : State) (x : Tile) : (s.withdrawTile a x).mem = s.mem ∧
    (s.withdrawTile a x).arrays.running = s.arrays.running := by
  have hlate : OnlyDecided s ((s.tileCmds x).foldl State.computeLate s) := .foldl OnlyDecided.computeLate _ s
  have hcount := OnlyRegs.count ((s.tileCmds x).foldl State.computeLate s) (rTilesCut (a / 48)) 1
  exact ⟨hcount.mem.trans hlate.mem, (congrArg Arrays.running hcount.arrays).trans hlate.running⟩

section
variable {a n : Nat} {h : Head}

theorem decided_withdrawTile (d : Decided s n (lateOf h)) (x : Tile) : Decided (s.withdrawTile a x) n (lateOf h) :=
  (OnlyRegs.count _ _ _).decided (foldl_keeps (P := (Decided · n (lateOf h))) (fun _ k d => decided_computeLate d k) _ d)

theorem Takes.withdrawTile_serves {x : Tile} (hn : n ∈ s.tileCmds x) (d : Takes lateOf s n h) :
    Decided (s.withdrawTile a x) n (lateOf h) := (OnlyRegs.count _ _ _).decided (d.foldl_computeLate hn)

theorem Takes.withdrawTile (d : Takes lateOf s n h) (x : Tile) : Takes lateOf (s.withdrawTile a x) n h :=
  (OnlyRegs.count _ _ _).takes (foldl_keeps (P := (Takes lateOf · n h)) (fun _ k d => d.computeLate k) _ d)

/-- A tile goes on serving a command while a tile that does not serve it is withdrawn. -/
theorem State.mem_tileCmds_withdrawTile {x y : Tile} (hy : n ∉ s.tileCmds y) (hn : n ∈ s.tileCmds x) :
    n ∈ (s.withdrawTile a y).tileCmds x := by
  have hcount := OnlyRegs.count ((s.tileCmds y).foldl State.computeLate s) (rTilesCut (a / 48)) 1
  rw [State.withdrawTile, State.tileCmds_congr (congrArg Work.items hcount.work)]
  exact List.foldlRecOn (motive := fun t => n ∈ State.tileCmds t x) (s.tileCmds y) State.computeLate hn fun _ ht _ hk =>
    State.mem_tileCmds_computeLate (fun e => hy (e ▸ hk)) ht

/-- Of tiles withdrawn one after the other, each makes the commands it serves LATE. -/
theorem Takes.foldl_withdrawTile {x : Tile} {l : List Tile} (hx : x ∈ l) (hn : n ∈ s.tileCmds x) (d : Takes lateOf s n h) :
    Decided (l.foldl (State.withdrawTile a) s) n (lateOf h) := by
  have hstays (l : List Tile) {t : State} (ht : Decided t n (lateOf h)) : Decided (l.foldl (State.withdrawTile a) t) n (lateOf h) :=
    foldl_keeps (P := (Decided · n (lateOf h))) (fun _ y d => decided_withdrawTile d y) l ht
  induction l generalizing s with
  | nil => cases hx
  | cons y l ih =>
    by_cases hy : n ∈ s.tileCmds y
    · exact hstays l (d.withdrawTile_serves hy)
    · rcases List.mem_cons.mp hx with rfl | hx
      · exact absurd hn hy
      · exact ih hx (State.mem_tileCmds_withdrawTile hy hn) (d.withdrawTile y)

end

/-- An abandoned tile frees its array, and memory stays. -/
theorem State.withdrawTiles_keeps (s : State) (a : Nat) : (s.withdrawTiles a).mem = s.mem ∧
    (s.withdrawTiles a).arrays.running = s.arrays.running.filter fun x => x.array ≠ a := by
  obtain ⟨u, ks, ⟨r, rfl⟩, hleave⟩ := s.leaveArray_leaves a 3839
  rw [s.withdrawTiles_eq, hleave]
  refine foldl_keeps (P := fun t => t.mem = s.mem ∧ t.arrays.running = s.arrays.running.filter fun x => x.array ≠ a)
    (fun t x ⟨hmem, hrun⟩ => ?_) _ ⟨rfl, rfl⟩
  obtain ⟨hmem', hrun'⟩ := t.withdrawTile_keeps a x
  exact ⟨hmem'.trans hmem, hrun'.trans hrun⟩

/-- R172: the commands of an abandoned tile are LATE. -/
theorem State.withdrawTiles_late {a n : Nat} {x : Tile} {c : Cmd} (hx : x ∈ s.arrays.running) (ha : x.array = a)
    (hn : n ∈ s.tileCmds x) (hc : s.cmd n = some c) (hcls : c.cls ≠ .l8) (hres : c.result = none) :
    LateCompute (s.withdrawTiles a) n c := by
  obtain ⟨u, ks, ⟨r, rfl⟩, hleave⟩ := s.leaveArray_leaves a 3839
  rw [s.withdrawTiles_eq, hleave]
  exact Takes.foldl_withdrawTile (List.mem_filter.mpr ⟨hx, by simpa using ha⟩) hn (.inl ⟨c, hc, rfl, hcls, hres⟩)

/-- A tile that has not ended by 3,839 ns is abandoned. -/
theorem State.endTile_late {a ns : Nat} (hns : 3839 < ns) (hx : ∃ x ∈ s.arrays.running, x.array = a) :
    s.endTile a ns = (s.tick ns).withdrawTiles a := by
  obtain ⟨x, hx, ha⟩ := hx
  obtain ⟨y, hy⟩ := Option.isSome_iff_exists.mp ((List.find?_isSome (p := fun y => y.array = a)).mpr ⟨x, hx, decide_eq_true ha⟩)
  simp only [State.endTile, hy]
  exact if_pos hns

end Sys2Proof.Machine
end

section
/-! The obligation O28 (R171, R172, R174, R178). -/

namespace Sys2Proof.Machine

/-- Settles O28: a tile is issued or cut by its predicted end, and ends or is withdrawn by the time of its end. -/
theorem tilesIssueAndEnd : Obligations.TilesIssueAndEnd := by
  refine fun ns a x s => ⟨fun e he hlo hhi hopen hitems hfirst hfree hcap => ?issue,
    fun c b hx hkind hc hb hns bytes hstaged => ?ends, fun i hi => ?abandoned⟩
  case issue =>
    have hissue := State.issueTile_scheduled he hlo hhi hopen hitems hfirst hfree hcap
    refine ⟨fun hfits => ⟨_, congrArg Host.Outcome.next (hissue.trans (if_neg (Nat.not_lt.mpr hfits))), ?_⟩,
      fun hlong => ⟨_, congrArg Host.Outcome.next (hissue.trans (if_pos hlong)), ?_⟩⟩
    · exact State.runTile_runs x a ns _ (State.array_ne_of_freeArray hfree)
    · obtain ⟨hmem, hrun, hdue⟩ := (s.tick ns).stopTiles_keeps
      exact ⟨hmem, hrun, hdue, fun y hy hsched c hc hcls hres => State.stopTiles_late hy hsched hc hcls hres⟩
  case ends =>
    obtain ⟨hmem, hout, hrun, hcmd⟩ := State.endTile_position hx hkind hc hb hns hstaged
    exact ⟨_, _, rfl, hmem, hout, hrun, hcmd, rfl, rfl, rfl⟩
  case abandoned =>
    obtain rfl | ⟨rfl, hns, hx⟩ := hi
    · obtain ⟨hmem, hrun⟩ := s.withdrawTiles_keeps a
      exact ⟨_, rfl, hmem, hrun, fun y hy ha n hn c hc hcls hres => State.withdrawTiles_late hy ha hn hc hcls hres⟩
    · obtain ⟨hmem, hrun⟩ := (s.tick ns).withdrawTiles_keeps a
      exact ⟨_, congrArg Host.Outcome.next (State.endTile_late hns hx), hmem, hrun,
        fun y hy ha n hn c hc hcls hres => State.withdrawTiles_late (s := s.tick ns) hy ha hn hc hcls hres⟩

end Sys2Proof.Machine
end

section
/-! SUPPORT. A node whose keys of memory regions are out of order, which the hypotheses of the raw commands' statements allow. -/

namespace Sys2Proof.Machine

/-- A connection of tenant 7 with node 20. -/
def plainConn : Conn :=
  { state := .ready, cls := 1, tenant := 7, peerNode := 20, peerDomain := 1, peerQp := 9, shared := false, compat := false,
    relay := false, cause := 0, since := 0, peerGone := false, nextPsn := 0, buffered := [], assembling := [], sendPsn := 0,
    ackDue := [] }

/-- A key of tenant 7 over the bytes from 0x4000 to 0x4FFF. -/
def plainKey : Key :=
  { state := .valid, generation := 0, tenant := 7, rights := 7, span := false, base := 0x4000, length := 4096, process := none,
    revokeDue := none, revoker := none, inFlight := 0 }

/-- Two keys in falling order: a change of key 0 enters it a second time, before key 5. -/
def fallingKeys : Tbl Key := [(5, plainKey), (0, plainKey)]

/-- The node in Serving, with nothing held but these keys, and with some lines poisoned. -/
def fallingNode (poison : List Nat) : State :=
  { State.reset with
    node := { State.reset.node with state := .serving }
    poison := poison
    xport := { State.reset.xport with conns := [(0x5000, plainConn)], keys := fallingKeys } }

/-- A header on that connection. -/
def plainHead (bodyLen : Nat) : Head :=
  { qp := 5, srcQp := 9, srcNode := 20, srcDomain := 1, relayTenant := none, tag := 1, rowTag := 0, model := 2, handle := 0,
    oBf16 := false, fence := false, bodyLen := bodyLen, ns := 10 }

/-- Bytes 4088 and on of key 0's region. -/
def plainBody (length : Nat) : RawBody :=
  { key := 0, length := length, offset := 4088, op0 := 3, op1 := 9, data := [1, 2, 3, 4, 5, 6, 7, 8] }

theorem fallingNode_canonical (poison : List Nat) : Canonical (fallingNode poison) := by
  obtain ⟨⟨hmem, hregs, hseqs, hleaves, hcards, hcmds, hmoves, hcmdNumbers, hmoveNumbers⟩, -⟩ := resetHoldsResetValues
  exact ⟨hmem, hregs, hseqs, hleaves, hcards, hcmds, hmoves, hcmdNumbers, hmoveNumbers⟩

/-- No other command and no round holds an access to the bytes up. -/
theorem fallingNode_rawClear (poison : List Nat) : RawClear (fallingNode poison) 0x4FF8 8 := by
  have hquiet : ∀ r ∈ regionsOf 0x4FF8 8, (fallingNode []).inRound r.1 r.2 = false := by decide +kernel
  exact ⟨rfl, rfl, hquiet⟩

/-- The command leaves three keys in the place of the two. -/
def repeatsKey (i : Instr) (s : State) : Bool :=
  match exec i s with
  | .next t => t.xport.keys.length = 3
  | _ => false

theorem keys_ne_of_repeatsKey {i : Instr} {s t : State} (hrepeats : repeatsKey i s = true) (ht : exec i s = .next t) :
    t.xport.keys ≠ fallingKeys := by
  intro hkeys
  simp only [repeatsKey, ht, hkeys, decide_eq_true_eq] at hrepeats
  cases hrepeats

end Sys2Proof.Machine
end

section
/-! The obligation O14 (R227, R442). -/

namespace Sys2Proof.Machine

theorem repeatsKey_read : repeatsKey (.readMem (plainHead 16) (plainBody 8)) (fallingNode [0x13F]) = true := by decide +kernel

theorem reaches_read : Reaches (.readMem (plainHead 16) (plainBody 8)) opRead (plainHead 16) 0x5000 plainConn
    (fallingNode [0x13F]) := by
  refine ⟨rfl, rfl, rfl, ?_, ?_, ?_, ?_⟩ <;> decide +kernel

/-- Refutes O14: a READ is counted in flight under its key, and no longer once it completes, and the statement does not say that the
keys stand in order. Where they do not, the counting enters the key a second time. -/
theorem not_readReturnsBytes : ¬ Obligations.ReadReturnsBytes := by
  intro hread
  obtain ⟨-, hpoisoned⟩ := hread _ _ _ _ _ 0 0x4FF8 reaches_read (by decide +kernel) (by decide) (by decide)
    (fallingNode_rawClear _)
  obtain ⟨t, ht, ⟨_, _, _, _, _, hkeys⟩, _⟩ := hpoisoned (by decide +kernel)
  exact keys_ne_of_repeatsKey repeatsKey_read ht hkeys

end Sys2Proof.Machine
end

section
/-! The obligation O15 (R227, R442). -/

namespace Sys2Proof.Machine

theorem repeatsKey_write : repeatsKey (.writeMem (plainHead 24) (plainBody 8)) (fallingNode []) = true := by decide +kernel

theorem reaches_write : Reaches (.writeMem (plainHead 24) (plainBody 8)) opWrite (plainHead 24) 0x5000 plainConn
    (fallingNode []) := by
  refine ⟨rfl, rfl, rfl, ?_, ?_, ?_, ?_⟩ <;> decide +kernel

/-- Refutes O15: as with READ, the keys need not stand in order, and then the counting of the WRITE under its key enters the key a
second time. -/
theorem not_writeStoresItsBytes : ¬ Obligations.WriteStoresItsBytes := by
  intro hwrite
  obtain ⟨t, ht, _, _, _, _, _, _, _, hkeys⟩ := hwrite _ _ _ _ _ 0 0x4FF8 reaches_write (by decide +kernel) (by decide)
    (fallingNode_rawClear _) (fallingNode_canonical _) (by decide) rfl (by decide +kernel)
  exact keys_ne_of_repeatsKey repeatsKey_write ht hkeys

end Sys2Proof.Machine
end

section
/-! The obligation O16 (R227, R230). -/

namespace Sys2Proof.Machine

theorem repeatsKey_fetchAdd : repeatsKey (.fetchAdd (plainHead 24) (plainBody 8)) (fallingNode []) = true := by decide +kernel

theorem reaches_fetchAdd : Reaches (.fetchAdd (plainHead 24) (plainBody 8)) opFetchAdd (plainHead 24) 0x5000 plainConn
    (fallingNode []) := by
  refine ⟨rfl, rfl, rfl, ?_, ?_, ?_, ?_⟩ <;> decide +kernel

/-- Refutes O16: as with READ, the keys need not stand in order, and then the counting of the FETCH_ADD under its key enters the key
a second time. -/
theorem not_atomicsReadModifyWrite : ¬ Obligations.AtomicsReadModifyWrite := by
  intro hatomic
  obtain ⟨t, ht, _, _, _, _, _, _, hkeys⟩ := hatomic _ _ _ _ _ _ _ 0 0x4FF8 (Or.inl ⟨rfl, rfl⟩) reaches_fetchAdd
    (by decide +kernel) (fallingNode_rawClear _) (fallingNode_canonical _) (by decide +kernel) (by decide) (by decide)
  exact keys_ne_of_repeatsKey repeatsKey_fetchAdd ht hkeys

end Sys2Proof.Machine
end

section
/-! The obligation O17 (R231). -/

namespace Sys2Proof.Machine

theorem repeatsKey_vecAdd : repeatsKey (.vecAdd (plainHead 24) (plainBody 2)) (fallingNode []) = true := by decide +kernel

theorem reaches_vecAdd : Reaches (.vecAdd (plainHead 24) (plainBody 2)) opVecAdd (plainHead 24) 0x5000 plainConn
    (fallingNode []) := by
  refine ⟨rfl, rfl, rfl, ?_, ?_, ?_, ?_⟩ <;> decide +kernel

/-- Refutes O17: as with READ, the keys need not stand in order, and then the counting of the VEC_ADD under its key enters the key a
second time. -/
theorem not_vecAddIsAllOrNothing : ¬ Obligations.VecAddIsAllOrNothing := by
  intro hvec
  obtain ⟨hadds, -⟩ := hvec _ _ _ _ _ 0 0x4FF8 reaches_vecAdd (by decide +kernel) (fallingNode_rawClear _)
    (fallingNode_canonical _) (by decide +kernel)
  obtain ⟨t, ht, _, _, _, _, _, _, hkeys⟩ := hadds (by decide +kernel)
  exact keys_ne_of_repeatsKey repeatsKey_vecAdd ht hkeys

end Sys2Proof.Machine
end

section
/-! SUPPORT. A cache command that reaches its admission, and the completion it gets (R44, R195, R196). -/

namespace Sys2Proof.Machine

variable {i : Instr} {op op' k slot : Nat} {h : Head} {c : Conn} {s u : State} {o : Outcome}

/-- It is admitted in its row, at the instant of its last byte. -/
theorem exec_of_reaches (hreach : Reaches i op h k c s) : exec i s = .next (admitCommand i s.row (arrived s h)) := by
  obtain ⟨hi, hs, hready, hcls, harrive, hfence, hrow⟩ := hreach
  rw [exec_cacheCommand s hi, State.receive_admits _ hi hs hready hcls harrive hfence hrow]

theorem sender_of_reaches (hreach : Reaches i op h k c s) : (arrived s h).sender h = some (k, c) := by
  obtain ⟨-, hs, -⟩ := hreach
  exact hs

/-- The node serves it: this is check 1 of R196. -/
theorem serves_of_reaches (hreach : Reaches i op h k c s) : s.refusesState op = false := by
  obtain ⟨-, -, -, -, harrive, -⟩ := hreach
  unfold State.arrivalFail at harrive
  exact firstFail_eq_none.mp harrive _ (List.mem_cons_self ..)

/-- A completion from `u` is the one message since `s`, where the node has sent nothing else and its sender is still there. -/
theorem State.reply_answers_of_sender (hserves : s.refusesState op = false) (hout : u.out = s.out) (hrow : u.row = s.row)
    (hnode : u.node = s.node) (hsend : (u.sender h).isSome) : Answers s (u.reply op' h o) op' h o := by
  obtain ⟨hruns, hfault⟩ := s.serves_of_refusesState hserves
  rw [State.runs, ← hnode] at hruns
  rw [← hnode] at hfault
  rw [Answers, State.reply_out, if_pos ⟨hsend, hruns, hfault⟩, hout, hrow]

/-- A command that no other waits before takes its turn at once, where no FORK holds it up. -/
theorem State.mustWait_eq_false (hl8 : s.work.l8 = []) (hfork : op ≠ opFreeRange ∧ op ≠ opDemote ∧ op ≠ opMigrate ∨
    s.forkPending slot = false) : s.mustWait op slot = false := by
  rcases hfork with ⟨hfree, hdemote, hmigrate⟩ | hfork
  · simp [State.mustWait, hl8, hfree, hdemote, hmigrate]
  · simp [State.mustWait, hl8, hfork]

end Sys2Proof.Machine
end

section
/-! The obligation O10 (R216). -/

namespace Sys2Proof.Machine

/-- A MERGE that passes its checks enters flight, in class L8 at the end of the queue. -/
theorem admitMerge_admits {h : Head} {b : MergeBody} {r k : Nat} {c : Conn} {g : Option (Nat × SlotRec)} {s : State}
    (hs : s.sender h = some (k, c)) (hgrant : s.grant opMerge h c r = .ok g) (hfail : mergeFail s c h b g r = none) :
    ∃ cs, admitMerge h b r s = { s with work := { s.work with
      charges := cs
      cmds := Tbl.set s.work.cmds s.work.next
        { Cmd.start opMerge h (actingTenant c h) g 0 r noSeq with stage := .walked, mergeIn := some b }
      next := s.work.next + 1
      l8 := if g.isSome then s.work.l8 else s.work.l8 ++ [s.work.next] } } := by
  obtain ⟨cs, hcharge⟩ := s.charge_eq g r (b.inputs * b.qheads) 0
  refine ⟨cs, ?_⟩
  simp only [admitMerge, hs, hgrant, hfail, hcharge, State.enter]
  cases g <;> rfl

/-- Settles O10: the admission enters the command and touches nothing else that is held. -/
theorem mergeIsAdmitted : Obligations.MergeIsAdmitted := by
  intro h b k c g s hreach hgrant hfail
  obtain ⟨cs, hadmit⟩ := admitMerge_admits (sender_of_reaches hreach) hgrant hfail
  exact ⟨_, _, (exec_of_reaches hreach).trans (congrArg Host.Outcome.next hadmit), rfl, holdsSame_refl _,
    Tbl.get_set_self _ _ _, rfl, rfl, rfl, rfl, rfl⟩

end Sys2Proof.Machine
end

section
/-! SUPPORT. A slot for a new sequence and the pages of its head directory (R203). -/

namespace Sys2Proof.Machine

variable {s t : State} {layers kvHeads n p slot : Nat}

/-- Consecutive table pages. -/
def pageRun (p n : Nat) : List Nat := (List.range n).map fun i => p + i

/-- Where a run of pages is free, one is taken. -/
theorem State.grabPages_finds (hn : 0 < n) (hp : pagesFree s.cat.pages n p = true) : ∃ q, pagesFree s.cat.pages n q = true ∧
    s.grabPages n = some (pageRun q n, { s with cat := { s.cat with pages := pageRun q n ++ s.cat.pages }, fresh := s.fresh + 1 }) := by
  have hlt : p < tablePages := by
    simp only [pagesFree, Bool.and_eq_true, decide_eq_true_eq] at hp
    omega
  obtain ⟨q, hq⟩ := s.choose_finds hlt hp
  refine ⟨q, (s.choose_some (by decide) hq).1, ?_⟩
  have hchoose : s.choose tablePages (pagesFree s.cat.pages n) = (some q, { s with fresh := s.fresh + 1 }) := Prod.ext hq rfl
  simp only [State.grabPages, hchoose, Nat.pos_iff_ne_zero.mp hn, if_false]
  rfl

/-- The state in which a slot has taken a run of pages for its directory. -/
def State.withDir (s : State) (slot p n : Nat) : State :=
  { s with
    cat := { s.cat with
      pages := pageRun p n ++ s.cat.pages
      dirPages := Tbl.set s.cat.dirPages (dirKey slot) (pageRun p n)
      shadow := s.cat.shadow.map fun y => y.takeDir (dirKey slot) n }
    fresh := s.fresh + 2 }

/-- With a Closed slot and a run of pages for its directory a sequence has its place. -/
theorem State.takeSlot_finds (hslot : ∃ x < seqSlots, (s.seqAt x).state = .closed) (hn : 0 < dirPagesFor layers kvHeads)
    (hp : pagesFree s.cat.pages (dirPagesFor layers kvHeads) p = true) : ∃ slot q, slot < seqSlots ∧
      (s.seqAt slot).state = .closed ∧ pagesFree s.cat.pages (dirPagesFor layers kvHeads) q = true ∧
      s.takeSlot layers kvHeads = .ok (slot, s.withDir slot q (dirPagesFor layers kvHeads)) := by
  obtain ⟨x, hx, hclosed⟩ := hslot
  obtain ⟨slot, hslot⟩ := s.choose_finds (ok := fun k => (s.seqAt k).state = .closed) hx (decide_eq_true hclosed)
  obtain ⟨hok, hlt⟩ := s.choose_some (by decide) hslot
  have hchoose : s.choose seqSlots (fun k => (s.seqAt k).state = .closed) = (some slot, { s with fresh := s.fresh + 1 }) :=
    Prod.ext hslot rfl
  obtain ⟨q, hq, hgrab⟩ := State.grabPages_finds (s := { s with fresh := s.fresh + 1 }) hn hp
  refine ⟨slot, q, hlt, of_decide_eq_true hok, hq, ?_⟩
  simp only [State.takeSlot, hchoose, State.takePages, hgrab, Option.map_some, Nat.pos_iff_ne_zero.mp hn, if_false]
  rfl

/-- The first page of the run is the first of the directory. -/
theorem State.withDir_dirPage (slot : Nat) (hn : 0 < n) : (s.withDir slot p n).dirPage slot = p := by
  obtain ⟨m, rfl⟩ := Nat.exists_eq_succ_of_ne_zero (Nat.pos_iff_ne_zero.mp hn)
  simp [State.dirPage, State.withDir, Tbl.get_set_self, pageRun, List.range_succ_eq_map]

/-- A sequence of R203 has a head directory of at least one page. -/
theorem dirPagesFor_pos (hlayers : 1 ≤ layers) (hheads : 1 ≤ kvHeads) : 0 < dirPagesFor layers kvHeads := by
  have hmul : 1 ≤ layers * kvHeads := Nat.mul_le_mul hlayers hheads
  unfold dirPagesFor ceilDiv
  omega

end Sys2Proof.Machine
end

section
/-! The obligation O6 (R203, R205). -/

namespace Sys2Proof.Machine

variable {h : Head} {b : OpenBody} {r k : Nat} {c : Conn} {s : State}

/-- An OPEN that passes its checks has layers and KV heads. -/
theorem counts_of_openFail (hfail : openFail s c h b = none) : 1 ≤ b.layers ∧ 1 ≤ b.kvHeads := by
  unfold openFail at hfail
  have hcounts := firstSome_eq_none.mp hfail (failIf (!(1 ≤ b.layers && b.layers ≤ 256 && 1 ≤ b.kvHeads && b.kvHeads ≤ 64))
    (Outcome.shape h 0x1)) (by simp)
  simp [failIf] at hcounts
  omega

/-- The entry of the sequence that an OPEN makes. -/
def openedBy (s : State) (c : Conn) (h : Head) (b : OpenBody) (slot dir : Nat) : Seq :=
  (s.seqAt slot).opened h.model (if b.library then 0xFFF else actingTenant c h) b.format b.d b.layers b.kvHeads b dir s.row

/-- An OPEN that passes its checks and finds its place opens it and completes. -/
theorem admitOpen_opens {p : Nat} (hs : s.sender h = some (k, c)) (hfail : openFail s c h b = none) (hl8 : s.work.l8 = [])
    (hslot : ∃ x < seqSlots, (s.seqAt x).state = .closed)
    (hp : pagesFree s.cat.pages (dirPagesFor b.layers b.kvHeads) p = true) : ∃ slot q, slot < seqSlots ∧
      (s.seqAt slot).state = .closed ∧ pagesFree s.cat.pages (dirPagesFor b.layers b.kvHeads) q = true ∧
      admitOpen h b r s = ((s.withDir slot q (dirPagesFor b.layers b.kvHeads)).setSeq slot (openedBy s c h b slot q)).reply opOpen h
        { Outcome.good h .none with handle := handleOf slot (openedBy s c h b slot q) } := by
  obtain ⟨hlayers, hheads⟩ := counts_of_openFail hfail
  have hn := dirPagesFor_pos hlayers hheads
  obtain ⟨slot, q, hlt, hclosed, hq, htake⟩ := State.takeSlot_finds hslot hn hp
  refine ⟨slot, q, hlt, hclosed, hq, ?_⟩
  simp only [admitOpen, hs, hfail, State.mustWait_eq_false (op := opOpen) hl8 (Or.inl (by decide)), htake, State.withDir_dirPage slot hn,
    Bool.false_eq_true, if_false]
  rfl

/-- A CLOSE that passes its checks takes the sequence to Closing and completes. -/
theorem admitClose_closes (hs : s.sender h = some (k, c)) (hfail : closeFail s c h = none) (hl8 : s.work.l8 = []) :
    admitClose h r s = (s.setSeq (handleSlot h.handle) { s.seqAt (handleSlot h.handle) with state := .closing }).reply opClose h
      (Outcome.good h .none) := by
  simp only [admitClose, hs, hfail, State.mustWait_eq_false (op := opClose) hl8 (Or.inl (by decide)), Bool.false_eq_true, if_false]

/-- A completion leaves every sequence, and the leaves, keys and memory. -/
theorem OnlyOut.seqAt {s t : State} (hout : OnlyOut s t) (x : Nat) : t.seqAt x = s.seqAt x := by
  obtain ⟨hseqs, -⟩ := hout.holdsSame
  rw [State.seqAt, State.seqAt, hseqs]

theorem OnlyOut.leavesSame {s t : State} (hout : OnlyOut s t) : LeavesSame s t := by
  obtain ⟨-, hrest⟩ := hout.holdsSame
  exact hrest

/-- Settles O6: each command writes one sequence's entry, OPEN after taking its place, and completes. -/
theorem openAndCloseComplete : Obligations.OpenAndCloseComplete := by
  refine ⟨fun h b k c s hreach hfail hl8 hslot hp => ?opens, fun h k c s hreach hfail hl8 => ?closes⟩
  case opens =>
    obtain ⟨p, hp⟩ := hp
    have hs := sender_of_reaches hreach
    obtain ⟨slot, q, hlt, hclosed, hq, hadmit⟩ := admitOpen_opens (r := s.row) hs hfail hl8 hslot hp
    have hsent := OnlyOut.reply (((arrived s h).withDir slot q (dirPagesFor b.layers b.kvHeads)).setSeq slot
      (openedBy (arrived s h) c h b slot q)) opOpen h
      { Outcome.good h .none with handle := handleOf slot (openedBy (arrived s h) c h b slot q) }
    have hentry := (hsent.seqAt slot).trans (State.seqAt_setSeq_self _ _ _)
    refine ⟨_, slot, (exec_of_reaches hreach).trans (congrArg Host.Outcome.next hadmit), hlt, hclosed, ?_,
      fun x hx => (hsent.seqAt x).trans (State.seqAt_setSeq_ne _ _ hx), hsent.leavesSame⟩
    rw [hentry]
    exact ⟨rfl, rfl, rfl, rfl, rfl, rfl, rfl, rfl, rfl, rfl, rfl, rfl, rfl, rfl, rfl, rfl,
      ⟨q, hq, rfl, congrArg Cat.pages hsent.cat⟩,
      State.reply_answers_of_sender (serves_of_reaches hreach) rfl rfl rfl (Option.isSome_of_eq_some hs)⟩
  case closes =>
    have hs := sender_of_reaches hreach
    have hsent := OnlyOut.reply ((arrived s h).setSeq (handleSlot h.handle)
      { s.seqAt (handleSlot h.handle) with state := .closing }) opClose h (Outcome.good h .none)
    exact ⟨_, (exec_of_reaches hreach).trans (congrArg Host.Outcome.next (admitClose_closes hs hfail hl8)),
      State.reply_answers_of_sender (serves_of_reaches hreach) rfl rfl rfl (Option.isSome_of_eq_some hs),
      (hsent.seqAt _).trans (State.seqAt_setSeq_self _ _ _),
      fun x hx => (hsent.seqAt x).trans (State.seqAt_setSeq_ne _ _ hx), hsent.leavesSame⟩

end Sys2Proof.Machine
end

section
/-! SUPPORT. Error of a queue pair leaves what the node holds, and what has been sent (Table 12-5). -/

namespace Sys2Proof.Machine

variable {s : State}

theorem State.qpError_holdsSame (s : State) (k cause : Nat) : HoldsSame s (s.qpError k cause) := by
  unfold State.qpError
  split
  · exact holdsSame_refl s
  · split
    · have hconn : HoldsSame s (s.setConn k fun c => { c with state := .error, cause := cause, since := s.row }) := holdsSame_refl s
      exact holdsSame_trans (holdsSame_trans hconn ((OnlyOut.count _ _ _).trans (OnlyOut.send _ _)).holdsSame)
        (OnlyOut.dropWaiting _ _ _).holdsSame
    · exact holdsSame_refl s

theorem State.qpError_sent {m : Sent} (k cause : Nat) (h : m ∈ s.out) : m ∈ (s.qpError k cause).out := by
  unfold State.qpError
  split
  · exact h
  · split
    · exact State.dropWaiting_sent _ _ (State.send_mem_out h)
    · exact h

end Sys2Proof.Machine
end

section
/-! The obligation O18 (R199). -/

namespace Sys2Proof.Machine

variable {i : Instr} {op k : Nat} {h : Head} {b : RawBody} {c : Conn} {s : State} {o : Outcome}

/-- The raw commands, each with its opcode. -/
def IsRaw (i : Instr) (op : Nat) (h : Head) (b : RawBody) : Prop :=
  (i = .readMem h b ∧ op = opRead) ∨ (i = .writeMem h b ∧ op = opWrite) ∨ (i = .fetchAdd h b ∧ op = opFetchAdd) ∨
    (i = .cmpSwap h b ∧ op = opCmpSwap) ∨ (i = .vecAdd h b ∧ op = opVecAdd)

theorem admitCommand_raw (hraw : IsRaw i op h b) (r : Nat) (s : State) : admitCommand i r s = admitRaw op h b r s := by
  rcases hraw with ⟨rfl, rfl⟩ | ⟨rfl, rfl⟩ | ⟨rfl, rfl⟩ | ⟨rfl, rfl⟩ | ⟨rfl, rfl⟩ <;> rfl

/-- One that its checks refuse completes; where its key is Revoking its queue pair then enters Error (R326). -/
theorem admitRaw_refused {r : Nat} (hs : s.sender h = some (k, c)) (hcheck : rawCheck op s c h b = .error o) :
    admitRaw op h b r s = if o.status = .revoked then (s.reply op h o).qpError k 2 else s.reply op h o := by
  simp only [admitRaw, hs, hcheck]

/-- Settles O18: the answer is a completion, and the Error of a queue pair holds on to everything. -/
theorem refusedRawCommandsChangeNothing : Obligations.RefusedRawCommandsChangeNothing := by
  intro i op h b k c s o hraw hreach hcheck
  have hs := sender_of_reaches hreach
  have hheld : HoldsSame s ((arrived s h).reply op h o) := (OnlyOut.reply (arrived s h) op h o).holdsSame
  have hanswers : Answers s ((arrived s h).reply op h o) op h o :=
    State.reply_answers_of_sender (serves_of_reaches hreach) rfl rfl rfl (Option.isSome_of_eq_some hs)
  have hsent : Sent.completion h.qp h.srcNode h.srcQp h.tag op (s.row % 65536) o ∈ ((arrived s h).reply op h o).out := by
    rw [hanswers]
    exact List.mem_append_right _ (List.mem_singleton_self _)
  refine ⟨_, (exec_of_reaches hreach).trans (congrArg Host.Outcome.next
    ((admitCommand_raw hraw _ _).trans (admitRaw_refused hs hcheck))), ?_⟩
  split
  · exact ⟨holdsSame_trans hheld (State.qpError_holdsSame _ _ _), State.qpError_sent _ _ hsent⟩
  · exact ⟨hheld, hsent⟩

end Sys2Proof.Machine
end

section
/-! SUPPORT. Walks, the last use of leaves, and requests for moves: each changes one thing (R67, R75, R253). -/

namespace Sys2Proof.Machine

variable {s t u : State}

/-- `t` is `s` after some walks: the CLB and what is free to choose have changed. -/
def OnlyWalked (s t : State) : Prop := ∃ clb fresh, t = { s with cat := { s.cat with clb := clb }, fresh := fresh }

namespace OnlyWalked

theorem refl (s : State) : OnlyWalked s s := ⟨_, _, rfl⟩

theorem trans (a : OnlyWalked s t) (b : OnlyWalked t u) : OnlyWalked s u := by
  obtain ⟨_, _, rfl⟩ := a
  obtain ⟨clb, fresh, rfl⟩ := b
  exact ⟨clb, fresh, rfl⟩

theorem foldl {α : Type} {f : State → α → State} (h : ∀ s x, OnlyWalked s (f s x)) (l : List α) (s : State) :
    OnlyWalked s (l.foldl f s) := foldl_keeps (P := OnlyWalked s) (fun t x ht => ht.trans (h t x)) l (refl s)

theorem card (h : OnlyWalked s t) (n : Nat) : t.card n = s.card n := by
  obtain ⟨_, _, rfl⟩ := h
  rfl

theorem leavingStacks (h : OnlyWalked s t) (n : Nat) : t.leavingStacks n = s.leavingStacks n := by
  obtain ⟨_, _, rfl⟩ := h
  rfl

theorem runningMove (h : OnlyWalked s t) (n : Nat) : t.runningMove n = s.runningMove n := by
  obtain ⟨_, _, rfl⟩ := h
  rfl

theorem lookUpTags (s : State) (walker : Nat) (tags : List Nat) : OnlyWalked s (s.lookUpTags walker tags).2 := by
  refine List.foldlRecOn (motive := fun x : Bool × State => OnlyWalked s x.2) _ _ (refl s) fun x hx tag _ => hx.trans ?_
  unfold State.clbLookup
  split
  · exact refl _
  · exact ⟨_, _, rfl⟩

theorem lookUp (s : State) (slot layer head : Nat) (spans : List Nat) : OnlyWalked s (s.lookUp slot layer head spans).2 :=
  lookUpTags s _ _

theorem lookBlocks (s : State) (slot layer head : Nat) (blocks : List Nat) : OnlyWalked s (s.lookBlocks slot layer head blocks) :=
  State.lookBlocks_eq s slot layer head blocks

theorem walkHeads (s : State) (slot : Nat) (blocks : List Nat) : OnlyWalked s (s.walkHeads slot blocks) :=
  foldl (fun s _ => lookBlocks s _ _ _ _) _ s

theorem forkWalk (s : State) (slot fp : Nat) : OnlyWalked s (s.forkWalk slot fp) := foldl (fun s _ => lookBlocks s _ _ _ _) _ s

theorem rangeWalk (s : State) (slot : Nat) (b : RangeBody) : OnlyWalked s (s.rangeWalk slot b) :=
  foldl (fun s _ => lookBlocks s _ _ _ _) _ s

end OnlyWalked

/-- `t` is `s` but for the moves that are queued. -/
def OnlyAsked (s t : State) : Prop := ∃ m, t = { s with mover := m }

namespace OnlyAsked

theorem refl (s : State) : OnlyAsked s s := ⟨_, rfl⟩

theorem trans (a : OnlyAsked s t) (b : OnlyAsked t u) : OnlyAsked s u := by
  obtain ⟨_, rfl⟩ := a
  obtain ⟨m, rfl⟩ := b
  exact ⟨m, rfl⟩

theorem foldl {α : Type} {f : State → α → State} (h : ∀ s x, OnlyAsked s (f s x)) (l : List α) (s : State) :
    OnlyAsked s (l.foldl f s) := foldl_keeps (P := OnlyAsked s) (fun t x ht => ht.trans (h t x)) l (refl s)

theorem prefetchLeaf (s : State) (cards : List Nat) : OnlyAsked s (s.prefetchLeaf cards) := by
  unfold State.prefetchLeaf
  extract_lets away
  split
  · exact refl s
  · exact ⟨_, rfl⟩

theorem prefetch (s : State) (slot : Nat) (b : AttnBody) : OnlyAsked s (s.prefetch slot b) := by
  refine foldl (fun s _ => foldl (fun s _ => foldl (fun s _ => ?_) _ s) _ s) _ s
  split
  · exact prefetchLeaf s _
  · exact refl s

theorem askMove (s : State) (cards : List Nat) (cls : MoveClass) (dest : Dest) : OnlyAsked s (s.askMove cards cls dest).2 := by
  unfold State.askMove
  extract_lets same
  rcases same with _ | ⟨m, mv⟩
  · exact ⟨_, rfl⟩
  · dsimp only
    split
    · exact ⟨_, rfl⟩
    · exact refl s

end OnlyAsked

/-- The cards after some leaves were used in a row. -/
def usedCards (cards : Tbl Card) (row : Nat) (l : List Nat) : Tbl Card :=
  l.foldl (fun t n => Tbl.modify t n fun c => { c with lastUse := row48 row }) cards

theorem State.useCards_eq (s : State) (l : List Nat) :
    s.useCards l = { s with cat := { s.cat with cards := usedCards s.cat.cards s.row l } } := by
  induction l generalizing s with
  | nil => rfl
  | cons n l ih => exact ih (s.setCard n _)

end Sys2Proof.Machine
end

section
/-! The obligation O9 (R211, R215, R67). -/

namespace Sys2Proof.Machine

variable {op r k : Nat} {h : Head} {b : AttnBody} {c : Conn} {g : Option (Nat × SlotRec)} {plan : AttnPlan} {s : State}

/-- An attention command as it enters flight after its walk. -/
def attnCmd (s : State) (op : Nat) (c : Conn) (h : Head) (b : AttnBody) (g : Option (Nat × SlotRec)) (r : Nat)
    (plan : AttnPlan) (vs : List Visit) (missed : Bool) : Cmd :=
  { Cmd.start op h (actingTenant c h) g plan.program r (handleSlot h.handle) with
    stage := if missed then .walking else .walked
    attn := some b
    visits := vs
    lookups := plan.spans.length * (s.seqAt (handleSlot h.handle)).halves
    key := plan.key.map Prod.fst
    work := (vs.filter fun v => v.lender.isNone).length *
      (if op = opGrad then ceilDiv (b.qcount * b.qheads) 64 else b.qcount)
    subs := s.loanGroups (handleSlot h.handle) b vs }

/-- What entering flight leaves of a state, and what it makes of it. -/
structure AttnEntered (s t : State) (m : Cmd) (g : Option (Nat × SlotRec)) (vs : List Visit) : Prop where
  out : t.out = s.out
  mem : t.mem = s.mem
  leaves : t.cat.leaves = s.cat.leaves
  cards : t.cat.cards = usedCards s.cat.cards s.row (vs.flatMap Visit.cards)
  cmd : t.cmd s.work.next = some m
  l8 : t.work.l8 = if g.isSome then s.work.l8 else s.work.l8 ++ [s.work.next]

theorem State.sampleWalk_out (s : State) (w : Nat) : (s.sampleWalk w).out = s.out := State.sample_out _ _ _ _

theorem State.enterAttn_enters (s : State) (op : Nat) (c : Conn) (h : Head) (b : AttnBody) (g : Option (Nat × SlotRec)) (r : Nat)
    (plan : AttnPlan) (vs : List Visit) (missed : Bool) :
    AttnEntered s (s.enterAttn op c h b g r plan vs missed) (attnCmd s op c h b g r plan vs missed) g vs := by
  unfold State.enterAttn
  extract_lets slot q n started cmd entered sampled _ keyed used
  have hsampled : OnlyOut entered sampled := by
    unfold sampled
    split
    · exact OnlyOut.refl _
    · exact OnlyOut.sampleWalk _ _
  have hout : sampled.out = s.out := by
    unfold sampled
    split
    · rfl
    · exact State.sampleWalk_out _ _
  obtain ⟨x, hkeyed⟩ : ∃ x, keyed = { sampled with xport := x } := by
    unfold keyed
    split <;> exact ⟨_, rfl⟩
  obtain ⟨-, hleaves, hcards, hmem, -⟩ := hsampled.holdsSame
  have hused : used.out = s.out ∧ used.mem = s.mem ∧ used.cat.leaves = s.cat.leaves ∧
      used.cat.cards = usedCards s.cat.cards s.row (vs.flatMap Visit.cards) ∧ used.work = entered.work := by
    simp only [used, State.useCards_eq, hkeyed]
    exact ⟨hout, hmem, hleaves, congrArg₂ (usedCards · · _) hcards (congrArg Clock.row hsampled.clock), hsampled.work⟩
  clear_value used
  obtain ⟨hsent, hbytes, hmarks, hlast, hwork⟩ := hused
  have hcmd : Tbl.get used.work.cmds s.work.next = some cmd := by
    rw [hwork]
    exact Tbl.get_set_self _ _ _
  have hl8 : used.work.l8 = s.work.l8 := by rw [hwork]; rfl
  cases g with
  | none => exact ⟨hsent, hbytes, hmarks, hlast, hcmd, congrArg (· ++ [n]) hl8⟩
  | some x =>
    obtain ⟨m, hasked⟩ := OnlyAsked.prefetch used slot b
    dsimp only
    rw [hasked]
    exact ⟨hsent, hbytes, hmarks, hlast, hcmd, hl8⟩

/-- The state after an attention command's walk: its slot charged, the bytes of its sums counted, its spans in the CLB. -/
def State.attnWalked (s : State) (cs : List Charge) (gradBytes : Nat) (clb : List ClbEntry) (fresh : Nat) : State :=
  { s with work := { s.work with charges := cs, gradBytes := gradBytes }, cat := { s.cat with clb := clb }, fresh := fresh }

/-- An attention command enters flight after its walk. -/
theorem admitAttn_enters (hs : s.sender h = some (k, c)) (hgrant : s.grant op h c r = .ok g)
    (hcheck : attnCheck s c op h b g r = .ok plan) (hwait : g = none → s.changeWaits (handleSlot h.handle) = false)
    (hdamaged : (s.seqAt (handleSlot h.handle)).damaged = false)
    (hwalk : s.walkStatus h b.layer b.head (s.visits (handleSlot h.handle) b.layer b.head plan.blocks)
      (grantClass g = .l2 || op = opGrad) = none) : ∃ cs n clb fresh missed,
      admitAttn op h b r s = (s.attnWalked cs n clb fresh).enterAttn op c h b g r plan
        (s.visits (handleSlot h.handle) b.layer b.head plan.blocks) missed := by
  have hturn : (g.isNone && s.changeWaits (handleSlot h.handle)) = false := by
    cases g with
    | none => exact hwait rfl
    | some x => rfl
  obtain ⟨cs, hcharge⟩ := s.charge_eq g r plan.leaves (plan.spans.length * (s.seqAt (handleSlot h.handle)).halves)
  unfold admitAttn
  simp -zeta only [hs, hgrant, hcheck]
  extract_lets slot q charged _ summed missed vs
  obtain ⟨n, hsummed⟩ : ∃ n, summed = s.attnWalked cs n s.cat.clb s.fresh := by
    have hcharged : charged = { s with work := { s.work with charges := cs } } := hcharge
    clear_value charged
    subst hcharged
    simp only [summed]
    split <;> exact ⟨_, rfl⟩
  obtain ⟨clb, fresh, hlook⟩ := OnlyWalked.lookUp summed slot b.layer b.head plan.spans
  have hwalked : (summed.lookUp slot b.layer b.head plan.spans).2 = s.attnWalked cs n clb fresh := by
    rw [hlook, hsummed]
    rfl
  have hvs : vs = s.visits slot b.layer b.head plan.blocks := by
    simp only [vs, hwalked]
    rfl
  have hserved : (s.attnWalked cs n clb fresh).walkStatus h b.layer b.head vs (grantClass g = .l2 || op = opGrad) = none :=
    hvs ▸ hwalk
  refine ⟨cs, n, clb, fresh, missed, ?_⟩
  rw [hturn, hwalked, hserved, hvs]
  simp only [q, slot, hdamaged, Bool.false_eq_true, if_false, failIf, firstSome_none, firstSome_nil]

/-- Settles O9: before the command enters flight only the CLB, the charges and what is free to choose change, and its entering
uses the leaves. -/
theorem attentionIsAdmitted : Obligations.AttentionIsAdmitted := by
  intro i op h b k c g plan s hattn hreach hgrant hcheck hdamaged hwait hwalk
  have hadmitted : admitCommand i s.row (arrived s h) = admitAttn op h b s.row (arrived s h) := by
    rcases hattn with ⟨rfl, rfl⟩ | ⟨rfl, rfl⟩ | ⟨rfl, rfl⟩ <;> rfl
  obtain ⟨cs, n, clb, fresh, missed, hadmit⟩ := admitAttn_enters (s := arrived s h) (sender_of_reaches hreach) hgrant hcheck hwait
    hdamaged hwalk
  rw [exec_of_reaches hreach, hadmitted, hadmit]
  obtain ⟨hout, hmem, hleaves, hcards, hcmd, hl8⟩ := State.enterAttn_enters ((arrived s h).attnWalked cs n clb fresh)
    op c h b g s.row plan (s.visits (handleSlot h.handle) b.layer b.head plan.blocks) missed
  exact ⟨_, _, rfl, hout, hmem, hleaves, hcards.trans (congrArg (fun t : State => t.cat.cards) (s.useCards_eq _)).symm, hcmd, rfl, rfl,
    rfl, rfl, rfl, rfl, rfl, hl8⟩

end Sys2Proof.Machine
end

section
/-! SUPPORT. What taking references and copies of leaves leaves: every sequence, and all but the catalogue and memory (R82, R83). -/

namespace Sys2Proof.Machine

variable {s t u : State}

/-- `t` is `s` but for the catalogue, where the sequences are the same, memory, and what is free to choose. -/
structure OnlyLinked (s t : State) : Prop where
  rest : t = { s with mem := t.mem, poison := t.poison, cat := t.cat, fresh := t.fresh }
  seqs : t.cat.seqs = s.cat.seqs

namespace OnlyLinked

theorem refl (s : State) : OnlyLinked s s := ⟨rfl, rfl⟩

theorem trans (a : OnlyLinked s t) (b : OnlyLinked t u) : OnlyLinked s u :=
  ⟨b.rest.trans (congrArg (fun v : State => { v with mem := u.mem, poison := u.poison, cat := u.cat, fresh := u.fresh }) a.rest),
    b.seqs.trans a.seqs⟩

theorem foldl {α : Type} {f : State → α → State} (h : ∀ s x, OnlyLinked s (f s x)) (l : List α) (s : State) :
    OnlyLinked s (l.foldl f s) := foldl_keeps (P := OnlyLinked s) (fun t x ht => ht.trans (h t x)) l (refl s)

theorem of_taken (h : OnlyTaken s t) : OnlyLinked s t :=
  ⟨h.rest.trans (congrArg₂ (fun m p => { s with mem := m, poison := p, cat := t.cat, fresh := t.fresh }) h.mem.symm h.poison.symm),
    h.seqs⟩

theorem of_walked (h : OnlyWalked s t) : OnlyLinked s t := by
  obtain ⟨_, _, rfl⟩ := h
  exact ⟨rfl, rfl⟩

theorem seqAt (h : OnlyLinked s t) (x : Nat) : t.seqAt x = s.seqAt x := by rw [State.seqAt, State.seqAt, h.seqs]

theorem out (h : OnlyLinked s t) : t.out = s.out := by rw [h.rest]

theorem row (h : OnlyLinked s t) : t.row = s.row := by rw [h.rest]; rfl

theorem node (h : OnlyLinked s t) : t.node = s.node := by rw [h.rest]

theorem xport (h : OnlyLinked s t) : t.xport = s.xport := by rw [h.rest]

theorem sender (h : OnlyLinked s t) (x : Head) : t.sender x = s.sender x := by rw [h.rest]; rfl

/-! ## References and copies -/

theorem share (s : State) (n : Nat) : OnlyLinked s (s.share n) := ⟨rfl, rfl⟩

theorem changeCard (s : State) (n : Nat) (f : Card → Card) : OnlyLinked s (s.changeCard n f) := by
  unfold State.changeCard
  split
  · split <;> exact ⟨rfl, rfl⟩
  · exact refl s

theorem copyLeaf (s : State) (src dst : HalfLoc) (fmt d : Nat) : OnlyLinked s (s.copyLeaf src dst fmt d) := by
  unfold State.copyLeaf State.putLeaf
  extract_lets e u
  have hu : OnlyLinked s u := by
    refine foldl (fun s p => ?_) _ s
    constructor <;> rfl
  split
  · exact hu.trans ⟨rfl, rfl⟩
  · exact hu

theorem copyHalves {handle : Nat} {l : List (Nat × Card × HalfLoc × HalfLoc)} :
    ∀ {s t : State} {ms : List Nat}, s.copyHalves handle l = .ok (ms, t) → OnlyLinked s t := by
  induction l with
  | nil =>
    intro s t ms h
    cases h
    exact refl s
  | cons x l ih =>
    obtain ⟨n, c, src, dst⟩ := x
    intro s t ms h
    unfold State.copyHalves at h
    split at h
    · cases h
    · rename_i hcard
      extract_lets u at h
      split at h
      · rename_i hrest
        cases h
        exact (((of_taken (OnlyTaken.takeCard hcard)).trans (copyLeaf _ src dst c.format c.d)).trans (changeCard _ n _)).trans (ih hrest)
      · cases h

theorem takeRef {handle : Nat} {ns ms : List Nat} (h : s.takeRef handle ns = .ok (ms, t)) : OnlyLinked s t := by
  unfold State.takeRef at h
  split at h
  · cases h
  split at h
  · cases h
  split at h
  · cases h
    exact foldl share ns s
  split at h
  · cases h
    exact foldl share ms s
  split at h
  · split at h
    · cases h
    split at h
    · rename_i hleaf
      exact (of_taken (OnlyTaken.takeLeaf hleaf)).trans (copyHalves h)
    · cases h
  · cases h

theorem putCards (s : State) (slot layer head block : Nat) (cards : List Nat) :
    OnlyLinked s (s.putCards slot layer head block cards) := of_taken (OnlyTaken.putCards _ _ _ _ _ _)

theorem forkHalves {handle tenant valid : Nat} {q : Seq} {l : List (Card × HalfLoc × HalfLoc)} :
    ∀ {s t : State} {ms : List Nat}, s.forkHalves handle tenant valid q l = some (ms, t) → OnlyLinked s t := by
  induction l with
  | nil =>
    intro s t ms h
    cases h
    exact refl s
  | cons x l ih =>
    obtain ⟨c, src, dst⟩ := x
    intro s t ms h
    unfold State.forkHalves at h
    split at h
    · cases h
    · rename_i hcard
      obtain ⟨⟨_, _⟩, hrest, h⟩ := Option.map_eq_some_iff.mp h
      obtain ⟨-, rfl⟩ := Prod.mk.inj h
      exact ((of_taken (OnlyTaken.takeCard hcard)).trans (copyLeaf _ src dst c.format c.d)).trans (ih hrest)

/-- The leaves of a FORK, shared or copied, stand under the new slot. -/
theorem forkInto {slot handle tenant fp : Nat} {q : Seq} {l : List (Nat × Nat × Nat × List Nat)} :
    ∀ {s t : State}, s.forkInto slot handle tenant fp q l = .ok t → OnlyLinked s t := by
  induction l with
  | nil =>
    intro s t h
    cases h
    exact refl s
  | cons x l ih =>
    obtain ⟨layer, hd, b, cs⟩ := x
    intro s t h
    unfold State.forkInto at h
    split at h
    · split at h
      · cases h
      · rename_i href
        exact ((takeRef href).trans (putCards _ _ _ _ _ _)).trans (ih h)
    · split at h
      · cases h
      split at h
      · cases h
      split at h
      · cases h
      · rename_i hleaf
        split at h
        · cases h
        · rename_i hhalves
          exact (((of_taken (OnlyTaken.takeLeaf hleaf)).trans (forkHalves hhalves)).trans (putCards _ _ _ _ _ _)).trans (ih h)

/-! ## A new sequence's place -/

theorem takePages {slot n : Nat} (h : s.takePages slot n = some t) : OnlyLinked s t := by
  obtain ⟨⟨ps, u⟩, hgrab, rfl⟩ := Option.map_eq_some_iff.mp h
  refine (of_taken (OnlyTaken.grabPages hgrab)).trans ?_
  dsimp only
  split
  · exact refl _
  · exact ⟨rfl, rfl⟩

/-- The slot was Closed. -/
theorem takeSlot {layers kvHeads slot : Nat} (h : s.takeSlot layers kvHeads = .ok (slot, t)) :
    OnlyLinked s t ∧ (s.seqAt slot).state = .closed := by
  unfold State.takeSlot at h
  split at h
  · cases h
  · rename_i k u hchoose
    obtain ⟨hk, rfl⟩ := Prod.mk.inj hchoose
    split at h
    · cases h
    · rename_i hpages
      cases h
      exact ⟨(⟨rfl, rfl⟩ : OnlyLinked s { s with fresh := s.fresh + 1 }).trans (takePages hpages),
        of_decide_eq_true (firstFrom_some (by decide) hk).1⟩

end OnlyLinked

end Sys2Proof.Machine
end

section
/-! The obligation O7 (R206, R207). -/

namespace Sys2Proof.Machine

variable {h : Head} {b : OpenBody} {r k tenant : Nat} {c : Conn} {s : State}

/-- A FORK that takes effect opened its entry in a Closed slot and then only took references and copies. -/
theorem State.doFork_ok (hok : (s.doFork h tenant b).1.status = .ok) : ∃ slot dir row t u new,
    OnlyLinked s t ∧ (s.seqAt slot).state = .closed ∧
      new = { (t.seqAt slot).opened (s.seqAt (handleSlot h.handle)).model (if b.library then 0xFFF else tenant)
        (s.seqAt (handleSlot h.handle)).format (s.seqAt (handleSlot h.handle)).d (s.seqAt (handleSlot h.handle)).layers
        (s.seqAt (handleSlot h.handle)).kvHeads b dir row with length := min (s.seqAt (handleSlot h.handle)).length b.forkPosition } ∧
      OnlyLinked (t.setSeq slot new) u ∧
      s.doFork h tenant b = ({ Outcome.good h .none with handle := handleOf slot new }, u) := by
  revert hok
  unfold State.doFork
  extract_lets src q fp walked blocks isLost lost away fit
  have hwalked : OnlyLinked s walked := OnlyLinked.of_walked (OnlyWalked.forkWalk s src fp)
  split
  · exact fun hok => nomatch hok
  split
  · exact fun hok => nomatch hok
  rename_i slot t hslot
  obtain ⟨htaken, hclosed⟩ := OnlyLinked.takeSlot hslot
  split
  · exact fun hok => nomatch hok
  extract_lets old new u handle late
  split
  · exact fun hok => nomatch hok
  split
  · exact fun hok => nomatch hok
  split
  · exact fun hok => nomatch hok
  split
  · rename_i v hinto
    intro _
    exact ⟨slot, _, _, t, v, new, hwalked.trans htaken, (congrArg Seq.state (hwalked.seqAt slot)).symm.trans hclosed, rfl,
      OnlyLinked.forkInto hinto, rfl⟩
  · extract_lets left
    split <;> exact fun hok => nomatch hok

/-- Settles O7: the entry that is written is the new one alone, and the leaves it shares or copies change no entry. -/
theorem forkCompletes : Obligations.ForkCompletes := by
  intro h b k c s hreach hfail hl8 hwaits hok
  have hs := sender_of_reaches hreach
  obtain ⟨slot, dir, row, t, u, new, htaken, hclosed, hnew, hlinked, hfork⟩ := State.doFork_ok hok
  have hadmit : admitCommand (.fork h b) s.row (arrived s h) =
      u.reply opFork h { Outcome.good h .none with handle := handleOf slot new } := by
    simp only [admitCommand, admitFork, hs, hfail, State.mustWait_eq_false (op := opFork) (s := arrived s h) hl8 (Or.inl (by decide)),
      hwaits, Bool.false_eq_true, if_false, hfork]
  have hsent := OnlyOut.reply u opFork h { Outcome.good h .none with handle := handleOf slot new }
  have hentry : (u.reply opFork h { Outcome.good h .none with handle := handleOf slot new }).seqAt slot = new :=
    ((hsent.seqAt slot).trans (hlinked.seqAt slot)).trans (State.seqAt_setSeq_self _ _ _)
  refine ⟨_, _, slot, (exec_of_reaches hreach).trans (congrArg Host.Outcome.next hadmit),
    State.reply_answers_of_sender (serves_of_reaches hreach) (hlinked.out.trans htaken.out) (hlinked.row.trans htaken.row)
      (hlinked.node.trans htaken.node) ?_, rfl, ?_, hclosed, fun x hx => ?_⟩
  · have hstays : u.sender h = t.sender h := hlinked.sender h
    rw [hstays, htaken.sender, hs]
    rfl
  · rw [hentry, hnew]
    exact ⟨rfl, rfl, rfl, rfl, rfl, rfl, rfl, rfl, rfl, rfl, rfl⟩
  · exact (((hsent.seqAt x).trans (hlinked.seqAt x)).trans (State.seqAt_setSeq_ne _ _ hx)).trans (htaken.seqAt x)

end Sys2Proof.Machine
end

section
/-! SUPPORT. Range commands: what they change of cards, and how they end (R222 to R225). -/

namespace Sys2Proof.Machine

variable {s t u : State} {op r k slot : Nat} {h : Head} {b : RangeBody} {c : Conn}

/-! ## Cards -/

theorem State.card_setCard (s : State) (n m : Nat) (f : Card → Card) :
    (s.setCard n f).card m = if m = n then (s.card m).map f else s.card m := by
  rw [State.card, State.setCard_cat]
  refine (Tbl.get_modify _ _ _ _).trans ?_
  split
  · rename_i e
    rw [e]
    rfl
  · rfl

/-- A change that is made of some cards of a list, by a test that it does not touch, and whose repetition changes nothing. -/
theorem State.card_foldl_setCard {p : State → Nat → Bool} {f : Card → Card} (hp : ∀ s n k, p (s.setCard k f) n = p s n)
    (hf : ∀ x, f (f x) = f x) (l : List Nat) (s : State) (m : Nat) :
    (l.foldl (fun s n => if p s n then s else s.setCard n f) s).card m =
      if m ∈ l ∧ p s m = false then (s.card m).map f else s.card m := by
  induction l generalizing s with
  | nil => simp
  | cons n l ih =>
    rw [List.foldl_cons, ih]
    cases hn : p s n with
    | true =>
      by_cases hm : m = n
      · simp [hm, hn]
      · simp [hm]
    | false =>
      simp only [Bool.false_eq_true, if_false, hp, State.card_setCard]
      by_cases hm : m = n
      · subst hm
        have hff : f ∘ f = f := funext hf
        simp [hn, hff]
      · simp [hm]

/-- `t` is `s` but for its cards and the moves that are queued. -/
def OnlyMarked (s t : State) : Prop := ∃ cards m, t = { s with cat := { s.cat with cards := cards }, mover := m }

namespace OnlyMarked

theorem refl (s : State) : OnlyMarked s s := ⟨_, _, rfl⟩

theorem trans (a : OnlyMarked s t) (b : OnlyMarked t u) : OnlyMarked s u := by
  obtain ⟨_, _, rfl⟩ := a
  obtain ⟨cards, m, rfl⟩ := b
  exact ⟨cards, m, rfl⟩

theorem foldl {α : Type} {f : State → α → State} (h : ∀ s x, OnlyMarked s (f s x)) (l : List α) (s : State) :
    OnlyMarked s (l.foldl f s) := foldl_keeps (P := OnlyMarked s) (fun t x ht => ht.trans (h t x)) l (refl s)

theorem setCard (s : State) (n : Nat) (f : Card → Card) : OnlyMarked s (s.setCard n f) := ⟨_, _, rfl⟩

theorem of_asked (h : OnlyAsked s t) : OnlyMarked s t := by
  obtain ⟨m, rfl⟩ := h
  exact ⟨_, m, rfl⟩

end OnlyMarked

/-! ## Admission -/

/-- The range commands, each with its opcode. -/
def IsRange (i : Instr) (op : Nat) (h : Head) (b : RangeBody) : Prop :=
  (i = .pin h b ∧ op = opPin) ∨ (i = .unpin h b ∧ op = opUnpin) ∨ (i = .promote h b ∧ op = opPromote) ∨
    (i = .demote h b ∧ op = opDemote) ∨ (i = .migrate h b ∧ op = opMigrate) ∨ (i = .freeRange h b ∧ op = opFreeRange)

/-- One that passes its checks, and that nothing waits before, does its work after its walk. -/
theorem exec_range {i : Instr} (hrange : IsRange i op h b) (hreach : Reaches i op h k c s)
    (hfail : rangeFail (arrived s h) op c h b = none) (hl8 : s.work.l8 = [])
    (hfork : op ≠ opFreeRange ∧ op ≠ opDemote ∧ op ≠ opMigrate ∨ s.forkPending (handleSlot h.handle) = false) :
    ∃ w, OnlyWalked (arrived s h) w ∧ exec i s = .next (w.doRange op h (actingTenant c h) s.row b) := by
  have hadmitted : admitCommand i s.row (arrived s h) = admitRange op h b s.row (arrived s h) := by
    rcases hrange with ⟨rfl, rfl⟩ | ⟨rfl, rfl⟩ | ⟨rfl, rfl⟩ | ⟨rfl, rfl⟩ | ⟨rfl, rfl⟩ | ⟨rfl, rfl⟩ <;> rfl
  refine ⟨_, OnlyWalked.rangeWalk (arrived s h) (handleSlot h.handle) b,
    (exec_of_reaches hreach).trans (congrArg Host.Outcome.next (hadmitted.trans ?_))⟩
  simp only [admitRange, sender_of_reaches hreach, hfail, State.mustWait_eq_false (s := arrived s h) hl8 hfork, Bool.false_eq_true,
    if_false]

/-! ## The end of a command that asks for moves -/

/-- A range command has gone through its leaves, leaving `u`, and `t` is its end: it completes at once where it asked for no move, and
is in flight with its moves otherwise. -/
structure RangeEnds (s u t : State) (op : Nat) (h : Head) (y : Tally) : Prop where
  answers : y.moves = [] → Answers s t op h (rangeOutcome h y.affected y.skipped false)
  waits : y.moves ≠ [] → t.out = s.out ∧ ∃ m, t.cmd s.work.next = some m ∧ m.opcode = op ∧ m.head = h ∧ m.moves = y.moves ∧
    m.unpins = y.unpins
  mem : t.mem = s.mem
  leaves : t.cat.leaves = s.cat.leaves
  seqs : t.cat.seqs = s.cat.seqs
  cards : t.cat.cards = u.cat.cards
  mover : t.mover = u.mover

theorem rangeEnds_endRange {i : Instr} {w : State} (hreach : Reaches i op h k c s) (hw : OnlyWalked (arrived s h) w) (hu : OnlyMarked w u)
    (tenant r : Nat) (y : Tally) : RangeEnds s u (u.endRange op h tenant r y) op h y := by
  obtain ⟨clb, fresh, rfl⟩ := hw
  obtain ⟨cards, mover, rfl⟩ := hu
  by_cases hmoves : y.moves = []
  · rw [State.endRange, if_pos hmoves]
    have hsent := OnlyOut.reply { arrived s h with cat := { s.cat with clb := clb, cards := cards }, mover := mover, fresh := fresh }
      op h (rangeOutcome h y.affected y.skipped false)
    obtain ⟨hseqs, hleaves, hcards, hmem, -⟩ := hsent.holdsSame
    exact ⟨fun _ => State.reply_answers_of_sender (serves_of_reaches hreach) rfl rfl rfl
      (Option.isSome_of_eq_some (sender_of_reaches hreach)), fun hne => absurd hmoves hne, hmem, hleaves, hseqs, hcards, hsent.mover⟩
  · rw [State.endRange, if_neg hmoves]
    exact ⟨fun he => absurd he hmoves, fun _ => ⟨rfl, _, Tbl.get_set_self _ _ _, rfl, rfl, rfl, rfl⟩, rfl, rfl, rfl, rfl, rfl⟩

theorem RangeEnds.card {s u t : State} {y : Tally} (hends : RangeEnds s u t op h y) (n : Nat) : t.card n = u.card n :=
  congrArg (Tbl.get · n) hends.cards

/-- With or without moves, its counts make up the leaves it has gone through. -/
theorem RangeEnds.ends {s u t : State} {y : Tally} {len : Nat} (hends : RangeEnds s u t op h y)
    (hcount : y.affected + y.skipped = len) :
    (∃ n m, n + m = len ∧ Answers s t op h (rangeOutcome h n m false)) ∨ WaitsForMoves s t op h := by
  by_cases hmoves : y.moves = []
  · exact .inl ⟨_, _, hcount, hends.answers hmoves⟩
  · obtain ⟨hout, m, hcmd, hop, hhead, hm, -⟩ := hends.waits hmoves
    exact .inr ⟨hout, m, hcmd, hop, hhead, hm ▸ hmoves⟩

end Sys2Proof.Machine
end

section
/-! The obligation O12 (R223, R224). -/

namespace Sys2Proof.Machine

variable {s t u : State} {op r k slot owner n m : Nat} {h : Head} {b : RangeBody} {c : Conn} {x : Card} {y : Tally} {cs l : List Nat}

/-- What holds before the first block, and after a block where it held before it, holds of all the blocks of a range. -/
theorem overBlocks_induct {f : State → List Nat → Tally → Tally × State} {P : List Nat → Tally → State → Prop}
    (hstart : P [] ⟨0, 0, [], []⟩ s) (hstep : ∀ l y t cs, P l y t → P (l ++ cs) (f t cs y).1 (f t cs y).2) (bs : List (List Nat)) :
    P bs.flatten (overBlocks f s bs).1 (overBlocks f s bs).2 := by
  have hgo (bs : List (List Nat)) : ∀ (l : List Nat) (z : Tally × State), P l z.1 z.2 →
      P (l ++ bs.flatten) (bs.foldl (fun x cards => f x.2 cards x.1) z).1 (bs.foldl (fun x cards => f x.2 cards x.1) z).2 := by
    induction bs with
    | nil =>
      intro l z hz
      simpa using hz
    | cons cs bs ih =>
      intro l z hz
      simpa using ih (l ++ cs) _ (hstep l z.1 z.2 cs hz)
  exact hgo bs [] _ hstart

/-! ## PIN -/

/-- The card of a leaf after a PIN of the leaves of a list that the tenant owns. -/
def pinIn (owner : Nat) (l : List Nat) (n : Nat) (x : Card) : Card :=
  if n ∈ l ∧ pinnable x owner = true then { x with pinned := true } else x

theorem pinIn_append (owner : Nat) (l cs : List Nat) (n : Nat) (x : Card) :
    pinIn owner cs n (pinIn owner l n x) = pinIn owner (l ++ cs) n x := by
  have hpin : pinnable { x with pinned := true } owner = pinnable x owner := rfl
  unfold pinIn
  by_cases hl : n ∈ l <;> by_cases hcs : n ∈ cs <;> by_cases hx : pinnable x owner = true <;> simp [hl, hcs, hx, hpin]

theorem pinIn_nil (owner n : Nat) : pinIn owner [] n = id := funext fun x => by simp [pinIn]

/-- The cards of a block that PIN takes: those not pinned already where they stay in the stacks. -/
def State.pinActs (s : State) (owner : Nat) (cs : List Nat) : List Nat :=
  cs.filter fun n => match s.card n with
    | some c => pinnable c owner && !(c.pinned && (c.state = .lost || (c.inStacks && !s.leavingStacks n)))
    | none => false

/-- Those of them that must be promoted. -/
def State.pinAway (s : State) (acts : List Nat) : List Nat :=
  acts.filter fun n => match s.card n with
    | some c => c.state ≠ .lost && (!c.inStacks || s.leavingStacks n)
    | none => false

/-- The state with some cards pinned. -/
def State.pinAll (s : State) (acts : List Nat) : State := acts.foldl (fun s n => s.setCard n fun c => { c with pinned := true }) s

theorem State.pinBlock_eq (s : State) (owner : Nat) (cs : List Nat) (y : Tally) : s.pinBlock owner cs y =
    let acts := s.pinActs owner cs
    let z : Tally := { y with affected := y.affected + acts.length, skipped := y.skipped + (cs.length - acts.length) }
    if s.pinAway acts = [] then (z, s.pinAll acts)
    else ({ z with moves := addNum z.moves ((s.pinAll acts).askMove (s.pinAway acts) .demand .stack).1 },
      ((s.pinAll acts).askMove (s.pinAway acts) .demand .stack).2) := rfl

theorem State.mem_pinActs : n ∈ s.pinActs owner cs ↔ n ∈ cs ∧ ∃ x, s.card n = some x ∧ pinnable x owner = true ∧
    (x.pinned = true → x.state ≠ .lost ∧ (x.inStacks = true → s.leavingStacks n = true)) := by
  unfold State.pinActs
  rw [List.mem_filter]
  cases hcard : s.card n with
  | none => simp
  | some x =>
    have himp : (x.inStacks = false ∨ s.leavingStacks n = true) ↔ (x.inStacks = true → s.leavingStacks n = true) := by
      cases x.inStacks <;> simp
    cases hp : x.pinned <;> simp [hp, himp]

theorem State.pinAll_card (s : State) (acts : List Nat) (n : Nat) : (s.pinAll acts).card n =
    if n ∈ acts then (s.card n).map fun c => { c with pinned := true } else s.card n := by
  have hcard := State.card_foldl_setCard (p := fun _ _ => false) (f := fun c => { c with pinned := true }) (fun _ _ _ => rfl)
    (fun _ => rfl) acts s n
  simp only [Bool.false_eq_true, if_false, and_true] at hcard
  exact hcard

theorem OnlyMarked.pinAll (s : State) (acts : List Nat) : OnlyMarked s (s.pinAll acts) := foldl (fun s n => setCard s n _) acts s

theorem OnlyAsked.card (h : OnlyAsked s t) (n : Nat) : t.card n = s.card n := by
  obtain ⟨m, rfl⟩ := h
  rfl

theorem OnlyMarked.pinBlock (s : State) (owner : Nat) (cs : List Nat) (y : Tally) : OnlyMarked s (s.pinBlock owner cs y).2 := by
  rw [State.pinBlock_eq]
  dsimp only
  split
  · exact OnlyMarked.pinAll s _
  · exact (OnlyMarked.pinAll s _).trans (of_asked (OnlyAsked.askMove _ _ _ _))

theorem State.pinBlock_card (s : State) (owner : Nat) (cs : List Nat) (y : Tally) (n : Nat) :
    (s.pinBlock owner cs y).2.card n = (s.card n).map (pinIn owner cs n) := by
  have hpinned : (s.pinAll (s.pinActs owner cs)).card n = (s.card n).map (pinIn owner cs n) := by
    rw [State.pinAll_card]
    cases hcard : s.card n with
    | none => simp
    | some x =>
      by_cases hacts : n ∈ s.pinActs owner cs
      · obtain ⟨hn, x', hx', hpin, -⟩ := State.mem_pinActs.mp hacts
        cases hcard.symm.trans hx'
        simp [hacts, pinIn, hn, hpin]
      · have hkept : pinIn owner cs n x = x := by
          unfold pinIn
          split
          · rename_i htakes
            obtain ⟨hn, hpin⟩ := htakes
            have hpinned : x.pinned = true := by
              by_contra hfree
              exact hacts (State.mem_pinActs.mpr ⟨hn, x, hcard, hpin, fun hp => absurd hp hfree⟩)
            cases x
            cases hpinned
            rfl
          · rfl
        simp [hacts, hkept]
  rw [State.pinBlock_eq]
  dsimp only
  split
  · exact hpinned
  · exact ((OnlyAsked.askMove _ _ _ _).card n).trans hpinned

theorem State.pinBlock_count (s : State) (owner : Nat) (cs : List Nat) (y : Tally) :
    (s.pinBlock owner cs y).1.affected + (s.pinBlock owner cs y).1.skipped = y.affected + y.skipped + cs.length := by
  have hle : (s.pinActs owner cs).length ≤ cs.length := List.length_filter_le _ _
  rw [State.pinBlock_eq]
  dsimp only
  split <;> dsimp only <;> omega

/-- Where every leaf that PIN takes stays in the stacks, or is lost, no move is asked for. -/
theorem State.pinBlock_stays (hstay : ∀ n ∈ cs, ∀ x, s.card n = some x → pinnable x owner = true → x.state ≠ .lost →
    x.inStacks = true ∧ s.leavingStacks n = false) : (s.pinBlock owner cs y).1.moves = y.moves ∧
      (s.pinBlock owner cs y).2.mover = s.mover := by
  have haway : s.pinAway (s.pinActs owner cs) = [] := by
    refine List.filter_eq_nil_iff.mpr fun n hn => ?_
    obtain ⟨hcs, x, hcard, hpin, -⟩ := State.mem_pinActs.mp hn
    by_cases hlost : x.state = .lost
    · simp [hcard, hlost]
    · obtain ⟨hin, hleave⟩ := hstay n hcs x hcard hpin hlost
      simp [hcard, hin, hleave]
  rw [State.pinBlock_eq]
  simp only [haway, if_true, true_and]
  refine foldl_keeps (P := fun t : State => t.mover = s.mover) (fun t n ht => ?_) _ rfl
  exact ht

/-- What a PIN has done after some leaves. -/
structure PinnedBy (s : State) (owner : Nat) (l : List Nat) (y : Tally) (t : State) : Prop where
  marked : OnlyMarked s t
  card : ∀ n, t.card n = (s.card n).map (pinIn owner l n)
  count : y.affected + y.skipped = l.length
  stays : (∀ n ∈ l, ∀ x, s.card n = some x → pinnable x owner = true → x.state ≠ .lost →
    x.inStacks = true ∧ s.leavingStacks n = false) → y.moves = [] ∧ t.mover = s.mover

theorem PinnedBy.block (hdone : PinnedBy s owner l y t) (cs : List Nat) :
    PinnedBy s owner (l ++ cs) (t.pinBlock owner cs y).1 (t.pinBlock owner cs y).2 := by
  refine ⟨hdone.marked.trans (OnlyMarked.pinBlock _ _ _ _), fun n => ?_, ?_, fun hstay => ?_⟩
  · rw [State.pinBlock_card, hdone.card, Option.map_map]
    exact congrArg (Option.map · (s.card n)) (funext fun x => pinIn_append owner l cs n x)
  · rw [State.pinBlock_count, hdone.count, List.length_append]
  · obtain ⟨hmoves, hmover⟩ := hdone.stays fun n hn => hstay n (List.mem_append_left _ hn)
    have hsame := State.pinBlock_stays (s := t) (owner := owner) (cs := cs) (y := y) fun n hn x hx hpin hlost => by
      rw [hdone.card] at hx
      obtain ⟨x', hx', rfl⟩ := Option.map_eq_some_iff.mp hx
      have hleaving : t.leavingStacks n = s.leavingStacks n := by rw [State.leavingStacks, hmover, State.leavingStacks]
      rw [hleaving]
      have hfields : (pinIn owner l n x').state = x'.state ∧ (pinIn owner l n x').inStacks = x'.inStacks ∧
          pinnable (pinIn owner l n x') owner = pinnable x' owner := by
        unfold pinIn
        split <;> exact ⟨rfl, rfl, rfl⟩
      obtain ⟨hstate, hin, hpinnable⟩ := hfields
      rw [hin]
      exact hstay n (List.mem_append_right _ hn) x' hx' (hpinnable ▸ hpin) (hstate ▸ hlost)
    exact ⟨hsame.1.trans hmoves, hsame.2.trans hmover⟩

theorem PinnedBy.range (s : State) (owner : Nat) (bs : List (List Nat)) :
    PinnedBy s owner bs.flatten (overBlocks (fun s => s.pinBlock owner) s bs).1 (overBlocks (fun s => s.pinBlock owner) s bs).2 := by
  refine overBlocks_induct (P := PinnedBy s owner) ⟨OnlyMarked.refl s, fun n => ?_, rfl, fun _ => ⟨rfl, rfl⟩⟩
    (fun l y t cs hdone => hdone.block cs) bs
  rw [pinIn_nil, Option.map_id, id]

/-! ## UNPIN -/

/-- The card of a leaf after an UNPIN of the leaves of a list that the tenant owns: one that is moving stays pinned (R224). -/
def unpinIn (s : State) (owner : Nat) (l : List Nat) (n : Nat) (x : Card) : Card :=
  if n ∈ l ∧ pinnable x owner = true then { x with pinned := x.pinned && (s.runningMove n).isSome } else x

theorem unpinIn_append (s : State) (owner : Nat) (l cs : List Nat) (n : Nat) (x : Card) :
    unpinIn s owner cs n (unpinIn s owner l n x) = unpinIn s owner (l ++ cs) n x := by
  have hpin (p : Bool) : pinnable { x with pinned := p } owner = pinnable x owner := rfl
  unfold unpinIn
  by_cases hl : n ∈ l <;> by_cases hcs : n ∈ cs <;> by_cases hx : pinnable x owner = true <;> simp [hl, hcs, hx, hpin]

/-- The cards of a block that UNPIN takes. -/
def State.unpinActs (s : State) (owner : Nat) (cs : List Nat) : List Nat :=
  cs.filter fun n => match s.card n with
    | some c => pinnable c owner && c.pinned
    | none => false

/-- Those of them that are moving, each with its move. -/
def State.unpinLater (s : State) (acts : List Nat) : List (Nat × Nat) := acts.filterMap fun n => (s.runningMove n).map fun m => (m, n)

/-- The state with the others no longer pinned. -/
def State.unpinAll (s : State) (acts : List Nat) : State :=
  acts.foldl (fun s n => if (s.runningMove n).isSome then s else s.setCard n fun c => { c with pinned := false }) s

theorem State.unpinBlock_eq (s : State) (owner : Nat) (cs : List Nat) (y : Tally) : s.unpinBlock owner cs y =
    ({ y with
      affected := y.affected + (s.unpinActs owner cs).length
      skipped := y.skipped + (cs.length - (s.unpinActs owner cs).length)
      moves := (s.unpinLater (s.unpinActs owner cs)).foldl (fun ms u => addNum ms u.1) y.moves
      unpins := y.unpins ++ s.unpinLater (s.unpinActs owner cs) }, s.unpinAll (s.unpinActs owner cs)) := rfl

theorem State.mem_unpinActs : n ∈ s.unpinActs owner cs ↔
    n ∈ cs ∧ ∃ x, s.card n = some x ∧ pinnable x owner = true ∧ x.pinned = true := by
  unfold State.unpinActs
  rw [List.mem_filter]
  cases hcard : s.card n <;> simp

theorem State.mem_unpinLater {acts : List Nat} : (m, n) ∈ s.unpinLater acts ↔ n ∈ acts ∧ s.runningMove n = some m := by
  simp only [State.unpinLater, List.mem_filterMap, Option.map_eq_some_iff, Prod.mk.injEq]
  constructor
  · rintro ⟨n', hacts, m', hmove, rfl, rfl⟩
    exact ⟨hacts, hmove⟩
  · rintro ⟨hacts, hmove⟩
    exact ⟨n, hacts, m, hmove, rfl, rfl⟩

theorem mem_foldl_addNum {us : List (Nat × Nat)} {ms : List Nat} :
    m ∈ us.foldl (fun ms u => addNum ms u.1) ms ↔ m ∈ ms ∨ ∃ u ∈ us, u.1 = m := by
  induction us generalizing ms with
  | nil => simp
  | cons u us ih =>
    rw [List.foldl_cons, ih, mem_addNum]
    simp only [List.mem_cons, exists_eq_or_imp, eq_comm (a := m)]
    tauto

theorem State.unpinAll_card (s : State) (acts : List Nat) (n : Nat) : (s.unpinAll acts).card n =
    if n ∈ acts ∧ (s.runningMove n).isSome = false then (s.card n).map fun c => { c with pinned := false } else s.card n :=
  State.card_foldl_setCard (p := fun s n => (s.runningMove n).isSome) (f := fun c => { c with pinned := false }) (fun _ _ _ => rfl)
    (fun _ => rfl) acts s n

/-- Only cards change. -/
theorem State.unpinAll_rest (s : State) (acts : List Nat) : OnlyMarked s (s.unpinAll acts) ∧ (s.unpinAll acts).mover = s.mover := by
  refine foldl_keeps (P := fun t => OnlyMarked s t ∧ t.mover = s.mover) (fun t n ht => ?_) _ ⟨OnlyMarked.refl s, rfl⟩
  obtain ⟨hmarked, hmover⟩ := ht
  split
  · exact ⟨hmarked, hmover⟩
  · exact ⟨hmarked.trans (OnlyMarked.setCard t n _), hmover⟩

theorem State.unpinBlock_card (s : State) (owner : Nat) (cs : List Nat) (y : Tally) (n : Nat) :
    (s.unpinBlock owner cs y).2.card n = (s.card n).map (unpinIn s owner cs n) := by
  refine (s.unpinAll_card (s.unpinActs owner cs) n).trans ?_
  cases hcard : s.card n with
  | none => simp
  | some x =>
    by_cases hacts : n ∈ s.unpinActs owner cs
    · obtain ⟨hn, x', hx', hpin, hpinned⟩ := State.mem_unpinActs.mp hacts
      cases hcard.symm.trans hx'
      have hkept : x = { x with pinned := true } := by
        cases x
        cases hpinned
        rfl
      cases hmove : (s.runningMove n).isSome with
      | true => simp [unpinIn, hn, hpin, hpinned, hmove, ← hkept]
      | false => simp [unpinIn, hn, hpin, hacts, hmove]
    · have hkept : unpinIn s owner cs n x = x := by
        unfold unpinIn
        split
        · rename_i htakes
          obtain ⟨hn, hpin⟩ := htakes
          have hfree : x.pinned = false := by
            by_contra hpinned
            exact hacts (State.mem_unpinActs.mpr ⟨hn, x, hcard, hpin, by simpa using hpinned⟩)
          cases x
          cases hfree
          rfl
        · rfl
      simp [hacts, hkept]

/-- What an UNPIN has done after some leaves. -/
structure UnpinnedBy (s : State) (owner : Nat) (l : List Nat) (y : Tally) (t : State) : Prop where
  marked : OnlyMarked s t
  mover : t.mover = s.mover
  card : ∀ n, t.card n = (s.card n).map (unpinIn s owner l n)
  count : y.affected + y.skipped = l.length
  later : ∀ n ∈ l, ∀ x m, s.card n = some x → pinnable x owner = true → x.pinned = true → s.runningMove n = some m → (m, n) ∈ y.unpins
  moves : ∀ u ∈ y.unpins, u.1 ∈ y.moves
  stays : (∀ n ∈ l, ∀ x, s.card n = some x → pinnable x owner = true → s.runningMove n = none) → y.moves = []

theorem UnpinnedBy.runningMove (hdone : UnpinnedBy s owner l y t) (n : Nat) : t.runningMove n = s.runningMove n := by
  rw [State.runningMove, hdone.mover, State.runningMove]

theorem UnpinnedBy.block (hdone : UnpinnedBy s owner l y t) (cs : List Nat) :
    UnpinnedBy s owner (l ++ cs) (t.unpinBlock owner cs y).1 (t.unpinBlock owner cs y).2 := by
  obtain ⟨hmarked, hmover⟩ := State.unpinAll_rest t (t.unpinActs owner cs)
  refine ⟨hdone.marked.trans hmarked, hmover.trans hdone.mover, fun n => ?card, ?count, fun n hn x m hx hpin hpinned hmove => ?later,
    fun u hu => ?moves, fun hstay => ?stays⟩
  case card =>
    have hsame : unpinIn t owner cs n = unpinIn s owner cs n := funext fun x => by rw [unpinIn, hdone.runningMove, unpinIn]
    rw [State.unpinBlock_card, hdone.card, Option.map_map, hsame]
    exact congrArg (Option.map · (s.card n)) (funext fun x => unpinIn_append s owner l cs n x)
  case count =>
    have hle : (t.unpinActs owner cs).length ≤ cs.length := List.length_filter_le _ _
    have hcount := hdone.count
    rw [State.unpinBlock_eq, List.length_append]
    dsimp only
    omega
  case later =>
    rw [State.unpinBlock_eq]
    refine List.mem_append.mpr ((List.mem_append.mp hn).imp (fun hl => hdone.later n hl x m hx hpin hpinned hmove) fun hcs => ?_)
    refine State.mem_unpinLater.mpr ⟨State.mem_unpinActs.mpr ⟨hcs, unpinIn s owner l n x, by rw [hdone.card, hx]; rfl, ?_⟩,
      (hdone.runningMove n).trans hmove⟩
    unfold unpinIn
    split
    · exact ⟨hpin, by simp [hpinned, hmove]⟩
    · exact ⟨hpin, hpinned⟩
  case moves =>
    rw [State.unpinBlock_eq] at hu ⊢
    exact mem_foldl_addNum.mpr ((List.mem_append.mp hu).imp (hdone.moves u) fun hlater => ⟨u, hlater, rfl⟩)
  case stays =>
    have hnone : t.unpinLater (t.unpinActs owner cs) = [] := by
      refine List.eq_nil_iff_forall_not_mem.mpr fun u hu => ?_
      obtain ⟨hacts, hmove⟩ := State.mem_unpinLater.mp hu
      obtain ⟨hcs, x, hx, hpin, -⟩ := State.mem_unpinActs.mp hacts
      rw [hdone.card] at hx
      obtain ⟨x', hx', rfl⟩ := Option.map_eq_some_iff.mp hx
      have hpin' : pinnable x' owner = true := by
        unfold unpinIn at hpin
        split at hpin <;> exact hpin
      rw [hdone.runningMove, hstay u.2 (List.mem_append_right _ hcs) x' hx' hpin'] at hmove
      cases hmove
    rw [State.unpinBlock_eq, hnone]
    exact hdone.stays fun n hn => hstay n (List.mem_append_left _ hn)

theorem UnpinnedBy.range (s : State) (owner : Nat) (bs : List (List Nat)) : UnpinnedBy s owner bs.flatten
    (overBlocks (fun s => s.unpinBlock owner) s bs).1 (overBlocks (fun s => s.unpinBlock owner) s bs).2 := by
  refine overBlocks_induct (P := UnpinnedBy s owner) ⟨OnlyMarked.refl s, rfl, fun n => ?_, rfl, fun _ hn => absurd hn List.not_mem_nil,
    fun _ hu => absurd hu List.not_mem_nil, fun _ => rfl⟩ (fun l y t cs hdone => hdone.block cs) bs
  have hid : unpinIn s owner [] n = id := funext fun x => by simp [unpinIn]
  rw [hid, Option.map_id, id]

/-! ## The commands -/

theorem State.doRange_pin (s : State) (h : Head) (tenant r : Nat) (b : RangeBody) : s.doRange opPin h tenant r b =
    let owner := (s.seqAt (handleSlot h.handle)).tenant
    let bs := s.rangeCards (handleSlot h.handle) b
    let x := overBlocks (fun s => s.pinBlock owner) s bs
    if pinnedLimit < s.pinnedGranules + s.pinAdds owner bs then s.reply opPin h (rangeOutcome h 0 0 true)
    else x.2.endRange opPin h tenant r x.1 := rfl

theorem State.doRange_unpin (s : State) (h : Head) (tenant r : Nat) (b : RangeBody) : s.doRange opUnpin h tenant r b =
    let x := overBlocks (fun t => t.unpinBlock (s.seqAt (handleSlot h.handle)).tenant) s (s.rangeCards (handleSlot h.handle) b)
    x.2.endRange opUnpin h tenant r x.1 := rfl

section
variable {w : State} (hreach : Reaches (.pin h b) opPin h k c s) (hw : OnlyWalked (arrived s h) w)
include hreach hw

/-- A PIN past the limit completes, and nothing held changes. -/
theorem doRange_pin_refuses (hfull : pinnedLimit < w.pinnedGranules +
    w.pinAdds (w.seqAt (handleSlot h.handle)).tenant (w.rangeCards (handleSlot h.handle) b)) (tenant : Nat) :
    Answers s (w.doRange opPin h tenant s.row b) opPin h (rangeOutcome h 0 0 true) ∧
      HoldsSame s (w.doRange opPin h tenant s.row b) := by
  obtain ⟨clb, fresh, rfl⟩ := hw
  simp only [State.doRange_pin, hfull, if_true]
  exact ⟨State.reply_answers_of_sender (serves_of_reaches hreach) rfl rfl rfl
    (Option.isSome_of_eq_some (sender_of_reaches hreach)), (OnlyOut.reply _ _ _ _).holdsSame⟩

end

/-- Settles O12: the two commands go through the blocks one by one, and what each has done after some of them is kept by the next. -/
theorem pinAndUnpin : Obligations.PinAndUnpin := by
  intro h b k c s slot owner cards takes ends hl8
  refine ⟨fun hreach hfail => ⟨fun hroom => ?pins, fun hfull => ?refuses⟩, fun hreach hfail => ?unpins⟩
  case refuses =>
    obtain ⟨w, hw, hexec⟩ := exec_range (.inl ⟨rfl, rfl⟩) hreach hfail hl8 (.inl (by decide))
    have hfull' : pinnedLimit < w.pinnedGranules + w.pinAdds (w.seqAt slot).tenant (w.rangeCards slot b) := by
      obtain ⟨clb, fresh, rfl⟩ := hw
      exact hfull
    exact ⟨_, hexec, doRange_pin_refuses hreach hw hfull' _⟩
  case pins =>
    obtain ⟨w, hw, hexec⟩ := exec_range (.inl ⟨rfl, rfl⟩) hreach hfail hl8 (.inl (by decide))
    have hdone : PinnedBy w owner cards.flatten (overBlocks (fun t => t.pinBlock owner) w cards).1
        (overBlocks (fun t => t.pinBlock owner) w cards).2 := PinnedBy.range w owner cards
    have hrun : w.doRange opPin h (actingTenant c h) s.row b = (overBlocks (fun t => t.pinBlock owner) w cards).2.endRange opPin h
        (actingTenant c h) s.row (overBlocks (fun t => t.pinBlock owner) w cards).1 := by
      obtain ⟨clb, fresh, rfl⟩ := hw
      exact if_neg (Nat.not_lt.mpr hroom)
    have hends := rangeEnds_endRange hreach hw hdone.marked (actingTenant c h) s.row
      (overBlocks (fun t => t.pinBlock owner) w cards).1
    rw [hexec, hrun]
    generalize overBlocks (fun t => t.pinBlock owner) w cards = x at *
    obtain ⟨y, u⟩ := x
    have hcard (n : Nat) : (u.endRange opPin h (actingTenant c h) s.row y).card n = (s.card n).map (pinIn owner cards.flatten n) :=
      ((hends.card n).trans (hdone.card n)).trans (congrArg (Option.map _) (hw.card n))
    refine ⟨_, rfl, hends.ends hdone.count, hends.mem, hends.leaves, hends.seqs, fun n x htakes hx => ?_, fun n hleft => ?_,
      fun hstay => ?_⟩
    · obtain ⟨hn, x', hx', hpin⟩ := htakes
      cases hx.symm.trans hx'
      rw [hcard, hx, Option.map_some, pinIn, if_pos ⟨hn, hpin⟩]
    · rw [hcard]
      refine (Option.map_congr (g := id) fun x hx => if_neg ?_).trans Option.map_id_apply
      rintro ⟨hn, hpin⟩
      exact hleft ⟨hn, x, hx, hpin⟩
    · obtain ⟨hmoves, -⟩ := hdone.stays fun n hn x hx hpin hlost => by
        have hx' : s.card n = some x := (hw.card n).symm.trans hx
        rw [hw.leavingStacks]
        exact hstay n x ⟨hn, x, hx', hpin⟩ hx' hlost
      exact ⟨_, _, hdone.count, hends.answers hmoves⟩
  case unpins =>
    obtain ⟨w, hw, hexec⟩ := exec_range (.inr (.inl ⟨rfl, rfl⟩)) hreach hfail hl8 (.inl (by decide))
    have hdone : UnpinnedBy w owner cards.flatten (overBlocks (fun t => t.unpinBlock owner) w cards).1
        (overBlocks (fun t => t.unpinBlock owner) w cards).2 := UnpinnedBy.range w owner cards
    have hrun : w.doRange opUnpin h (actingTenant c h) s.row b = (overBlocks (fun t => t.unpinBlock owner) w cards).2.endRange opUnpin h
        (actingTenant c h) s.row (overBlocks (fun t => t.unpinBlock owner) w cards).1 := by
      obtain ⟨clb, fresh, rfl⟩ := hw
      rfl
    have hends := rangeEnds_endRange hreach hw hdone.marked (actingTenant c h) s.row
      (overBlocks (fun t => t.unpinBlock owner) w cards).1
    rw [hexec, hrun]
    generalize overBlocks (fun t => t.unpinBlock owner) w cards = x at *
    obtain ⟨y, u⟩ := x
    have hcard (n : Nat) : (u.endRange opUnpin h (actingTenant c h) s.row y).card n =
        (s.card n).map (unpinIn w owner cards.flatten n) :=
      ((hends.card n).trans (hdone.card n)).trans (congrArg (Option.map _) (hw.card n))
    refine ⟨_, rfl, hends.ends hdone.count, hends.mem, hends.leaves, hends.seqs, fun n x htakes hx => ?_,
      fun n x m htakes hx hpinned hmove => ?_, fun n hleft => ?_, fun hstay => ?_⟩
    · obtain ⟨hn, x', hx', hpin⟩ := htakes
      cases hx.symm.trans hx'
      rw [hcard, hx, Option.map_some, unpinIn, if_pos ⟨hn, hpin⟩, hw.runningMove]
      rfl
    · obtain ⟨hn, x', hx', hpin⟩ := htakes
      cases hx.symm.trans hx'
      have hlater : (m, n) ∈ y.unpins := hdone.later n hn x m ((hw.card n).trans hx) hpin hpinned ((hw.runningMove n).trans hmove)
      obtain ⟨-, z, hcmd, -, -, -, hunpins⟩ := hends.waits (List.ne_nil_of_mem (hdone.moves _ hlater))
      exact ⟨z, hcmd, hunpins ▸ hlater⟩
    · rw [hcard]
      refine (Option.map_congr (g := id) fun x hx => if_neg ?_).trans Option.map_id_apply
      rintro ⟨hn, hpin⟩
      exact hleft ⟨hn, x, hx, hpin⟩
    · have hmoves : y.moves = [] := hdone.stays fun n hn x hx hpin =>
        (hw.runningMove n).trans (hstay n ⟨hn, x, (hw.card n).symm.trans hx, hpin⟩)
      exact ⟨_, _, hdone.count, hends.answers hmoves⟩

end Sys2Proof.Machine
end

section
/-! SUPPORT. Requests for moves of the leaves of a range (R223, R225, R253). -/

namespace Sys2Proof.Machine

variable {s t u : State} {op r k slot n m : Nat} {h : Head} {b : RangeBody} {c : Conn} {y : Tally} {cs l : List Nat}
  {owner : Option Nat} {cls : MoveClass} {dest d : Dest}

/-- The moves of a state stand in order under numbers that have been given out. -/
structure MovesNumbered (s : State) : Prop where
  wf : Tbl.wf s.mover.moves = true
  below : ∀ p ∈ s.mover.moves, p.1 < s.mover.next

theorem MovesNumbered.queueMove (hs : MovesNumbered s) (x : Move) : MovesNumbered (s.queueMove x) := by
  refine ⟨Tbl.wf_set hs.wf, fun p hp => ?_⟩
  rcases Tbl.mem_set hp with rfl | hp
  · exact Nat.lt_succ_self _
  · exact Nat.lt_succ_of_lt (hs.below p hp)

/-- The state without a move. -/
def State.dropMove (s : State) (m : Nat) : State := { s with mover := { s.mover with moves := Tbl.erase s.mover.moves m } }

theorem MovesNumbered.dropMove (hs : MovesNumbered s) (m : Nat) : MovesNumbered (s.dropMove m) :=
  ⟨Tbl.wf_erase hs.wf, fun p hp => hs.below p (Tbl.mem_erase hp).1⟩

theorem mem_queueMove_self (s : State) (x : Move) : (s.mover.next, x) ∈ (s.queueMove x).mover.moves :=
  Tbl.mem_of_get (Tbl.get_set_self _ _ _)

theorem MovesNumbered.mem_queueMove (hs : MovesNumbered s) (x : Move) {p : Nat × Move} (hp : p ∈ s.mover.moves) :
    p ∈ (s.queueMove x).mover.moves := Tbl.mem_set_of_mem hp (Nat.ne_of_lt (hs.below p hp))

/-- A request finds one that serves, takes the place of a prefetch, or is queued. -/
theorem State.askMove_cases (s : State) (cs : List Nat) (cls : MoveClass) (dest : Dest) :
    (∃ p ∈ s.mover.moves, p.2.cards = cs ∧ p.2.dest = dest ∧
      ((s.askMove cs cls dest).2 = s ∨
        (s.askMove cs cls dest).2 = (s.dropMove p.1).queueMove (Move.request cs cls dest s.row))) ∨
      (s.askMove cs cls dest).2 = s.queueMove (Move.request cs cls dest s.row) := by
  unfold State.askMove
  extract_lets same
  cases hsame : same with
  | none => exact .inr rfl
  | some p =>
    have hp := List.mem_of_find?_eq_some hsame
    have htest := List.find?_some hsame
    simp only [Bool.and_eq_true, decide_eq_true_eq] at htest
    obtain ⟨⟨hcards, hdest⟩, -⟩ := htest
    refine .inl ⟨p, hp, hcards, hdest, ?_⟩
    dsimp only
    split
    · exact .inr rfl
    · exact .inl rfl

theorem MovesNumbered.askMove (hs : MovesNumbered s) (cs : List Nat) (cls : MoveClass) (dest : Dest) :
    MovesNumbered (s.askMove cs cls dest).2 := by
  rcases s.askMove_cases cs cls dest with ⟨p, -, -, -, h | h⟩ | h <;> rw [h]
  · exact hs
  · exact (hs.dropMove p.1).queueMove _
  · exact hs.queueMove _

/-- What is asked for is there afterwards. -/
theorem State.moveTo_askMove (s : State) (cls : MoveClass) (dest : Dest) (hn : n ∈ cs) : MoveTo (s.askMove cs cls dest).2 n dest := by
  rcases s.askMove_cases cs cls dest with ⟨p, hp, hcards, hdest, h | h⟩ | h <;> rw [h]
  · exact ⟨p, hp, hcards ▸ hn, hdest⟩
  · exact ⟨_, mem_queueMove_self _ _, hn, rfl⟩
  · exact ⟨_, mem_queueMove_self _ _, hn, rfl⟩

/-- A request loses no leaf another request. -/
theorem MovesNumbered.moveTo_askMove (hs : MovesNumbered s) (cs : List Nat) (cls : MoveClass) (dest : Dest) (hm : MoveTo s n d) :
    MoveTo (s.askMove cs cls dest).2 n d := by
  obtain ⟨q, hq, hn, hd⟩ := hm
  rcases s.askMove_cases cs cls dest with ⟨p, hp, hcards, hdest, h | h⟩ | h <;> rw [h]
  · exact ⟨q, hq, hn, hd⟩
  · by_cases he : q.1 = p.1
    · have hsame : q.2 = p.2 := Option.some_inj.mp ((Tbl.get_of_mem hs.wf hq).symm.trans (he ▸ Tbl.get_of_mem hs.wf hp))
      exact ⟨_, mem_queueMove_self _ _, hcards ▸ hsame ▸ hn, (hdest.symm.trans (hsame ▸ hd) : dest = d)⟩
    · exact ⟨q, (hs.dropMove p.1).mem_queueMove _ (Tbl.mem_erase_of_mem hq he), hn, hd⟩
  · exact ⟨q, hs.mem_queueMove _ hq, hn, hd⟩

/-! ## The blocks of a range -/

/-- A range move may take a leaf. -/
def State.takesMove (s : State) (owner : Option Nat) (dest : Dest) (n : Nat) : Bool :=
  match s.card n with
  | some c => s.movable c owner dest
  | none => false

theorem State.takesMove_iff : s.takesMove owner dest n = true ↔ ∃ x, s.card n = some x ∧ s.movable x owner dest = true := by
  unfold State.takesMove
  cases s.card n <;> simp

theorem OnlyAsked.takesMove (h : OnlyAsked s t) : t.takesMove owner dest n = s.takesMove owner dest n := by
  obtain ⟨m, rfl⟩ := h
  rfl

theorem State.moveBlock_eq (s : State) (owner : Option Nat) (cls : MoveClass) (dest : Dest) (cs : List Nat) (y : Tally) :
    s.moveBlock owner cls dest cs y =
      let acts := cs.filter (s.takesMove owner dest)
      let z : Tally := { y with affected := y.affected + acts.length, skipped := y.skipped + (cs.length - acts.length) }
      if acts = [] then (z, s)
      else ({ z with moves := addNum z.moves (s.askMove acts cls dest).1 }, (s.askMove acts cls dest).2) := rfl

/-- What a range command that moves leaves has done after some of them. -/
structure MovedBy (s : State) (owner : Option Nat) (dest : Dest) (l : List Nat) (y : Tally) (t : State) : Prop where
  asked : OnlyAsked s t
  numbered : MovesNumbered t
  moves : ∀ n ∈ l, s.takesMove owner dest n = true → MoveTo t n dest
  waits : (∃ n ∈ l, s.takesMove owner dest n = true) → y.moves ≠ []
  none : (∀ n ∈ l, s.takesMove owner dest n = false) → y.affected = 0 ∧ y.skipped = l.length ∧ y.moves = []

theorem MovedBy.block (hdone : MovedBy s owner dest l y t) (cls : MoveClass) (cs : List Nat) :
    MovedBy s owner dest (l ++ cs) (t.moveBlock owner cls dest cs y).1 (t.moveBlock owner cls dest cs y).2 := by
  have hacts : cs.filter (t.takesMove owner dest) = cs.filter (s.takesMove owner dest) :=
    List.filter_congr fun n _ => hdone.asked.takesMove
  rw [State.moveBlock_eq, hacts]
  by_cases hempty : cs.filter (s.takesMove owner dest) = []
  · have hnone : ∀ n ∈ cs, ¬ s.takesMove owner dest n = true := List.filter_eq_nil_iff.mp hempty
    simp only [hempty, if_true, List.length_nil, Nat.add_zero, Nat.sub_zero]
    refine ⟨hdone.asked, hdone.numbered, fun n hn htakes => ?_, fun hsome => ?_, fun hall => ?_⟩
    · exact hdone.moves n ((List.mem_append.mp hn).resolve_right fun hcs => hnone n hcs htakes) htakes
    · obtain ⟨n, hn, htakes⟩ := hsome
      exact hdone.waits ⟨n, (List.mem_append.mp hn).resolve_right fun hcs => hnone n hcs htakes, htakes⟩
    · obtain ⟨haffected, hskipped, hmoves⟩ := hdone.none fun n hn => hall n (List.mem_append_left _ hn)
      exact ⟨haffected, by rw [hskipped, List.length_append], hmoves⟩
  · simp only [hempty, if_false]
    refine ⟨hdone.asked.trans (OnlyAsked.askMove _ _ _ _), hdone.numbered.askMove _ _ _, fun n hn htakes => ?_, fun _ => ?_, fun hall => ?_⟩
    · rcases List.mem_append.mp hn with hl | hcs
      · exact hdone.numbered.moveTo_askMove _ _ _ (hdone.moves n hl htakes)
      · exact State.moveTo_askMove t cls dest (List.mem_filter.mpr ⟨hcs, htakes⟩)
    · exact List.ne_nil_of_mem (mem_addNum.mpr (.inl rfl))
    · refine absurd (List.filter_eq_nil_iff.mpr fun n hn => ?_) hempty
      rw [hall n (List.mem_append_right _ hn)]
      exact Bool.false_ne_true

theorem MovedBy.range (hs : MovesNumbered s) (owner : Option Nat) (cls : MoveClass) (dest : Dest) (bs : List (List Nat)) :
    MovedBy s owner dest bs.flatten (overBlocks (fun s => s.moveBlock owner cls dest) s bs).1
      (overBlocks (fun s => s.moveBlock owner cls dest) s bs).2 :=
  overBlocks_induct (P := MovedBy s owner dest) ⟨OnlyAsked.refl s, hs, fun _ hn => absurd hn List.not_mem_nil,
    fun ⟨_, hn, _⟩ => absurd hn List.not_mem_nil, fun _ => ⟨rfl, rfl, rfl⟩⟩ (fun _ _ _ cs hdone => hdone.block cls cs) bs

end Sys2Proof.Machine
end

section
/-! SUPPORT. Sending keeps every connection but for its next PSN, so that a sender stays known (R315). -/

namespace Sys2Proof.Machine

variable {s t u : State}

/-- A connection that stands in `s` stands in `t`, but for its next PSN, and under its key the table has what it had. -/
structure KeepsConns (s t : State) : Prop where
  stands : ∀ p ∈ s.xport.conns, ∃ q ∈ t.xport.conns, q.1 = p.1 ∧ { q.2 with sendPsn := 0 } = { p.2 with sendPsn := 0 }
  view : SameConns s t

namespace KeepsConns

theorem of_conns (h : t.xport.conns = s.xport.conns) : KeepsConns s t :=
  ⟨fun p hp => ⟨p, h ▸ hp, rfl, rfl⟩, by funext k; rw [State.connView, State.connView, h]⟩

theorem refl (s : State) : KeepsConns s s := of_conns rfl

theorem trans (a : KeepsConns s t) (b : KeepsConns t u) : KeepsConns s u := by
  refine ⟨fun p hp => ?_, b.view.trans a.view⟩
  obtain ⟨q, hq, hkey, hconn⟩ := a.stands p hp
  obtain ⟨r, hr, hkey', hconn'⟩ := b.stands q hq
  exact ⟨r, hr, hkey'.trans hkey, hconn'.trans hconn⟩

theorem foldl {α : Type} {f : State → α → State} (h : ∀ s x, KeepsConns s (f s x)) (l : List α) (s : State) :
    KeepsConns s (l.foldl f s) := foldl_keeps (P := KeepsConns s) (fun t x ht => ht.trans (h t x)) l (refl s)

theorem ite {c : Prop} [Decidable c] (a : KeepsConns s t) (b : KeepsConns s u) : KeepsConns s (if c then t else u) := by
  split
  · exact a
  · exact b

/-- So the sender of a command stays known. -/
theorem sender (h : KeepsConns s t) {x : Head} (hs : (s.sender x).isSome) : (t.sender x).isSome := by
  simp only [State.sender, State.conn, List.find?_isSome] at hs ⊢
  obtain ⟨p, hp, htest⟩ := hs
  obtain ⟨q, hq, hkey, hconn⟩ := h.stands p hp
  have hnode : q.2.peerNode = p.2.peerNode := (congrArg Conn.peerNode hconn :)
  have hdomain : q.2.peerDomain = p.2.peerDomain := (congrArg Conn.peerDomain hconn :)
  have hqp : q.2.peerQp = p.2.peerQp := (congrArg Conn.peerQp hconn :)
  have hstate : q.2.state = p.2.state := (congrArg Conn.state hconn :)
  exact ⟨q, hq, by rwa [Conn.isOf, hkey, hnode, hdomain, hqp, hstate]⟩

/-! ## Registers -/

theorem setFld (s : State) (f : Field) (v : Nat) : KeepsConns s (s.setFld f v) := of_conns rfl

theorem count (s : State) (f : Field) (n : Nat) : KeepsConns s (s.count f n) := setFld _ _ _

theorem mark (s : State) (b bit : Nat) : KeepsConns s (s.mark b bit) := (setFld _ _ _).trans (count _ _ _)

theorem free (s : State) : KeepsConns s s.free.2 := of_conns rfl

theorem sampleInto (s : State) (k : Nat) (v : Int) : KeepsConns s (s.sampleInto k v) := by
  unfold State.sampleInto
  exact (((ite (setFld _ _ _) (refl s)).trans (ite (setFld _ _ _) (refl _))).trans (count _ _ _)).trans (count _ _ _)

theorem sample (s : State) (source : Nat) (inst : List Nat) (v : Int) : KeepsConns s (s.sample source inst v) :=
  foldl (fun s k => ite (sampleInto s k v) (refl s)) _ s

/-! ## Packets -/

theorem pickPath (s : State) (entry : Nat) (avoid : Option Nat) : KeepsConns s (s.pickPath entry avoid).2 := by
  unfold State.pickPath
  dsimp only
  split <;> exact of_conns rfl

theorem datagram (s : State) (x : TxHeader) : KeepsConns s (s.datagram x) := by
  have h := pickPath s (s.entryOf x.dstNode x.dstDomain) none
  unfold State.datagram
  dsimp only
  split
  all_goals
    rename_i e
    rw [e] at h
    exact h.trans (of_conns rfl)

theorem dispatch (s : State) (u : Unacked) (avoid : Option Nat) (front : Bool) : KeepsConns s (s.dispatch u avoid front) := by
  have h := pickPath s u.entry avoid
  unfold State.dispatch
  split
  · rename_i e
    rw [e] at h
    exact h.trans (of_conns rfl)
  · rename_i e _
    rw [e] at h
    exact h.trans (of_conns rfl)

theorem pump (s : State) (k : Nat) : KeepsConns s (s.pump k) := foldl (fun s u => ite (dispatch s u none false) (refl s)) _ s

/-- Writing a record in the place of one keeps the others. -/
theorem mem_set_of_get {α : Type} {t : Tbl α} {k : Nat} {v w : α} (hv : Tbl.get t k = some v) {p : Nat × α} (hp : p ∈ t) :
    p ∈ Tbl.set t k w ∨ p = (k, v) := by
  induction t with
  | nil => cases hp
  | cons x t ih =>
    obtain ⟨k', v'⟩ := x
    unfold Tbl.set
    split
    · exact .inl (List.mem_cons_of_mem _ hp)
    · split
      · rename_i e
        subst e
        rw [Tbl.get_cons, if_pos rfl, Option.some_inj] at hv
        subst hv
        rcases List.mem_cons.mp hp with rfl | hp
        · exact .inr rfl
        · exact .inl (List.mem_cons_of_mem _ hp)
      · rename_i e
        rw [Tbl.get_cons, if_neg (Ne.symm e)] at hv
        rcases List.mem_cons.mp hp with rfl | hp
        · exact .inl List.mem_cons_self
        · exact (ih hv hp).imp (List.mem_cons_of_mem _) id

theorem packets (s : State) (k kind tc n : Nat) : KeepsConns s (s.packets k kind tc n) := by
  unfold State.packets
  split
  · exact refl s
  · rename_i c hc
    refine trans ⟨fun p hp => ?_, funext fun j => ?_⟩ (pump _ _)
    · rcases mem_set_of_get (w := { c with sendPsn := (c.sendPsn + (chunks n).length) % 2 ^ 24 }) hc hp with hp | rfl
      · exact ⟨p, hp, rfl, rfl⟩
      · exact ⟨_, Tbl.mem_of_get (Tbl.get_set_self _ _ _), rfl, rfl⟩
    · simp only [State.connView, Tbl.get_set]
      split
      · rename_i e
        simp [e, hc]
      · rfl

theorem packetsOn (s : State) (p : Nat → Conn → Bool) (kind tc n : Nat) : KeepsConns s (s.packetsOn p kind tc n) := by
  unfold State.packetsOn
  split
  · exact packets _ _ _ _ _
  · exact refl s

theorem wire (s : State) (m : Sent) : KeepsConns s (s.wire m) := by
  cases m
  case completion | eventMsg | loan | subCommand => exact packetsOn _ _ _ _ _
  case bulk | relayed => exact packets _ _ _ _ _
  case fmEvent | nak => exact datagram _ _
  case cmReply kind _ _ _ _ _ _ _ _ _ =>
    cases kind
    case accept | qpError => exact datagram _ _
    all_goals exact packetsOn _ _ _ _ _
  case mgmtReply path _ _ _ _ =>
    cases path
    case fm => exact datagram _ _
    all_goals exact refl s
  case ack k _ _ _ =>
    unfold State.wire
    dsimp only
    split
    · exact datagram _ _
    · exact refl s
  all_goals exact refl s

/-! ## Messages and events -/

theorem send (s : State) (m : Sent) : KeepsConns s (s.send m) := ite (trans (t := s.sendAside m) (of_conns rfl) (wire _ m)) (refl s)

theorem ring (s : State) (e : Event) : KeepsConns s (s.ring e) := by
  unfold State.ring
  refine ite (trans (trans (trans ?_ (setFld _ _ _)) ((setFld _ _ _).trans (count _ _ _))) (mark _ _ _)) (trans ?_ (setFld _ _ _))
  · exact of_conns rfl
  · exact of_conns rfl

theorem postFm (s : State) (e : Event) : KeepsConns s (s.postFm e) := (ring s e).trans (foldl (fun s _ => send s _) _ _)

theorem postTo (s : State) (qp node : Nat) (e : Event) : KeepsConns s (s.postTo qp node e) := (ring s e).trans (send _ _)

theorem postTenant (s : State) (tenant : Nat) (e : Event) : KeepsConns s (s.postTenant tenant e) := by
  refine (ring s e).trans (foldl (fun s a => ite (refl s) (trans ?_ (send _ _))) _ _)
  exact of_conns rfl

theorem reply (s : State) (op : Nat) (h : Head) (o : Outcome) : KeepsConns s (s.reply op h o) := by
  unfold State.reply
  split
  · exact refl s
  · exact ((free s).trans (sample _ _ _ _)).trans (send _ _)

end KeepsConns

end Sys2Proof.Machine
end

section
/-! SUPPORT. What dropping leaves and completing commands keeps: connections, shelfmarks and what has been sent (R86, R195). -/

namespace Sys2Proof.Machine

variable {s t u : State}

namespace KeepsConns

theorem changeCard (s : State) (n : Nat) (f : Card → Card) : KeepsConns s (s.changeCard n f) := by
  unfold State.changeCard
  split
  · exact ite (of_conns rfl) (of_conns rfl)
  · exact refl s

theorem sendRelease (s : State) (l slot n : Nat) (c : Card) : KeepsConns s (s.sendRelease l slot n c) :=
  (send s _).trans (ite (refl _) (of_conns rfl))

theorem unreserve (s : State) (m : Move) : KeepsConns s (s.unreserve m) := by
  unfold State.unreserve
  split
  · refine foldl (fun _ _ => ?_) _ _
    exact of_conns rfl
  · exact of_conns rfl

theorem releaseAcks (s : State) (m : Move) : KeepsConns s (s.releaseAcks m) := by
  unfold State.releaseAcks
  split
  · refine foldl (fun s a => ?_) _ _
    split
    · exact sendRelease _ _ _ _ _
    · exact refl s
  · exact refl s

theorem endMove (s : State) (m : Nat) (how : MoveEnd) : KeepsConns s (s.endMove m how) := by
  unfold State.endMove
  split
  · exact refl s
  · extract_lets n mover unqueued unpinned
    have h : KeepsConns unqueued unpinned := by
      refine foldl (fun _ _ => ?_) _ _
      exact of_conns rfl
    exact (of_conns rfl : KeepsConns s unqueued).trans (h.trans (of_conns rfl))

theorem abandonMoves (s : State) (card : Nat) : KeepsConns s (s.abandonMoves card) :=
  foldl (fun s (p : Nat × Move) => (((endMove s p.1 .passed).trans (unreserve _ p.2)).trans (releaseAcks _ p.2)).trans
    (foldl (fun s n => changeCard s n Card.settle) _ _)) _ s

theorem dropAnnexCopy (s : State) (card : Nat) : KeepsConns s (s.dropAnnexCopy card) := by
  unfold State.dropAnnexCopy
  split
  · exact refl s
  · exact of_conns rfl

theorem freeLeaf (s : State) (n : Nat) : KeepsConns s (s.freeLeaf n) := by
  unfold State.freeLeaf
  split
  · exact refl s
  · extract_lets moved dropped sent
    have hsent : KeepsConns dropped sent := by
      simp only [sent]
      split
      · exact sendRelease _ _ _ _ _
      · exact refl _
    exact (((abandonMoves s n).trans (dropAnnexCopy _ n)).trans hsent).trans (of_conns rfl)

theorem dropRef (s : State) (n : Nat) : KeepsConns s (s.dropRef n) := by
  unfold State.dropRef
  split
  · exact refl s
  · exact ite (changeCard _ _ _) (freeLeaf _ _)

theorem dropLeafAt (s : State) (slot layer head half block : Nat) : KeepsConns s (s.dropLeafAt slot layer head half block) := by
  unfold State.dropLeafAt
  split
  · exact refl s
  · exact (of_conns rfl : KeepsConns s (s.setEntry _ none)).trans (dropRef _ _)

end KeepsConns

/-! ## Shelfmarks that are taken away -/

/-- One shelfmark goes, if it stands. -/
theorem State.dropLeafAt_leaves (s : State) (slot layer head half block key : Nat) :
    Tbl.get (s.dropLeafAt slot layer head half block).cat.leaves key =
      if key = leafKey slot layer head half block then none else Tbl.get s.cat.leaves key := by
  unfold State.dropLeafAt
  split
  · rename_i hnone
    split
    · rename_i e
      exact e ▸ hnone
    · rfl
  · rw [(SameNames.dropRef _ _).leaves]
    exact Tbl.get_erase _ _ _

/-- The halves of some blocks of a sequence. -/
def halvesOf (halves : Nat) (bs : List (Nat × Nat × Nat)) : List ((Nat × Nat × Nat) × Nat) :=
  bs.flatMap fun x => (List.range halves).map fun f => (x, f)

theorem mem_halvesOf {halves : Nat} {bs : List (Nat × Nat × Nat)} {y : (Nat × Nat × Nat) × Nat} :
    y ∈ halvesOf halves bs ↔ y.1 ∈ bs ∧ y.2 < halves := by
  obtain ⟨x, f⟩ := y
  simp only [halvesOf, List.mem_flatMap, List.mem_map, List.mem_range, Prod.mk.injEq]
  constructor
  · rintro ⟨x', hx, f', hf, rfl, rfl⟩
    exact ⟨hx, hf⟩
  · rintro ⟨hx, hf⟩
    exact ⟨x, hx, f, hf, rfl, rfl⟩

/-- The state without the leaves of some halves of blocks. -/
def State.dropHalves (s : State) (slot : Nat) (l : List ((Nat × Nat × Nat) × Nat)) : State :=
  l.foldl (fun s y => s.dropLeafAt slot y.1.1 y.1.2.1 y.2 y.1.2.2) s

theorem State.dropHalves_leaves (slot key : Nat) (l : List ((Nat × Nat × Nat) × Nat)) :
    ∀ s : State, Tbl.get (s.dropHalves slot l).cat.leaves key =
      if ∃ y ∈ l, key = leafKey slot y.1.1 y.1.2.1 y.2 y.1.2.2 then none else Tbl.get s.cat.leaves key := by
  induction l with
  | nil =>
    intro s
    simp [State.dropHalves]
  | cons y l ih =>
    intro s
    refine (ih (s.dropLeafAt slot y.1.1 y.1.2.1 y.2 y.1.2.2)).trans ?_
    rw [State.dropLeafAt_leaves]
    by_cases hrest : ∃ z ∈ l, key = leafKey slot z.1.1 z.1.2.1 z.2 z.1.2.2
    · rw [if_pos hrest, if_pos (hrest.imp fun z hz => ⟨List.mem_cons_of_mem _ hz.1, hz.2⟩)]
    · rw [if_neg hrest]
      by_cases hkey : key = leafKey slot y.1.1 y.1.2.1 y.2 y.1.2.2
      · rw [if_pos hkey, if_pos ⟨y, List.mem_cons_self, hkey⟩]
      · rw [if_neg hkey, if_neg]
        rintro ⟨z, hz, hzkey⟩
        rcases List.mem_cons.mp hz with rfl | hz
        · exact hkey hzkey
        · exact hrest ⟨z, hz, hzkey⟩

theorem SameRun.dropHalves (s : State) (slot : Nat) (l : List ((Nat × Nat × Nat) × Nat)) : SameRun s (s.dropHalves slot l) :=
  foldl _ (fun s _ => dropLeafAt s _ _ _ _ _) l s

theorem KeepsConns.dropHalves (s : State) (slot : Nat) (l : List ((Nat × Nat × Nat) × Nat)) : KeepsConns s (s.dropHalves slot l) :=
  foldl (fun s _ => dropLeafAt s _ _ _ _ _) l s

/-! ## Commands that complete -/

theorem State.reply_sent {m : Sent} (op : Nat) (h : Head) (o : Outcome) (hm : m ∈ s.out) : m ∈ (s.reply op h o).out := by
  rw [State.reply_out]
  split
  · exact List.mem_append_left _ hm
  · exact hm

theorem State.complete_sent {m : Sent} (n : Nat) (o : Outcome) (hm : m ∈ s.out) : m ∈ (s.complete n o).out := by
  unfold State.complete
  split
  · exact hm
  · exact State.reply_sent _ _ _ ((State.dropKey_out s n).symm ▸ hm)

theorem SameNames.complete (s : State) (n : Nat) (o : Outcome) : SameNames s (s.complete n o) := by
  unfold State.complete
  split
  · exact refl s
  · obtain ⟨hseqs, hleaves, -⟩ := (OnlyOut.reply ((s.dropKey n).leave n) _ _ o).holdsSame
    refine trans ?_ ⟨hleaves, hseqs⟩
    rcases s.dropKey_cases n with h | ⟨i, h⟩
    all_goals
      rw [h]
      exact quiet

/-- What the settling of range commands keeps, besides completing them. -/
theorem State.settleRanges_keeps {P : State → Prop} (hcomplete : ∀ s n o, P s → P (s.complete n o)) (hs : P s) : P s.settleRanges := by
  refine foldl_keeps (fun s p hs => ?_) _ hs
  split
  · split
    · exact hs
    · split
      · exact hs
      · exact hcomplete _ _ _ hs
  · exact hs

/-! ## The counters and events of a FREE_RANGE (R87) -/

theorem OnlyOut.freeEvents (s : State) (h : Head) (st : Status) : OnlyOut s (s.freeEvents h st) := by
  unfold State.freeEvents
  extract_lets post
  have hpost (s : State) (kind : Nat) : OnlyOut s (post s kind) := by
    refine ite (refl s) (trans ?_ (postTo _ _ _ _))
    constructor <;> rfl
  split
  · exact (count _ _ _).trans (hpost _ _)
  · exact (count _ _ _).trans (hpost _ _)
  · exact (count _ _ _).trans (hpost _ _)
  · exact refl s

theorem KeepsConns.freeEvents (s : State) (h : Head) (st : Status) : KeepsConns s (s.freeEvents h st) := by
  unfold State.freeEvents
  extract_lets post
  have hpost (s : State) (kind : Nat) : KeepsConns s (post s kind) := by
    refine ite (refl s) (trans ?_ (postTo _ _ _ _))
    exact of_conns rfl
  split
  · exact (count _ _ _).trans (hpost _ _)
  · exact (count _ _ _).trans (hpost _ _)
  · exact (count _ _ _).trans (hpost _ _)
  · exact refl s

end Sys2Proof.Machine
end

section
/-! The obligation O13 (R86, R87, R223, R225, R226). -/

namespace Sys2Proof.Machine

variable {s t u w : State} {op r k slot : Nat} {h : Head} {b : RangeBody} {c : Conn}

/-! ## The commands that move leaves -/

theorem State.doRange_promote (s : State) (h : Head) (tenant r : Nat) (b : RangeBody) : s.doRange opPromote h tenant r b =
    let x := overBlocks (fun t => t.moveBlock none .demand .stack) s (s.rangeCards (handleSlot h.handle) b)
    x.2.endRange opPromote h tenant r x.1 := rfl

theorem State.doRange_demote (s : State) (h : Head) (tenant r : Nat) (b : RangeBody) : s.doRange opDemote h tenant r b =
    let x := overBlocks (fun t => t.moveBlock (some (s.seqAt (handleSlot h.handle)).tenant) .evict .annex) s
      (s.rangeCards (handleSlot h.handle) b)
    x.2.endRange opDemote h tenant r x.1 := rfl

theorem State.doRange_migrate (s : State) (h : Head) (tenant r : Nat) (b : RangeBody) : s.doRange opMigrate h tenant r b =
    let x := overBlocks (fun t => t.moveBlock (some (s.seqAt (handleSlot h.handle)).tenant) .evict (targetOf b)) s
      (s.rangeCards (handleSlot h.handle) b)
    x.2.endRange opMigrate h tenant r x.1 := rfl

/-- The commands that move leaves, each with whose leaves it takes and where it takes them. -/
def IsMove (i : Instr) (op : Nat) (owned : Bool) (dest : Dest) (h : Head) (b : RangeBody) : Prop :=
  (i = .promote h b ∧ op = opPromote ∧ owned = false ∧ dest = .stack) ∨
    (i = .demote h b ∧ op = opDemote ∧ owned = true ∧ dest = .annex) ∨
    (i = .migrate h b ∧ op = opMigrate ∧ owned = true ∧ dest = targetOf b)

/-- They go through the blocks of their range and end. -/
theorem doRange_moves {i : Instr} {owned : Bool} {dest : Dest} (hmove : IsMove i op owned dest h b) (s : State) (tenant r : Nat) :
    ∃ cls, s.doRange op h tenant r b =
      let x := overBlocks (fun t => t.moveBlock (if owned then some (s.seqAt (handleSlot h.handle)).tenant else none) cls dest) s
        (s.rangeCards (handleSlot h.handle) b)
      x.2.endRange op h tenant r x.1 := by
  rcases hmove with ⟨-, rfl, rfl, rfl⟩ | ⟨-, rfl, rfl, rfl⟩ | ⟨-, rfl, rfl, rfl⟩
  · exact ⟨_, s.doRange_promote h tenant r b⟩
  · exact ⟨_, s.doRange_demote h tenant r b⟩
  · exact ⟨_, s.doRange_migrate h tenant r b⟩

theorem isRange_of_isMove {i : Instr} {owned : Bool} {dest : Dest} (hmove : IsMove i op owned dest h b) : IsRange i op h b := by
  rcases hmove with ⟨rfl, rfl, -⟩ | ⟨rfl, rfl, -⟩ | ⟨rfl, rfl, -⟩
  · exact .inr (.inr (.inl ⟨rfl, rfl⟩))
  · exact .inr (.inr (.inr (.inl ⟨rfl, rfl⟩)))
  · exact .inr (.inr (.inr (.inr (.inl ⟨rfl, rfl⟩))))

theorem OnlyWalked.takesMove (hw : OnlyWalked s w) (owner : Option Nat) (dest : Dest) (n : Nat) :
    w.takesMove owner dest n = s.takesMove owner dest n := by
  obtain ⟨clb, fresh, rfl⟩ := hw
  rfl

/-! ## FREE_RANGE -/

theorem State.freeRange_eq (s : State) (slot : Nat) (b : RangeBody) : s.freeRange slot b =
    ((s.rangeBlocks slot b (isInside b)).length * (s.seqAt slot).halves,
      (s.rangeBlocks slot b fun x => touches b x && !isInside b x).length * (s.seqAt slot).halves,
      s.dropHalves slot (halvesOf (s.seqAt slot).halves (s.rangeBlocks slot b (isInside b)))) := by
  simp only [State.freeRange, State.dropHalves, halvesOf, List.foldl_flatMap, List.foldl_map]

theorem Seq.halves_pos (q : Seq) : 0 < q.halves := by
  unfold Seq.halves
  split <;> decide

theorem State.doRange_freeRange (s : State) (h : Head) (tenant r : Nat) (b : RangeBody) : s.doRange opFreeRange h tenant r b =
    let slot := handleSlot h.handle
    let inside := s.rangeBlocks slot b (isInside b)
    let edge := s.rangeBlocks slot b fun x => touches b x && !isInside b x
    let halves := (s.seqAt slot).halves
    if inside = [] then (s.freeEvents h .alreadyFree).reply opFreeRange h (Outcome.bare h .alreadyFree 0)
    else ((s.dropHalves slot (halvesOf halves inside)).reply opFreeRange h
      (rangeOutcome h (inside.length * halves) (edge.length * halves) false)).settleRanges := by
  have hpos := (s.seqAt (handleSlot h.handle)).halves_pos
  have hzero : (s.rangeBlocks (handleSlot h.handle) b (isInside b)).length * (s.seqAt (handleSlot h.handle)).halves = 0 ↔
      s.rangeBlocks (handleSlot h.handle) b (isInside b) = [] := by
    rw [Nat.mul_eq_zero, List.length_eq_zero_iff]
    exact or_iff_left (Nat.pos_iff_ne_zero.mp hpos)
  refine (show s.doRange opFreeRange h tenant r b = (let (n, k, t) := s.freeRange (handleSlot h.handle) b
    if n = 0 then (s.freeEvents h .alreadyFree).reply opFreeRange h (Outcome.bare h .alreadyFree 0)
    else (t.reply opFreeRange h (rangeOutcome h n k false)).settleRanges) from rfl).trans ?_
  rw [State.freeRange_eq]
  simp only [hzero]

section
variable (hreach : Reaches (.freeRange h b) opFreeRange h k c s) (hw : OnlyWalked (arrived s h) w)
include hreach hw

/-- A completion from a state with the same row, node and senders is sent. -/
theorem reply_sent_of_reaches (hrow : u.row = w.row) (hnode : u.node = w.node) (hconns : KeepsConns w u) (o : Outcome) :
    Sent.completion h.qp h.srcNode h.srcQp h.tag opFreeRange (s.row % 65536) o ∈ (u.reply opFreeRange h o).out := by
  obtain ⟨clb, fresh, rfl⟩ := hw
  obtain ⟨hruns, hfault⟩ := s.serves_of_refusesState (serves_of_reaches hreach)
  have hsend : (u.sender h).isSome := hconns.sender (Option.isSome_of_eq_some (sender_of_reaches hreach))
  rw [State.runs] at hruns
  rw [State.reply_out, State.runs, hnode, hrow, if_pos ⟨hsend, hruns, hfault⟩]
  exact List.mem_append_right _ (List.mem_singleton_self _)

/-- What a FREE_RANGE with blocks to free does to the shelfmarks. -/
theorem freeRange_frees (l : List ((Nat × Nat × Nat) × Nat)) (o : Outcome) :
    (((w.dropHalves slot l).reply opFreeRange h o).settleRanges).mem = s.mem ∧
      Sent.completion h.qp h.srcNode h.srcQp h.tag opFreeRange (s.row % 65536) o ∈
        (((w.dropHalves slot l).reply opFreeRange h o).settleRanges).out ∧
      ∀ key, Tbl.get (((w.dropHalves slot l).reply opFreeRange h o).settleRanges).cat.leaves key =
        if ∃ y ∈ l, key = leafKey slot y.1.1 y.1.2.1 y.2 y.1.2.2 then none else Tbl.get s.cat.leaves key := by
  have hrun := SameRun.dropHalves w slot l
  have hsent := reply_sent_of_reaches hreach hw (congrArg Clock.row hrun.clock) hrun.node (KeepsConns.dropHalves w slot l) o
  obtain ⟨-, hleaves, -, hmem, -⟩ := (OnlyOut.reply (w.dropHalves slot l) opFreeRange h o).holdsSame
  have hkeys (key : Nat) := State.dropHalves_leaves slot key l w
  have hheld : w.mem = s.mem ∧ w.cat.leaves = s.cat.leaves := by
    obtain ⟨clb, fresh, rfl⟩ := hw
    exact ⟨rfl, rfl⟩
  generalize (w.dropHalves slot l).reply opFreeRange h o = v at *
  have hnames : SameNames v v.settleRanges :=
    State.settleRanges_keeps (P := SameNames v) (fun s n o hs => hs.trans (SameNames.complete s n o)) (SameNames.refl v)
  refine ⟨?_, State.settleRanges_keeps (P := fun t => _ ∈ t.out) (fun s n o hs => State.complete_sent n o hs) hsent, fun key => ?_⟩
  · exact State.settleRanges_keeps (P := fun t => t.mem = s.mem) (fun s n o hs => (SameCourse.complete s n o).mem.trans hs)
      ((hmem.trans hrun.mem).trans hheld.1)
  · rw [hnames.leaves, hleaves, hkeys, hheld.2]

/-- A FREE_RANGE that finds only holes counts it, completes, and changes nothing held. -/
theorem freeRange_finds_holes (o : Outcome) : HoldsSame s ((w.freeEvents h .alreadyFree).reply opFreeRange h o) ∧
    Sent.completion h.qp h.srcNode h.srcQp h.tag opFreeRange (s.row % 65536) o ∈
      ((w.freeEvents h .alreadyFree).reply opFreeRange h o).out := by
  have hevents := OnlyOut.freeEvents w h .alreadyFree
  have hsent := reply_sent_of_reaches hreach hw (congrArg Clock.row hevents.clock) hevents.node
    (KeepsConns.freeEvents w h .alreadyFree) o
  have hheld : HoldsSame s w := by
    obtain ⟨clb, fresh, rfl⟩ := hw
    exact holdsSame_refl s
  exact ⟨holdsSame_trans hheld (hevents.trans (OnlyOut.reply _ _ _ _)).holdsSame, hsent⟩

end

/-- Settles O13: what a command that moves leaves has asked for after some blocks stays asked for, and FREE_RANGE drops the halves of
the blocks inside one by one. -/
theorem rangeCommandsComplete : Obligations.RangeCommandsComplete := by
  refine ⟨fun i op owned dest h b k c s hmove hcanon hreach hfail hl8 hfork => ?moves,
    fun h b k c s hreach hfail hcanon hl8 hfork => ⟨fun hinside => ?frees, fun hinside => ?holes⟩⟩
  case moves =>
    intro slot owner takes
    have hfork' : op ≠ opFreeRange ∧ op ≠ opDemote ∧ op ≠ opMigrate ∨ s.forkPending slot = false := by
      rcases hmove with ⟨-, rfl, -⟩ | ⟨-, rfl, -⟩ | ⟨-, rfl, -⟩
      · exact .inl (by decide)
      · exact .inr (hfork (by decide))
      · exact .inr (hfork (by decide))
    obtain ⟨w, hw, hexec⟩ := exec_range (isRange_of_isMove hmove) hreach hfail hl8 hfork'
    obtain ⟨cls, hrun⟩ := doRange_moves hmove w (actingTenant c h) s.row
    have hnumbered : MovesNumbered w := by
      obtain ⟨clb, fresh, rfl⟩ := hw
      exact ⟨hcanon.moves, hcanon.moveNumbers⟩
    have htakes (n : Nat) : w.takesMove owner dest n = true ↔ takes n := by
      rw [hw.takesMove]
      exact State.takesMove_iff
    have hdone := MovedBy.range hnumbered owner cls dest (s.rangeCards slot b)
    have hends := rangeEnds_endRange hreach hw (OnlyMarked.of_asked hdone.asked) (actingTenant c h) s.row
      (overBlocks (fun t => t.moveBlock owner cls dest) w (s.rangeCards slot b)).1
    have hrun' : w.doRange op h (actingTenant c h) s.row b =
        (overBlocks (fun t => t.moveBlock owner cls dest) w (s.rangeCards slot b)).2.endRange op h (actingTenant c h) s.row
          (overBlocks (fun t => t.moveBlock owner cls dest) w (s.rangeCards slot b)).1 := by
      obtain ⟨clb, fresh, rfl⟩ := hw
      exact hrun
    rw [hexec, hrun']
    generalize overBlocks (fun t => t.moveBlock owner cls dest) w (s.rangeCards slot b) = x at *
    obtain ⟨y, u⟩ := x
    have hcards : u.cat.cards = s.cat.cards := by
      obtain ⟨m, rfl⟩ := hdone.asked
      obtain ⟨clb, fresh, rfl⟩ := hw
      rfl
    refine ⟨_, rfl, hends.cards.trans hcards, hends.mem, fun n hn hn' => ?_, fun hnone => ?_, fun hsome => ?_⟩
    · obtain ⟨p, hp, hto⟩ := hdone.moves n hn ((htakes n).mpr hn')
      exact ⟨p, hends.mover ▸ hp, hto⟩
    · obtain ⟨haffected, hskipped, hmoves⟩ := hdone.none fun n hn => Bool.eq_false_iff.mpr fun ht => hnone n hn ((htakes n).mp ht)
      have hanswers := hends.answers hmoves
      dsimp only at haffected hskipped
      rwa [haffected, hskipped] at hanswers
    · obtain ⟨n, hn, hn'⟩ := hsome
      have hmoves := hdone.waits ⟨n, hn, (htakes n).mpr hn'⟩
      obtain ⟨hout, m, hcmd, hop, hhead, hm, -⟩ := hends.waits hmoves
      exact ⟨hout, m, hcmd, hop, hhead, hm ▸ hmoves⟩
  case frees =>
    obtain ⟨w, hw, hexec⟩ := exec_range (.inr (.inr (.inr (.inr (.inr ⟨rfl, rfl⟩))))) hreach hfail hl8 (.inr hfork)
    have hrun : w.doRange opFreeRange h (actingTenant c h) s.row b = _ := State.doRange_freeRange w h (actingTenant c h) s.row b
    have hblocks (p : Nat → Bool) : w.rangeBlocks (handleSlot h.handle) b p = s.rangeBlocks (handleSlot h.handle) b p := by
      obtain ⟨clb, fresh, rfl⟩ := hw
      rfl
    have hseq : w.seqAt (handleSlot h.handle) = s.seqAt (handleSlot h.handle) := by
      obtain ⟨clb, fresh, rfl⟩ := hw
      rfl
    simp only [hblocks, hseq, hinside, if_false] at hrun
    obtain ⟨hmem, hsent, hleaves⟩ := freeRange_frees hreach hw (slot := handleSlot h.handle)
      (halvesOf (s.seqAt (handleSlot h.handle)).halves (s.rangeBlocks (handleSlot h.handle) b (isInside b)))
      (rangeOutcome h ((s.rangeBlocks (handleSlot h.handle) b (isInside b)).length * (s.seqAt (handleSlot h.handle)).halves)
        ((s.rangeBlocks (handleSlot h.handle) b fun x => touches b x && !isInside b x).length *
          (s.seqAt (handleSlot h.handle)).halves) false)
    refine ⟨_, hexec.trans (congrArg Host.Outcome.next hrun), hmem, hsent, fun x hx f hf => ?_, fun key hother => ?_⟩
    · exact (hleaves _).trans (if_pos ⟨(x, f), mem_halvesOf.mpr ⟨hx, hf⟩, rfl⟩)
    · refine (hleaves key).trans (if_neg ?_)
      rintro ⟨y, hy, hkey⟩
      obtain ⟨hx, hf⟩ := mem_halvesOf.mp hy
      exact hother y.1 hx y.2 hf hkey
  case holes =>
    obtain ⟨w, hw, hexec⟩ := exec_range (.inr (.inr (.inr (.inr (.inr ⟨rfl, rfl⟩))))) hreach hfail hl8 (.inr hfork)
    have hrun : w.doRange opFreeRange h (actingTenant c h) s.row b = _ := State.doRange_freeRange w h (actingTenant c h) s.row b
    have hblocks (p : Nat → Bool) : w.rangeBlocks (handleSlot h.handle) b p = s.rangeBlocks (handleSlot h.handle) b p := by
      obtain ⟨clb, fresh, rfl⟩ := hw
      rfl
    simp only [hblocks, hinside, if_true] at hrun
    exact ⟨_, hexec.trans (congrArg Host.Outcome.next hrun), freeRange_finds_holes hreach hw _⟩

end Sys2Proof.Machine
end

section
/-! SUPPORT. What finding and publishing prefixes keeps: the course, the sequences and the senders (R239, R241 to R245). -/

namespace Sys2Proof.Machine

variable {s t u : State}

/-- `t` has the row, the node, the sequences and the connections of `s`, these but for their next PSN. -/
structure Steady (s t : State) : Prop where
  clock : t.clock = s.clock
  node : t.node = s.node
  seqs : t.cat.seqs = s.cat.seqs
  conns : KeepsConns s t

namespace Steady

theorem refl (s : State) : Steady s s := ⟨rfl, rfl, rfl, KeepsConns.refl s⟩

theorem trans (a : Steady s t) (b : Steady t u) : Steady s u :=
  ⟨b.clock.trans a.clock, b.node.trans a.node, b.seqs.trans a.seqs, a.conns.trans b.conns⟩

theorem foldl {α : Type} {f : State → α → State} (h : ∀ s x, Steady s (f s x)) (l : List α) (s : State) : Steady s (l.foldl f s) :=
  foldl_keeps (P := Steady s) (fun t x ht => ht.trans (h t x)) l (refl s)

theorem ite {c : Prop} [Decidable c] (a : Steady s t) (b : Steady s u) : Steady s (if c then t else u) := by
  split
  · exact a
  · exact b

/-- A change that reaches none of them. -/
theorem quiet (hclock : t.clock = s.clock := by rfl) (hnode : t.node = s.node := by rfl) (hseqs : t.cat.seqs = s.cat.seqs := by rfl)
    (hconns : t.xport.conns = s.xport.conns := by rfl) : Steady s t := ⟨hclock, hnode, hseqs, KeepsConns.of_conns hconns⟩

theorem of_out (h : OnlyOut s t) (hconns : KeepsConns s t) : Steady s t := by
  obtain ⟨hseqs, -⟩ := h.holdsSame
  exact ⟨h.clock, h.node, hseqs, hconns⟩

theorem of_linked (h : OnlyLinked s t) : Steady s t :=
  ⟨by rw [h.rest], h.node, h.seqs, KeepsConns.of_conns (congrArg Xport.conns h.xport)⟩

theorem of_run (h : SameRun s t) (hnames : SameNames s t) (hconns : KeepsConns s t) : Steady s t :=
  ⟨h.clock, h.node, hnames.seqs, hconns⟩

theorem row (h : Steady s t) : t.row = s.row := congrArg Clock.row h.clock

theorem seqAt (h : Steady s t) (x : Nat) : t.seqAt x = s.seqAt x := by rw [State.seqAt, State.seqAt, h.seqs]

/-- The node still serves what it served. -/
theorem refusesState (h : Steady s t) (op : Nat) : t.refusesState op = s.refusesState op := by
  unfold State.refusesState State.runs
  rw [h.node, h.row]

/-! ## The books -/

theorem count (s : State) (f : Field) (n : Nat) : Steady s (s.count f n) := of_out (OnlyOut.count _ _ _) (KeepsConns.count _ _ _)

theorem gauge (s : State) (kind unit weight : Nat) : Steady s (s.gauge kind unit weight) := quiet

theorem postFm (s : State) (e : Event) : Steady s (s.postFm e) := of_out (OnlyOut.postFm _ _) (KeepsConns.postFm _ _)

theorem postTenant (s : State) (tenant : Nat) (e : Event) : Steady s (s.postTenant tenant e) :=
  of_out (OnlyOut.postTenant _ _ _) (KeepsConns.postTenant _ _ _)

theorem promote (s : State) (cards : List Nat) : Steady s (s.promote cards) := ite (refl s) quiet

theorem changeCard (s : State) (n : Nat) (f : Card → Card) : Steady s (s.changeCard n f) := of_linked (OnlyLinked.changeCard _ _ _)

theorem loseQuiet (s : State) (n : Nat) : Steady s (s.loseQuiet n) := by
  unfold State.loseQuiet
  split
  · exact refl s
  · exact ite (refl s) ((of_run (SameRun.abandonMoves s n) (SameNames.abandonMoves s n) (KeepsConns.abandonMoves s n)).trans
      (changeCard _ _ _))

theorem postLost (s : State) (n : Nat) : Steady s (s.postLost n) := by
  unfold State.postLost
  split
  · exact refl s
  · exact postTenant _ _ _

theorem loseLeaf (s : State) (n : Nat) : Steady s (s.loseLeaf n) := foldl (fun s k => (loseQuiet s k).trans (postLost _ k)) _ s

theorem refFailed (s : State) (e : RefFail) : Steady s (s.refFailed e) := by
  cases e with
  | notResident cards => exact promote s cards
  | cacheLost cards => exact foldl loseLeaf cards s
  | noSpace => exact refl s

theorem returnPages (s : State) (ps : List Nat) : Steady s (s.returnPages ps) := quiet

/-! ## The Index -/

theorem putEntry (s : State) (n : Nat) (e : Entry) : Steady s (s.putEntry n e) := quiet

theorem departEntry (s : State) (n : Nat) : Steady s (s.departEntry n) := quiet

theorem setIndex (s : State) (x : Index) : Steady s { s with index := x } := quiet

theorem inShadow (s : State) (f : Shadow → Shadow) : Steady s (s.inShadow f) := quiet

theorem foundEntry (s : State) (n : Nat) : Steady s (s.foundEntry n) := by
  unfold State.foundEntry
  split
  · exact putEntry _ _ _
  · exact refl s

theorem verifyEntry (s : State) (n : Nat) : Steady s (s.verifyEntry n).2 := by
  unfold State.verifyEntry
  split
  · exact refl s
  · extract_lets failed
    have hfailed (s : State) : Steady s (failed s) :=
      ((count s _ _).trans (gauge _ _ _ _)).trans (postFm _ _)
    clear_value failed
    split
    · split
      · exact (hfailed s).trans (departEntry _ _)
      · split
        · exact refl s
        · exact (hfailed s).trans (setIndex _ _)
    · exact (hfailed s).trans (departEntry _ _)

theorem lookWord (sets : Nat → Bool) (word : Nat) (q : Seq) : ∀ (fuel : Nat) (s : State), Steady s (s.lookWord sets word q fuel).2
  | 0, s => refl s
  | fuel + 1, s => by
    unfold State.lookWord
    split
    · exact refl s
    · rename_i n _
      have hverify := verifyEntry s n
      split
      · rename_i e
        rwa [e] at hverify
      · rename_i e
        rw [e] at hverify
        exact hverify.trans (lookWord sets word q fuel _)
      · rename_i e
        rwa [e] at hverify

theorem attachBlock {slot handle block : Nat} {l : List (Nat × Nat × List Nat)} :
    ∀ {s t : State}, s.attachBlock slot handle block l = .ok t → Steady s t := by
  induction l with
  | nil =>
    intro s t h
    cases h
    exact refl s
  | cons x l ih =>
    obtain ⟨layer, hd, cs⟩ := x
    intro s t h
    unfold State.attachBlock at h
    split at h
    · cases h
    · rename_i href
      exact (of_linked ((OnlyLinked.takeRef href).trans (OnlyLinked.putCards _ _ _ _ _ _))).trans (ih h)

/-- Words are looked up, and attached, until one has no match. -/
theorem attachWords {sets : Nat → Bool} {slot handle : Nat} {q : Seq} {ws : List Nat} : ∀ {s t : State} {b : Nat} {used ns : List Nat},
    s.attachWords sets slot handle q b ws used = (.done ns, t) → Steady s t := by
  induction ws with
  | nil =>
    intro s t b used ns h
    cases h
    exact refl s
  | cons w ws ih =>
    intro s t b used ns h
    unfold State.attachWords at h
    have hlook := lookWord sets w q 2 s
    split at h
    · rename_i e
      rw [e] at hlook
      obtain ⟨-, rfl⟩ := Prod.mk.inj h
      exact hlook
    · rename_i n u e
      rw [e] at hlook
      extract_lets cards e' gone at h
      split at h
      · obtain ⟨-, rfl⟩ := Prod.mk.inj h
        exact ((hlook.trans (departEntry _ _)).trans (count _ _ _)).trans (postTenant _ _ _)
      · split at h
        · cases h
        · rename_i hattach
          exact ((hlook.trans (attachBlock hattach)).trans (foundEntry _ _)).trans (ih h)

/-! ## Publishing -/

theorem reserveRecords {q : Seq} {n : Nat} : ∀ {s t : State} {pss : List (List Nat)}, s.reserveRecords q n = some (pss, t) → Steady s t := by
  induction n with
  | zero =>
    intro s t pss h
    cases h
    exact refl s
  | succ n ih =>
    intro s t pss h
    obtain ⟨⟨ps, u⟩, hgrab, h⟩ := Option.bind_eq_some_iff.mp h
    obtain ⟨⟨rest, v⟩, hrest, h⟩ := Option.map_eq_some_iff.mp h
    obtain ⟨-, rfl⟩ := Prod.mk.inj h
    exact (of_linked (OnlyLinked.of_taken (OnlyTaken.grabPages hgrab))).trans (ih hrest)

theorem takeAll {handle : Nat} {l : List (List Nat)} : ∀ {s t : State} {ns : List Nat}, s.takeAll handle l = .ok (ns, t) → Steady s t := by
  induction l with
  | nil =>
    intro s t ns h
    cases h
    exact refl s
  | cons cs l ih =>
    intro s t ns h
    unfold State.takeAll at h
    split at h
    · cases h
    · rename_i href
      split at h
      · cases h
      · rename_i hrest
        cases h
        exact (of_linked (OnlyLinked.takeRef href)).trans (ih hrest)

theorem publishOne (s : State) (q : Seq) (slot handle tenant set priority block word : Nat) (pages : List Nat) :
    Steady s (s.publishOne q slot handle tenant set priority block word pages).2 := by
  unfold State.publishOne
  split
  · exact (returnPages s pages).trans (count _ _ _)
  split
  · exact returnPages s pages
  extract_lets full victim
  clear_value full victim
  rw [apply_ite Prod.snd]
  refine ite ((returnPages s pages).trans (count _ _ _)) ?_
  split
  · exact ((quiet : Steady s { s with fresh := s.fresh + 1 }).trans (returnPages _ pages)).trans (refFailed _ _)
  · rename_i cards t htake
    extract_lets gone
    have hgone : Steady s gone := by
      refine (takeAll htake).trans ?_
      unfold gone
      split
      · exact (departEntry _ _).trans (count _ _ _)
      · exact refl t
    split
    · rename_i e
      obtain ⟨-, rfl⟩ := Prod.mk.inj e
      exact hgone.trans quiet
    · rename_i e
      obtain ⟨-, rfl⟩ := Prod.mk.inj e
      extract_lets n wide marked put index recorded
      have hmarked : Steady gone marked := (quiet : Steady gone _).trans (foldl (fun s m => changeCard s m _) cards _)
      have hput : Steady marked put := putEntry _ _ _
      have hrecorded : Steady put recorded := setIndex put _
      exact ((hgone.trans hmarked).trans (hput.trans hrecorded)).trans (inShadow recorded fun x => x.addRecord n pages.length)

theorem publishAll (q : Seq) (slot handle tenant set priority : Nat) : ∀ (ws : List Nat) (pss : List (List Nat)) (b : Nat) (s : State),
    Steady s (s.publishAll q slot handle tenant set priority b ws pss).2
  | w :: ws, ps :: pss, b, s => (publishOne s q slot handle tenant set priority b w ps).trans
      (publishAll q slot handle tenant set priority ws pss (b + 1) _)
  | [], _, _, s => refl s
  | _ :: _, [], _, s => refl s

end Steady

end Sys2Proof.Machine
end

section
/-! The obligation O11 (R220, R221, R239). -/

namespace Sys2Proof.Machine

variable {s t u v : State} {op k slot : Nat} {h : Head} {b : ChainBody} {c : Conn} {o : Outcome}

/-- A PREFIX_FIND whose matches attach completes with their number. -/
theorem admitFind_finds {r : Nat} {ns : List Nat} (hs : s.sender h = some (k, c)) (hfail : findFail s c h b = none)
    (hl8 : s.work.l8 = [])
    (hattach : (s.walkHeads (handleSlot h.handle) (chainBlocks b)).attachWords (fun x => (findSets b).contains x) (handleSlot h.handle)
      h.handle (s.seqAt (handleSlot h.handle)) b.firstBlock (b.words.take b.count) [] = (.done ns, u)) :
    admitFind h b r s = (if ns = [] then u else u.setSeq (handleSlot h.handle)
      { u.seqAt (handleSlot h.handle) with lastUse := row48 u.row }).reply opPrefixFind h (Outcome.good h (.matched ns.length)) := by
  simp only [admitFind, hs, hfail, State.mustWait_eq_false (op := opPrefixFind) hl8 (Or.inl (by decide)), hattach,
    Bool.false_eq_true, if_false]

/-- A PREFIX_PUBLISH whose blocks publish completes with their results. -/
theorem admitPublish_publishes {r : Nat} {pss : List (List Nat)} {rs : List Nat} (hs : s.sender h = some (k, c))
    (hfail : publishFail s c h b = none) (hl8 : s.work.l8 = []) (hdamaged : (s.seqAt (handleSlot h.handle)).damaged = false)
    (hreserve : (s.walkHeads (handleSlot h.handle) (chainBlocks b)).reserveRecords (s.seqAt (handleSlot h.handle)) b.count =
      some (pss, u))
    (hpublish : u.publishAll (s.seqAt (handleSlot h.handle)) (handleSlot h.handle) h.handle (actingTenant c h) (b.banks % 16)
      b.priority b.firstBlock (b.words.take b.count) pss = (rs, v)) :
    admitPublish h b r s = (v.setSeq (handleSlot h.handle)
      { v.seqAt (handleSlot h.handle) with lastUse := row48 v.row }).reply opPrefixPublish h (publishOutcome h rs) := by
  simp only [admitPublish, hs, hfail, State.mustWait_eq_false (op := opPrefixPublish) hl8 (Or.inl (by decide)), hreserve, hdamaged,
    hpublish, Bool.false_eq_true, if_false]

namespace Steady

theorem walkHeads (s : State) (slot : Nat) (blocks : List Nat) : Steady s (s.walkHeads slot blocks) :=
  of_linked (OnlyLinked.of_walked (OnlyWalked.walkHeads s slot blocks))

/-- Where nothing else changed since the arrival, a completion answers. -/
theorem answers {i : Instr} (hreach : Reaches i op h k c s) (hu : Steady (arrived s h) u) : Answers u (u.reply op h o) op h o :=
  State.reply_answers_of_sender ((hu.refusesState op).trans (serves_of_reaches hreach)) rfl rfl rfl
    (hu.conns.sender (Option.isSome_of_eq_some (sender_of_reaches hreach)))

end Steady

/-- A sequence is used in this row and its command completes. -/
theorem State.useSeq_answers {i : Instr} (hreach : Reaches i op h k c s) (hv : Steady (arrived s h) v) :
    ∃ t, (v.setSeq slot { v.seqAt slot with lastUse := row48 v.row }).reply op h o = t ∧ Answers v t op h o ∧
      t.cat.leaves = v.cat.leaves ∧ t.cat.cards = v.cat.cards ∧ t.index = v.index ∧ t.mem = v.mem ∧
      t.seqAt slot = { v.seqAt slot with lastUse := row48 s.row } ∧ ∀ x, x ≠ slot → t.seqAt x = s.seqAt x := by
  have hsent := OnlyOut.reply (v.setSeq slot { v.seqAt slot with lastUse := row48 v.row }) op h o
  obtain ⟨-, hleaves, hcards, hmem, -⟩ := hsent.holdsSame
  have hrow : v.row = s.row := hv.row
  refine ⟨_, rfl, ?_, hleaves, hcards, hsent.index, hmem, ?_, fun x hx => ?_⟩
  · exact State.reply_answers_of_sender ((hv.refusesState op).trans (serves_of_reaches hreach)) rfl rfl rfl
      (hv.conns.sender (Option.isSome_of_eq_some (sender_of_reaches hreach)))
  · rw [hsent.seqAt, State.seqAt_setSeq_self, hrow]
  · rw [hsent.seqAt, State.seqAt_setSeq_ne _ _ hx, hv.seqAt]
    rfl

/-- Settles O11: finding and publishing leave the row, the node and the sender as they were at the arrival, so the completion that
follows them is the one message and the last use is this row. -/
theorem prefixCommandsComplete : Obligations.PrefixCommandsComplete := by
  refine ⟨fun h b k c s u ns hreach hfail hl8 hattach => ?finds,
    fun h b k c s u v pss rs hreach hfail hl8 hdamaged hreserve hpublish => ?publishes⟩
  case finds =>
    have hadmit := admitFind_finds (r := s.row) (sender_of_reaches hreach) hfail hl8 hattach
    have hu : Steady (arrived s h) u := (Steady.walkHeads _ _ _).trans (Steady.attachWords hattach)
    by_cases hns : ns = []
    · rw [if_pos hns] at hadmit
      have hsent := OnlyOut.reply u opPrefixFind h (Outcome.good h (.matched ns.length))
      obtain ⟨hseqs, hleaves, hcards, hmem, -⟩ := hsent.holdsSame
      exact ⟨_, (exec_of_reaches hreach).trans (congrArg Host.Outcome.next hadmit),
        Steady.answers hreach hu, hleaves, hcards, hsent.index, hmem,
        fun _ => hseqs, fun hne => absurd hns hne, fun x _ => (hsent.seqAt x).trans (hu.seqAt x)⟩
    · rw [if_neg hns] at hadmit
      obtain ⟨t, ht, hanswers, hleaves, hcards, hindex, hmem, hslot, hothers⟩ :=
        State.useSeq_answers hreach hu
      exact ⟨t, (exec_of_reaches hreach).trans (congrArg Host.Outcome.next (hadmit.trans ht)), hanswers, hleaves, hcards, hindex, hmem,
        fun he => absurd he hns, fun _ => hslot, hothers⟩
  case publishes =>
    have hadmit := admitPublish_publishes (r := s.row) (sender_of_reaches hreach) hfail hl8 hdamaged hreserve hpublish
    have hu : Steady (arrived s h) u := (Steady.walkHeads _ _ _).trans (Steady.reserveRecords hreserve)
    have hv := Steady.publishAll (s.seqAt (handleSlot h.handle)) (handleSlot h.handle) h.handle (actingTenant c h) (b.banks % 16)
      b.priority (b.words.take b.count) pss b.firstBlock u
    rw [hpublish] at hv
    obtain ⟨t, ht, hanswers, hleaves, hcards, hindex, hmem, hslot, hothers⟩ :=
      State.useSeq_answers hreach (hu.trans hv)
    exact ⟨t, (exec_of_reaches hreach).trans (congrArg Host.Outcome.next (hadmit.trans ht)), hanswers, hindex, hleaves, hcards, hmem,
      hslot, hothers⟩

end Sys2Proof.Machine
end

section
/-! SUPPORT. What the spray, single packets and retransmissions change (R305, R315 to R317). -/

namespace Sys2Proof.Machine

variable {s t u : State}

/-! ## Single packets -/

/-- `t` is `s` after some single packets: the spray, the sequences of paths, the class queues and what has been sent have changed. -/
def OnlyRouted (s t : State) : Prop := ∃ spray sent taken tm out,
  t = { s with xport := { s.xport with sprayAt := spray, pathSeq := sent, recvSeq := taken }, tm := tm, out := out }

namespace OnlyRouted

theorem refl (s : State) : OnlyRouted s s := ⟨_, _, _, _, _, rfl⟩

theorem trans (a : OnlyRouted s t) (b : OnlyRouted t u) : OnlyRouted s u := by
  obtain ⟨_, _, _, _, _, rfl⟩ := a
  obtain ⟨spray, sent, taken, tm, out, rfl⟩ := b
  exact ⟨spray, sent, taken, tm, out, rfl⟩

theorem foldl {α : Type} {f : State → α → State} (h : ∀ s x, OnlyRouted s (f s x)) (l : List α) (s : State) :
    OnlyRouted s (l.foldl f s) := foldl_keeps (P := OnlyRouted s) (fun t x ht => ht.trans (h t x)) l (refl s)

theorem ite {c : Prop} [Decidable c] (a : OnlyRouted s t) (b : OnlyRouted s u) : OnlyRouted s (if c then t else u) := by
  split
  · exact a
  · exact b

theorem conns (h : OnlyRouted s t) : t.xport.conns = s.xport.conns := by
  obtain ⟨_, _, _, _, _, rfl⟩ := h
  rfl

theorem unacked (h : OnlyRouted s t) : t.xport.unacked = s.xport.unacked := by
  obtain ⟨_, _, _, _, _, rfl⟩ := h
  rfl

theorem held (h : OnlyRouted s t) : t.xport.held = s.xport.held := by
  obtain ⟨_, _, _, _, _, rfl⟩ := h
  rfl

theorem inbox (h : OnlyRouted s t) : t.xport.inbox = s.xport.inbox := by
  obtain ⟨_, _, _, _, _, rfl⟩ := h
  rfl

theorem mem (h : OnlyRouted s t) : t.mem = s.mem := by
  obtain ⟨_, _, _, _, _, rfl⟩ := h
  rfl

theorem row (h : OnlyRouted s t) : t.row = s.row := by
  obtain ⟨_, _, _, _, _, rfl⟩ := h
  rfl

/-- The node sends as before. -/
theorem talks (h : OnlyRouted s t) (ht : Talks s) : Talks t := by
  obtain ⟨_, _, _, _, _, rfl⟩ := h
  exact ht

theorem pickPath (s : State) (entry : Nat) (avoid : Option Nat) : OnlyRouted s (s.pickPath entry avoid).2 := by
  unfold State.pickPath
  dsimp only
  split
  · exact refl s
  · exact ⟨_, _, _, _, _, rfl⟩

theorem datagram (s : State) (x : TxHeader) : OnlyRouted s (s.datagram x) := by
  have h := pickPath s (s.entryOf x.dstNode x.dstDomain) none
  unfold State.datagram
  dsimp only
  split
  · rename_i e
    rw [e] at h
    exact h.trans ⟨_, _, _, _, _, rfl⟩
  · rename_i e
    rwa [e] at h

theorem send {m : Sent} (hwire : ∀ s : State, OnlyRouted s (s.wire m)) (s : State) : OnlyRouted s (s.send m) :=
  ite (trans (t := { s with out := s.out ++ [m] }) ⟨_, _, _, _, _, rfl⟩ (hwire _)) (refl s)

theorem send_ack (s : State) (key tc next : Nat) (sack : Word) : OnlyRouted s (s.send (.ack key tc next sack)) :=
  send (fun s => by
    unfold State.wire
    dsimp only
    split
    · exact datagram _ _
    · exact refl s) s

theorem send_nak (s : State) (node domain tc path next gap : Nat) : OnlyRouted s (s.send (.nak node domain tc path next gap)) :=
  send (fun _ => datagram _ _) s

theorem send_fmEvent (s : State) (node : Nat) (e : Event) : OnlyRouted s (s.send (.fmEvent node e)) := send (fun _ => datagram _ _) s

theorem followPath (s : State) (k : Packet) : OnlyRouted s (s.followPath k) := by
  unfold State.followPath
  extract_lets key next gap xport followed
  have hfollowed : OnlyRouted s followed := ⟨_, _, _, _, _, rfl⟩
  exact ite (refl s) (ite hfollowed (hfollowed.trans (send_nak _ _ _ _ _ _ _)))

end OnlyRouted

/-! ## Acknowledgements -/

/-- The acknowledgements that some classes are owed go out, in order. -/
theorem State.sendAcks_out (ht : Talks s) (key next : Nat) (sack : Word) (l : List Nat) :
    (l.foldl (fun s tc => s.send (.ack key tc next sack)) s).out = s.out ++ l.map fun tc => Sent.ack key tc next sack := by
  induction l generalizing s with
  | nil => simp
  | cons tc l ih => simp [ih ((OnlyRouted.send_ack s key tc next sack).talks ht), State.send_out, ht.1, ht.2]

theorem State.get_setConn_self {key : Nat} {c : Conn} (f : Conn → Conn) (hc : Tbl.get s.xport.conns key = some c) :
    Tbl.get (s.setConn key f).xport.conns key = some (f c) := by
  simp [State.setConn, hc]

theorem State.sendAck_of_get {key : Nat} {c : Conn} (hc : Tbl.get s.xport.conns key = some c) : s.sendAck key =
    c.ackDue.foldl (fun s tc => s.send (.ack key tc c.nextPsn c.sack)) (s.setConn key fun c => { c with ackDue := [] }) := by
  rw [State.sendAck, hc]

theorem State.sendAck_routed {key : Nat} {c : Conn} (hc : Tbl.get s.xport.conns key = some c) :
    OnlyRouted (s.setConn key fun c => { c with ackDue := [] }) (s.sendAck key) := by
  rw [State.sendAck_of_get hc]
  exact OnlyRouted.foldl (fun s _ => OnlyRouted.send_ack s _ _ _ _) _ _

/-- ACK_SEND: every class owed is acknowledged, and nothing is owed any more. -/
theorem State.sendAck_sends {key : Nat} {c : Conn} (ht : Talks s) (hc : Tbl.get s.xport.conns key = some c) :
    (s.sendAck key).out = s.out ++ c.ackDue.map (fun tc => Sent.ack key tc c.nextPsn c.sack) ∧
      Tbl.get (s.sendAck key).xport.conns key = some { c with ackDue := [] } := by
  refine ⟨?_, ?_⟩
  · rw [State.sendAck_of_get hc]
    exact State.sendAcks_out (s := s.setConn key fun c => { c with ackDue := [] }) ht _ _ _ _
  · rw [(State.sendAck_routed hc).conns]
    exact State.get_setConn_self _ hc

/-! ## Packets sent again -/

/-- `t` is `s` after packets were sent, the first time or again: each keeps its place in sequence. -/
def OnlyResent (s t : State) : Prop := ∃ regs spray sent us tm,
  t = { s with regs := regs, xport := { s.xport with sprayAt := spray, pathSeq := sent, unacked := us }, tm := tm } ∧
    openPsns us = openPsns s.xport.unacked

namespace OnlyResent

theorem refl (s : State) : OnlyResent s s := ⟨_, _, _, _, _, rfl, rfl⟩

theorem trans (a : OnlyResent s t) (b : OnlyResent t u) : OnlyResent s u := by
  obtain ⟨_, _, _, _, _, rfl, ha⟩ := a
  obtain ⟨regs, spray, sent, us, tm, rfl, hb⟩ := b
  exact ⟨regs, spray, sent, us, tm, rfl, hb.trans ha⟩

theorem foldl {α : Type} {f : State → α → State} (h : ∀ s x, OnlyResent s (f s x)) (l : List α) (s : State) :
    OnlyResent s (l.foldl f s) := foldl_keeps (P := OnlyResent s) (fun t x ht => ht.trans (h t x)) l (refl s)

theorem ite {c : Prop} [Decidable c] (a : OnlyResent s t) (b : OnlyResent s u) : OnlyResent s (if c then t else u) := by
  split
  · exact a
  · exact b

theorem psns (h : OnlyResent s t) : openPsns t.xport.unacked = openPsns s.xport.unacked := by
  obtain ⟨_, _, _, _, _, rfl, h⟩ := h
  exact h

theorem conns (h : OnlyResent s t) : t.xport.conns = s.xport.conns := by
  obtain ⟨_, _, _, _, _, rfl, -⟩ := h
  rfl

theorem held (h : OnlyResent s t) : t.xport.held = s.xport.held := by
  obtain ⟨_, _, _, _, _, rfl, -⟩ := h
  rfl

theorem out (h : OnlyResent s t) : t.out = s.out := by
  obtain ⟨_, _, _, _, _, rfl, -⟩ := h
  rfl

theorem mem (h : OnlyResent s t) : t.mem = s.mem := by
  obtain ⟨_, _, _, _, _, rfl, -⟩ := h
  rfl

theorem setFld (s : State) (f : Field) (v : Nat) : OnlyResent s (s.setFld f v) := ⟨_, _, _, _, _, rfl, rfl⟩

theorem pickPath (s : State) (entry : Nat) (avoid : Option Nat) : OnlyResent s (s.pickPath entry avoid).2 := by
  unfold State.pickPath
  dsimp only
  split
  · exact refl s
  · exact ⟨_, _, _, _, _, rfl, rfl⟩

theorem enqueue (s : State) (x : TxHeader) (front : Bool) : OnlyResent s (s.enqueue x front) := ⟨_, _, _, _, _, rfl, rfl⟩

/-- A change of a packet that keeps its connection and its PSN. -/
theorem setUnacked (s : State) (key psn : Nat) {f : Unacked → Unacked} (hf : ∀ u, (f u).conn = u.conn ∧ (f u).psn = u.psn) :
    OnlyResent s (s.setUnacked key psn f) := by
  refine ⟨_, _, _, _, _, rfl, ?_⟩
  simp only [openPsns, List.map_map]
  refine List.map_congr_left fun u _ => ?_
  obtain ⟨hconn, hpsn⟩ := hf u
  simp only [Function.comp_apply]
  split
  · rw [hconn, hpsn]
  · rfl

theorem dispatch (s : State) (v : Unacked) (avoid : Option Nat) (front : Bool) : OnlyResent s (s.dispatch v avoid front) := by
  have h := pickPath s v.entry avoid
  unfold State.dispatch
  split
  · rename_i e
    rw [e] at h
    refine (h.trans (setUnacked _ _ _ ?_)).trans (enqueue _ _ _)
    exact fun _ => ⟨rfl, rfl⟩
  · rename_i e _
    rw [e] at h
    exact h.trans (setUnacked _ _ _ fun _ => ⟨rfl, rfl⟩)

theorem pump (s : State) (key : Nat) : OnlyResent s (s.pump key) := foldl (fun s v => ite (dispatch s v none false) (refl s)) _ s

theorem retransmit (s : State) (v : Unacked) : OnlyResent s (s.retransmit v) := (setFld s _ _).trans (dispatch _ _ _ _)

theorem resendWaiting (s : State) : OnlyResent s s.resendWaiting := foldl (fun s v => dispatch s v none true) _ s

end OnlyResent

end Sys2Proof.Machine
end

section
/-! SUPPORT. ACKs, NAKs, time-outs and unreachable peers (R316 to R318). -/

namespace Sys2Proof.Machine

variable {s t u : State} {key qp node peer : Nat}

/-! ## ACKs -/

/-- Leaving Error discards no packet: it waits until none is unacknowledged. -/
theorem State.leaveError_keeps (s : State) (key : Nat) : openPsns (s.leaveError key).xport.unacked = openPsns s.xport.unacked ∧
    (s.leaveError key).out = s.out ∧ (s.leaveError key).mem = s.mem := by
  unfold State.leaveError
  split
  · split
    · rename_i hleaves
      obtain ⟨-, -, -, hdrained⟩ := hleaves
      simp only [State.drained, Bool.not_eq_true', List.any_eq_false, decide_eq_true_eq] at hdrained
      refine ⟨congrArg openPsns (List.filter_eq_self.mpr fun v hv => ?_), rfl, rfl⟩
      simpa using hdrained v hv
    · exact ⟨rfl, rfl, rfl⟩
  · exact ⟨rfl, rfl, rfl⟩

/-- An ACK releases the packets it covers that were sent, and no other. -/
theorem State.takeAck_releases (cum : Nat) (sack : Word) (hkey : s.connTo qp node peer = some key) :
    (s.takeAck qp node peer cum sack).out = s.out ∧ (s.takeAck qp node peer cum sack).mem = s.mem ∧
      openPsns (s.takeAck qp node peer cum sack).xport.unacked = openPsns (s.xport.unacked.filter fun u =>
        !(u.conn = key && 0 < u.tries && acknowledges cum sack u.psn)) := by
  simp only [State.takeAck, hkey, List.partition_eq_filter_filter]
  generalize hu : ({ s with xport := { s.xport with unacked := _, ackRows := _ } } : State) = u
  have hpump := OnlyResent.pump u key
  obtain ⟨hpsns, hout, hmem⟩ := State.leaveError_keeps (u.pump key) key
  subst hu
  exact ⟨hout.trans hpump.out, hmem.trans hpump.mem, hpsns.trans hpump.psns⟩

/-! ## NAKs -/

/-- Where an entry has a path that is usable, the spray finds one. -/
theorem State.pickPath_finds {entry : Nat} (avoid : Option Nat) (hpaths : s.weightedPaths (s.usablePaths entry) ≠ []) :
    ∃ x n, (s.pickPath entry avoid).1 = some (x, n) := by
  unfold State.pickPath
  extract_lets all others ps i
  have hps : ps ≠ [] := by
    simp only [ps]
    split
    · exact hpaths
    · assumption
  have hlt : i % ps.length < ps.length := Nat.mod_lt _ (List.length_pos_iff.mpr hps)
  rw [List.getElem?_eq_getElem hlt]
  exact ⟨_, _, rfl⟩

/-- Counting a retransmission leaves the routing entries, so the usable paths. -/
theorem State.usablePaths_count (s : State) (n entry : Nat) : (s.count rRetransPackets n).usablePaths entry = s.usablePaths entry := by
  have hstored : (s.count rRetransPackets n).stored 0x038 (routeOffset entry) = s.stored 0x038 (routeOffset entry) := by
    refine State.stored_setFld_ne _ _ _ _ _ ?_
    simp only [regKey, routeOffset, rRetransPackets]
    omega
  simp only [State.usablePaths, State.paths, State.sprays, hstored, State.count_xport, State.count_ports]

/-- A packet that takes a path has one more sending, at this instant. -/
theorem State.dispatch_sends {v : Unacked} {avoid : Option Nat} (front : Bool) (hv : v ∈ s.xport.unacked)
    (hpaths : s.weightedPaths (s.usablePaths v.entry) ≠ []) (hconn : Tbl.get s.xport.conns v.conn ≠ none) :
    ∃ w ∈ (s.dispatch v avoid front).xport.unacked,
      w.conn = v.conn ∧ w.psn = v.psn ∧ w.tries = v.tries + 1 ∧ w.sent = s.now := by
  obtain ⟨c, hc⟩ := Option.ne_none_iff_exists'.mp hconn
  obtain ⟨x, n, hpick⟩ := State.pickPath_finds avoid hpaths
  have hrouted := OnlyRouted.pickPath s v.entry avoid
  obtain ⟨u, hu⟩ : ∃ u, s.pickPath v.entry avoid = (some (x, n), u) := ⟨_, Prod.ext hpick rfl⟩
  rw [hu] at hrouted
  have hv' : v ∈ u.xport.unacked := hrouted.unacked ▸ hv
  have hnow : u.now = s.now := by
    obtain ⟨_, _, _, _, _, rfl⟩ := hrouted
    rfl
  unfold State.dispatch
  rw [hu, hc]
  exact ⟨_, List.mem_map.mpr ⟨v, hv', if_pos ⟨rfl, rfl⟩⟩, rfl, rfl, rfl, hnow⟩

/-- So does one that is sent again. -/
theorem State.retransmit_sends {v : Unacked} (hv : v ∈ s.xport.unacked) (hpaths : s.weightedPaths (s.usablePaths v.entry) ≠ [])
    (hconn : Tbl.get s.xport.conns v.conn ≠ none) : ∃ w ∈ (s.retransmit v).xport.unacked,
      w.conn = v.conn ∧ w.psn = v.psn ∧ w.tries = v.tries + 1 ∧ w.sent = s.now := by
  have hxport := State.count_xport s rRetransPackets 1
  have hnow : (s.count rRetransPackets 1).now = s.now := by rw [State.now, State.now, State.count_clock]
  have hpaths' : (s.count rRetransPackets 1).weightedPaths ((s.count rRetransPackets 1).usablePaths v.entry) ≠ [] := by
    rw [State.usablePaths_count]
    simpa only [State.weightedPaths, State.count_ports] using hpaths
  have h := State.dispatch_sends (avoid := some v.path) true (by rwa [hxport]) hpaths' (by rwa [hxport])
  rwa [hnow] at h

/-! ## Time-outs -/

/-- An event to the fabric managers touches no queue pair. -/
theorem State.postFm_xport (s : State) (e : Event) : (s.postFm e).xport.conns = s.xport.conns ∧
    (s.postFm e).xport.unacked = s.xport.unacked ∧ (s.postFm e).xport.held = s.xport.held := by
  have hring : (s.ring e).xport = s.xport := by
    unfold State.ring
    dsimp only
    split <;> simp [State.mark]
  have hsent : OnlyRouted (s.ring e) (s.postFm e) := OnlyRouted.foldl (fun s _ => OnlyRouted.send_fmEvent s _ e) _ _
  exact ⟨hsent.conns.trans (congrArg Xport.conns hring), hsent.unacked.trans (congrArg Xport.unacked hring),
    hsent.held.trans (congrArg Xport.held hring)⟩

/-- A time-out of a path leaves the queue pairs and their packets. -/
theorem State.pathTimeout_keeps (s : State) (entry path : Nat) : (s.pathTimeout entry path).xport.conns = s.xport.conns ∧
    (s.pathTimeout entry path).xport.unacked = s.xport.unacked ∧ (s.pathTimeout entry path).mem = s.mem := by
  unfold State.pathTimeout
  extract_lets key rows timeouts noted held down
  split
  · exact ⟨rfl, rfl, rfl⟩
  · have hcount := State.count_xport down rRetransPathsDown 1
    obtain ⟨hconns, hunacked, -⟩ := State.postFm_xport (down.count rRetransPathsDown 1)
      { down.event 0x000C 0x038 (path / 8) with arg0 := entry }
    rw [hcount] at hconns hunacked
    exact ⟨hconns, hunacked, (State.postFm_mem _ _).trans (State.count_mem _ _ _)⟩

/-- How often in a row a path has timed out before. -/
def State.timedOut (s : State) (entry path : Nat) : Nat :=
  (((Tbl.get s.xport.timeouts (pathKey entry path)).getD []).filter (· = s.row)).length

/-- The third time holds the path down. -/
theorem State.pathTimeout_holds {entry path : Nat} (hfree : Tbl.get s.xport.held (pathKey entry path) = none)
    (htwo : s.timedOut entry path = 2) : Tbl.get (s.pathTimeout entry path).xport.held (pathKey entry path) = some (s.row + 4096) := by
  unfold State.pathTimeout
  extract_lets key rows timeouts noted held down
  have hrows : rows.length = 3 := congrArg (· + 1) htwo
  rw [if_neg (by simp [hrows, noted, timeouts, key, hfree])]
  obtain ⟨-, -, hheld⟩ := State.postFm_xport (down.count rRetransPathsDown 1)
    { down.event 0x000C 0x038 (path / 8) with arg0 := entry }
  rw [State.count_xport] at hheld
  exact (congrArg (Tbl.get · key) hheld).trans (Tbl.get_set_self _ _ _)

/-- An earlier time does not. -/
theorem State.pathTimeout_held {entry path : Nat} (hfew : s.timedOut entry path < 2) :
    (s.pathTimeout entry path).xport.held = s.xport.held := by
  unfold State.pathTimeout
  extract_lets key rows timeouts noted held down
  have hrows : rows.length < 3 := Nat.succ_lt_succ hfew
  rw [if_pos (Or.inl hrows)]

/-- A packet whose time is up goes out again, and its path has timed out once more. -/
theorem State.expireAck_expires {psn ns : Nat} {v : Unacked} (hkey : s.connTo qp node peer = some key)
    (hv : (s.xport.unacked.find? fun u => u.conn = key && u.psn = psn && 0 < u.tries && !u.resend &&
      u.sent + s.fld rTimersAckTimeout ≤ (s.tick ns).now) = some v) :
    OnlyResent (((s.tick ns).count rRetransTimeouts 1).pathTimeout v.entry v.path) (s.expireAck qp node peer psn ns) := by
  have hkey' : (s.tick ns).connTo qp node peer = some key := hkey
  unfold State.expireAck
  simp only [hkey']
  split
  · rename_i hnone
    exact nomatch hnone.symm.trans hv
  · rename_i w hw
    obtain rfl : w = v := Option.some_inj.mp (hw.symm.trans hv)
    exact OnlyResent.retransmit _ _

/-- Before its time is up nothing happens. -/
theorem State.expireAck_waits {psn ns : Nat} (hkey : s.connTo qp node peer = some key)
    (hearly : ∀ u ∈ s.xport.unacked, u.conn = key → u.psn = psn → (s.tick ns).now < u.sent + s.fld rTimersAckTimeout) :
    s.expireAck qp node peer psn ns = s.tick ns := by
  have hkey' : (s.tick ns).connTo qp node peer = some key := hkey
  have hnone : ((s.tick ns).xport.unacked.find? fun u => u.conn = key && u.psn = psn && 0 < u.tries && !u.resend &&
      u.sent + (s.tick ns).fld rTimersAckTimeout ≤ (s.tick ns).now) = none := by
    refine List.find?_eq_none.mpr fun u hu => ?_
    have := hearly u hu
    have hfld : (s.tick ns).fld rTimersAckTimeout = s.fld rTimersAckTimeout := rfl
    simp only [Bool.and_eq_true, decide_eq_true_eq, hfld]
    rintro ⟨⟨⟨⟨hconn, hpsn⟩, -⟩, -⟩, hdue⟩
    exact absurd hdue (Nat.not_le.mpr (this hconn hpsn))
  unfold State.expireAck
  simp only [hkey', hnone]

/-! ## Unreachable peers -/

theorem KeepsConns.complete (s : State) (n : Nat) (o : Outcome) : KeepsConns s (s.complete n o) := by
  unfold State.complete
  split
  · exact refl s
  · refine trans (t := (s.dropKey n).leave n) ?_ (reply _ _ _ _)
    rcases s.dropKey_cases n with h | ⟨i, h⟩
    all_goals
      rw [h]
      exact of_conns rfl

/-- Losing the loans of a lender leaves the connections. -/
theorem KeepsConns.loseLoans (s : State) (lender : Nat) : KeepsConns s (s.loseLoans lender) := by
  unfold State.loseLoans
  extract_lets lost
  have hlost : KeepsConns s lost := foldl (fun s (p : Nat × Card) => (Steady.loseLeaf s p.1).conns) _ s
  refine State.settleRanges_keeps (fun t n o ht => ht.trans (complete t n o)) (hlost.trans ?_)
  exact of_conns rfl

theorem State.qpError_row (s : State) (k cause : Nat) : (s.qpError k cause).row = s.row := by
  unfold State.qpError
  split
  · rfl
  · split
    · rw [State.row, State.row, (OnlyOut.dropWaiting _ _ _).clock]
      exact congrArg Clock.row ((State.send_clock _ _).trans (State.count_clock _ _ _))
    · rfl

/-- Every open connection of a list enters Error with the cause, in this row. -/
theorem State.foldl_qpError_errs {k cause : Nat} {c : Conn} (ho : c.isOpen) (ks : List Nat) (hk : k ∈ ks) :
    ∀ s : State, s.connView k = some c → (ks.foldl (fun s j => s.qpError j cause) s).connView k =
      some { c with state := .error, cause := cause, since := s.row } := by
  induction ks with
  | nil => cases hk
  | cons j ks ih =>
    intro s h
    by_cases e : k = j
    · subst e
      exact State.foldl_qpError_stays rfl ks _ (State.qpError_connView_self h ho)
    · have hrest := ih ((List.mem_cons.mp hk).resolve_left e) _ ((State.qpError_connView_ne (cause := cause) e).trans h)
      rwa [State.qpError_row] at hrest

/-- A connection by its view. -/
theorem State.get_of_connView {k : Nat} {c : Conn} (h : s.connView k = some c) :
    ∃ d, Tbl.get s.xport.conns k = some d ∧ { d with sendPsn := 0 } = c := Option.map_eq_some_iff.mp h

/-- The queue pairs of a peer that is lost enter Error. -/
theorem State.losePeer_errs {domain k : Nat} {c : Conn} (hlost : s.lostPeer node domain = true) (hc : Tbl.get s.xport.conns k = some c)
    (hnode : c.peerNode = node) (hdomain : c.peerDomain = domain) (ho : c.isOpen) :
    ∃ c', Tbl.get (s.losePeer node domain).xport.conns k = some c' ∧ c'.state = .error ∧ c'.cause = 3 ∧ c'.since = s.row := by
  have hview : s.connView k = some { c with sendPsn := 0 } := by simp [State.connView, hc]
  have hk : k ∈ (s.xport.conns.filter fun p => p.2.peerNode = node && p.2.peerDomain = domain).map Prod.fst :=
    List.mem_map.mpr ⟨(k, c), List.mem_filter.mpr ⟨Tbl.mem_of_get hc, by simp [hnode, hdomain]⟩, rfl⟩
  have herrs := State.foldl_qpError_errs (c := { c with sendPsn := 0 }) (cause := 3) ho _ hk s hview
  unfold State.losePeer
  rw [if_neg (by simp [hlost])]
  extract_lets ks erred event posted
  have hposted : KeepsConns erred posted := KeepsConns.postFm _ _
  have hleft : KeepsConns erred (if domain = posted.domain then posted.loseLoans node else posted) :=
    KeepsConns.ite (hposted.trans (KeepsConns.loseLoans _ _)) hposted
  obtain ⟨d, hd, hconn⟩ := State.get_of_connView ((congrFun hleft.view k).trans herrs)
  exact ⟨d, hd, (congrArg Conn.state hconn :), (congrArg Conn.cause hconn :), (congrArg Conn.since hconn :)⟩

end Sys2Proof.Machine
end

section
/-! The obligation O46 (R196, R198, R315 to R318). -/

namespace Sys2Proof.Machine

variable {s t u : State} {key : Nat} {c : Conn} {k : Packet} {m : List Byte}

/-! ## A packet that is next in order and a whole message -/

/-- `t` is `s` but for its connections. -/
def OnlyConns (s t : State) : Prop := ∃ conns, t = { s with xport := { s.xport with conns := conns } }

theorem OnlyConns.trans (a : OnlyConns s t) (b : OnlyConns t u) : OnlyConns s u := by
  obtain ⟨_, rfl⟩ := a
  obtain ⟨conns, rfl⟩ := b
  exact ⟨conns, rfl⟩

theorem OnlyConns.setConn (s : State) (key : Nat) (f : Conn → Conn) : OnlyConns s (s.setConn key f) := ⟨_, rfl⟩

/-- The connection once it has taken a packet that is next in order and a whole message. -/
def Conn.took (c : Conn) (tc : Nat) : Conn :=
  { c with buffered := [], assembling := [], ackDue := addNum c.ackDue tc, nextPsn := (c.nextPsn + 1) % 2 ^ 24 }

theorem State.inOrder_one (hc : Tbl.get s.xport.conns key = some c) (hbuffered : c.buffered = [k]) (hpsn : k.psn = c.nextPsn) :
    s.inOrder key 1 = (s.setConn key fun c => { c with buffered := c.buffered.filter fun x => x.psn ≠ k.psn }).takeNext key k := by
  simp [State.inOrder, hc, hbuffered, hpsn]

theorem State.takeNext_whole (hc : Tbl.get s.xport.conns key = some c) (hassembling : c.assembling = []) (hfirst : k.first = true)
    (hlast : k.last = true) (hlen : k.payload.length ≤ messageMax) : s.takeNext key k =
      ((s.setConn key fun c => { c with nextPsn := (c.nextPsn + 1) % 2 ^ 24 }).setConn key fun c =>
        { c with assembling := [] }).wholeMessage key c k k.payload := by
  have htake : k.payload.take (messageMax + 1) = k.payload := List.take_of_length_le (Nat.le_succ_of_le hlen)
  simp [State.takeNext, hc, hassembling, hfirst, hlast, htake]

/-- Nothing lies between a PSN and itself. -/
theorem psnAhead_self (n : Nat) : psnAhead n n = 0 := by simp [psnAhead]

/-- A packet that the connection takes next, a whole message that is well formed and that the pool has room for. -/
structure WholeNext (s : State) (key : Nat) (c : Conn) (k : Packet) : Prop where
  kind : k.kind = 0
  found : Tbl.get s.xport.conns key = some c
  ready : c.state = .ready
  inClass : s.classOk c k = true
  next : k.psn = c.nextPsn
  buffered : c.buffered = []
  assembling : c.assembling = []
  first : k.first = true
  last : k.last = true
  length : k.payload.length ≤ messageMax
  room : k.tc ≤ 4 → s.poolUsed + k.payload.length ≤ poolLimit
  unissued : (s.xport.issued.any fun i => i.conn = key) = false
  wellFormed : c.malformed k k.payload = false

/-- The opcode in its message. -/
def opOf (c : Conn) (k : Packet) : Nat := num (if c.relay then k.payload.drop 8 else k.payload) 0 1

/-- Single packets between leave it so. -/
theorem WholeNext.routed (a : WholeNext s key c k) (h : OnlyRouted s t) : WholeNext t key c k := by
  obtain ⟨_, _, _, _, _, rfl⟩ := h
  exact ⟨a.kind, a.found, a.ready, a.inClass, a.next, a.buffered, a.assembling, a.first, a.last, a.length, a.room, a.unissued,
    a.wellFormed⟩

/-- Such a packet is taken, its message is handed on, and what is owed is acknowledged. -/
theorem State.takePacket_whole (a : WholeNext s key c k) : ∃ t, OnlyConns s t ∧ Tbl.get t.xport.conns key = some (c.took k.tc) ∧
    s.takePacket key c k =
      (t.wholeMessage key { c with buffered := [], ackDue := addNum c.ackDue k.tc } k k.payload).sendAck key := by
  obtain ⟨-, hc, -, hclass, hpsn, hbuffered, hassembling, hfirst, hlast, hlen, hpool, -, -⟩ := a
  have hroom : ¬ (k.kind = 0 ∧ k.tc ≤ 4 ∧ poolLimit < s.poolUsed + k.payload.length) :=
    fun ⟨_, htc, hfull⟩ => absurd (hpool htc) (Nat.not_le.mpr hfull)
  unfold State.takePacket
  extract_lets ahead w v
  have hw : Tbl.get w.xport.conns key = some { c with buffered := [k], ackDue := addNum c.ackDue k.tc } := by
    simp [w, State.oweAck, State.setConn, hc, hbuffered]
  have hconns : OnlyConns s w := (OnlyConns.setConn s _ _).trans (OnlyConns.setConn _ _ _)
  have hahead : ahead = 0 := by
    simp only [ahead, hpsn]
    exact psnAhead_self _
  have hv : v = w.inOrder key 1 := by simp only [v, hbuffered, List.length_nil]
  clear_value v w
  rw [hv, State.inOrder_one hw rfl hpsn]
  have hx := State.get_setConn_self (fun c => { c with buffered := c.buffered.filter fun x => x.psn ≠ k.psn }) hw
  have hxconns := hconns.trans (OnlyConns.setConn w key fun c => { c with buffered := c.buffered.filter fun x => x.psn ≠ k.psn })
  generalize (w.setConn key fun c => { c with buffered := c.buffered.filter fun x => x.psn ≠ k.psn }) = x at hx hxconns ⊢
  simp only [ne_eq, List.filter_cons, not_true_eq_false, decide_false, Bool.false_eq_true, if_false, List.filter_nil] at hx
  rw [State.takeNext_whole hx hassembling hfirst hlast hlen]
  refine ⟨_, (hxconns.trans (OnlyConns.setConn _ key fun c => { c with nextPsn := (c.nextPsn + 1) % 2 ^ 24 })).trans
    (OnlyConns.setConn _ key fun c => { c with assembling := [] }), ?_, ?_⟩
  · exact State.get_setConn_self _ (State.get_setConn_self _ hx)
  · simp [hclass, hahead, hbuffered, hroom, hlast]

/-! ## Where a whole message goes -/

/-- It is delivered where it goes on to its reader. -/
theorem State.wholeMessage_delivers (hready : c.state = .ready) (hissued : (s.xport.issued.any fun i => i.conn = key) = false)
    (hwell : c.malformed k m = false) (hlen : m.length ≤ messageMax)
    (hgoes : GoesOn s c k (num (if c.relay then m.drop 8 else m) 0 1)) : s.wholeMessage key c k m = s.deliver key m := by
  have htake : m.take messageMax = m := List.take_of_length_le hlen
  unfold State.wholeMessage
  rw [if_neg (by simp [hready]), if_neg (by simp [hissued]), if_neg (by simp [hwell]), htake]
  split
  · rfl
  · rename_i hread
    rcases hgoes with htc | hcls | henv | ⟨hop, hserves⟩
    · exact absurd (.inr (.inl htc)) hread
    · exact absurd (.inr (.inr (.inl hcls))) hread
    · exact absurd (.inr (.inr (.inr henv))) hread
    · simp [State.messageFail, hserves, hop, Nat.not_lt.mpr hlen]

/-- A command with an opcode that is not assigned is refused. -/
theorem State.wholeMessage_refuses (hkind : k.kind = 0) (hready : c.state = .ready)
    (hissued : (s.xport.issued.any fun i => i.conn = key) = false) (hwell : c.malformed k m = false) (htc : k.tc ≠ 5)
    (hcls : c.cls ≠ 2) (henv : s.enveloped c = false)
    (hserves : s.refusesState (num (if c.relay then m.drop 8 else m) 0 1) = false)
    (hop : num (if c.relay then m.drop 8 else m) 0 1 ∉ assignedOps) : s.wholeMessage key c k m =
      s.reply (num (if c.relay then m.drop 8 else m) 0 1) (headerOf key c m s.clock.ns)
        (Outcome.noRes (headerOf key c m s.clock.ns) 0x2) := by
  unfold State.wholeMessage
  rw [if_neg (by simp [hready]), if_neg (by simp [hissued]), if_neg (by simp [hwell]), if_neg (by simp [hkind, htc, hcls, henv])]
  simp [State.messageFail, hserves, hop, hready]

/-- With nothing buffered no SACK bit is set. -/
theorem Conn.sack_of_none (h : c.buffered = []) : c.sack = 0 := by
  have hfold (l : List Nat) : l.foldl (fun m i => if c.buffered.any fun k => k.psn = (c.nextPsn + 1 + i) % 2 ^ 24 then m + 2 ^ i else m)
      0 = 0 := by
    induction l with
    | nil => rfl
    | cons i l ih => simp [h]
  rw [Conn.sack, hfold]
  rfl

/-- Acknowledging leaves what is delivered, and takes back nothing that was sent. -/
theorem State.sendAck_keeps (s : State) (key : Nat) : (s.sendAck key).xport.inbox = s.xport.inbox ∧ (s.sendAck key).mem = s.mem ∧
    ∀ x ∈ s.out, x ∈ (s.sendAck key).out := by
  cases hc : Tbl.get s.xport.conns key with
  | none =>
    rw [State.sendAck, hc]
    exact ⟨rfl, rfl, fun _ hx => hx⟩
  | some c =>
    have hrouted := State.sendAck_routed hc
    refine ⟨hrouted.inbox, hrouted.mem, fun x hx => ?_⟩
    rw [State.sendAck_of_get hc]
    exact foldl_keeps (P := fun t => x ∈ State.out t) (fun t tc ht => State.send_mem_out ht) _ hx

/-! ## Receipt of a packet of a queue pair -/

/-- A packet for a queue pair is counted on its path and taken. -/
theorem State.receivePacket_takes (hqp : 4 ≤ k.dstQp) (hkind : k.kind = 0)
    (hconn : s.conn k.dstQp k.srcNode k.srcDomain k.srcQp = some (key, c)) :
    s.receivePacket k = (s.followPath k).takePacket key c k := by
  have hconn' : (s.followPath k).conn k.dstQp k.srcNode k.srcDomain k.srcQp = some (key, c) := by
    rw [State.conn, (OnlyRouted.followPath s k).conns]
    exact hconn
  unfold State.receivePacket
  rw [if_neg (by simp [hkind]), if_neg (Nat.not_lt.mpr hqp), hconn']

/-- One that is next in order and a whole message, where it goes on: it is delivered and acknowledged. -/
theorem State.takePacket_delivers (htalks : Talks s) (a : WholeNext s key c k) (hgoes : GoesOn s c k (opOf c k)) :
    Tbl.get (s.takePacket key c k).xport.conns key = some { c.took k.tc with ackDue := [] } ∧
      (s.takePacket key c k).xport.inbox = s.xport.inbox ++ [(key, k.payload)] ∧
      (∀ tc, tc = k.tc ∨ tc ∈ c.ackDue → Sent.ack key tc ((c.nextPsn + 1) % 2 ^ 24) 0 ∈ (s.takePacket key c k).out) ∧
      (s.takePacket key c k).mem = s.mem := by
  obtain ⟨t, hconns, htook, htakes⟩ := State.takePacket_whole a
  have hdelivers : t.wholeMessage key { c with buffered := [], ackDue := addNum c.ackDue k.tc } k k.payload =
      t.deliver key k.payload := by
    obtain ⟨_, rfl⟩ := hconns
    exact State.wholeMessage_delivers a.ready a.unissued a.wellFormed a.length hgoes
  have htalks' : Talks t := by
    obtain ⟨_, rfl⟩ := hconns
    exact htalks
  have hstart : t.xport.inbox = s.xport.inbox ∧ t.mem = s.mem := by
    obtain ⟨_, rfl⟩ := hconns
    exact ⟨rfl, rfl⟩
  obtain ⟨hout, hget⟩ := State.sendAck_sends (s := t.deliver key k.payload) htalks' htook
  obtain ⟨hinbox, hmem, -⟩ := State.sendAck_keeps (t.deliver key k.payload) key
  rw [htakes, hdelivers]
  refine ⟨hget, hinbox.trans (congrArg (· ++ [(key, k.payload)]) hstart.1), fun tc htc => ?_, hmem.trans hstart.2⟩
  rw [hout, Conn.sack_of_none rfl]
  exact List.mem_append_right _ (List.mem_map.mpr ⟨tc, mem_addNum.mpr htc, rfl⟩)

/-- The head of the command in it. -/
abbrev packetHead (s : State) (key : Nat) (c : Conn) (k : Packet) : Head := headerOf key c k.payload s.clock.ns

/-- One whose command has an opcode that is not assigned is answered. -/
theorem State.takePacket_refuses (htalks : Talks s) (a : WholeNext s key c k) (htc : k.tc ≠ 5) (hcls : c.cls ≠ 2)
    (henv : s.enveloped c = false) (hserves : s.refusesState (opOf c k) = false) (hop : opOf c k ∉ assignedOps) :
    (s.takePacket key c k).xport.inbox = s.xport.inbox ∧
      Sent.completion (connQp key) c.peerNode c.peerQp (packetHead s key c k).tag (opOf c k) (s.row % 65536)
        (Outcome.noRes (packetHead s key c k) 0x2) ∈ (s.takePacket key c k).out ∧
      (s.takePacket key c k).mem = s.mem := by
  obtain ⟨t, hconns, htook, htakes⟩ := State.takePacket_whole a
  have hrefuses : t.wholeMessage key { c with buffered := [], ackDue := addNum c.ackDue k.tc } k k.payload =
      t.reply (opOf c k) (packetHead s key c k) (Outcome.noRes (packetHead s key c k) 0x2) := by
    obtain ⟨_, rfl⟩ := hconns
    exact State.wholeMessage_refuses a.kind a.ready a.unissued a.wellFormed htc hcls henv hserves hop
  have hsends : t.runs = true ∧ t.node.state ≠ .fault ∧ t.row = s.row := by
    obtain ⟨_, rfl⟩ := hconns
    exact ⟨htalks.1, htalks.2, rfl⟩
  have hstart : t.xport.inbox = s.xport.inbox ∧ t.mem = s.mem := by
    obtain ⟨_, rfl⟩ := hconns
    exact ⟨rfl, rfl⟩
  have hsent := OnlyOut.reply t (opOf c k) (packetHead s key c k) (Outcome.noRes (packetHead s key c k) 0x2)
  obtain ⟨hruns, hfault, hrow⟩ := hsends
  have hsender : (t.sender (packetHead s key c k)).isSome = true :=
    List.find?_isSome.mpr ⟨_, Tbl.mem_of_get htook, by simp [Conn.isOf, headerOf, Conn.took, a.ready]⟩
  rw [htakes, hrefuses]
  obtain ⟨hinbox, hmem, hout⟩ :=
    State.sendAck_keeps (t.reply (opOf c k) (packetHead s key c k) (Outcome.noRes (packetHead s key c k) 0x2)) key
  refine ⟨hinbox.trans (hsent.inbox.trans hstart.1), hout _ ?_, hmem.trans (hsent.mem.trans hstart.2)⟩
  rw [State.reply_out, if_pos ⟨hsender, hruns, hfault⟩, hrow]
  exact List.mem_append_right _ List.mem_cons_self

/-- One that was taken before is acknowledged again. -/
theorem State.takePacket_again (hc : Tbl.get s.xport.conns key = some c) (hclass : s.classOk c k = true)
    (hbehind : 2 ^ 23 ≤ psnAhead c.nextPsn k.psn) : (s.takePacket key c k).xport.inbox = s.xport.inbox ∧
      Tbl.get (s.takePacket key c k).xport.conns key = some { c with ackDue := addNum c.ackDue k.tc } ∧
      (s.takePacket key c k).mem = s.mem := by
  have htakes : s.takePacket key c k = s.oweAck key k.tc := by
    unfold State.takePacket
    rw [if_neg (by simp [hclass])]
    exact if_pos (Or.inl hbehind)
  rw [htakes]
  exact ⟨rfl, State.get_setConn_self _ hc, rfl⟩

theorem State.qpError_inbox (s : State) (j cause : Nat) : (s.qpError j cause).xport.inbox = s.xport.inbox := by
  unfold State.qpError
  split
  · rfl
  · split
    · rw [(OnlyOut.dropWaiting _ _ _).inbox]
      exact ((OnlyOut.count _ _ _).trans (OnlyOut.send _ _)).inbox
    · rfl

/-- One that is too far ahead puts the queue pair in Error. -/
theorem State.takePacket_far (hc : Tbl.get s.xport.conns key = some c) (hready : c.state = .ready) (hclass : s.classOk c k = true)
    (hfar : 512 < psnAhead c.nextPsn k.psn) (hahead : psnAhead c.nextPsn k.psn < 2 ^ 23) (hnew : ∀ x ∈ c.buffered, x.psn ≠ k.psn) :
    (s.takePacket key c k).xport.inbox = s.xport.inbox ∧
      (∃ c', Tbl.get (s.takePacket key c k).xport.conns key = some c' ∧ c'.state = .error ∧ c'.cause = 1) ∧
      (s.takePacket key c k).mem = s.mem := by
  have hbuffered : (c.buffered.any fun x => x.psn = k.psn) = false := by simpa using hnew
  have htakes : s.takePacket key c k = (s.count rDiscardsWindow 1).qpError key 1 := by
    unfold State.takePacket
    rw [if_neg (by simp [hclass])]
    extract_lets ahead
    rw [if_neg (by simpa [hbuffered, ahead] using hahead), if_pos hfar]
  have hview : (s.count rDiscardsWindow 1).connView key = some { c with sendPsn := 0 } := by
    rw [State.count_connView]
    simp [State.connView, hc]
  obtain ⟨d, hd, hconn⟩ := State.get_of_connView (State.qpError_connView_self (cause := 1) hview (.inl hready))
  obtain ⟨-, -, -, hmem, -⟩ := State.qpError_holdsSame (s.count rDiscardsWindow 1) key 1
  rw [htakes]
  exact ⟨(State.qpError_inbox _ _ _).trans (OnlyOut.count _ _ _).inbox,
    ⟨d, hd, (congrArg Conn.state hconn :), (congrArg Conn.cause hconn :)⟩, hmem.trans (State.count_mem _ _ _)⟩

/-- A packet for a queue pair is counted on its path and taken. -/
theorem exec_dataPacketReceive (hqp : 4 ≤ k.dstQp) (hkind : k.kind = 0)
    (hconn : s.conn k.dstQp k.srcNode k.srcDomain k.srcQp = some (key, c)) :
    exec (.dataPacketReceive k) s = .next ((s.followPath k).takePacket key c k) :=
  congrArg Host.Outcome.next (State.receivePacket_takes hqp hkind hconn)

/-- The connection that a packet came on is its sender's. -/
theorem State.conn_names {qp node domain peer : Nat} (hconn : s.conn qp node domain peer = some (key, c)) :
    connQp key = qp ∧ c.peerNode = node ∧ c.peerQp = peer := by
  have h := List.find?_some hconn
  simp only [Conn.isOf, Bool.and_eq_true, decide_eq_true_eq] at h
  obtain ⟨⟨⟨⟨hqp, hnode⟩, hpeer⟩, -⟩, -⟩ := h
  exact ⟨hqp, hnode, hpeer⟩

/-- Settles O46: the receipt of a packet by the cases of its place in sequence; what ACKs, NAKs and time-outs do to the packets not
acknowledged; and what an unreachable peer does to the connections. -/
theorem packetsInOrder : Obligations.PacketsInOrder := by
  intro s htalks
  refine ⟨fun k key c hqp hkind hconn hc hready hclass => ?packet, fun qp key c hfilter hc => ?ackSend,
    fun qp node peer cum sack key hkey => ?ack, fun node index first count v hfilter hpaths hconn => ?nak,
    fun qp node peer psn ns key hkey => ?timeout, fun node path r hheld => ?hold, fun node domain => ?lost⟩
  case packet =>
    have hrouted := OnlyRouted.followPath s k
    have htalks' := hrouted.talks htalks
    have hc' : Tbl.get (s.followPath k).xport.conns key = some c := hrouted.conns ▸ hc
    have hclass' : (s.followPath k).classOk c k = true := by
      obtain ⟨_, _, _, _, _, h⟩ := hrouted
      rw [h]
      exact hclass
    have hexec := exec_dataPacketReceive hqp hkind hconn
    refine ⟨fun hpsn hbuffered hassembling hfirst hlast hlen hpool hissued hwell => ?next, fun hbehind => ?again,
      fun hfar hahead hnew => ?far⟩
    case next =>
      have hwhole : WholeNext s key c k :=
        ⟨hkind, hc, hready, hclass, hpsn, hbuffered, hassembling, hfirst, hlast, hlen, hpool, hissued, hwell⟩
      refine ⟨fun hgoes => ?_, fun htc hcls henv hserves hop => ?_⟩
      · have hgoes' : GoesOn (s.followPath k) c k (opOf c k) := by
          obtain ⟨_, _, _, _, _, h⟩ := hrouted
          rw [h]
          exact hgoes
        obtain ⟨hget, hinbox, hacks, hmem⟩ := State.takePacket_delivers htalks' (hwhole.routed hrouted) hgoes'
        exact ⟨_, _, hexec, hget, hready, rfl, hinbox.trans (congrArg (· ++ [(key, k.payload)]) hrouted.inbox), hacks,
          hmem.trans hrouted.mem⟩
      · obtain ⟨hkqp, hnode, hpeer⟩ := State.conn_names hconn
        have hsame : (s.followPath k).enveloped c = s.enveloped c ∧
            (s.followPath k).refusesState (opOf c k) = s.refusesState (opOf c k) ∧ (s.followPath k).clock = s.clock := by
          obtain ⟨_, _, _, _, _, h⟩ := hrouted
          rw [h]
          exact ⟨rfl, rfl, rfl⟩
        obtain ⟨henv', hserves', hclock⟩ := hsame
        obtain ⟨hinbox, hsent, hmem⟩ := State.takePacket_refuses htalks' (hwhole.routed hrouted) htc hcls (henv'.trans henv)
          (hserves'.trans hserves) hop
        rw [packetHead, hclock, hrouted.row, hkqp, hnode, hpeer] at hsent
        exact ⟨_, _, hexec, hinbox.trans hrouted.inbox, hsent, hmem.trans hrouted.mem⟩
    case again =>
      obtain ⟨hinbox, hget, hmem⟩ := State.takePacket_again hc' hclass' hbehind
      exact ⟨_, hexec, hinbox.trans hrouted.inbox, hget, hmem.trans hrouted.mem⟩
    case far =>
      obtain ⟨hinbox, ⟨c', hget, hstate, hcause⟩, hmem⟩ := State.takePacket_far hc' hready hclass' hfar hahead hnew
      exact ⟨_, c', hexec, hinbox.trans hrouted.inbox, hget, hstate, hcause, hmem.trans hrouted.mem⟩
  case ackSend =>
    have hexec : exec (.ackSend qp) s = .next (s.sendAck key) := by
      show Host.Outcome.next (((s.xport.conns.filter fun p => connQp p.1 = qp).map Prod.fst).foldl State.sendAck s) = _
      rw [hfilter]
      rfl
    obtain ⟨hout, hget⟩ := State.sendAck_sends htalks hc
    have hrouted := State.sendAck_routed hc
    exact ⟨_, hexec, hout, hget, hrouted.unacked, hrouted.mem⟩
  case ack =>
    obtain ⟨hout, hmem, hpsns⟩ := State.takeAck_releases cum sack hkey
    exact ⟨_, rfl, hout, hmem, hpsns⟩
  case nak =>
    have hexec : exec (.nakReceive node index first count) s = .next (s.retransmit v) := by
      show Host.Outcome.next (s.takeNak node index first count) = _
      rw [State.takeNak, hfilter]
      rfl
    have hresent := OnlyResent.retransmit s v
    have hv : v ∈ s.xport.unacked := List.mem_of_mem_filter (hfilter ▸ List.mem_singleton_self v)
    exact ⟨_, hexec, hresent.psns, hresent.conns, hresent.out, hresent.mem, State.retransmit_sends hv hpaths hconn⟩
  case timeout =>
    refine ⟨fun hearly => congrArg Host.Outcome.next (State.expireAck_waits hkey hearly), fun v hv => ?_⟩
    have hresent := State.expireAck_expires hkey hv
    generalize hcounted : (s.tick ns).count rRetransTimeouts 1 = u at hresent
    have hxport : u.xport = s.xport := hcounted ▸ State.count_xport _ _ _
    have hmem : u.mem = s.mem := hcounted ▸ State.count_mem _ _ _
    have hrow : u.row = s.row := by
      rw [← hcounted, State.row, State.count_clock]
      rfl
    have htimes : u.timedOut v.entry v.path = s.timedOut v.entry v.path := by rw [State.timedOut, State.timedOut, hxport, hrow]
    obtain ⟨hconns, hunacked, hmem'⟩ := State.pathTimeout_keeps u v.entry v.path
    refine ⟨_, rfl, ?_, hresent.conns.trans (hconns.trans (congrArg Xport.conns hxport)), hresent.mem.trans (hmem'.trans hmem),
      fun hfree htwo => ?_, fun hfew => ?_⟩
    · rw [hresent.psns, hunacked, hxport]
    · rw [hresent.held, State.pathTimeout_holds (hxport ▸ hfree) (htimes.trans htwo), hrow]
    · rw [hresent.held, State.pathTimeout_held (htimes.symm ▸ hfew), hxport]
  case hold =>
    refine ⟨fun hearly => congrArg Host.Outcome.next ?_, fun hdue => ?_⟩
    · rw [State.endHold, hheld]
      exact if_neg (Nat.not_le.mpr hearly)
    · have hends : s.endHold node path =
          ({ s with xport := { s.xport with held := Tbl.erase s.xport.held (pathKey node path) } } : State).resendWaiting := by
        rw [State.endHold, hheld]
        exact if_pos hdue
      have hresent := OnlyResent.resendWaiting
        { s with xport := { s.xport with held := Tbl.erase s.xport.held (pathKey node path) } }
      rw [← hends] at hresent
      exact ⟨_, rfl, (congrArg (Tbl.get · _) hresent.held).trans (Tbl.get_erase_self _ _), hresent.conns, hresent.mem⟩
  case lost =>
    refine ⟨fun hfound => congrArg Host.Outcome.next ?_, fun hlost =>
      ⟨_, rfl, fun k c hc hnode hdomain ho => State.losePeer_errs hlost hc hnode hdomain ho⟩⟩
    rw [State.losePeer, hfound]
    rfl

end Sys2Proof.Machine
end

section
/-! SUPPORT. The queue of commands that wait outside stands in every operation of the wire. -/

namespace Sys2Proof.Machine

/-- A change that leaves the queue at every item leaves it at the end. -/
@[simp] theorem foldl_pending {α : Type} {f : State → α → State} (h : ∀ s x, (f s x).pending = s.pending) (l : List α) (s : State) :
    (l.foldl f s).pending = s.pending :=
  foldl_keeps (P := fun t => t.pending = s.pending) (fun t x ht => (h t x).trans ht) l rfl

@[simp] theorem pending_ite (s t : State) {c : Prop} [Decidable c] :
    (if c then s else t).pending = if c then s.pending else t.pending := apply_ite _ _ _ _

theorem ite_pending {s t u : State} {c : Prop} [Decidable c] (ht : t.pending = s.pending) (hu : u.pending = s.pending) :
    (if c then t else u).pending = s.pending := by
  split
  · exact ht
  · exact hu

theorem OnlyTaken.pending {s t : State} (h : OnlyTaken s t) : t.pending = s.pending := by rw [h.rest]

theorem OnlyLinked.pending {s t : State} (h : OnlyLinked s t) : t.pending = s.pending := by rw [h.rest]

theorem OnlyWalked.pending {s t : State} (h : OnlyWalked s t) : t.pending = s.pending := by
  obtain ⟨_, _, rfl⟩ := h
  rfl

@[simp] theorem State.dispatch_pending (s : State) (u : Unacked) (avoid : Option Nat) (front : Bool) :
    (s.dispatch u avoid front).pending = s.pending := (OnlyOut.dispatch _ _ _ _).pending

@[simp] theorem State.pump_pending (s : State) (k : Nat) : (s.pump k).pending = s.pending := (OnlyOut.pump _ _).pending

@[simp] theorem State.retransmit_pending (s : State) (u : Unacked) : (s.retransmit u).pending = s.pending := by simp [State.retransmit]

@[simp] theorem State.resendWaiting_pending (s : State) : s.resendWaiting.pending = s.pending := by simp [State.resendWaiting]

@[simp] theorem State.leavePort_pending (s : State) (p : Nat) : (s.leavePort p).pending = s.pending := by simp [State.leavePort]

end Sys2Proof.Machine
end

section
/-! SUPPORT. The queue of commands that wait outside stands in every operation of the shared operations of commands. -/

namespace Sys2Proof.Machine

@[simp] theorem State.free_pending (s : State) : s.free.2.pending = s.pending := (OnlyOut.free _).pending

@[simp] theorem State.choose_pending (s : State) (m : Nat) (ok : Nat → Bool) : (s.choose m ok).2.pending = s.pending :=
  (OnlyOut.choose _ _ _).pending

@[simp] theorem State.toNode_pending (s : State) (n : NodeState) : (s.toNode n).pending = s.pending := by simp [State.toNode]

end Sys2Proof.Machine
end

section
/-! SUPPORT. The queue of commands that wait outside stands in every operation of the moves of a leaf through its states. -/

namespace Sys2Proof.Machine

@[simp] theorem State.putLeaf_pending (s : State) (h : HalfLoc) (fmt d : Nat) (bs : List Byte) :
    (s.putLeaf h fmt d bs).pending = s.pending := by
  unfold State.putLeaf
  split <;> simp

end Sys2Proof.Machine
end

section
/-! SUPPORT. The queue of commands that wait outside stands in every operation of the changes of the catalogue. -/

namespace Sys2Proof.Machine

@[simp] theorem State.takeLeaf_pending (s : State) (p fmt d halves : Nat) : (s.takeLeaf p fmt d halves).2.pending = s.pending := by
  unfold State.takeLeaf
  dsimp only
  split <;> simp

@[simp] theorem State.takeCard_pending (s : State) (c : Card) : (s.takeCard c).2.pending = s.pending := by
  grind [State.takeCard, State.choose_pending]

theorem State.grabPages_pending (s : State) (n : Nat) : ∀ x, s.grabPages n = some x → x.2.pending = s.pending := by
  grind [State.grabPages, State.choose_pending]

theorem State.takePages_pending (s : State) (slot n : Nat) : ∀ x, s.takePages slot n = some x → x.pending = s.pending :=
  fun _ h => (OnlyLinked.takePages h).pending

@[simp] theorem State.growHead_pending (s : State) (slot layer head half block : Nat) :
    (s.growHead slot layer head half block).pending = s.pending :=
  (OnlyTaken.growHead s slot layer head half block).pending

@[simp] theorem State.lookUpTags_pending (s : State) (walker : Nat) (tags : List Nat) :
    (s.lookUpTags walker tags).2.pending = s.pending :=
  (OnlyWalked.lookUpTags s walker tags).pending

@[simp] theorem State.lookBlocks_pending (s : State) (slot layer head : Nat) (blocks : List Nat) :
    (s.lookBlocks slot layer head blocks).pending = s.pending := by simp [State.lookBlocks]

@[simp] theorem State.changeCard_pending (s : State) (n : Nat) (f : Card → Card) : (s.changeCard n f).pending = s.pending := by
  unfold State.changeCard
  split <;> simp

@[simp] theorem State.putLeafAt_pending (s : State) (slot layer head half block card : Nat) :
    (s.putLeafAt slot layer head half block card).pending = s.pending := by simp [State.putLeafAt]

@[simp] theorem State.giveBack_pending (s : State) (r : Released) : (s.giveBack r).pending = s.pending := by
  have hzero (s : State) : (r.granules.foldl (fun s g => s.zero (g * 16384) ((g + 1) * 16384)) s).pending = s.pending :=
    foldl_pending (fun s g => State.zero_pending s _ _) _ s
  unfold State.giveBack
  dsimp only
  split
  · split
    · exact hzero s
    · exact hzero s
  · rfl

@[simp] theorem State.giveBackDue_pending (s : State) : s.giveBackDue.pending = s.pending := by simp [State.giveBackDue]

@[simp] theorem State.dropAnnexCopy_pending (s : State) (card : Nat) : (s.dropAnnexCopy card).pending = s.pending := by
  unfold State.dropAnnexCopy
  split <;> simp

@[simp] theorem State.sendRelease_pending (s : State) (lender slot n : Nat) (c : Card) :
    (s.sendRelease lender slot n c).pending = s.pending := by simp [State.sendRelease]

@[simp] theorem State.unreserve_pending (s : State) (m : Move) : (s.unreserve m).pending = s.pending := by
  unfold State.unreserve
  split
  · exact foldl_pending (fun s g => State.release_pending s _) _ s
  · rfl

@[simp] theorem State.releaseAcks_pending (s : State) (m : Move) : (s.releaseAcks m).pending = s.pending := by
  unfold State.releaseAcks
  repeat' split
  all_goals simp (disch := (intros; repeat' split; all_goals simp))

@[simp] theorem State.endMove_pending (s : State) (m : Nat) (how : MoveEnd) : (s.endMove m how).pending = s.pending := by
  unfold State.endMove
  split
  · rfl
  · extract_lets n mover unqueued unpinned
    exact foldl_pending (fun s k => State.setCard_pending s k _) _ unqueued

@[simp] theorem State.abandonMoves_pending (s : State) (card : Nat) : (s.abandonMoves card).pending = s.pending := by
  simp [State.abandonMoves]

@[simp] theorem State.freeLeaf_pending (s : State) (n : Nat) : (s.freeLeaf n).pending = s.pending := by
  unfold State.freeLeaf
  (repeat' split) <;> simp

@[simp] theorem State.dropRef_pending (s : State) (n : Nat) : (s.dropRef n).pending = s.pending := by
  unfold State.dropRef
  split <;> simp

@[simp] theorem State.dropLeafAt_pending (s : State) (slot layer head half block : Nat) :
    (s.dropLeafAt slot layer head half block).pending = s.pending := by
  unfold State.dropLeafAt
  split <;> simp

@[simp] theorem State.loseQuiet_pending (s : State) (n : Nat) : (s.loseQuiet n).pending = s.pending := by
  unfold State.loseQuiet
  split <;> simp

@[simp] theorem State.postLost_pending (s : State) (n : Nat) : (s.postLost n).pending = s.pending := by
  unfold State.postLost
  split <;> simp

@[simp] theorem State.loseLeaf_pending (s : State) (n : Nat) : (s.loseLeaf n).pending = s.pending := by simp [State.loseLeaf]

@[simp] theorem State.share_pending (s : State) (n : Nat) : (s.share n).pending = s.pending := rfl

theorem State.takeRef_pending (s : State) (handle : Nat) (ns : List Nat) :
    ∀ x, s.takeRef handle ns = .ok x → x.2.pending = s.pending :=
  fun ⟨_, _⟩ h => (OnlyLinked.takeRef h).pending

@[simp] theorem State.putCards_pending (s : State) (slot layer head block : Nat) (cards : List Nat) :
    (s.putCards slot layer head block cards).pending = s.pending := by simp [State.putCards]

@[simp] theorem State.promote_pending (s : State) (cards : List Nat) : (s.promote cards).pending = s.pending := by simp [State.promote]

@[simp] theorem State.refFailed_pending (s : State) (x : RefFail) : (s.refFailed x).pending = s.pending := by
  unfold State.refFailed
  split <;> simp

@[simp] theorem State.hostAccess_pending (s : State) (t region : Nat) (who : Accessor) :
    (s.hostAccess t region who).2.pending = s.pending := by
  unfold State.hostAccess
  split
  · extract_lets a q
    split
    · exact (State.count_pending _ _ _).trans (State.setStack_pending _ _ _)
    · exact State.setStack_pending _ _ _
  · rfl

@[simp] theorem State.hostRegions_pending (s : State) (who : Accessor) (rs : List (Nat × Nat)) :
    (s.hostRegions who rs).2.pending = s.pending :=
  List.foldlRecOn (motive := fun x : Nat × State => x.2.pending = s.pending) rs _ rfl fun _ h _ _ =>
    (State.hostAccess_pending _ _ _ _).trans h

@[simp] theorem State.hostBytes_pending (s : State) (a n : Nat) (who : Accessor) : (s.hostBytes a n who).2.pending = s.pending := by
  simp [State.hostBytes]

@[simp] theorem State.useCards_pending (s : State) (cards : List Nat) : (s.useCards cards).pending = s.pending := by
  refine foldl_pending (fun s x => ?_) _ _
  simp

@[simp] theorem State.compactBegin_pending (s : State) : s.compactBegin.pending = s.pending := by simp [State.compactBegin]

@[simp] theorem State.pagesOut_pending (s : State) (o : Outcome) : (s.pagesOut o).pending = s.pending := by simp [State.pagesOut]

end Sys2Proof.Machine
end

section
/-! SUPPORT. The queue of commands that wait outside stands in every operation of the checks and refusals at admission. -/

namespace Sys2Proof.Machine

@[simp] theorem State.dropWaiting_pending (s : State) (out : Head → Outcome) (ws : List Waiting) :
    (s.dropWaiting out ws).pending = s.pending := (OnlyOut.dropWaiting _ _ _).pending

@[simp] theorem State.qpError_pending (s : State) (k cause : Nat) : (s.qpError k cause).pending = s.pending := by
  unfold State.qpError
  split <;> simp

@[simp] theorem State.receive_pending (s : State) (i : Instr) (run : Nat → State → State) (hrun : ∀ y0 y1,
    (run y0 y1).pending = y1.pending) :
    (s.receive i run).pending = s.pending := by
  unfold State.receive
  grind [Option.map_eq_some_iff, Option.bind_eq_some_iff, State.reply_pending, State.tick_pending, State.qpError_pending]

@[simp] theorem State.charge_pending (s : State) (g : Option (Nat × SlotRec)) (r leaves lookups : Nat) :
    (s.charge g r leaves lookups).pending = s.pending := by
  unfold State.charge
  split <;> simp

@[simp] theorem State.dropKey_pending (s : State) (n : Nat) : (s.dropKey n).pending = s.pending := by
  unfold State.dropKey
  (repeat' split) <;> simp

@[simp] theorem State.complete_pending (s : State) (n : Nat) (o : Outcome) : (s.complete n o).pending = s.pending := by
  unfold State.complete
  split <;> simp

@[simp] theorem State.decide_pending (s : State) (n : Nat) (o : Outcome) : (s.decide n o).pending = s.pending := by
  unfold State.decide
  split <;> simp

@[simp] theorem State.defer_pending (s : State) (i : Instr) (op : Nat) (h : Head) (tenant row slot : Nat) :
    (s.defer i op h tenant row slot).pending = s.pending := rfl

@[simp] theorem State.freeEvents_pending (s : State) (h : Head) (st : Status) : (s.freeEvents h st).pending = s.pending := by
  unfold State.freeEvents
  split <;> simp

end Sys2Proof.Machine
end

section
/-! SUPPORT. The queue of commands that wait outside stands in every operation of the measurements. -/

namespace Sys2Proof.Machine

@[simp] theorem State.extend_pending (s : State) (index kind : Nat) (d : Digest) : (s.extend index kind d).pending = s.pending := rfl

@[simp] theorem State.measureTenant_pending (s : State) (t : Nat) : (s.measureTenant t).pending = s.pending := rfl

@[simp] theorem State.applyConsents_pending (s : State) : s.applyConsents.pending = s.pending := by
  refine foldl_pending (fun s x => ?_) _ _
  (repeat' split) <;> simp

@[simp] theorem State.measureBank_pending (s : State) (switchRow : Nat) : (s.measureBank switchRow).pending = s.pending := rfl

@[simp] theorem State.measureBlock_pending (s : State) (b kind : Nat) : (s.measureBlock b kind).pending = s.pending := by
  simp [State.measureBlock]

end Sys2Proof.Machine
end

section
/-! SUPPORT. The queue of commands that wait outside stands in every operation of the sequence commands. -/

namespace Sys2Proof.Machine

theorem State.takeSlot_pending (s : State) (layers kvHeads : Nat) : ∀ x, s.takeSlot layers kvHeads = .ok x → x.2.pending = s.pending := by
  grind [State.takeSlot, State.choose_pending, State.takePages_pending]

@[simp] theorem admitOpen_pending (h : Head) (b : OpenBody) (r : Nat) (s : State) : (admitOpen h b r s).pending = s.pending := by
  unfold admitOpen
  split
  · rfl
  split
  · simp
  split
  · simp
  split
  · simp
  · rename_i e
    simpa using State.takeSlot_pending _ _ _ _ e

@[simp] theorem admitClose_pending (h : Head) (r : Nat) (s : State) : (admitClose h r s).pending = s.pending := by
  unfold admitClose
  (repeat' split) <;> simp

@[simp] theorem State.endSequence_pending (s : State) (slot : Nat) : (s.endSequence slot).pending = s.pending := by
  have hdropped : ((s.leavesOf slot).foldl (fun s p => (s.setEntry p.1 none).dropRef p.2) s).pending = s.pending :=
    foldl_pending (fun s (p : Nat × Nat) => (State.dropRef_pending _ p.2).trans (State.setEntry_pending s p.1 none)) _ s
  unfold State.endSequence
  dsimp only
  split
  · rfl
  · exact hdropped

theorem State.forkInto_pending (s : State) (slot handle tenant fp : Nat) (q : Seq) (l : List (Nat × Nat × Nat × List Nat)) :
    ∀ x, s.forkInto slot handle tenant fp q l = .ok x → x.pending = s.pending :=
  fun _ h => (OnlyLinked.forkInto h).pending

@[simp] theorem State.forkWalk_pending (s : State) (slot fp : Nat) : (s.forkWalk slot fp).pending = s.pending := by
  simp [State.forkWalk]

@[simp] theorem State.doFork_pending (s : State) (h : Head) (tenant : Nat) (b : OpenBody) :
    (s.doFork h tenant b).2.pending = s.pending := by
  unfold State.doFork
  extract_lets src q fp walked blocks isLost lost away fit
  have hwalked : walked.pending = s.pending := State.forkWalk_pending s src fp
  split
  · exact hwalked
  split
  · exact (State.pagesOut_pending _ _).trans hwalked
  rename_i slot t hslot
  have ht := (State.takeSlot_pending _ _ _ _ hslot).trans hwalked
  split
  · exact (State.pagesOut_pending _ _).trans hwalked
  extract_lets opened new held handle late
  have hlate : late.pending = s.pending := hwalked
  split
  · exact hlate
  split
  · exact hlate
  split
  · exact (foldl_pending (fun s x => State.promote_pending s _) away late).trans hlate
  split
  · rename_i hinto
    exact (State.forkInto_pending _ _ _ _ _ _ _ _ hinto).trans ht
  · extract_lets left
    have hleft : left.pending = s.pending := (State.refFailed_pending _ _).trans hlate
    split
    all_goals exact hleft

@[simp] theorem admitFork_pending (h : Head) (b : OpenBody) (r : Nat) (s : State) : (admitFork h b r s).pending = s.pending := by
  unfold admitFork
  (repeat' split) <;> simp

@[simp] theorem State.runForks_pending (s : State) : s.runForks.pending = s.pending := by
  unfold State.runForks
  refine foldl_pending (fun s x => ?_) _ _
  grind [State.complete_pending, State.doFork_pending]

end Sys2Proof.Machine
end

section
/-! SUPPORT. The queue of commands that wait outside stands in every operation of APPEND. -/

namespace Sys2Proof.Machine

theorem State.allocateBlocks_pending (s : State) (slot layer head : Nat) (h : Head) (l : List Nat) :
    ∀ x, s.allocateBlocks slot layer head h l = .ok x → x.pending = s.pending :=
  fun _ h => (OnlyTaken.allocateBlocks h).pending

@[simp] theorem State.admitWrites_pending (s : State) (c : Conn) (h : Head) (b : AppendBody) (g : Option (Nat × SlotRec)) (r : Nat) :
    (s.admitWrites c h b g r).pending = s.pending := by simp [State.admitWrites]

@[simp] theorem admitAppend_pending (h : Head) (b : AppendBody) (r : Nat) (s : State) : (admitAppend h b r s).pending = s.pending := by
  unfold admitAppend
  split
  · rfl
  split
  · simp
  split
  · extract_lets counted
    simp [counted, apply_ite State.pending]
  · extract_lets slot new
    split
    · simp
    · rename_i e
      split
      · simp
      · exact (State.admitWrites_pending _ _ _ _ _ _).trans (State.allocateBlocks_pending _ _ _ _ _ _ _ e)

@[simp] theorem State.raiseValid_pending (s : State) (card valid : Nat) : (s.raiseValid card valid).pending = s.pending := by
  unfold State.raiseValid
  split <;> simp

@[simp] theorem State.countWritten_pending (s : State) (die bytes : Nat) : (s.countWritten die bytes).pending = s.pending := by
  simp [State.countWritten]

@[simp] theorem State.endAppend_pending (s : State) (cmd : Nat) (o : Head → Outcome) : (s.endAppend cmd o).pending = s.pending := by
  unfold State.endAppend
  dsimp only
  split <;> simp

@[simp] theorem State.raises_pending (s : State) (l : List AppendAct) : (s.raises l).2.pending = s.pending := by
  induction l generalizing s with
  | nil => rfl
  | cons x l ih =>
    cases x with
    | raise cs v => exact (ih _).trans (foldl_pending (fun s c => State.raiseValid_pending s c v) cs s)
    | line => rfl

@[simp] theorem State.rollBlock_pending (s : State) (a : AppendJob) (block : Nat) : (s.rollBlock a block).pending = s.pending := by
  unfold State.rollBlock
  split
  · rfl
  · extract_lets own clipped
    split
    · rfl
    · split
      · exact foldl_pending (fun s f => State.dropLeafAt_pending _ _ _ _ _ _) _ clipped
      · exact foldl_pending (fun s n => State.setCard_pending s n _) _ clipped

@[simp] theorem State.rollLength_pending (s : State) (a : AppendJob) : (s.rollLength a).pending = s.pending := rfl

@[simp] theorem State.rollBack_pending (s : State) (a : AppendJob) : (s.rollBack a).pending = s.pending := by
  refine foldl_pending (fun s x => ?_) _ _
  simp

@[simp] theorem State.dropJobs_pending (s : State) (js : List AppendJob) : (s.dropJobs js).pending = s.pending := by
  refine foldl_pending (fun s x => ?_) _ _
  simp

@[simp] theorem State.abandonAppend_pending (s : State) (n : Nat) (o : Head → Outcome) :
    (s.abandonAppend n o).pending = s.pending := by
  unfold State.abandonAppend
  repeat' split
  all_goals simp (disch := (intros; repeat' split; all_goals simp))

@[simp] theorem State.goOn_pending (s : State) (a : AppendJob) (acts : List AppendAct) : (s.goOn a acts).pending = s.pending := by
  simp [State.goOn]

@[simp] theorem State.dropAllocated_pending (s : State) (a : AppendJob) : (s.dropAllocated a).pending = s.pending := by
  refine foldl_pending (fun s k => ?_) _ s
  split
  · rfl
  · refine foldl_pending (fun s f => ?_) _ s
    split
    · split
      · exact State.dropLeafAt_pending _ _ _ _ _ _
      · rfl
    · rfl

@[simp] theorem State.poisonAppend_pending (s : State) (a : AppendJob) (cards : List Nat) :
    (s.poisonAppend a cards).pending = s.pending := by
  unfold State.poisonAppend
  extract_lets lossy lost later dropped decided
  have hdecided : decided.pending = dropped.pending := foldl_pending (fun s b => by split <;> simp) _ _
  rw [State.endAppend_pending, hdecided]
  simp [dropped, lossy]

@[simp] theorem State.writeNext_pending (s : State) (a : AppendJob) : (s.writeNext a).pending = s.pending := by
  unfold State.writeNext
  split
  · exact State.endAppend_pending _ _ _
  · exact (State.goOn_pending _ _ _).trans ((State.raises_pending _ _).trans (foldl_pending (fun s c => State.raiseValid_pending s c
    _) _ s))
  · split
    · exact State.poisonAppend_pending _ _ _
    · refine (State.goOn_pending _ _ _).trans ((State.raises_pending _ _).trans ?_)
      exact (foldl_pending (fun s n => State.setCard_pending s n _) _ _).trans (State.countWritten_pending _ _ _)

@[simp] theorem State.appendLine_pending (s : State) (a : AppendJob) : (s.appendLine a).pending = s.pending := by
  unfold State.appendLine
  split <;> simp

@[simp] theorem State.serveLine_pending (s : State) (n : Nat) : (s.serveLine n).pending = s.pending := by
  unfold State.serveLine
  split <;> simp

@[simp] theorem State.appendStep_pending (s : State) (die ns : Nat) : (s.appendStep die ns).pending = s.pending := by
  unfold State.appendStep
  (repeat' split) <;> simp

end Sys2Proof.Machine
end

section
/-! SUPPORT. The queue of commands that wait outside stands in every operation of the raw commands. -/

namespace Sys2Proof.Machine

@[simp] theorem State.poisonRead_pending (s : State) (dev : Nat) : (s.poisonRead dev).pending = s.pending := by simp [State.poisonRead]

@[simp] theorem State.chargePoison_pending (s : State) (a n : Nat) : (s.chargePoison a n).pending = s.pending := by
  unfold State.chargePoison
  split <;> simp

@[simp] theorem State.putBytes_pending (s : State) (a : Nat) (bs : List Byte) : (s.putBytes a bs).pending = s.pending := by
  simp [State.putBytes]

@[simp] theorem State.rawEffect_pending (s : State) (op : Nat) (h : Head) (b : RawBody) (a : Nat) :
    (s.rawEffect op h b a).2.pending = s.pending := by
  unfold State.rawEffect
  dsimp only
  (repeat' split) <;> simp

@[simp] theorem State.applyRaw_pending (s : State) (j : RawJob) : (s.applyRaw j).pending = s.pending := by
  unfold State.applyRaw
  (repeat' split) <;> simp

@[simp] theorem State.runRaws_pending (s : State) (l : List RawJob) : (s.runRaws l).pending = s.pending := by
  induction l generalizing s with
  | nil => rfl
  | cons j js ih =>
    unfold State.runRaws
    extract_lets before
    split
    · exact ih s
    · exact (ih _).trans (State.applyRaw_pending _ _)

@[simp] theorem State.startRaw_pending (s : State) (id : Nat) : (s.startRaw id).pending = s.pending := by
  unfold State.startRaw
  (repeat' split) <;> simp

@[simp] theorem State.serveRaw_pending (s : State) (id : Nat) : (s.serveRaw id).pending = s.pending := by simp [State.serveRaw]

@[simp] theorem State.addRaw_pending (s : State) (a len : Nat) (what : RawWhat) : (s.addRaw a len what).2.pending = s.pending := rfl

@[simp] theorem admitRaw_pending (op : Nat) (h : Head) (b : RawBody) (r : Nat) (s : State) :
    (admitRaw op h b r s).pending = s.pending := by
  unfold admitRaw
  dsimp only
  (repeat' split) <;> simp

@[simp] theorem State.endpoint_pending (s : State) (x : EndpointAccess) : (s.endpoint x).pending = s.pending := by
  unfold State.endpoint
  dsimp only
  (repeat' split) <;> simp

end Sys2Proof.Machine
end

section
/-! SUPPORT. The queue of commands that wait outside stands in every operation of the attention commands. -/

namespace Sys2Proof.Machine

@[simp] theorem State.lookUp_pending (s : State) (slot layer head : Nat) (spans : List Nat) :
    (s.lookUp slot layer head spans).2.pending = s.pending := by simp [State.lookUp]

@[simp] theorem State.walkEffect_pending (s : State) (h : Head) (vs : List Visit) (o : Outcome) :
    (s.walkEffect h vs o).pending = s.pending := by
  unfold State.walkEffect
  split <;> simp

@[simp] theorem State.prefetchLeaf_pending (s : State) (cards : List Nat) : (s.prefetchLeaf cards).pending = s.pending := by
  simp [State.prefetchLeaf]

@[simp] theorem State.prefetch_pending (s : State) (slot : Nat) (b : AttnBody) : (s.prefetch slot b).pending = s.pending := by
  refine foldl_pending (fun s l => foldl_pending (fun s hd => foldl_pending (fun s k => ?_) _ s) _ s) _ s
  split
  · exact State.prefetchLeaf_pending _ _
  · rfl

@[simp] theorem State.sampleWalk_pending (s : State) (walker : Nat) : (s.sampleWalk walker).pending = s.pending := by
  simp [State.sampleWalk]

@[simp] theorem State.enterAttn_pending (s : State) (op : Nat) (c : Conn) (h : Head) (b : AttnBody) (g : Option (Nat × SlotRec))
    (r : Nat) (plan : AttnPlan) (vs : List Visit) (missed : Bool) :
    (s.enterAttn op c h b g r plan vs missed).pending = s.pending := by
  unfold State.enterAttn
  (repeat' split) <;> simp

@[simp] theorem admitAttn_pending (op : Nat) (h : Head) (b : AttnBody) (r : Nat) (s : State) :
    (admitAttn op h b r s).pending = s.pending := by
  unfold admitAttn
  dsimp only
  (repeat' split) <;> simp

@[simp] theorem State.walkDone_pending (s : State) (n : Nat) : (s.walkDone n).pending = s.pending := by
  unfold State.walkDone
  split <;> simp

end Sys2Proof.Machine
end

section
/-! SUPPORT. The queue of commands that wait outside stands in every operation of MERGE. -/

namespace Sys2Proof.Machine

@[simp] theorem admitMerge_pending (h : Head) (b : MergeBody) (r : Nat) (s : State) : (admitMerge h b r s).pending = s.pending := by
  unfold admitMerge
  (repeat' split) <;> simp

@[simp] theorem State.mergeParts_pending (s : State) (n : Nat) : (s.mergeParts n).pending = s.pending := by
  unfold State.mergeParts
  (repeat' split) <;> simp

end Sys2Proof.Machine
end

section
/-! SUPPORT. The queue of commands that wait outside stands in every operation of the index and its commands. -/

namespace Sys2Proof.Machine

@[simp] theorem State.putEntry_pending (s : State) (n : Nat) (e : Entry) : (s.putEntry n e).pending = s.pending := rfl

@[simp] theorem State.departEntry_pending (s : State) (n : Nat) : (s.departEntry n).pending = s.pending := rfl

theorem State.withIndex_pending (s : State) (i : Index) : ({ s with index := i } : State).pending = s.pending := rfl

theorem State.verifyFailed_pending (s : State) (k : Nat) (e : Event) :
    (((s.count rIndexEventsVerifyFail 1).gauge 6 k 256).postFm e).pending = s.pending :=
  (State.postFm_pending _ _).trans ((State.gauge_pending _ _ _ _).trans (State.count_pending s _ _))

@[simp] theorem State.verifyEntry_pending (s : State) (n : Nat) : (s.verifyEntry n).2.pending = s.pending := by
  have hfailed := State.verifyFailed_pending s (n / setSize) (s.event 0x000A 0x058 0)
  unfold State.verifyEntry
  dsimp only
  split
  · rfl
  · split
    · split
      · exact (State.departEntry_pending _ _).trans hfailed
      · split
        · rfl
        · exact (State.withIndex_pending _ _).trans hfailed
    · exact (State.departEntry_pending _ _).trans hfailed

@[simp] theorem State.lookWord_pending (s : State) (sets : Nat → Bool) (word : Nat) (q : Seq) (n : Nat) :
    (s.lookWord sets word q n).2.pending = s.pending := by
  induction n generalizing s with
  | zero => rfl
  | succ n ih =>
    unfold State.lookWord
    split
    · rfl
    · rename_i k _
      have hverified := State.verifyEntry_pending s k
      split
      all_goals
        rename_i e
        rw [e] at hverified
      · exact hverified
      · exact (ih _).trans hverified
      · exact hverified

theorem State.attachBlock_pending (s : State) (slot handle block : Nat) (l : List (Nat × Nat × List Nat)) :
    ∀ x, s.attachBlock slot handle block l = .ok x → x.pending = s.pending := by
  induction l generalizing s with
  | nil =>
    intro z h
    cases h
    rfl
  | cons x l ih =>
    intro z h
    unfold State.attachBlock at h
    split at h
    · cases h
    · rename_i e
      exact (ih _ _ h).trans ((State.putCards_pending _ _ _ _ _ _).trans (State.takeRef_pending _ _ _ _ e))

@[simp] theorem State.foundEntry_pending (s : State) (n : Nat) : (s.foundEntry n).pending = s.pending := by
  unfold State.foundEntry
  split <;> simp

@[simp] theorem State.attachWords_pending (s : State) (sets : Nat → Bool) (slot handle : Nat) (q : Seq) (n : Nat) (l : List Nat)
    (ws : List Nat) :
    (s.attachWords sets slot handle q n l ws).2.pending = s.pending := by
  induction l generalizing s n ws with
  | nil => rfl
  | cons w ws ih =>
    have hlook := State.lookWord_pending s sets w q 2
    unfold State.attachWords
    split
    · rename_i e
      rwa [e] at hlook
    · rename_i n t e
      rw [e] at hlook
      extract_lets cards x gone
      split
      · exact (State.postTenant_pending _ _ _).trans ((State.count_pending _ _ _).trans ((State.departEntry_pending _ _).trans hlook))
      · split
        · exact hlook
        · rename_i e'
          exact (ih _ _ _).trans ((State.foundEntry_pending _ _).trans ((State.attachBlock_pending _ _ _ _ _ _ e').trans hlook))

@[simp] theorem State.walkHeads_pending (s : State) (slot : Nat) (blocks : List Nat) : (s.walkHeads slot blocks).pending = s.pending
    := by
  simp [State.walkHeads]

@[simp] theorem admitFind_pending (h : Head) (b : ChainBody) (r : Nat) (s : State) : (admitFind h b r s).pending = s.pending := by
  grind [admitFind, State.count_pending, State.reply_pending, State.setSeq_pending, State.refFailed_pending, State.pagesOut_pending,
    State.defer_pending, State.attachWords_pending, State.walkHeads_pending]

theorem State.reserveRecords_pending (s : State) (q : Seq) (n : Nat) :
    ∀ x, s.reserveRecords q n = some x → x.2.pending = s.pending := by
  induction n generalizing s with
  | zero =>
    intro z h
    cases h
    rfl
  | succ n ih =>
    intro z h
    obtain ⟨x, hx, h⟩ := Option.bind_eq_some_iff.mp h
    obtain ⟨y, hy, rfl⟩ := Option.map_eq_some_iff.mp h
    exact (ih _ _ hy).trans (State.grabPages_pending _ _ _ hx)

theorem State.takeAll_pending (s : State) (handle : Nat) (l : List (List Nat)) :
    ∀ x, s.takeAll handle l = .ok x → x.2.pending = s.pending := by
  induction l generalizing s with
  | nil =>
    intro z h
    cases h
    rfl
  | cons cs l ih =>
    intro z h
    unfold State.takeAll at h
    split at h
    · cases h
    · rename_i e
      split at h
      · cases h
      · rename_i e'
        cases h
        exact (ih _ _ e').trans (State.takeRef_pending _ _ _ _ e)

@[simp] theorem State.publishOne_pending (s : State) (q : Seq) (slot handle tenant set priority block word : Nat) (pages : List Nat) :
    (s.publishOne q slot handle tenant set priority block word pages).2.pending = s.pending := by
  unfold State.publishOne
  split
  · simp
  split
  · simp
  extract_lets full victim
  clear_value full victim
  rw [apply_ite Prod.snd]
  refine ite_pending (by simp) ?_
  split
  · simp
  · rename_i cards t htake
    have ht := State.takeAll_pending _ _ _ _ htake
    extract_lets gone
    have hgone : gone.pending = s.pending := by
      unfold gone
      split
      · simpa using ht
      · exact ht
    split
    · rename_i e
      obtain ⟨-, rfl⟩ := Prod.mk.inj e
      exact hgone
    · rename_i e
      obtain ⟨-, rfl⟩ := Prod.mk.inj e
      exact (foldl_pending (fun s m => State.changeCard_pending s m _) cards _).trans hgone

@[simp] theorem State.publishAll_pending (s : State) (q : Seq) (slot handle tenant set priority : Nat) (n : Nat) (l : List Nat)
    (ws : List (List Nat)) :
    (s.publishAll q slot handle tenant set priority n l ws).2.pending = s.pending := by
  induction l generalizing s n ws with
  | nil => rfl
  | cons w l ih =>
    cases ws with
    | nil => rfl
    | cons ps pss => exact (ih _ _ _).trans (State.publishOne_pending _ _ _ _ _ _ _ _ _ _)

@[simp] theorem admitPublish_pending (h : Head) (b : ChainBody) (r : Nat) (s : State) :
    (admitPublish h b r s).pending = s.pending := by
  unfold admitPublish
  split
  · rfl
  split
  · simp
  extract_lets slot q walked
  split
  · simp
  have hwalked : walked.pending = s.pending := State.walkHeads_pending _ _ _
  split
  · simp [hwalked]
  · rename_i e
    have ht := (State.reserveRecords_pending _ _ _ _ e).trans hwalked
    split
    · simp [hwalked]
    · simpa using ht

@[simp] theorem State.releaseDeparted_pending (s : State) (n : Nat) : (s.releaseDeparted n).pending = s.pending := by
  simp [State.releaseDeparted]

@[simp] theorem State.scrubIndex_pending (s : State) : s.scrubIndex.pending = s.pending := by
  have hverified (l : List Nat) : (l.foldl (fun s i => (s.verifyEntry (s.index.scrubAt + i)).2) s).pending = s.pending :=
    foldl_pending (fun s i => State.verifyEntry_pending s _) l s
  unfold State.scrubIndex
  generalize List.range 256 = l
  dsimp only
  split
  · exact (State.setFld_pending _ _ _).trans (hverified l)
  · exact hverified l

@[simp] theorem State.rebuildBank_pending (s : State) (k : Nat) : (s.rebuildBank k).pending = s.pending := by simp [State.rebuildBank]

@[simp] theorem State.bankBuilt_pending (s : State) : s.bankBuilt.pending = s.pending := by
  unfold State.bankBuilt
  split <;> simp

@[simp] theorem State.swapBank_pending (s : State) : s.swapBank.pending = s.pending := by
  unfold State.swapBank
  split
  · rfl
  · split
    · rfl
    · rw [State.setFld_pending]
      exact foldl_pending State.departEntry_pending _ _

end Sys2Proof.Machine
end

section
/-! SUPPORT. The queue of commands that wait outside stands in every operation of the range commands. -/

namespace Sys2Proof.Machine

@[simp] theorem State.settleRanges_pending (s : State) : s.settleRanges.pending = s.pending := by
  refine foldl_pending (fun s x => ?_) _ _
  (repeat' split) <;> simp

@[simp] theorem State.askMove_pending (s : State) (cards : List Nat) (cls : MoveClass) (dest : Dest) :
    (s.askMove cards cls dest).2.pending = s.pending := by
  unfold State.askMove
  dsimp only
  (repeat' split) <;> simp

@[simp] theorem State.pinBlock_pending (s : State) (owner : Nat) (cards : List Nat) (t : Tally) :
    (s.pinBlock owner cards t).2.pending = s.pending := by
  unfold State.pinBlock
  extract_lets acts away pinned tally
  have hpinned : pinned.pending = s.pending := foldl_pending (fun s n => State.setCard_pending s n _) acts s
  split
  · exact hpinned
  · exact (State.askMove_pending _ _ _ _).trans hpinned

@[simp] theorem State.unpinBlock_pending (s : State) (owner : Nat) (cards : List Nat) (t : Tally) :
    (s.unpinBlock owner cards t).2.pending = s.pending := by
  refine foldl_pending (fun s x => ?_) _ _
  (repeat' split) <;> simp

@[simp] theorem State.moveBlock_pending (s : State) (owner : Option Nat) (cls : MoveClass) (dest : Dest) (cards : List Nat)
    (t : Tally) :
    (s.moveBlock owner cls dest cards t).2.pending = s.pending := by
  unfold State.moveBlock
  dsimp only
  split <;> simp

@[simp] theorem overBlocks_pending (f : State → List Nat → Tally → Tally × State) (s : State) (bs : List (List Nat))
    (hf : ∀ y0 y1 y2, (f y0 y1 y2).2.pending = y0.pending) :
    (overBlocks f s bs).2.pending = s.pending :=
  List.foldlRecOn (motive := fun x : Tally × State => x.2.pending = s.pending) bs _ rfl fun _ h _ _ => (hf _ _ _).trans h

@[simp] theorem State.endRange_pending (s : State) (op : Nat) (h : Head) (tenant r : Nat) (t : Tally) :
    (s.endRange op h tenant r t).pending = s.pending := by simp [State.endRange]

@[simp] theorem State.freeRange_pending (s : State) (slot : Nat) (b : RangeBody) : (s.freeRange slot b).2.2.pending = s.pending := by
  simp [State.freeRange]

@[simp] theorem State.doRange_pending (s : State) (op : Nat) (h : Head) (tenant r : Nat) (b : RangeBody) :
    (s.doRange op h tenant r b).pending = s.pending := by simp [State.doRange]

@[simp] theorem State.rangeWalk_pending (s : State) (slot : Nat) (b : RangeBody) : (s.rangeWalk slot b).pending = s.pending := by
  simp [State.rangeWalk]

@[simp] theorem admitRange_pending (op : Nat) (h : Head) (b : RangeBody) (r : Nat) (s : State) :
    (admitRange op h b r s).pending = s.pending := by
  unfold admitRange
  (repeat' split) <;> simp

end Sys2Proof.Machine
end

section
/-! SUPPORT. The queue of commands that wait outside stands in every operation of the rounds of the compute arrays. -/

namespace Sys2Proof.Machine

@[simp] theorem State.addParts_pending (s : State) (n : Nat) (ps : List NodePartial) (poison : Option Nat) (contexts : Nat) :
    (s.addParts n ps poison contexts).pending = s.pending := rfl

@[simp] theorem State.losePoisoned_pending (s view : State) (fmt d : Nat) (v : Visit) (code : Option Nat) :
    (s.losePoisoned view fmt d v code).pending = s.pending := by simp [State.losePoisoned]

@[simp] theorem State.poisonVisit_pending (s view : State) (n i : Nat) (code : Option Nat) :
    (s.poisonVisit view n i code).pending = s.pending := by
  unfold State.poisonVisit
  (repeat' split) <;> simp

@[simp] theorem State.computeLate_pending (s : State) (n : Nat) : (s.computeLate n).pending = s.pending := by
  unfold State.computeLate
  split <;> simp

@[simp] theorem State.withdrawCmd_pending (s : State) (n : Nat) : (s.withdrawCmd n).pending = s.pending := by
  unfold State.withdrawCmd
  (repeat' split) <;> simp

@[simp] theorem State.withdrawUnits_pending (s : State) (p : Nat → Bool) : (s.withdrawUnits p).pending = s.pending := by
  simp [State.withdrawUnits]

@[simp] theorem State.formItems_pending (s : State) (n : Nat) : (s.formItems n).pending = s.pending := by
  unfold State.formItems
  split
  · rfl
  · extract_lets q own place places
    split
    · rfl
    · exact foldl_pending (fun s tr => foldl_pending (fun s p => State.addItem_pending s _ _) _ s) places s

@[simp] theorem State.spill_pending (s : State) (t : Nat) : (s.spill t).pending = s.pending := by simp [State.spill]

@[simp] theorem State.beginTile_pending (s : State) (t : Tile) : (s.beginTile t).pending = s.pending := by simp [State.beginTile]

@[simp] theorem State.beginTiles_pending (s : State) : s.beginTiles.pending = s.pending := by simp [State.beginTiles]

@[simp] theorem State.serveTile_pending (s : State) (a : Nat) : (s.serveTile a).pending = s.pending := rfl

@[simp] theorem State.serveAccess_pending (s : State) (a : Access) : (s.serveAccess a).pending = s.pending := by
  unfold State.serveAccess
  split <;> simp

@[simp] theorem State.countWaits_pending (s : State) (t : Nat) : (s.countWaits t).pending = s.pending :=
  (OnlyOut.foldl _ (fun _ _ => (OnlyOut.raise _ _ _).trans (OnlyOut.sample _ _ _ _)) _ _).pending

@[simp] theorem State.serveConflicts_pending (s : State) (t : Nat) : (s.serveConflicts t).pending = s.pending := by
  simp [State.serveConflicts]

@[simp] theorem State.pauseRound_pending (s : State) (t : Nat) : (s.pauseRound t).pending = s.pending := by
  unfold State.pauseRound
  dsimp only
  (repeat' split) <;> simp

@[simp] theorem State.endRound_pending (s : State) (t : Nat) : (s.endRound t).pending = s.pending := by simp [State.endRound]

@[simp] theorem State.stopScheduled_pending (s : State) (t : Nat) : (s.stopScheduled t).pending = s.pending := by
  simp [State.stopScheduled]

@[simp] theorem State.launchItem_pending (s : State) (key : Nat) (x : Item) : (s.launchItem key x).pending = s.pending := by
  unfold State.launchItem
  repeat' split
  all_goals simp (disch := (intros; repeat' split; all_goals simp))

@[simp] theorem State.issueRound_pending (s : State) (t ns : Nat) (scheduled : Bool) (r : List (Nat × Item)) :
    (s.issueRound t ns scheduled r).pending = s.pending := by simp [State.issueRound]

@[simp] theorem State.startRound_pending (s : State) (t ns : Nat) : (s.startRound t ns).pending = s.pending := by
  unfold State.startRound
  split <;> simp

@[simp] theorem State.cutRound_pending (s : State) (t : Nat) (r : Round) : (s.cutRound t r).pending = s.pending := by
  simp [State.cutRound]

@[simp] theorem State.resumeRound_pending (s : State) (t ns : Nat) : (s.resumeRound t ns).pending = s.pending := by
  unfold State.resumeRound
  split <;> simp

@[simp] theorem State.pauseWhenAll_pending (s : State) (t turn steps : Nat) (r : Round) :
    (s.pauseWhenAll t turn steps r).pending = s.pending := by simp [State.pauseWhenAll]

@[simp] theorem State.endCtx_pending (s : State) (x : Nat) (c : Ctx) (block : Nat) : (s.endCtx x c block).pending = s.pending := by
  unfold State.endCtx
  dsimp only
  split <;> simp

@[simp] theorem State.runOp_pending (s : State) (x : Nat) (o : SOp) : (s.runOp x o).pending = s.pending := by
  unfold State.runOp
  dsimp only
  (repeat' split) <;> simp

end Sys2Proof.Machine
end

section
/-! SUPPORT. The queue of commands that wait outside stands in every operation of GRAD. -/

namespace Sys2Proof.Machine

theorem State.addFloats_pending (s : State) (a : Nat) (xs : List F32) : ∀ x, s.addFloats a xs = some x → x.pending = s.pending := by
  simp [State.addFloats]

theorem State.addGrad_pending (s : State) (c : Cmd) (b : AttnBody) (d : Nat) (base : Int) (l : List Nat) :
    ∀ x, s.addGrad c b d base l = some x → x.pending = s.pending := by
  induction l generalizing s with
  | nil =>
    intro z h
    cases h
    rfl
  | cons p ps ih =>
    intro z h
    obtain ⟨t, ht, h⟩ := Option.bind_eq_some_iff.mp h
    exact (ih t z h).trans (State.addFloats_pending _ _ _ _ ht)

@[simp] theorem State.touchSums_pending (s : State) (c : Cmd) (b : AttnBody) (d : Nat) (base : Int) :
    (s.touchSums c b d base).pending = s.pending := by simp [State.touchSums]

@[simp] theorem State.gradAdd_pending (s : State) (n : Nat) : (s.gradAdd n).pending = s.pending := by
  unfold State.gradAdd
  grind [Option.map_eq_some_iff, Option.bind_eq_some_iff, State.setCmd_pending, State.decide_pending, State.addGrad_pending,
    State.touchSums_pending]

end Sys2Proof.Machine
end

section
/-! SUPPORT. The queue of commands that wait outside stands in every operation of the ends of tiles. -/

namespace Sys2Proof.Machine

@[simp] theorem State.formTiles_pending (s : State) (n : Nat) : (s.formTiles n).pending = s.pending := by
  unfold State.formTiles
  (repeat' split) <;> simp

@[simp] theorem State.countFallback_pending (s : State) (t : Tile) : (s.countFallback t).pending = s.pending := by
  refine foldl_pending (fun s x => ?_) _ _
  (repeat' split) <;> simp

@[simp] theorem State.runTile_pending (s : State) (t : Tile) (a ns span : Nat) : (s.runTile t a ns span).pending = s.pending := by
  simp [State.runTile]

@[simp] theorem State.cutTiles_pending (s : State) (cmds : List Nat) : (s.cutTiles cmds).pending = s.pending := by
  unfold State.cutTiles
  extract_lets counted
  have hcounted : counted.pending = s.pending := foldl_pending (fun s n => by split <;> simp) cmds s
  exact (foldl_pending (fun s n => State.computeLate_pending s n) _ _).trans hcounted

@[simp] theorem State.cutDue_pending (s : State) (p : Item → Bool) : (s.cutDue p).pending = s.pending := by simp [State.cutDue]

@[simp] theorem State.stopTiles_pending (s : State) : s.stopTiles.pending = s.pending := by simp [State.stopTiles]

@[simp] theorem State.issueScheduled_pending (s : State) (a ns : Nat) : (s.issueScheduled a ns).pending = s.pending := by
  unfold State.issueScheduled
  dsimp only
  split <;> simp

@[simp] theorem State.issueMoved_pending (s : State) (a ns : Nat) (items : List (Nat × Item)) :
    (s.issueMoved a ns items).pending = s.pending := by
  unfold State.issueMoved
  dsimp only
  split <;> simp

@[simp] theorem State.issueL8_pending (s : State) (a ns : Nat) : (s.issueL8 a ns).pending = s.pending := by
  unfold State.issueL8
  dsimp only
  split <;> simp

@[simp] theorem State.issueTile_pending (s : State) (ns : Nat) : (s.issueTile ns).pending = s.pending := by
  unfold State.issueTile
  split <;> simp

@[simp] theorem State.giveTile_pending (s view : State) (n : Nat) (visits : List Nat) (r : List NodePartial × Option Nat)
    (contexts : Nat) :
    (s.giveTile view n visits r contexts).pending = s.pending := by simp [State.giveTile]

@[simp] theorem State.finishTile_pending (s : State) (t : Tile) (staged : List Host.Cell × List Nat) :
    (s.finishTile t staged).pending = s.pending := by
  unfold State.finishTile
  extract_lets view
  split
  · refine foldl_pending (fun s k => ?_) _ s
    (repeat' split) <;> simp
  · split
    · rfl
    · split
      · rfl
      · split <;> simp

@[simp] theorem State.leaveArray_pending (s : State) (a ns : Nat) : (s.leaveArray a ns).pending = s.pending := by
  simp [State.leaveArray]

@[simp] theorem State.withdrawTiles_pending (s : State) (a : Nat) : (s.withdrawTiles a).pending = s.pending := by
  simp [State.withdrawTiles]

@[simp] theorem State.endTile_pending (s : State) (a ns : Nat) : (s.endTile a ns).pending = s.pending := by
  unfold State.endTile
  (repeat' split) <;> simp

end Sys2Proof.Machine
end

section
/-! SUPPORT. The queue of commands that wait outside stands in every operation of the arrival and the end of commands. -/

namespace Sys2Proof.Machine

@[simp] theorem admitCommand_pending (i : Instr) (r : Nat) (s : State) : (admitCommand i r s).pending = s.pending := by
  unfold admitCommand
  split <;> simp

@[simp] theorem State.resume_pending (s : State) (w : Waiting) : (s.resume w).pending = s.pending := by
  unfold State.resume
  split <;> simp

@[simp] theorem State.releaseHeld_pending (s : State) : s.releaseHeld.pending = s.pending := by simp [State.releaseHeld]

@[simp] theorem State.openFences_pending (s : State) (l : List Waiting) : (s.openFences l).pending = s.pending := by
  induction l generalizing s with
  | nil => rfl
  | cons w ws ih =>
    unfold State.openFences
    split
    · exact ih s
    · extract_lets before blocked
      split
      · exact ih s
      · exact (ih _).trans (State.resume_pending _ _)

@[simp] theorem State.forwardSubs_pending (s : State) (n : Nat) (scheduled : Bool) :
    (s.forwardSubs n scheduled).pending = s.pending := by
  unfold State.forwardSubs
  (repeat' split) <;> simp

@[simp] theorem State.startL8_pending (s : State) (n : Nat) : (s.startL8 n).pending = s.pending := by
  unfold State.startL8
  split <;> simp

@[simp] theorem State.startDeferred_pending (s : State) (n : Nat) (i : Instr) (r : Nat) :
    (s.startDeferred n i r).pending = s.pending := by simp [State.startDeferred]

@[simp] theorem State.startFront_pending (s : State) (n : Nat) : (s.startFront n).pending = s.pending := by
  unfold State.startFront
  (repeat' split) <;> simp

@[simp] theorem State.startNextL8_pending (s : State) (ns : Nat) : (s.startNextL8 ns).pending = s.pending := by
  unfold State.startNextL8
  dsimp only
  split <;> simp

@[simp] theorem State.expireAged_pending (s : State) (n : Nat) : (s.expireAged n).pending = s.pending := by
  unfold State.expireAged
  split <;> simp

@[simp] theorem State.forwardL3_pending (s : State) (n : Nat) : (s.forwardL3 n).pending = s.pending := by
  unfold State.forwardL3
  split <;> simp

@[simp] theorem State.lenderAnswer_pending (s : State) (n lender level group : Nat) (st : Status) (detail : Nat)
    (report : List Nat) (ps : List Partial) :
    (s.lenderAnswer n lender level group st detail report ps).pending = s.pending := by
  unfold State.lenderAnswer
  (repeat' split) <;> simp

@[simp] theorem State.lateAll_pending (s : State) (cause : Cause) (p : Cmd → Bool) : (s.lateAll cause p).pending = s.pending := by
  refine foldl_pending (fun s x => ?_) _ _
  (repeat' split) <;> simp

@[simp] theorem State.walkDeadline_pending (s : State) : s.walkDeadline.pending = s.pending := by simp [State.walkDeadline]

@[simp] theorem State.computeDeadline_pending (s : State) : s.computeDeadline.pending = s.pending := by simp [State.computeDeadline]

@[simp] theorem State.lenderDeadline_pending (s : State) : s.lenderDeadline.pending = s.pending := by simp [State.lenderDeadline]

@[simp] theorem State.sendCompletion_pending (s : State) (n ns : Nat) : (s.sendCompletion n ns).pending = s.pending := by
  unfold State.sendCompletion
  (repeat' split) <;> simp

@[simp] theorem State.eachScheduled_pending (s : State) (f : State → Nat → Cmd → State) (hf : ∀ y0 y1 y2,
    (f y0 y1 y2).pending = y0.pending) :
    (s.eachScheduled f).pending = s.pending := by
  unfold State.eachScheduled
  refine foldl_pending (fun s x => ?_) _ _
  grind []

@[simp] theorem State.closePoints_pending (s : State) : s.closePoints.pending = s.pending := by simp [State.closePoints]

@[simp] theorem State.closeGrads_pending (s : State) : s.closeGrads.pending = s.pending := by simp [State.closeGrads]

@[simp] theorem State.closeCommands_pending (s : State) : s.closeCommands.pending = s.pending := by simp [State.closeCommands]

end Sys2Proof.Machine
end

section
/-! SUPPORT. The queue of commands that wait outside stands in every operation of the units of a stack. -/

namespace Sys2Proof.Machine

@[simp] theorem State.dropWork_pending (s : State) : s.dropWork.pending = s.pending := rfl

@[simp] theorem State.toFault_pending (s : State) (cause : Nat) : (s.toFault cause).pending = s.pending := by
  unfold State.toFault
  split <;> simp

@[simp] theorem State.postShort_pending (s : State) (block unit : Nat) : (s.postShort block unit).pending = s.pending := by
  simp [State.postShort]

@[simp] theorem State.recordNbu_pending (s : State) (t region cause : Nat) : (s.recordNbu t region cause).pending = s.pending := by
  simp [State.recordNbu]

@[simp] theorem State.nbuStop_pending (s : State) (t region cause : Nat) : (s.nbuStop t region cause).pending = s.pending := by
  unfold State.nbuStop
  split
  · rfl
  extract_lets recorded cmds late spares stopped
  have hlate : late.pending = s.pending :=
    ite_pending (by simp [recorded])
      ((foldl_pending (fun s n => State.computeLate_pending s n) _ _).trans (by simp [recorded]))
  split
  · rfl
  split
  · split <;> simp [stopped, hlate]
  · simp [stopped, hlate]

@[simp] theorem State.pauseTimeout_pending (s : State) (t region : Nat) : (s.pauseTimeout t region).pending = s.pending := by
  unfold State.pauseTimeout
  split <;> simp

@[simp] theorem State.mapNbu_pending (s : State) (t region : Nat) : (s.mapNbu t region).pending = s.pending := by
  unfold State.mapNbu
  split <;> simp

@[simp] theorem State.nbuResult_pending (s : State) (t region result : Nat) : (s.nbuResult t region result).pending = s.pending := by
  simp [State.nbuResult]

@[simp] theorem State.reroute_pending (s : State) (t region : Nat) : (s.reroute t region).pending = s.pending := rfl

@[simp] theorem State.takeNbu_pending (s : State) (t group : Nat) : (s.takeNbu t group).pending = s.pending := by
  unfold State.takeNbu
  split <;> simp

@[simp] theorem State.failNbuTest_pending (s : State) (t group : Nat) : (s.failNbuTest t group).pending = s.pending := by
  unfold State.failNbuTest
  split <;> simp

@[simp] theorem State.restoreArray_pending (s : State) (die array row : Nat) (cells : Bool) :
    (s.restoreArray die array row cells).pending = s.pending := by simp [State.restoreArray]

@[simp] theorem State.recordCell_pending (s : State) (die array cell cause : Nat) :
    (s.recordCell die array cell cause).pending = s.pending := by simp [State.recordCell]

@[simp] theorem State.cellStop_pending (s : State) (die array cell cause : Nat) :
    (s.cellStop die array cell cause).pending = s.pending := by simp [State.cellStop]

@[simp] theorem State.mapArray_pending (s : State) (die array : Nat) (cell : Bool) : (s.mapArray die array cell).pending = s.pending
    := by
  simp [State.mapArray]

@[simp] theorem State.arrayResult_pending (s : State) (die array : Nat) (cell : Bool) (result : Nat) :
    (s.arrayResult die array cell result).pending = s.pending := by simp [State.arrayResult]

@[simp] theorem State.dropTest_pending (s : State) (x : SpareTarget) : (s.dropTest x).pending = s.pending := by
  unfold State.dropTest
  split <;> simp

@[simp] theorem State.arrayBack_pending (s : State) (die array : Nat) : (s.arrayBack die array).pending = s.pending := by
  simp [State.arrayBack]

@[simp] theorem State.useCell_pending (s : State) (die array : Nat) : (s.useCell die array).pending = s.pending := rfl

@[simp] theorem State.takeSpare_pending (s : State) (x : SpareTarget) : (s.takeSpare x).pending = s.pending := by
  unfold State.takeSpare
  split <;> simp

@[simp] theorem State.failArrayTest_pending (s : State) (x : SpareTarget × Nat) : (s.failArrayTest x).pending = s.pending := by
  unfold State.failArrayTest
  (repeat' split) <;> simp

@[simp] theorem State.endTests_pending (s : State) : s.endTests.pending = s.pending := by
  unfold State.endTests
  generalize List.range 12 = units
  generalize List.range 16 = groups
  have htests : (units.foldl (fun s t => groups.foldl (fun s g => s.failNbuTest t g) s) s).pending = s.pending :=
    foldl_pending (fun s t => foldl_pending (fun s g => State.failNbuTest_pending s t g) groups s) units s
  exact (foldl_pending (fun s x => State.failArrayTest_pending s x) _ _).trans htests

@[simp] theorem State.sliceFault_pending (s : State) (t slice : Nat) : (s.sliceFault t slice).pending = s.pending := by
  unfold State.sliceFault
  (repeat' split) <;> simp

@[simp] theorem State.walkerFault_pending (s : State) (w : Nat) : (s.walkerFault w).pending = s.pending := by simp [State.walkerFault]

@[simp] theorem State.fatalError_pending (s : State) (block : Nat) : (s.fatalError block).pending = s.pending := by
  unfold State.fatalError
  split <;> simp

end Sys2Proof.Machine
end

section
/-! SUPPORT. The queue of commands that wait outside stands in every operation of the errors and repairs of DRAM. -/

namespace Sys2Proof.Machine

@[simp] theorem State.lastError_pending (s : State) (t region bank uncorrected : Nat) :
    (s.lastError t region bank uncorrected).pending = s.pending := by
  unfold State.lastError
  split <;> simp

@[simp] theorem State.corrected_pending (s : State) (t region bank dramRow column : Nat) :
    (s.corrected t region bank dramRow column).pending = s.pending := by
  unfold State.corrected
  split <;> simp -implicitDefEqProofs

@[simp] theorem State.repair_pending (s : State) (t region bank dramRow : Nat) (column : Option Nat) :
    (s.repair t region bank dramRow column).pending = s.pending := by
  unfold State.repair
  dsimp only
  split
  · rfl
  · split
    · rfl
    · split
      · split
        · rw [State.gauge_pending]
        · rw [State.gauge_pending, State.count_pending, State.setFld_pending, State.setStack_pending]
      · split
        · rfl
        · split
          · rw [State.gauge_pending]
          · rw [State.gauge_pending, State.count_pending, State.setFld_pending, State.setStack_pending]

@[simp] theorem State.loseAt_pending (s : State) (line : Nat) : (s.loseAt line).pending = s.pending := by simp [State.loseAt]

@[simp] theorem State.damage_pending (s : State) (slot : Nat) : (s.damage slot).pending = s.pending := by simp [State.damage]

@[simp] theorem State.readerMeets_pending (s : State) (line : Nat) (x : PoisonReader) :
    (s.readerMeets line x).pending = s.pending := by
  unfold State.readerMeets
  split
  · rfl
  · exact State.loseAt_pending _ _
  · exact State.loseLeaf_pending _ _
  · exact State.damage_pending _ _
  · split
    · rw [State.departEntry_pending, State.postFm_pending, State.gauge_pending, State.count_pending]
    · rfl
  · simp

@[simp] theorem State.poolPoison_pending (s : State) (addr : Nat) : (s.poolPoison addr).pending = s.pending := by
  simp [State.poolPoison]

@[simp] theorem State.uncorrectable_pending (s : State) (addr : Nat) (reader : PoisonReader) :
    (s.uncorrectable addr reader).pending = s.pending := by
  unfold State.uncorrectable
  split <;> simp -implicitDefEqProofs

@[simp] theorem State.patrol_pending (s : State) (t first lines : Nat) : (s.patrol t first lines).pending = s.pending := by
  simp [State.patrol]

end Sys2Proof.Machine
end

section
/-! SUPPORT. The queue of commands that wait outside stands in every operation of the ports. -/

namespace Sys2Proof.Machine

@[simp] theorem State.onPort_pending (s : State) (p : Nat) (f : Port → State → State) (hf : ∀ y0 y1, (f y0 y1).pending = y1.pending) :
    (s.onPort p f).pending = s.pending := by grind [State.onPort]

@[simp] theorem State.portResult_pending (s : State) (p r : Nat) : (s.portResult p r).pending = s.pending := by simp [State.portResult]

@[simp] theorem State.abandonCtl_pending (s : State) (p : Nat) : (s.abandonCtl p).pending = s.pending := by simp [State.abandonCtl]

@[simp] theorem State.endCtl_pending (s : State) (p r : Nat) (c : Option LaneChange) : (s.endCtl p r c).pending = s.pending := by
  unfold State.endCtl
  split <;> simp

@[simp] theorem State.stopPort_pending (s : State) (p : Nat) (f : Port → Port) : (s.stopPort p f).pending = s.pending := by
  simp [State.stopPort]

@[simp] theorem State.startPort_pending (s : State) (p : Nat) (f : Port → Port) : (s.startPort p f).pending = s.pending := by
  simp [State.startPort]

@[simp] theorem State.retrain_pending (s : State) (p : Nat) (asks fromCtl : Bool) : (s.retrain p asks fromCtl).pending = s.pending :=
    by
  simp [State.retrain]

@[simp] theorem State.portDown_pending (s : State) (p : Nat) : (s.portDown p).pending = s.pending := by
  unfold State.portDown
  split <;> simp

@[simp] theorem State.downRetrain_pending (s : State) (p : Nat) : (s.downRetrain p).pending = s.pending := by simp [State.downRetrain]

@[simp] theorem State.request_pending (s : State) (p : Nat) (kind : LaneType) (map : Nat) (fromCtl : Bool) :
    (s.request p kind map fromCtl).pending = s.pending := by simp [State.request]

@[simp] theorem State.mend_pending (s : State) (p : Nat) : (s.mend p).pending = s.pending := by
  unfold State.mend
  (repeat' split) <;> simp

@[simp] theorem State.laneFault_pending (s : State) (p lane : Nat) : (s.laneFault p lane).pending = s.pending := by
  simp [State.laneFault]

@[simp] theorem State.deskewDone_pending (s : State) (p : Nat) : (s.deskewDone p).pending = s.pending := by
  unfold State.deskewDone
  split <;> simp

@[simp] theorem State.sendWord_pending (s : State) (p : Nat) : (s.sendWord p).pending = s.pending := by simp [State.sendWord]

@[simp] theorem State.meetPartner_pending (s : State) (p node port domain : Nat) :
    (s.meetPartner p node port domain).pending = s.pending := by
  unfold State.meetPartner
  split <;> simp

@[simp] theorem State.takeWord_pending (s : State) (p : Nat) (k : LaneType) (w : LaneWord) (f : Port → State → State)
    (hf : ∀ y0 y1, (f y0 y1).pending = y1.pending) :
    (s.takeWord p k w f).pending = s.pending := by
  grind [State.takeWord, State.setPort_pending, State.onPort_pending, State.meetPartner_pending]

@[simp] theorem State.acknowledge_pending (s : State) (p : Nat) (ack : LaneType) (l : Link) (w : LaneWord) :
    (s.acknowledge p ack l w).pending = s.pending := by
  unfold State.acknowledge
  split <;> simp

@[simp] theorem State.acknowledged_pending (s : State) (p : Nat) (kind : LaneType) (w : LaneWord) :
    (s.acknowledged p kind w).pending = s.pending := rfl

@[simp] theorem State.follow_pending (s : State) (p : Nat) (f : State → State) (hf : ∀ y0, (f y0).pending = y0.pending) :
    (s.follow p f).pending = s.pending := by grind [State.follow, State.abandonCtl_pending]

@[simp] theorem State.enterTest_pending (s : State) (p : Nat) (asks : Bool) : (s.enterTest p asks).pending = s.pending := by
  simp [State.enterTest]

@[simp] theorem State.retrainDone_pending (s : State) (p passed : Nat) : (s.retrainDone p passed).pending = s.pending := by
  simp [State.retrainDone]

@[simp] theorem State.tryAttest_pending (s : State) : s.tryAttest.pending = s.pending := by simp [State.tryAttest]

@[simp] theorem State.linkUp_pending (s : State) (p node port domain : Nat) : (s.linkUp p node port domain).pending = s.pending := by
  simp [State.linkUp]

@[simp] theorem State.retryLink_pending (s : State) (p : Nat) : (s.retryLink p).pending = s.pending := by simp [State.retryLink]

@[simp] theorem State.ctlRetrain_pending (s : State) (p : Nat) : (s.ctlRetrain p).pending = s.pending := by simp [State.ctlRetrain]

@[simp] theorem State.ctlTest_pending (s : State) (p : Nat) : (s.ctlTest p).pending = s.pending := by
  simp -implicitDefEqProofs [State.ctlTest]

@[simp] theorem State.ctlLeave_pending (s : State) (p : Nat) : (s.ctlLeave p).pending = s.pending := by
  unfold State.ctlLeave
  split <;> simp

@[simp] theorem State.ctlSwap_pending (s : State) (p lane : Nat) : (s.ctlSwap p lane).pending = s.pending := by
  unfold State.ctlSwap
  split <;> simp

@[simp] theorem State.portCtl_pending (s : State) (p op lane : Nat) : (s.portCtl p op lane).pending = s.pending := by
  unfold State.portCtl
  (repeat' split) <;> simp

@[simp] theorem State.settleAsked_pending (s : State) (p : Nat) : (s.settleAsked p).pending = s.pending := by
  unfold State.settleAsked
  (repeat' split) <;> simp

@[simp] theorem State.portsAtRow_pending (s : State) : s.portsAtRow.pending = s.pending := by
  unfold State.portsAtRow
  generalize List.range 8 = ports
  refine foldl_pending (fun s p => ?_) ports s
  extract_lets settled
  have hsettled : settled.pending = s.pending := State.settleAsked_pending s p
  split
  · exact hsettled
  · refine (State.setPort_pending _ _ _).trans (Eq.trans ?_ hsettled)
    split
    · split
      · exact State.enterTest_pending _ _ _
      · exact (State.portResult_pending _ _ _).trans (State.enterTest_pending _ _ _)
    · rfl

@[simp] theorem State.takePrbs_pending (s : State) (x : PrbsSample) : (s.takePrbs x).pending = s.pending := by simp [State.takePrbs]

@[simp] theorem State.symbolsOf_pending (s : State) (p : Nat) (x : Nat × Nat) : (s.symbolsOf p x).pending = s.pending := by
  unfold State.symbolsOf
  dsimp only
  split <;> simp -implicitDefEqProofs

@[simp] theorem State.countFec_pending (s : State) (p codewords : Nat) (corrected : List (Nat × Nat)) :
    (s.countFec p codewords corrected).pending = s.pending := by simp [State.countFec]

@[simp] theorem State.installSa_pending (s : State) (p association : Nat) : (s.installSa p association).pending = s.pending := by
  simp [State.installSa]

@[simp] theorem State.exhaustPn_pending (s : State) (p : Nat) : (s.exhaustPn p).pending = s.pending := by simp [State.exhaustPn]

@[simp] theorem State.stampMessage_pending (s : State) (p stamp : Nat) (crossed : Bool) :
    (s.stampMessage p stamp crossed).pending = s.pending := by simp [State.stampMessage]

end Sys2Proof.Machine
end

section
/-! SUPPORT. The queue of commands that wait outside stands in every operation of the row clock and its housekeeping. -/

namespace Sys2Proof.Machine

@[simp] theorem State.stackHeat_pending (s : State) (t : Nat) : (s.stackHeat t).pending = s.pending := by
  unfold State.stackHeat
  split <;> simp

@[simp] theorem State.heat_pending (s : State) (x : RowSample) : (s.heat x).pending = s.pending := by
  unfold State.heat
  generalize List.range 12 = units
  extract_lets power sampled die shown heated
  have hshown : shown.pending = s.pending := by simp [shown, sampled]
  have hheated : heated.pending = s.pending := (foldl_pending (fun s t => State.stackHeat_pending s t) units shown).trans hshown
  exact (foldl_pending (fun s y => State.sample_pending s _ _ _) _ heated).trans hheated

@[simp] theorem State.govern_pending (s : State) : s.govern.pending = s.pending := by simp [State.govern]

@[simp] theorem State.setCaps_pending (s : State) (t : Nat) : (s.setCaps t).pending = s.pending := by
  unfold State.setCaps
  extract_lets p g h e
  simp only [State.count_pending, State.setFld_pending]

@[simp] theorem State.measure_pending (s : State) (x : RowSample) : (s.measure x).pending = s.pending := by
  unfold State.measure
  (repeat' split) <;> simp

@[simp] theorem State.closeStack_pending (s : State) (t : Nat) : (s.closeStack t).pending = s.pending := by
  unfold State.closeStack
  split <;> simp

@[simp] theorem State.closeArrays_pending (s : State) : s.closeArrays.pending = s.pending := by
  unfold State.closeArrays
  generalize List.range 4 = dies
  extract_lets cut out sampled
  have hcut : cut.pending = s.pending :=
    (State.cutDue_pending _ _).trans (foldl_pending (fun s a => State.withdrawTiles_pending s a) _ s)
  have hout : out.pending = s.pending := (foldl_pending (fun s a => State.setFld_pending s _ _) _ cut).trans hcut
  have hsampled : sampled.pending = out.pending := foldl_pending (fun s d => by split <;> simp) dies out
  exact hsampled.trans hout

@[simp] theorem State.moveWalkers_pending (s : State) : s.moveWalkers.pending = s.pending := rfl

@[simp] theorem State.prune_pending (s : State) : s.prune.pending = s.pending := by simp [State.prune]

@[simp] theorem State.formWork_pending (s : State) : s.formWork.pending = s.pending := by
  refine foldl_pending (fun s x => ?_) _ _
  (repeat' split) <;> simp

@[simp] theorem State.endProtection_pending (s : State) : s.endProtection.pending = s.pending := by
  unfold State.endProtection
  dsimp only
  split <;> simp

@[simp] theorem State.pulses_pending (s : State) : s.pulses.pending = s.pending := by simp [State.pulses]

@[simp] theorem State.nextRow_pending (s : State) : s.nextRow.pending = s.pending := rfl

@[simp] theorem State.rowStart_pending (s : State) (x : RowSample) : (s.rowStart x).pending = s.pending := by simp [State.rowStart]

@[simp] theorem State.rowEnd_pending (s : State) (watts peak : Nat) : (s.rowEnd watts peak).pending = s.pending := by
  simp [State.rowEnd]

@[simp] theorem State.swatchAt_pending (s : State) (i k n : Nat) : (s.swatchAt i k n).pending = s.pending := rfl

@[simp] theorem State.shadowBuilt_pending (s : State) : s.shadowBuilt.pending = s.pending := by simp [State.shadowBuilt]

@[simp] theorem State.housekeeping_pending (s : State) : s.housekeeping.pending = s.pending := by
  have hswatch (l : List (Nat × Nat × Nat × Bool)) (s : State) :
      (l.foldl (fun s x => s.swatchAt x.1 x.2.1 x.2.2.1) s).pending = s.pending :=
    foldl_pending (fun s x => State.swatchAt_pending s _ _ _) l s
  unfold State.housekeeping
  split
  · rfl
  extract_lets ticked wanted all fit toggled noted swatched counted built
  have htoggled : toggled.pending = s.pending := hswatch fit ticked
  have hswatched : swatched.pending = s.pending := ite_pending (ite_pending (by simp [noted, htoggled]) (by simp [noted, htoggled]))
    rfl
  have hbuilt : built.pending = s.pending := by simp [built, counted, hswatched]
  split
  case h_5 => exact ite_pending hbuilt ((State.scrubIndex_pending _).trans hbuilt)
  all_goals rfl

@[simp] theorem State.switchPattern_pending (s : State) : s.switchPattern.pending = s.pending := by
  unfold State.switchPattern
  split <;> simp

@[simp] theorem State.postSync_pending (s : State) : s.postSync.pending = s.pending := by simp [State.postSync]

@[simp] theorem State.loseService_pending (s : State) : s.loseService.pending = s.pending := by
  unfold State.loseService
  split <;> simp

@[simp] theorem State.unlock_pending (s : State) : s.unlock.pending = s.pending := by simp [State.unlock]

@[simp] theorem State.stepTo_pending (s : State) (ptp : Nat) : (s.stepTo ptp).pending = s.pending := by
  unfold State.stepTo
  generalize (ptp - s.epoch) / 4096 % 2 ^ 48 = r
  rfl

@[simp] theorem State.lock_pending (s : State) (ptp : Option Nat) : (s.lock ptp).pending = s.pending := by
  unfold State.lock
  (repeat' split) <;> simp

@[simp] theorem State.holdover_pending (s : State) : s.holdover.pending = s.pending := by simp [State.holdover]

@[simp] theorem State.relock_pending (s : State) (offset : Int) : (s.relock offset).pending = s.pending := by simp [State.relock]

@[simp] theorem State.pulse_pending (s : State) (offset ptpOffset : Int) : (s.pulse offset ptpOffset).pending = s.pending := by
  simp [State.pulse]

@[simp] theorem State.rollFuses_pending (s : State) : s.rollFuses.pending = s.pending := rfl

@[simp] theorem State.enterService_pending (s : State) : s.enterService.pending = s.pending := by simp [State.enterService]

end Sys2Proof.Machine
end

section
/-! SUPPORT. The queue of commands that wait outside stands in every operation of the moves of leaves. -/

namespace Sys2Proof.Machine

@[simp] theorem State.touchLeaf_pending (s : State) (g : List Nat) : (s.touchLeaf g).pending = s.pending := by simp [State.touchLeaf]

@[simp] theorem State.takeRun_pending (s : State) (n : Nat) : (s.takeRun n).2.pending = s.pending := by
  grind [State.takeRun, State.choose_pending]

theorem State.takeRuns_pending (s : State) (m : Move) (l : List (Nat × Card)) :
    ∀ x, s.takeRuns m l = some x → x.2.pending = s.pending := by
  induction l generalizing s with
  | nil =>
    intro z h
    cases h
    rfl
  | cons p l ih =>
    intro z h
    unfold State.takeRuns at h
    have hrun := State.takeRun_pending s (runLength (s.parityFor m.dest) (s.dataGranules m p.1 p.2))
    split at h
    · cases h
    · rename_i e
      rw [e] at hrun
      obtain ⟨y, hy, rfl⟩ := Option.map_eq_some_iff.mp h
      exact (ih _ _ hy).trans hrun

@[simp] theorem State.sendLends_pending (s : State) (n lender : Nat) (xs : List (Nat × Card × List Byte)) :
    (s.sendLends n lender xs).pending = s.pending := by simp [State.sendLends]

@[simp] theorem State.sendRecall_pending (s : State) (c : Card) : (s.sendRecall c).pending = s.pending := by
  unfold State.sendRecall
  split <;> simp

@[simp] theorem State.closeMove_pending (s : State) (n : Nat) (how : MoveEnd) : (s.closeMove n how).pending = s.pending := by
  simp [State.closeMove]

@[simp] theorem State.settleCards_pending (s : State) (m : Move) : (s.settleCards m).pending = s.pending := by simp [State.settleCards]

@[simp] theorem State.demoteOne_pending (s : State) (p : Nat × Card) : (s.demoteOne p).2.pending = s.pending := by
  unfold State.demoteOne
  dsimp only
  (repeat' split) <;> simp

@[simp] theorem State.demoteUpTo_pending (s : State) (l : List (Nat × Card)) : (s.demoteUpTo l).pending = s.pending := by
  induction l generalizing s with
  | nil => rfl
  | cons p l ih =>
    unfold State.demoteUpTo
    split
    · rfl
    · exact (ih _).trans (State.demoteOne_pending _ _)

@[simp] theorem State.fallBack_pending (s : State) : s.fallBack.pending = s.pending := by simp [State.fallBack]

@[simp] theorem State.demoteNext_pending (s : State) (skip : List Nat) (l : List (Nat × Card)) :
    (s.demoteNext skip l).pending = s.pending := by
  induction l generalizing s with
  | nil => rfl
  | cons p l ih =>
    have hdemoted := State.demoteOne_pending s p
    unfold State.demoteNext
    split
    · exact ih s
    · split
      · rename_i e
        rwa [e] at hdemoted
      · rename_i e
        rw [e] at hdemoted
        exact (ih _).trans hdemoted

@[simp] theorem State.failDestination_pending (s : State) (n : Nat) (m : Move) : (s.failDestination n m).pending = s.pending := by
  simp [State.failDestination]

@[simp] theorem State.failLender_pending (s : State) (n l : Nat) (m : Move) (full : Bool) :
    (s.failLender n l m full).pending = s.pending := by
  unfold State.failLender
  dsimp only
  (repeat' split) <;> simp

@[simp] theorem State.chargePlaces_pending (s : State) (a : AnnexCopy) : (s.chargePlaces a).pending = s.pending := by
  simp [State.chargePlaces]

@[simp] theorem State.failSource_pending (s : State) (n : Nat) (m : Move) (poison : Bool) :
    (s.failSource n m poison).pending = s.pending := by
  unfold State.failSource
  repeat' split
  all_goals simp (disch := (intros; repeat' split; all_goals simp))

@[simp] theorem State.fillLeaf_pending (s : State) (h : HalfLoc) (fmt d : Nat) (bs : List Byte) :
    (s.fillLeaf h fmt d bs).pending = s.pending := by simp [State.fillLeaf]

@[simp] theorem State.leaveSource_pending (s : State) (n : Nat) (c : Card) : (s.leaveSource n c).pending = s.pending := by
  unfold State.leaveSource
  split <;> simp

@[simp] theorem State.landStack_pending (s : State) (m : Move) (n : Nat) (c : Card) (bs : List Byte) (gs : List Nat)
    (sc : Option (Nat × Nat)) :
    (s.landStack m n c bs gs sc).pending = s.pending := by simp [State.landStack]

@[simp] theorem State.landAnnex_pending (s : State) (m : Move) (n : Nat) (c : Card) (bs : List Byte) (gs : List Nat)
    (key : BitVec 512) :
    (s.landAnnex m n c bs gs key).pending = s.pending := by
  unfold State.landAnnex
  (repeat' split) <;> simp

@[simp] theorem State.dropDone_pending (s : State) (cards : List Nat) : (s.dropDone cards).pending = s.pending := by
  refine foldl_pending (fun s x => ?_) _ _
  (repeat' split) <;> simp

@[simp] theorem State.landed_pending (s : State) (n : Nat) (m : Move) : (s.landed n m).pending = s.pending := by
  unfold State.landed
  extract_lets dropped
  have hdropped : dropped.pending = s.pending := foldl_pending (fun s k => by split <;> simp [apply_ite State.pending]) _ s
  simp [hdropped]

@[simp] theorem State.rewriteIf_pending (s : State) (cards : List Nat) : (s.rewriteIf cards).pending = s.pending := by
  simp [State.rewriteIf]

@[simp] theorem State.readSource_pending (s : State) (m : Move) (cs : List (Nat × Card)) :
    (s.readSource m cs).2.pending = s.pending := by
  unfold State.readSource
  repeat' split
  all_goals simp (disch := (intros; repeat' split; all_goals simp))

@[simp] theorem State.landLoan_pending (s : State) (n l : Nat) (m : Move) (cs : List (Nat × Card)) :
    (s.landLoan n l m cs).pending = s.pending := by
  unfold State.landLoan
  repeat' split
  all_goals simp (disch := (intros; repeat' split; all_goals simp))

@[simp] theorem State.landRewrite_pending (s : State) (n : Nat) (m : Move) (xs : List (Nat × Card × List Byte)) :
    (s.landRewrite n m xs).pending = s.pending := by
  unfold State.landRewrite
  repeat' split
  all_goals simp (disch := (intros; repeat' split; all_goals simp))

@[simp] theorem State.landMove_pending (s : State) (n : Nat) : (s.landMove n).pending = s.pending := by
  unfold State.landMove
  split
  · rfl
  split
  · rfl
  rename_i m _ _ cs _
  split
  · rfl
  split
  · simp
  have hread := State.readSource_pending s m cs
  split
  · rename_i e
    rw [e] at hread
    exact (State.failSource_pending _ _ _ _).trans hread
  · rename_i xs t e
    rw [e] at hread
    split
    · refine (State.landed_pending _ _ _).trans (Eq.trans ?_ hread)
      exact foldl_pending (fun s x => State.landStack_pending _ _ _ _ _ _ _) _ t
    · extract_lets fenced
      split
      · exact ite_pending (by simpa using hread) (by simpa using hread)
      · refine ite_pending (by simpa using hread) ?_
        refine (State.rewriteIf_pending _ _).trans ((State.landed_pending _ _ _).trans (Eq.trans ?_ hread))
        exact foldl_pending (fun s x => by split <;> simp) _ t

@[simp] theorem State.failMove_pending (s : State) (n : Nat) (why : MoveFailure) : (s.failMove n why).pending = s.pending := by
  unfold State.failMove
  (repeat' split) <;> simp

@[simp] theorem State.launch_pending (s : State) (n : Nat) (m : Move) (cs : List (Nat × Card)) :
    (s.launch n m cs).pending = s.pending := by
  unfold State.launch
  extract_lets started moving
  split
  · simp [started]
  · have hmoving : moving.pending = s.pending := by
      exact (foldl_pending (fun s p => State.changeCard_pending s _ _) cs _).trans (State.setMove_pending _ _ _)
    split
    · exact (foldl_pending (fun s p => State.sendRecall_pending s _) cs _).trans hmoving
    · split
      · have hread := State.readSource_pending moving m cs
        split
        · rename_i e
          rw [e] at hread
          exact (State.failSource_pending _ _ _ _).trans (hread.trans hmoving)
        · rename_i e
          rw [e] at hread
          exact (State.sendLends_pending _ _ _ _).trans (hread.trans hmoving)
      · exact hmoving

@[simp] theorem State.holdMove_pending (s : State) (n : Nat) : (s.holdMove n).pending = s.pending := rfl

@[simp] theorem State.noStack_pending (s : State) (n : Nat) (m : Move) (cs : List (Nat × Card)) :
    (s.noStack n m cs).pending = s.pending := by
  unfold State.noStack
  (repeat' split) <;> simp

@[simp] theorem State.reserve_pending (s : State) (n : Nat) (m : Move) (cs : List (Nat × Card)) :
    (s.reserve n m cs).pending = s.pending := by
  have hruns := State.takeRuns_pending s m cs
  unfold State.reserve
  split
  · split
    · rfl
    · rename_i c hc
      have hleaf := State.takeLeaf_pending s (placement (handleSlot c.handle) c.layer c.head c.block) c.format c.d cs.length
      split
      all_goals
        rename_i e
        rw [e] at hleaf
        simpa using hleaf
  · simp
  · split
    · simp
    · rename_i e
      simpa using hruns _ e
  · split
    · rename_i e
      simpa using hruns _ e
    · split
      · simp
      · split
        · simp
        · split <;> simp

theorem State.turnOf_pending (s : State) (m : Move) (cs : List (Nat × Card)) :
    ∀ x, s.turnOf m cs = some x → x.pending = s.pending := by
  unfold State.turnOf
  (repeat' split) <;> simp

@[simp] theorem State.startMove_pending (s : State) (n : Nat) : (s.startMove n).pending = s.pending := by
  unfold State.startMove
  grind [Option.map_eq_some_iff, Option.bind_eq_some_iff, State.prefetch_pending, State.closeMove_pending, State.reserve_pending,
    State.turnOf_pending]

@[simp] theorem State.retryPromotion_pending (s : State) (n : Nat) : (s.retryPromotion n).pending = s.pending := by
  unfold State.retryPromotion
  split <;> simp

@[simp] theorem State.dropPrefetch_pending (s : State) (n : Nat) : (s.dropPrefetch n).pending = s.pending := by
  unfold State.dropPrefetch
  split <;> simp

@[simp] theorem State.ackTimeout_pending (s : State) (n : Nat) : (s.ackTimeout n).pending = s.pending := by
  unfold State.ackTimeout
  (repeat' split) <;> simp

@[simp] theorem State.endPassOver_pending (s : State) (lender : Nat) : (s.endPassOver lender).pending = s.pending := by
  unfold State.endPassOver
  split <;> simp

end Sys2Proof.Machine
end

section
/-! SUPPORT. The queue of commands that wait outside stands in every operation of the loans. -/

namespace Sys2Proof.Machine

@[simp] theorem State.onLoanQp_pending (s : State) (m : LoanMsg) (f : State → State) (hf : ∀ y0, (f y0).pending = y0.pending) :
    (s.onLoanQp m f).pending = s.pending := by grind [State.onLoanQp, State.qpError_pending]

theorem State.openLoanSeq_pending (s : State) (m : LoanMsg) : ∀ x, s.openLoanSeq m = some x → x.2.pending = s.pending := by
  intro z h
  unfold State.openLoanSeq at h
  split at h
  · cases h
    rfl
  · split at h
    · cases h
    · rename_i e
      have ht := State.takeSlot_pending _ _ _ _ e
      cases h
      exact ht

theorem State.takeLoanPlace_pending (s : State) (slot : Nat) (m : LoanMsg) (d : Nat) :
    ∀ x, s.takeLoanPlace slot m d = some x → x.2.pending = s.pending := by grind [State.takeLoanPlace, State.takeLeaf_pending]

theorem State.takeLoan_pending (s : State) (m : LoanMsg) : ∀ x, s.takeLoan m = .ok x → x.2.2.pending = s.pending := by
  intro z h
  unfold State.takeLoan at h
  extract_lets d g bytes at h
  iterate 4 (split at h; · cases h)
  split at h
  · cases h
  rename_i slot t hseq
  have ht := State.openLoanSeq_pending _ _ _ hseq
  split at h
  · cases h
  split at h
  · cases h
  rename_i l u hplace
  have hu := (State.takeLoanPlace_pending _ _ _ _ _ hplace).trans ht
  split at h
  · cases h
  extract_lets q c at h
  have hcard := State.takeCard_pending u { c with state := .sealed, valid := 256, origin := m.origin, crc := m.crc }
  split at h
  · cases h
  rename_i n v e
  rw [e] at hcard
  split at h
  · cases h
  split at h
  · cases h
  rename_i k w e'
  cases h
  obtain ⟨-, rfl⟩ := Prod.mk.inj e'
  simpa using hcard.trans hu

@[simp] theorem State.lend_pending (s : State) (m : LoanMsg) : (s.lend m).pending = s.pending := by
  unfold State.lend
  split
  · exact State.send_pending _ _
  · rename_i e
    exact (State.send_pending _ _).trans (State.takeLoan_pending _ _ _ e)

@[simp] theorem State.recall_pending (s : State) (m : LoanMsg) : (s.recall m).pending = s.pending := by
  unfold State.recall
  (repeat' split) <;> simp

@[simp] theorem State.releaseLoan_pending (s : State) (m : LoanMsg) : (s.releaseLoan m).pending = s.pending := by
  unfold State.releaseLoan
  split <;> simp

@[simp] theorem State.returnAbove_pending (s : State) (keep : Nat) (n : Nat) (l : List (Nat × Loan)) :
    (s.returnAbove keep n l).pending = s.pending := by
  induction l generalizing s n with
  | nil => rfl
  | cons p l ih =>
    obtain ⟨k, x⟩ := p
    unfold State.returnAbove
    split
    · rfl
    · split
      · exact ih _ _
      · exact (ih _ _).trans (State.send_pending _ _)

@[simp] theorem State.returnOverQuota_pending (s : State) : s.returnOverQuota.pending = s.pending := by simp [State.returnOverQuota]

@[simp] theorem State.returnAll_pending (s : State) : s.returnAll.pending = s.pending := by simp [State.returnAll]

@[simp] theorem State.takeLendAck_pending (s : State) (m : LoanMsg) : (s.takeLendAck m).pending = s.pending := by
  unfold State.takeLendAck
  dsimp only
  (repeat' split) <;> simp

@[simp] theorem State.takeRecallData_pending (s : State) (m : LoanMsg) : (s.takeRecallData m).pending = s.pending := by
  unfold State.takeRecallData
  split
  · rfl
  split
  · rfl
  rename_i k mv hfind
  split
  · simp
  extract_lets kept moved
  split
  · split
    · simp [moved]
    · rename_i cs _ _ _
      have hread := State.readSource_pending moved kept cs
      split
      all_goals
        rename_i e
        rw [e] at hread
        simpa [moved] using hread
  · simp [moved]

@[simp] theorem State.takeReturn_pending (s : State) (m : LoanMsg) : (s.takeReturn m).pending = s.pending := by
  unfold State.takeReturn
  split <;> simp

@[simp] theorem State.loseLoans_pending (s : State) (lender : Nat) : (s.loseLoans lender).pending = s.pending := by
  simp [State.loseLoans]

end Sys2Proof.Machine
end

section
/-! SUPPORT. The queue of commands that wait outside stands in every operation of the annex. -/

namespace Sys2Proof.Machine

@[simp] theorem State.fence_pending (s : State) (dev : Nat) : (s.fence dev).pending = s.pending := by simp [State.fence]

@[simp] theorem State.linkTimeout_pending (s : State) (dev : Nat) : (s.linkTimeout dev).pending = s.pending := by
  simp [State.linkTimeout]

@[simp] theorem State.poisonLimit_pending (s : State) (dev : Nat) : (s.poisonLimit dev).pending = s.pending := by
  simp [State.poisonLimit]

@[simp] theorem State.postLostOwners_pending (s : State) (l : List Nat) (ws : List Nat) :
    (s.postLostOwners l ws).pending = s.pending := by
  induction ws generalizing s l with
  | nil => rfl
  | cons n ws ih =>
    unfold State.postLostOwners
    split
    · exact ih _ _
    · split
      · exact ih _ _
      · exact (ih _ _).trans (State.postLost_pending _ _)

@[simp] theorem State.sweep_pending (s : State) (dev : Nat) : (s.sweep dev).pending = s.pending := by simp [State.sweep]

@[simp] theorem State.deviceEvent_pending (s : State) (dev : Nat) (fatal : Bool) : (s.deviceEvent dev fatal).pending = s.pending := by
  simp [State.deviceEvent]

@[simp] theorem State.annexDown_pending (s : State) (a : Nat) : (s.annexDown a).pending = s.pending := by simp [State.annexDown]

@[simp] theorem State.annexUp_pending (s : State) (a : Nat) : (s.annexUp a).pending = s.pending := by simp [State.annexUp]

@[simp] theorem State.perst_pending (s : State) (high : Bool) : (s.perst high).pending = s.pending := by simp [State.perst]

@[simp] theorem State.engineFault_pending (s : State) (n : Nat) : (s.engineFault n).pending = s.pending := by
  unfold State.engineFault
  split <;> simp

@[simp] theorem State.queueRewrites_pending (s : State) (l : List Nat) : (s.queueRewrites l).pending = s.pending := by
  induction l generalizing s with
  | nil => rfl
  | cons n l ih =>
    unfold State.queueRewrites
    split
    · exact ih s
    · exact (ih _).trans (State.queueMove_pending _ _)

@[simp] theorem State.annexOp_pending (s : State) (op : AnnexOp) : (s.annexOp op).pending = s.pending := by
  unfold State.annexOp
  (repeat' split) <;> simp

@[simp] theorem State.annexOpDone_pending (s : State) : s.annexOpDone.pending = s.pending := by
  unfold State.annexOpDone
  split <;> simp

end Sys2Proof.Machine
end

section
/-! SUPPORT. The queue of commands that wait outside stands in every operation of the connections and packets of the transport. -/

namespace Sys2Proof.Machine

@[simp] theorem State.followPath_pending (s : State) (k : Packet) : (s.followPath k).pending = s.pending := by simp [State.followPath]

@[simp] theorem State.quarantine_pending (s : State) (k : Nat) : (s.quarantine k).pending = s.pending := rfl

@[simp] theorem State.openConn_pending (s : State) (node domain cls : Nat) (relay : Bool) :
    (s.openConn node domain cls relay).2.pending = s.pending := by
  unfold State.openConn
  split <;> simp

@[simp] theorem State.trunk_pending (s : State) (domain : Nat) : (s.trunk domain).2.pending = s.pending := by
  unfold State.trunk
  (repeat' split) <;> simp

@[simp] theorem State.closeBulk_pending (s : State) (domain : Nat) : (s.closeBulk domain).pending = s.pending := by
  grind [State.closeBulk, State.send_pending, State.trunk_pending]

theorem State.addRecord_pending (s : State) (domain : Nat) (r : BulkRecord) :
    ∀ x, s.addRecord domain r = some x → x.pending = s.pending := by simp [State.addRecord]

@[simp] theorem State.addAnswer_pending (s : State) (domain : Nat) (r : BulkRecord) : (s.addAnswer domain r).pending = s.pending := by
  unfold State.addAnswer
  cases h : s.addRecord domain r with
  | none => rfl
  | some t => exact State.addRecord_pending _ _ _ _ h

@[simp] theorem State.packAnswer_pending (s : State) (key : Nat) (m : List Byte) : (s.packAnswer key m).pending = s.pending := by
  unfold State.packAnswer
  dsimp only
  split <;> simp

@[simp] theorem State.wholeMessage_pending (s : State) (key : Nat) (c : Conn) (k : Packet) (m : List Byte) :
    (s.wholeMessage key c k m).pending = s.pending := by
  unfold State.wholeMessage
  dsimp only
  (repeat' split) <;> simp

@[simp] theorem State.takeNext_pending (s : State) (key : Nat) (k : Packet) : (s.takeNext key k).pending = s.pending := by
  unfold State.takeNext
  split <;> simp

@[simp] theorem State.inOrder_pending (s : State) (key : Nat) (n : Nat) : (s.inOrder key n).pending = s.pending := by
  induction n generalizing s with
  | zero => rfl
  | succ n ih =>
    unfold State.inOrder
    split
    · rfl
    · split
      · rfl
      · exact (ih _).trans (State.takeNext_pending _ _ _)

@[simp] theorem State.sendAck_pending (s : State) (key : Nat) : (s.sendAck key).pending = s.pending := by
  unfold State.sendAck
  split <;> simp

@[simp] theorem State.takePacket_pending (s : State) (key : Nat) (c : Conn) (k : Packet) :
    (s.takePacket key c k).pending = s.pending := by simp [State.takePacket]

@[simp] theorem State.receivePacket_pending (s : State) (k : Packet) : (s.receivePacket k).pending = s.pending := by
  unfold State.receivePacket
  dsimp only
  (repeat' split) <;> simp

@[simp] theorem State.leaveError_pending (s : State) (key : Nat) : (s.leaveError key).pending = s.pending := by
  unfold State.leaveError
  split <;> simp

@[simp] theorem State.takeAck_pending (s : State) (qp node srcQp cum : Nat) (sack : Word) :
    (s.takeAck qp node srcQp cum sack).pending = s.pending := by
  unfold State.takeAck
  split <;> simp

@[simp] theorem State.takeNak_pending (s : State) (node index first count : Nat) :
    (s.takeNak node index first count).pending = s.pending := by simp [State.takeNak]

@[simp] theorem State.pathTimeout_pending (s : State) (entry path : Nat) : (s.pathTimeout entry path).pending = s.pending := by
  simp [State.pathTimeout]

@[simp] theorem State.expireAck_pending (s : State) (qp node srcQp psn ns : Nat) :
    (s.expireAck qp node srcQp psn ns).pending = s.pending := by
  unfold State.expireAck
  dsimp only
  (repeat' split) <;> simp

@[simp] theorem State.endHold_pending (s : State) (node path : Nat) : (s.endHold node path).pending = s.pending := by
  unfold State.endHold
  split <;> simp

@[simp] theorem State.losePeer_pending (s : State) (node domain : Nat) : (s.losePeer node domain).pending = s.pending := by
  unfold State.losePeer
  split
  · rfl
  · extract_lets ks erred event posted
    have herred : erred.pending = s.pending := foldl_pending (fun s k => State.qpError_pending s k 3) ks s
    split <;> simp [posted, herred]

@[simp] theorem State.accept_pending (s : State) (m : CmMsg) (st : Status) (qp psn : Nat) :
    (s.accept m st qp psn).pending = s.pending := by simp [State.accept]

@[simp] theorem State.connect_pending (s : State) (m : CmMsg) : (s.connect m).pending = s.pending := by
  unfold State.connect
  dsimp only
  (repeat' split) <;> simp

@[simp] theorem State.answerCm_pending (s : State) (kind : CmKind) (m : CmMsg) (result key base : Nat) :
    (s.answerCm kind m result key base).pending = s.pending := by simp [State.answerCm]

@[simp] theorem State.disconnect_pending (s : State) (m : CmMsg) : (s.disconnect m).pending = s.pending := by
  unfold State.disconnect
  (repeat' split) <;> simp

@[simp] theorem State.endClosing_pending (s : State) (qp : Nat) : (s.endClosing qp).pending = s.pending :=
  foldl_pending (fun s key => State.quarantine_pending s key) _ _

@[simp] theorem State.endError_pending (s : State) (qp : Nat) : (s.endError qp).pending = s.pending :=
  foldl_pending (fun s key => State.quarantine_pending s key) _ _

@[simp] theorem State.endQuarantine_pending (s : State) (qp : Nat) : (s.endQuarantine qp).pending = s.pending := rfl

@[simp] theorem State.allocRun_pending (s : State) (n : Nat) : (s.allocRun n).2.pending = s.pending := rfl

theorem State.takeAlloc_pending (s : State) (length : Nat) : ∀ x, s.takeAlloc length = .ok x → x.2.pending = s.pending := by
  grind [State.takeAlloc, State.zero_pending, State.allocRun_pending]

@[simp] theorem State.registered_pending (s : State) (m : CmMsg) (st : Status) (key base : Nat) :
    (s.registered m st key base).pending = s.pending := by simp [State.registered]

@[simp] theorem State.makeRegion_pending (s : State) (c : Conn) (m : CmMsg) (i base : Nat) :
    (s.makeRegion c m i base).pending = s.pending := by simp [State.makeRegion]

@[simp] theorem State.onCm_pending (s : State) (m : CmMsg) (flushed : State → State) (f : Conn → State → State)
    (hflushed : ∀ y0, (flushed y0).pending = y0.pending) (hf : ∀ y0 y1, (f y0 y1).pending = y1.pending) :
    (s.onCm m flushed f).pending = s.pending := by grind [State.onCm]

theorem State.makeRegion_pending_of_takeAlloc {s t : State} {n base : Nat} (c : Conn) (m : CmMsg) (i : Nat) (e : s.takeAlloc n = .ok (base, t)) :
    (t.makeRegion c m i base).pending = s.pending :=
  (State.makeRegion_pending t c m i base).trans (State.takeAlloc_pending s n (base, t) e)

@[simp] theorem State.register_pending (s : State) (m : CmMsg) : (s.register m).pending = s.pending := by
  unfold State.register
  refine State.onCm_pending s m _ _ (fun s => State.registered_pending _ _ _ _ _) fun c s => ?_
  generalize firstFrom s.keyFree 0 keyCount keyCount = found
  split
  · simp
  split
  · simp
  split
  · simp
  split
  · simp
  · rename_i e
    exact State.makeRegion_pending_of_takeAlloc _ _ _ e

@[simp] theorem State.deregistered_pending (s : State) (m : CmMsg) (st : Status) : (s.deregistered m st).pending = s.pending := by
  simp [State.deregistered]

@[simp] theorem State.revokeKeys_pending (s : State) (ks : List Nat) (who : Option CmMsg) :
    (s.revokeKeys ks who).pending = s.pending := by simp [State.revokeKeys]

@[simp] theorem State.deregister_pending (s : State) (m : CmMsg) : (s.deregister m).pending = s.pending := by
  grind [State.deregister, State.onCm_pending, State.deregistered_pending, State.revokeKeys_pending]

@[simp] theorem State.endRevocation_pending (s : State) (i : Nat) : (s.endRevocation i).pending = s.pending := by
  unfold State.endRevocation
  (repeat' split) <;> simp

end Sys2Proof.Machine
end

section
/-! SUPPORT. The queue of commands that wait outside stands in every operation of the gateway. -/

namespace Sys2Proof.Machine

@[simp] theorem State.noteRelayed_pending (s : State) (domain key : Nat) (r : BulkRecord) (entry : Nat × Nat) :
    (s.noteRelayed domain key r entry).pending = s.pending := rfl

@[simp] theorem State.flushCommand_pending (s : State) (key qp node : Nat) (op tag : Nat) :
    (s.flushCommand key qp node op tag).pending = s.pending := by simp [State.flushCommand]

@[simp] theorem State.pack_pending (s : State) (domain key : Nat) (r : BulkRecord) : (s.pack domain key r).pending = s.pending := by
  grind [State.pack, State.closeBulk_pending, State.addRecord_pending, State.noteRelayed_pending, State.flushCommand_pending]

@[simp] theorem State.envelope_pending (s : State) (qp node srcQp dstDomain dstNode : Nat) (m : List Byte) :
    (s.envelope qp node srcQp dstDomain dstNode m).pending = s.pending := by
  unfold State.envelope
  (repeat' split) <;> simp

@[simp] theorem State.deliverAnswer_pending (s : State) (r : BulkRecord) : (s.deliverAnswer r).pending = s.pending := by
  unfold State.deliverAnswer
  (repeat' split) <;> simp

@[simp] theorem State.relayConn_pending (s : State) (node cls : Nat) : (s.relayConn node cls).2.pending = s.pending := by
  unfold State.relayConn
  split <;> simp

@[simp] theorem State.refuseRecord_pending (s : State) (r : BulkRecord) : (s.refuseRecord r).pending = s.pending := by
  simp [State.refuseRecord]

@[simp] theorem State.issue_pending (s : State) (r : BulkRecord) : (s.issue r).pending = s.pending := by
  grind [State.issue, State.send_pending, State.relayConn_pending, State.refuseRecord_pending]

@[simp] theorem State.takeRecord_pending (s : State) (r : BulkRecord) : (s.takeRecord r).pending = s.pending := by
  simp [State.takeRecord]

@[simp] theorem State.takeBulk_pending (s : State) (qp : Nat) (rs : List BulkRecord) : (s.takeBulk qp rs).pending = s.pending := by
  unfold State.takeBulk
  (repeat' split) <;> simp

@[simp] theorem State.flushTrunk_pending (s : State) (domain : Nat) : (s.flushTrunk domain).pending = s.pending := by
  simp [State.flushTrunk]

@[simp] theorem State.bulkExpiry_pending (s : State) (domain ns : Nat) : (s.bulkExpiry domain ns).pending = s.pending := by
  unfold State.bulkExpiry
  dsimp only
  split <;> simp

end Sys2Proof.Machine
end

section
/-! SUPPORT. The queue of commands that wait outside stands in every operation of the traffic manager. -/

namespace Sys2Proof.Machine

@[simp] theorem State.bufferTc7_pending (s : State) (p : Nat) (f : Frame) : (s.bufferTc7 p f).pending = s.pending := by
  simp [State.bufferTc7]

@[simp] theorem State.bufferShared_pending (s : State) (p cls : Nat) (yellow : Bool) (f : Frame) :
    (s.bufferShared p cls yellow f).pending = s.pending := by simp [State.bufferShared]

@[simp] theorem State.police_pending (s : State) (cls : Nat) (f : Frame) : (s.police cls f).2.pending = s.pending := by
  unfold State.police
  dsimp only
  (repeat' split) <;> simp

@[simp] theorem State.takeFrame_pending (s : State) (p : Nat) (f : Frame) : (s.takeFrame p f).pending = s.pending := by
  grind [State.takeFrame, State.count_pending, State.bufferTc7_pending, State.bufferShared_pending, State.police_pending]

@[simp] theorem State.macFrame_pending (s : State) (p : Nat) (q : Port) (f : Frame) : (s.macFrame p q f).pending = s.pending := by
  simp [State.macFrame]

@[simp] theorem State.receiveFrame_pending (s : State) (p : Nat) (f : Frame) : (s.receiveFrame p f).pending = s.pending := by
  simp [State.receiveFrame]

@[simp] theorem State.switchGate_pending (s : State) (p : Nat) : (s.switchGate p).pending = s.pending := by
  unfold State.switchGate
  (repeat' split) <;> simp

@[simp] theorem State.markWaits_pending (s : State) (p lanes ns8 now8 : Nat) : (s.markWaits p lanes ns8 now8).pending = s.pending := by
  unfold State.markWaits
  generalize List.range 8 = classes
  refine foldl_pending (fun s c => ?_) classes s
  (repeat' split) <;> rfl

@[simp] theorem State.countWait_pending (s : State) (p now8 : Nat) (f : Queued) : (s.countWait p now8 f).pending = s.pending := by
  unfold State.countWait
  split <;> simp -implicitDefEqProofs

@[simp] theorem State.takePn_pending (s : State) (p : Nat) : (s.takePn p).pending = s.pending := by
  unfold State.takePn
  split <;> simp

@[simp] theorem State.sendFrame_pending (s : State) (p lanes c ns8 now8 : Nat) :
    (s.sendFrame p lanes c ns8 now8).pending = s.pending := by
  unfold State.sendFrame
  split <;> simp

@[simp] theorem State.transmit_pending (s : State) (p ns8 : Nat) : (s.transmit p ns8).pending = s.pending := by
  grind [State.transmit, State.onPort_pending, State.markWaits_pending, State.sendFrame_pending]

end Sys2Proof.Machine
end

section
/-! SUPPORT. The queue of commands that wait outside stands in every operation of the stores of the boot processor. -/

namespace Sys2Proof.Machine

@[simp] theorem State.putGate_pending (s : State) (p x : Nat) (v : Word) : (s.putGate p x v).pending = s.pending := rfl

@[simp] theorem State.bumpRoute_pending (s : State) (i : Nat) : (s.bumpRoute i).pending = s.pending := by simp [State.bumpRoute]

@[simp] theorem State.afterPolicer_pending (s : State) (i : Nat) (old : Policer) : (s.afterPolicer i old).pending = s.pending := by
  simp [State.afterPolicer]

@[simp] theorem State.putFields_pending (s : State) (b o : Nat) (v : Word) : (s.putFields b o v).pending = s.pending := by
  simp [State.putFields]

@[simp] theorem State.putRoute_pending (s : State) (i : Nat) (w0 w1 : Word) : (s.putRoute i w0 w1).pending = s.pending := by
  simp [State.putRoute]

@[simp] theorem State.putPolicer_pending (s : State) (i : Nat) (w0 w1 : Word) : (s.putPolicer i w0 w1).pending = s.pending := by
  simp [State.putPolicer]

@[simp] theorem State.putFloor_pending (s : State) (v : Word) : (s.putFloor v).pending = s.pending := by simp [State.putFloor]

@[simp] theorem State.putWord_pending (s : State) (b o : Nat) (v : Word) : (s.putWord b o v).pending = s.pending := by
  simp [State.putWord]

@[simp] theorem State.configWrite_pending (s : State) (b o : Nat) (v : Word) : (s.configWrite b o v).pending = s.pending := by
  unfold State.configWrite
  split <;> simp

end Sys2Proof.Machine
end

section
/-! SUPPORT. The queue of commands that wait outside stands in every operation of the upkeep of the index. -/

namespace Sys2Proof.Machine

@[simp] theorem State.compactAuto_pending (s : State) : s.compactAuto.pending = s.pending := by simp [State.compactAuto]

@[simp] theorem State.compactSwap_pending (s : State) : s.compactSwap.pending = s.pending := by
  unfold State.compactSwap
  split <;> simp

@[simp] theorem State.removeEntry_pending (s : State) (n : Nat) : (s.removeEntry n).pending = s.pending := by
  unfold State.removeEntry
  split <;> simp

@[simp] theorem State.flushSet_pending (s : State) (k : Nat) : (s.flushSet k).pending = s.pending :=
  (State.setFld_pending _ _ _).trans (foldl_pending State.departEntry_pending _ _)

end Sys2Proof.Machine
end

section
/-! SUPPORT. The queue of commands that wait outside stands in every operation of boot and reset. -/

namespace Sys2Proof.Machine

@[simp] theorem State.setCause_pending (s : State) (i : Slot2) (c : ImageCause) : (s.setCause i c).pending = s.pending := by
  simp [State.setCause]

@[simp] theorem State.pickImage_pending (s : State) : s.pickImage.2.pending = s.pending := by
  unfold State.pickImage
  dsimp only
  (repeat' split) <;> simp

@[simp] theorem State.bootFrom_pending (s : State) (i : Slot2) : (s.bootFrom i).pending = s.pending := by
  unfold State.bootFrom
  extract_lets ws lib models written booted
  have hwritten : written.pending = s.pending := foldl_pending (fun s w => State.configWrite_pending _ _ _ _) ws s
  have hbooted : booted.pending = s.pending := by simp [booted, hwritten]
  split
  split
  refine (State.toNode_pending _ _).trans ((foldl_pending ?_ _ _).trans hbooted)
  intro s p
  split <;> simp

@[simp] theorem State.boot_pending (s : State) : s.boot.pending = s.pending := by
  grind [State.boot, State.toFault_pending, State.pickImage_pending, State.bootFrom_pending]

@[simp] theorem State.vaultSlots_pending (s : State) : s.vaultSlots.pending = s.pending := rfl

@[simp] theorem State.countSpares_pending (s : State) (t : Nat) : (s.countSpares t).pending = s.pending := by
  unfold State.countSpares
  split <;> simp

@[simp] theorem State.mapArrays_pending (s : State) : s.mapArrays.pending = s.pending := by
  unfold State.mapArrays
  generalize List.range 192 = arrays
  exact foldl_pending (fun s a => State.setFld_pending s _ _) arrays s

@[simp] theorem State.setPool_pending (s : State) (n gib : Nat) : (s.setPool n gib).pending = s.pending := by simp [State.setPool]

theorem State.withNode_pending (s : State) (n : NodeSt) : ({ s with node := n } : State).pending = s.pending := rfl

theorem State.withMem_pending (s : State) (m : List Host.Cell) (l : List Nat) : ({ s with mem := m, poison := l } : State).pending = s.pending :=
  rfl

@[simp] theorem State.trained_pending (s : State) (n gib : Nat) : (s.trained n gib).pending = s.pending := by
  unfold State.trained
  split
  · rfl
  · generalize List.range 12 = numbers
    dsimp only
    rw [State.tryAttest_pending, State.withNode_pending, State.setPool_pending, State.vaultSlots_pending, State.mapArrays_pending,
      foldl_pending State.countSpares_pending, State.withMem_pending]

@[simp] theorem State.keepAlways_pending (s : State) : s.keepAlways.pending = s.pending := rfl

@[simp] theorem State.afterReset_pending (s : State) (cause : Nat) : (s.afterReset cause).pending = s.pending := by
  simp [State.afterReset]

@[simp] theorem State.fullReset_pending (s : State) (cause fault : Nat) : (s.fullReset cause fault).pending = s.pending := by
  unfold State.fullReset
  (repeat' split) <;> simp

@[simp] theorem State.holdReset_pending (s : State) : s.holdReset.pending = s.pending := by simp [State.holdReset]

@[simp] theorem State.powerOn_pending (s : State) (oobHigh : Bool) : (s.powerOn oobHigh).pending = s.pending := rfl

@[simp] theorem State.powerOff_pending (s : State) : s.powerOff.pending = s.pending := rfl

@[simp] theorem State.admitNode_pending (s : State) : s.admitNode.pending = s.pending := by simp [State.admitNode]

@[simp] theorem State.commitNode_pending (s : State) : s.commitNode.pending = s.pending := by simp [State.commitNode]

@[simp] theorem State.flashBegin_pending (s : State) (op a : Nat) : (s.flashBegin op a).pending = s.pending := by
  simp [State.flashBegin]

@[simp] theorem State.flashDone_pending (s : State) : s.flashDone.pending = s.pending := by simp [State.flashDone]

end Sys2Proof.Machine
end

section
/-! SUPPORT. The queue of commands that wait outside stands in every operation of the cuts of blocks. -/

namespace Sys2Proof.Machine

@[simp] theorem State.dropFlight_pending (s : State) : s.dropFlight.pending = s.pending := by simp [State.dropFlight]

@[simp] theorem State.loseNbus_pending (s : State) (t : Nat) : (s.loseNbus t).pending = s.pending := by
  unfold State.loseNbus
  split <;> simp

@[simp] theorem State.loseArrays_pending (s : State) (d : Nat) : (s.loseArrays d).pending = s.pending := by simp [State.loseArrays]

@[simp] theorem State.loseMover_pending (s : State) : s.loseMover.pending = s.pending := by simp [State.loseMover]

@[simp] theorem State.rebuildIndex_pending (s : State) : s.rebuildIndex.pending = s.pending :=
  (State.withIndex_pending _ _).trans (foldl_pending State.departEntry_pending _ _)

@[simp] theorem State.loseBlock_pending (s : State) (b : Nat) : (s.loseBlock b).pending = s.pending := by
  unfold State.loseBlock
  split <;> simp

@[simp] theorem State.holdBlock_pending (s : State) (b : Nat) (how : BlockHold) : (s.holdBlock b how).pending = s.pending := by
  simp [State.holdBlock]

@[simp] theorem State.freeBlock_pending (s : State) (b : Nat) : (s.freeBlock b).pending = s.pending := by simp [State.freeBlock]

@[simp] theorem State.cutBlock_pending (s : State) (b : Nat) : (s.cutBlock b).pending = s.pending := by simp [State.cutBlock]

@[simp] theorem State.returnBlocks_pending (s : State) (bs : List Nat) : (s.returnBlocks bs).pending = s.pending := by
  refine foldl_pending (fun s x => ?_) _ _
  (repeat' split) <;> simp

end Sys2Proof.Machine
end

section
/-! SUPPORT. The queue of commands that wait outside stands in every operation of power and temperature. -/

namespace Sys2Proof.Machine

@[simp] theorem State.setTemp_pending (s : State) (x : Sensor) (f : Temp → Temp) : (s.setTemp x f).pending = s.pending := by
  unfold State.setTemp
  split <;> simp

@[simp] theorem State.alertAt_pending (s : State) (x : Sensor) (temp : Nat) : (s.alertAt x temp).pending = s.pending := by
  simp [State.alertAt]

@[simp] theorem State.emergencyAt_pending (s : State) (x : Sensor) (temp : Nat) : (s.emergencyAt x temp).pending = s.pending := by
  simp [State.emergencyAt]

@[simp] theorem State.tripAt_pending (s : State) (x : Sensor) (temp : Nat) : (s.tripAt x temp).pending = s.pending := by
  simp [State.tripAt]

@[simp] theorem State.clearAt_pending (s : State) (x : Sensor) : (s.clearAt x).pending = s.pending := by simp [State.clearAt]

@[simp] theorem State.riseCap_pending (s : State) (t : Nat) : (s.riseCap t).pending = s.pending := by
  unfold State.riseCap
  split <;> simp

@[simp] theorem State.returnAt_pending (s : State) (x : Sensor) : (s.returnAt x).pending = s.pending := by
  unfold State.returnAt
  split <;> simp

@[simp] theorem State.railOut_pending (s : State) (k : Nat) : (s.railOut k).pending = s.pending := by simp [State.railOut]

@[simp] theorem State.railFail_pending (s : State) (k : Nat) : (s.railFail k).pending = s.pending := by
  unfold State.railFail
  (repeat' split) <;> simp

@[simp] theorem State.railRecover_pending (s : State) (k : Nat) : (s.railRecover k).pending = s.pending := by simp [State.railRecover]

end Sys2Proof.Machine
end

section
/-! SUPPORT. The queue of commands that wait outside stands in every operation of the vault. -/

namespace Sys2Proof.Machine

@[simp] theorem State.tenantResult_pending (s : State) (r : Nat) : (s.tenantResult r).pending = s.pending := by
  simp [State.tenantResult]

@[simp] theorem State.claimsSoon_pending (s : State) : s.claimsSoon.pending = s.pending := rfl

@[simp] theorem State.claimsEnd_pending (s : State) : s.claimsEnd.pending = s.pending := by simp [State.claimsEnd]

@[simp] theorem State.admitTenant_pending (s : State) (t : Nat) (isSealed : Bool) : (s.admitTenant t isSealed).pending = s.pending :=
    by
  simp [State.admitTenant]

@[simp] theorem State.endSessionsOf_pending (s : State) (t : Nat) : (s.endSessionsOf t).pending = s.pending := rfl

@[simp] theorem State.dropTenantConns_pending (s : State) (t : Nat) : (s.dropTenantConns t).pending = s.pending := by
  simp [State.dropTenantConns]

@[simp] theorem State.revokeTenant_pending (s : State) (t : Nat) : (s.revokeTenant t).pending = s.pending := by
  simp [State.revokeTenant]

@[simp] theorem State.closeTenant_pending (s : State) (t : Nat) : (s.closeTenant t).pending = s.pending := rfl

@[simp] theorem State.keyMoves_pending (s : State) (t : Nat) : (s.keyMoves t).pending = s.pending := by
  refine foldl_pending (fun s x => ?_) _ _
  (repeat' split) <;> simp

@[simp] theorem State.withdrawTenant_pending (s : State) (t : Nat) : (s.withdrawTenant t).pending = s.pending := by
  simp [State.withdrawTenant]

@[simp] theorem State.endWithdrawal_pending (s : State) (t : Nat) : (s.endWithdrawal t).pending = s.pending := by
  simp [State.endWithdrawal]

@[simp] theorem State.readTenant_pending (s : State) (t : Nat) : (s.readTenant t).pending = s.pending := by simp [State.readTenant]

@[simp] theorem State.vaultReply_pending (s : State) (session : Option Nat) (op result : Nat) (ds : List Digest)
    (log : List LogRecord) :
    (s.vaultReply session op result ds log).pending = s.pending := rfl

@[simp] theorem State.spdmError_pending (s : State) (session : Option Nat) : (s.spdmError session).pending = s.pending := rfl

@[simp] theorem State.openSession_pending (s : State) : s.openSession.pending = s.pending := by simp [State.openSession]

@[simp] theorem State.finishSession_pending (s : State) (n : Nat) (leaf : Digest) (verified : Bool) :
    (s.finishSession n leaf verified).pending = s.pending := by
  unfold State.finishSession
  split <;> simp

@[simp] theorem State.inSession_pending (s : State) (session : Option Nat) (f : Nat → Session → State) (hf : ∀ y0 y1,
    (f y0 y1).pending = s.pending) :
    (s.inSession session f).pending = s.pending := by
  unfold State.inSession
  grind [Option.map_eq_some_iff, Option.bind_eq_some_iff, State.spdmError_pending]

@[simp] theorem State.spdm_pending (s : State) (session : Option Nat) (r : SpdmReq) : (s.spdm session r).pending = s.pending := by
  unfold State.spdm
  extract_lets plain
  have hplain (code : Nat) (ds : List Digest) : (plain code ds).pending = s.pending := by
    dsimp only [plain]
    split
    · rfl
    · split <;> rfl
  clear_value plain
  split
  case h_9 =>
    split
    · exact State.openSession_pending s
    · exact hplain _ _
  case h_10 => exact State.inSession_pending _ _ _ fun _ _ => State.finishSession_pending _ _ _ _
  case h_11 => exact State.inSession_pending _ _ _ fun _ _ => rfl
  case h_12 => exact State.inSession_pending _ _ _ fun _ _ => rfl
  case h_13 => exact State.inSession_pending _ _ _ fun _ _ => rfl
  all_goals exact hplain _ _

@[simp] theorem State.endHeartbeat_pending (s : State) (n : Nat) : (s.endHeartbeat n).pending = s.pending := by
  unfold State.endHeartbeat
  split <;> simp

@[simp] theorem State.vendor_pending (s : State) (session t op : Nat) (f : Tenant → Nat × State) (hf : ∀ y0,
    (f y0).2.pending = s.pending) :
    (s.vendor session t op f).pending = s.pending := by grind [State.vendor, State.vaultReply_pending]

@[simp] theorem State.setKey_pending (s : State) (session t : Nat) (k1 k2 : BitVec 256) :
    (s.setKey session t k1 k2).pending = s.pending := by grind [State.setKey, State.setTenant_pending, State.vendor_pending]

@[simp] theorem State.setTicket_pending (s : State) (session t : Nat) (secret : BitVec 256) :
    (s.setTicket session t secret).pending = s.pending := by grind [State.setTicket, State.setTenant_pending, State.vendor_pending]

@[simp] theorem State.setConsent_pending (s : State) (session t c : Nat) : (s.setConsent session t c).pending = s.pending := by
  grind [State.setConsent, State.setTenant_pending, State.vendor_pending]

@[simp] theorem State.clearKey_pending (s : State) (session t : Nat) : (s.clearKey session t).pending = s.pending := by
  grind [State.clearKey, State.setTenant_pending, State.vendor_pending]

@[simp] theorem State.clearTicket_pending (s : State) (session t : Nat) : (s.clearTicket session t).pending = s.pending := by
  grind [State.clearTicket, State.setTenant_pending, State.vendor_pending]

@[simp] theorem State.readLog_pending (s : State) (session : Option Nat) (first : Nat) :
    (s.readLog session first).pending = s.pending := by simp [State.readLog]

@[simp] theorem State.keySlots_pending (s : State) : s.keySlots.pending = s.pending := by
  refine foldl_pending (fun s x => ?_) _ _
  (repeat' split) <;> simp

@[simp] theorem State.takeClaims_pending (s : State) : s.takeClaims.pending = s.pending := by
  unfold State.takeClaims
  split <;> simp

@[simp] theorem State.blockResult_pending (s : State) (r : Nat) : (s.blockResult r).pending = s.pending := by simp [State.blockResult]

@[simp] theorem State.applyReq_pending (s : State) (gate : Bool) (b : Nat) : (s.applyReq gate b).pending = s.pending := by
  simp [State.applyReq]

@[simp] theorem State.dropClaims_pending (s : State) : s.dropClaims.pending = s.pending := by
  unfold State.dropClaims
  dsimp only
  (repeat' split) <;> simp

@[simp] theorem State.denied_pending (s : State) (r : Nat) : (s.denied r).pending = s.pending := by simp [State.denied]

@[simp] theorem State.holdReq_pending (s : State) (gate : Bool) (b : Nat) : (s.holdReq gate b).pending = s.pending := by
  simp [State.holdReq]

@[simp] theorem State.restoreReq_pending (s : State) (b : Nat) : (s.restoreReq b).pending = s.pending := by
  unfold State.restoreReq
  dsimp only
  (repeat' split) <;> simp

@[simp] theorem State.captureReq_pending (s : State) (b : Nat) : (s.captureReq b).pending = s.pending := by simp [State.captureReq]

@[simp] theorem State.cancelReq_pending (s : State) : s.cancelReq.pending = s.pending := by simp [State.cancelReq]

end Sys2Proof.Machine
end

section
/-! SUPPORT. The queue of commands that wait outside stands in every operation of health and the Keeper. -/

namespace Sys2Proof.Machine

@[simp] theorem State.countSnr_pending (s : State) : s.countSnr.pending = s.pending := by
  unfold State.countSnr
  generalize List.range 72 = lanes
  refine foldl_pending (fun s i => ?_) lanes s
  split <;> rfl

@[simp] theorem State.postGauge_pending (s : State) (kind unit value event : Nat) :
    (s.postGauge kind unit value event).pending = s.pending := by simp [State.postGauge]

theorem State.actNbu_pending (s : State) (t unit : Nat) : ∀ x, s.actNbu t unit = some x → x.pending = s.pending := by
  unfold State.actNbu
  split <;> simp

theorem State.actCell_pending (s : State) (d k : Nat) : ∀ x, s.actCell d k = some x → x.pending = s.pending := by
  unfold State.actCell
  (repeat' split) <;> simp

theorem State.actLane_pending (s : State) (p lane : Nat) : ∀ x, s.actLane p lane = some x → x.pending = s.pending := by
  unfold State.actLane
  (repeat' split) <;> simp

theorem State.actBank_pending (s : State) (k : Nat) : ∀ x, s.actBank k = some x → x.pending = s.pending := by
  unfold State.actBank
  split <;> simp

@[simp] theorem State.actDevice_pending (s : State) (dev : Nat) : (s.actDevice dev).pending = s.pending := by simp [State.actDevice]

theorem State.gaugeAct_pending (s : State) (kind unit : Nat) : ∀ x, s.gaugeAct kind unit = some x → x.pending = s.pending := by
  unfold State.gaugeAct
  grind [Option.map_eq_some_iff, Option.bind_eq_some_iff, State.actNbu_pending, State.actCell_pending, State.actLane_pending,
    State.actBank_pending, State.actDevice_pending]

@[simp] theorem State.weigh_pending (s : State) (kind unit old new : Nat) : (s.weigh kind unit old new).pending = s.pending := by
  grind [State.weigh, State.postGauge_pending, State.gaugeAct_pending]

@[simp] theorem State.newEpoch_pending (s : State) : s.newEpoch.pending = s.pending := rfl

@[simp] theorem State.endEpoch_pending (s : State) : s.endEpoch.pending = s.pending := by
  unfold State.endEpoch
  extract_lets epoch counted old new health scored
  split
  · simp [epoch]
  · exact (foldl_pending (fun s p => State.weigh_pending s _ _ _ _) new _).trans (by simp [scored, counted, epoch])

@[simp] theorem State.setLoad_pending (s : State) (load : Nat) : (s.setLoad load).pending = s.pending := by simp [State.setLoad]

@[simp] theorem State.shedMore_pending (s : State) (load : Nat) : (s.shedMore load).pending = s.pending := by simp [State.shedMore]

@[simp] theorem State.shedLess_pending (s : State) (load : Nat) : (s.shedLess load).pending = s.pending := by simp [State.shedLess]

@[simp] theorem State.loseCore_pending (s : State) (core : Nat) : (s.loseCore core).pending = s.pending := rfl

@[simp] theorem State.bindResult_pending (s : State) (r : Nat) : (s.bindResult r).pending = s.pending := by simp [State.bindResult]

@[simp] theorem State.drainNode_pending (s : State) (path : Path) : (s.drainNode path).pending = s.pending := by
  unfold State.drainNode
  split <;> simp

@[simp] theorem State.submitOrder_pending (s : State) : s.submitOrder.pending = s.pending := by simp [State.submitOrder]

@[simp] theorem State.reachTarget_pending (s : State) : s.reachTarget.pending = s.pending := by
  unfold State.reachTarget
  split <;> simp

@[simp] theorem State.eraseSecrets_pending (s : State) : s.eraseSecrets.pending = s.pending := rfl

@[simp] theorem State.scrubStacks_pending (s : State) : s.scrubStacks.pending = s.pending := rfl

@[simp] theorem State.bindOff_pending (s : State) : s.bindOff.pending = s.pending := by
  unfold State.bindOff
  split
  · rfl
  · extract_lets able done erred
    split
    · rfl
    · have hdone : done.pending = s.pending := foldl_pending (fun s p => by simp) _ s
      have herred : erred.pending = done.pending := foldl_pending (fun s k => State.qpError_pending s k 5) _ _
      simp [herred, hdone]

end Sys2Proof.Machine
end

section
/-! SUPPORT. The queue of commands that wait outside stands in every operation of the reads of registers. -/

namespace Sys2Proof.Machine

@[simp] theorem State.badAccess_pending (s : State) (b o : Nat) : (s.badAccess b o).pending = s.pending := by simp [State.badAccess]

end Sys2Proof.Machine
end

section
/-! SUPPORT. The queue of commands that wait outside stands in every operation of the writes of registers. -/

namespace Sys2Proof.Machine

@[simp] theorem State.refuseProtected_pending (s : State) (b o : Nat) : (s.refuseProtected b o).2.pending = s.pending :=
  State.markAccess_pending s _ _ _

@[simp] theorem State.writeGate_pending (s : State) (b o p : Nat) (mine : Bool) (x : Nat) (v : Word) :
    (s.writeGate b o p mine x v).2.pending = s.pending := by
  unfold State.writeGate
  (repeat' split) <;> simp

@[simp] theorem State.writePattern_pending (s : State) (b o : Nat) (v : Word) : (s.writePattern b o v).2.pending = s.pending := by
  unfold State.writePattern
  (repeat' split) <;> simp

@[simp] theorem State.armPattern_pending (s : State) (target : Nat) : (s.armPattern target).pending = s.pending := by
  simp [State.armPattern]

@[simp] theorem State.cancelPattern_pending (s : State) : s.cancelPattern.pending = s.pending := by simp [State.cancelPattern]

@[simp] theorem State.armGate_pending (s : State) (p target : Nat) : (s.armGate p target).pending = s.pending := by
  unfold State.armGate
  split
  · rfl
  · dsimp only
    split
    · rw [State.setGate_pending, State.setFld_pending]
    · rw [State.mark_pending, State.setFld_pending]

@[simp] theorem State.cancelGate_pending (s : State) (p : Nat) : (s.cancelGate p).pending = s.pending := by
  unfold State.cancelGate
  split
  · rfl
  · dsimp only
    split
    · rw [State.mark_pending, State.setFld_pending]
    · rw [State.setGate_pending, State.setFld_pending]

@[simp] theorem State.inspectQp_pending (s : State) (qp : Nat) : (s.inspectQp qp).pending = s.pending := by simp [State.inspectQp]

@[simp] theorem State.closeQp_pending (s : State) (qp : Nat) : (s.closeQp qp).pending = s.pending := by simp [State.closeQp]

@[simp] theorem State.operate_pending (s : State) (path : Path) (b o : Nat) (v : Word) :
    (s.operate path b o v).pending = s.pending := by
  unfold State.operate
  (repeat' split) <;> simp

@[simp] theorem State.acceptWrite_pending (s : State) (path : Path) (b o : Nat) (v : Word) :
    (s.acceptWrite path b o v).pending = s.pending := by simp [State.acceptWrite]

@[simp] theorem State.writeReg_pending (s : State) (path : Path) (b o : Nat) (v : Word) :
    (s.writeReg path b o v).2.pending = s.pending := by
  unfold State.writeReg
  (repeat' split) <;> simp

@[simp] theorem State.regWrite_pending (s : State) (path : Path) (b o : Nat) (v : Word) :
    (s.regWrite path b o v).pending = s.pending := by simp [State.regWrite]

@[simp] theorem State.applyWrite_pending (s : State) (d : DueWrite) : (s.applyWrite d).pending = s.pending := by
  simp [State.applyWrite]

@[simp] theorem State.applyDue_pending (s : State) : s.applyDue.pending = s.pending := by simp [State.applyDue]

@[simp] theorem State.access_pending (s : State) (path : Path) (addr : Nat) (write : Option Word) :
    (s.access path addr write).2.2.pending = s.pending := by
  unfold State.access
  dsimp only
  (repeat' split) <;> simp

@[simp] theorem State.entries_pending (s : State) (path : Path) (done : List ReplyEntry) (l : List MgmtEntry) :
    (s.entries path done l).2.pending = s.pending := by
  induction l generalizing s done with
  | nil => rfl
  | cons e l ih =>
    have haccess := State.access_pending s path e.addr (if e.op = 1 then some e.value else none)
    unfold State.entries
    generalize s.access path e.addr (if e.op = 1 then some e.value else none) = answer at haccess ⊢
    dsimp only
    split
    · exact ih _ _
    · split
      · exact haccess
      · exact (ih _ _).trans haccess

@[simp] theorem State.discardMgmt_pending (s : State) : s.discardMgmt.pending = s.pending :=
  State.markAccess_pending s _ _ _

@[simp] theorem State.manage_pending (s : State) (src : Nat) (m : MgmtMsg) : (s.manage src m).pending = s.pending := by
  grind [State.manage, State.send_pending, State.entries_pending, State.discardMgmt_pending]

@[simp] theorem State.oobManage_pending (s : State) (srcId : Nat) (broadcast : Bool) (m : MgmtMsg) :
    (s.oobManage srcId broadcast m).pending = s.pending := by
  grind [State.oobManage, State.reply_pending, State.sendAside_pending, State.request_pending, State.entries_pending,
    State.discardMgmt_pending]

@[simp] theorem State.oob_pending (s : State) (f : OobFrame) : (s.oob f).pending = s.pending := by
  unfold State.oob
  (repeat' split) <;> simp

@[simp] theorem State.i3c_pending (s : State) (addr : Nat) (write : Option Word) : (s.i3c addr write).pending = s.pending := by
  unfold State.i3c
  dsimp only
  (repeat' split) <;> simp

end Sys2Proof.Machine
end

section
/-! SUPPORT. The queue of commands that wait outside stands in every operation of the operations by register. -/

namespace Sys2Proof.Machine

@[simp] theorem State.opWrite_pending (s : State) (path : Path) (b o op h l v : Nat) :
    (s.opWrite path b o op h l v).pending = s.pending := by simp [State.opWrite]

@[simp] theorem State.opWrite3_pending (s : State) (path : Path) (b o op h l v : Nat) :
    (s.opWrite3 path b o op h l v).pending = s.pending := by simp [State.opWrite3]

@[simp] theorem State.opOnly_pending (s : State) (path : Path) (b o op : Nat) : (s.opOnly path b o op).pending = s.pending := by
  simp [State.opOnly]

@[simp] theorem State.writeEntry_pending (s : State) (path : Path) (b o : Nat) (f : State → State) (hf : ∀ y0,
    (f y0).pending = y0.pending) :
    (s.writeEntry path b o f).pending = s.pending := by grind [State.writeEntry, State.badAccess_pending]

end Sys2Proof.Machine
end

section
/-! The obligation O4 (R194). Every command's meaning is a chain of operations of the State, each of which leaves the queue. -/

namespace Sys2Proof.Machine

/-- Settles O4: each command's next state is its operations on the state, and each of them leaves the queue as it is. -/
theorem commandsLeaveTheQueueAlone : Obligations.CommandsLeaveTheQueueAlone := by
  intro c s t h
  cases c
  case swapAcknowledge =>
    cases h
    exact State.takeWord_pending _ _ _ _ _ fun _ _ => State.acknowledged_pending _ _ _ _
  case narrowAcknowledge =>
    cases h
    exact State.takeWord_pending _ _ _ _ _ fun _ _ => State.acknowledged_pending _ _ _ _
  all_goals
    cases h
    simp

end Sys2Proof.Machine
end
